-- ==== Sys2Proof/Word.lean ====
section
/-! DEFINITION. The word types of the ET32 model and their plainest abbreviations. -/

namespace Sys2Proof

/-- A register word: every register of the device is 32 bits wide (R5). -/
abbrev Word := BitVec 32

/-- A byte. -/
abbrev Byte := BitVec 8

/-- An eddy register or a pool word. -/
abbrev Dword := BitVec 64

/-- The 128-byte payload of one flit (R172, R203): byte `i` is bits `8i+7:8i`. -/
abbrev Payload := BitVec 1024

/-- The data bits of one tile frame (R67). -/
abbrev Frame := BitVec 4096

end Sys2Proof
end

