-- ==== Sys2Proof/Syntax.lean ====
section
/-! DEFINITION. The commands the block takes, one constructor of `Instr` for each row of the table of
operations and events, with the row's operands. -/

namespace Sys2Proof

/-- An asynchronous FIFO that carries data words (R275, R283): from the masters to HBM controller `k` and back, from section `sec` over
its substrate link and back, and from the host and back. -/
inductive Fifo where
  | hbmIn (k : Fin 4)
  | hbmOut (k : Fin 4)
  | subUp (sec : Fin 8)
  | subDown (sec : Fin 8)
  | hostIn
  | hostOut
  deriving DecidableEq, Repr

/-- Where a single-event upset strikes: the stores of the device (R466, R532). -/
inductive Upset where
  /-- Bit `b` of the 4,160-bit frame of a tile: data bits 0–4095, check bits 4096–4159. -/
  | frameBit (tile : BitVec 20) (b : Fin 4160)
  /-- State bit of a storage element. -/
  | element (tile : BitVec 20) (e : Fin 64)
  /-- A rail of an output of LC `n` raised: 0 OA, 1 OB, 2 COUT; `t` the T rail (R66). -/
  | rail (tile : BitVec 20) (n : Fin 32) (out : Fin 3) (t : Bool)
  /-- Bit `b` of the 80 stored bits of a block memory row. -/
  | bmRow (sec : Fin 8) (m : Fin 4096) (row : Fin 512) (b : Fin 80)
  /-- Bit `b` of the 74 of a stored queue word. -/
  | queueWord (q : Fin 2048) (slot : Fin 8192) (b : Fin 74)
  /-- Bit `b` of the 72 of an HBM word. -/
  | hbmWord (wa : BitVec 35) (b : Fin 72)
  /-- Bit `b` of the 72 of a scratchpad word. -/
  | spadWord (e : Fin 512) (i : Fin 8192) (b : Fin 72)
  /-- Bit `b` of a frame of a physical column that carries no logical column. -/
  | spareFrame (sec : Fin 8) (pcol : Fin 528) (row : Fin 256) (b : Fin 4160)
  /-- Bit `b` of block-memory configuration frame `k`. -/
  | bmCfg (sec : Fin 8) (k : Fin 32) (b : Fin 4160)
  /-- Bit `b` of the 65 words of the shadow copy of frame position `f`. -/
  | shadow (sec : Fin 8) (f : Fin 135200) (b : Fin 4680)
  /-- Bit `b` of the stored SCR_CFG of a section, 32 data and 8 check. -/
  | scrCfg (sec : Fin 8) (b : Fin 40)
  /-- One of the three copies of a scrubber's state. -/
  | scrState (sec : Fin 8)
  /-- Bit `b` of the 72 of a word of a cached line of a pool port. -/
  | cacheWord (p : Fin 256) (set : Fin 32) (way : Fin 4) (w : Fin 8) (b : Fin 72)
  /-- A bit inside a die of an HBM stack, which the on-die code corrects and reports (R292). -/
  | onDie (k : Fin 4)
  /-- Bit `b` of the flit in the transmit FIFO of a channel: header, payload and CRC, then the check bits (R283). -/
  | fifoTx (c : Fin 20) (b : Fin 1088)
  /-- Bit `b` of the flit that leaves the receive FIFO of a channel next (R283). -/
  | fifoRx (c : Fin 20) (b : Fin 1088)
  /-- Bit `b` of the 72 of the write data that a free-running channel's request carries to the controller (R283). -/
  | fifoReq (p : Fin 256) (k : Fin 4) (b : Fin 72)
  /-- Bit `b` of the 72 of the write data that the oldest drain of a port carries to the controller (R283). -/
  | fifoDrain (p : Fin 256) (b : Fin 72)
  /-- Bit `b` of the 72 of the data word that leaves another asynchronous FIFO next (R283). -/
  | fifoWord (f : Fifo) (b : Fin 72)
  deriving DecidableEq, Repr

/-- A crossing whose two sides reset separately: a weir queue's or a pool port interface's (R285). -/
inductive SideXing where
  | queue (q : Fin 2048)
  | port (p : Fin 256)
  deriving DecidableEq, Repr

/-- A hold-and-flag crossing (R275): a queue port's, a pool port channel's, or a section's register path. -/
inductive FlagXing where
  | qWrite (q : Fin 2048)
  | qRead (q : Fin 2048)
  | poolPort (p : Fin 256) (k : Fin 4)
  | regPath (sec : Fin 8)
  deriving DecidableEq, Repr

/-- How an access of a free-running block port meets the other port's: it overlaps the one before it, or the next one overlaps it
(R117, R118). -/
structure FrMeet where
  overlap : Bool := false
  followed : Bool := false
  deriving DecidableEq, Repr

/-- The end of a DMA transfer of an eddy, and how many of its words waited over 1,024 cycles (R331). -/
structure DmaEnd where
  eddy : Fin 512
  starved : Nat
  deriving DecidableEq, Repr

/-- An access through an eddy's aperture that has waited too long, a read or a write (R348). -/
structure StarvedAccess where
  eddy : Fin 512
  write : Bool
  deriving DecidableEq, Repr

/-- A resource that background test may lease (R476). -/
inductive LeaseRes where
  | tile (t : Nat)
  /-- A tile of a physical column that carries no logical column. -/
  | spareTile (sec pcol row : Nat)
  | block (sec m : Nat)
  | queue (q : Nat)
  | spad (e b : Nat)
  | spare (sec i : Nat)
  deriving DecidableEq, Repr

/-- A failed resource (R472, R478): KIND, section (or stack or channel), physical index. -/
structure Mark where
  kind : Nat
  sec : Nat
  idx : Nat
  deriving DecidableEq, Repr

/-- The commands of the block, one constructor for each row of the table. -/
inductive Instr where
  /-- PORST_N_RELEASE (R33): Release of PORST_N puts the device in STARTING, samples straps and begins the power-up sequence and load. -/
  | porstNRelease (straps : BitVec 4) (rails : Bool)
  /-- PORST_N_ASSERT (R33): Assertion of PORST_N resets the whole device from any state. -/
  | porstNAssert
  /-- PWR_OFF_REQ_N_ASSERT (R37): PWR_OFF_REQ_N held low past its glitch filter starts the shutdown. -/
  | pwrOffReqNAssert
  /-- PWR_OFF_REQ_N_RELEASE (R38): Release of PWR_OFF_REQ_N during SHUTTING_DOWN leaves the shutdown running. -/
  | pwrOffReqNRelease
  /-- SHUTDOWN_SEGMENT_DONE (R471): A segment of the shutdown self-test ends and the health record is rewritten. -/
  | shutdownSegmentDone (fails : List Mark)
  /-- SHUTDOWN_TEST_DONE (R471): The shutdown self-test ends, the secure parts are wiped and the final health record is written. -/
  | shutdownTestDone
  /-- TICK_ISSUE (R138): The tick engine issues the next tick with its cadence mask once every issue condition holds. -/
  | tickIssue (gio : BitVec 480)
  /-- LC_EVALUATE (R49): A logic cell output goes valid once every input it needs in its mode is valid. -/
  | lcEvaluate (tile : BitVec 20) (n : Fin 32)
  /-- TILE_SETTLED (R64): A tick-bound tile reports settled when all four clusters are data-complete. -/
  | tileSettled (tile : BitVec 20)
  /-- TILE_SPACER_COMPLETE (R64): A tile reports spacer complete when every monitored point has returned to spacer. -/
  | tileSpacerComplete (tile : BitVec 20)
  /-- SPACER_RELEASE (R131): With every settle contributor in, the confluence releases the spacer wave. -/
  | spacerRelease
  /-- TICK_COMPLETE (R24): Spacer complete from all sections completes the tick and the engine records its period. -/
  | tickComplete (period : Word) (same : BitVec 5) (fault : Bool)
  /-- FR_STAGE_CAPTURE (R44): A free-running stage captures its valid inputs when ACK_IN is low and raises ACK_OUT. -/
  | frStageCapture (tile : BitVec 20) (c : Fin 4)
  /-- FR_STAGE_RELEASE (R44): A free-running stage returns its outputs to spacer once inputs are spacer and ACK_IN is high, then lowers ACK_OUT. -/
  | frStageRelease (tile : BitVec 20) (c : Fin 4)
  /-- GSR_PULSE (R61): A write of GSR_CTL PULSE requests a set-reset pulse, accepted or refused by device and engine state. -/
  | gsrPulse (v : Word)
  /-- GSR_PULSE_DONE (R61): An accepted set-reset pulse completes, clearing BUSY and setting RESULT done. -/
  | gsrPulseDone
  /-- SINGLE_EVENT_UPSET (R466): An upset changes configuration or state bits, acting on the design until corrected. -/
  | singleEventUpset (u : Upset)
  /-- VSENSE_UPDATE (R76): The section voltage sensor updates SEC_VSENSE every 10 µs and sets or clears the voltage flags. -/
  | vsenseUpdate (sec : Fin 8) (mv : BitVec 10)
  /-- REPLICA_UPDATE (R76): The handshake replica cycle in SEC_REPLICA is updated every 1 µs. -/
  | replicaUpdate (sec : Fin 8) (ps : BitVec 16)
  /-- ONE_HOT_CONFLICT (R93): The checker finds two enabled taps on a long line, holds it at spacer and requests a priority rewrite. -/
  | oneHotConflict (sec : Fin 8) (vert : Bool) (idx : Fin 512) (line : Fin 64)
  /-- BM_ASYNC_READ (R110): An ASYNC port drives DOUT once its address, the commit and the needed held inputs are valid. -/
  | bmAsyncRead (sec : Fin 8) (m : Fin 4096) (portB : Bool)
  /-- BM_FR_ACCESS (R115): A free-running block port performs one arbitrated read or write handshake. -/
  | bmFrAccess (sec : Fin 8) (m : Fin 4096) (portB : Bool) (meet : FrMeet)
  /-- BM_ECC_WRITEBACK (R119): A corrected row is written back in the next idle array cycle. -/
  | bmEccWriteback (sec : Fin 8) (m : Fin 4096) (row : Fin 512)
  /-- BM_PATROL_READ (R120): The patrol reads and checks the next row in an idle cycle. -/
  | bmPatrolRead (sec : Fin 8) (m : Fin 4096)
  /-- TICK_CMD_RUN (R129): The RUN command starts or switches the engine to free running. -/
  | tickCmdRun
  /-- TICK_CMD_PACED (R129): The PACED command starts or switches the engine to paced mode. -/
  | tickCmdPaced
  /-- TICK_CMD_STOP (R129): The STOP command halts the engine after the tick in progress. -/
  | tickCmdStop
  /-- TICK_CMD_STEP (R129): The STEP command runs COUNT ticks then halts. -/
  | tickCmdStep (count : BitVec 16)
  /-- TICK_CMD_CLEAR (R146): The CLEAR command moves the engine from FAULT to HALTED when the cause condition is gone. -/
  | tickCmdClear
  /-- TICK_CMD_RESERVED (R147): A reserved TICK_CTL command is refused with RESULT 0b111. -/
  | tickCmdReserved (cmd : BitVec 4)
  /-- TICK_STOP_HI_WRITE (R153): A write of TICK_STOP_HI arms or disarms the stop tick with the present low half. -/
  | tickStopHiWrite (v : Word)
  /-- TICK_NOW_LO_READ (R153): A read of TICK_NOW_LO latches the high bits into TICK_NOW_HI. -/
  | tickNowLoRead
  /-- TICK_CFG_WRITE (R147): A TICK_CFG write applies DITHER always and the other fields only when not running. -/
  | tickCfgWrite (v : Word)
  /-- TICK_TIMEOUT_WRITE (R143): A new settle timeout takes effect at once, possibly expiring in the next cycle. -/
  | tickTimeoutWrite (v : Word) (elapsed : Word)
  /-- TICK_PACE_PERIOD_WRITE (R139): A new pace timer period is accepted, or refused if 0, and applies from the next event. -/
  | tickPacePeriodWrite (v : Word)
  /-- CAD_LEN_WRITE (R134): A CAD_LEN write is range-checked and, if accepted, resets CAD_POS. -/
  | cadLenWrite (v : Word)
  /-- CAD_POS_WRITE (R135): A CAD_POS write is accepted only below CAD_LEN and while IDLE or HALTED. -/
  | cadPosWrite (v : Word)
  /-- CAD_MASK_WRITE (R135): A cadence entry write takes effect only while IDLE or HALTED. -/
  | cadMaskWrite (n : Fin 4096) (hi : Bool) (v : Word)
  /-- PACE_TIMER_EVENT (R139): The internal pace timer raises a pace event, held or dropped under SLIP_POLICY. -/
  | paceTimerEvent
  /-- TICK_IN_EDGE (R139): A filtered rising edge of TICK_IN raises a pace event. -/
  | tickInEdge
  /-- SETTLE_TIMEOUT (R143): The settle timeout expires and the engine enters FAULT with TICK_SETTLE_TIMEOUT. -/
  | settleTimeout
  /-- TIMEOUT_LOCATED (R144): The watershed tree finishes locating the stop and sets TICK_TO_LOC. -/
  | timeoutLocated
  /-- TICK_INTERVAL_1MS (R152): Each 1 ms interval updates TICK_RATE and the voltage bins of TICK_VF. -/
  | tickInterval1ms
  /-- AVS_CAP_INTERVAL (R150): In CAP mode the 1 ms control loop adjusts rail targets against the power cap. -/
  | avsCapInterval (cur : BitVec 256) (fail : BitVec 8)
  /-- AVS_CFG_WRITE (R149): An AVS_CFG write checks limits and mode and starts the selected mode. -/
  | avsCfgWrite (v : Word)
  /-- AVS_TARGET_WRITE (R149): An AVS_TARGET write commands the rail in MANUAL or sets the loop start in CAP. -/
  | avsTargetWrite (sec : Fin 8) (v : Word)
  /-- AVS_CAP_WRITE (R149): An AVS_CAP write is range-checked and sets the fabric power cap. -/
  | avsCapWrite (v : Word)
  /-- AVS_FRAME_DONE (R151): An AVSBus frame ends, with repeats and rail failure on missing or bad responses. -/
  | avsFrameDone (ok : Bool)
  /-- RA_CFG_WRITE (R159): An RA_CFG write sets depth, wait, GIO hold and LIVE, or is refused by state, LIVE or range. -/
  | raCfgWrite (v : Word)
  /-- RA_PRED_WRITE (R161): An RA_PRED write sets a group's predictor mode and period or is refused. -/
  | raPredWrite (g : Fin 4096) (v : Word)
  /-- RA_LWM_LO_READ (R190): A read of RA_LWM_LO latches L high bits. -/
  | raLwmLoRead
  /-- RA_U_LO_READ (R190): A read of RA_U_LO latches U high bits. -/
  | raULoRead
  /-- PREDICTION_WAIT_EXPIRE (R160): WAIT expires without the real value and the predicted group value is driven. -/
  | predictionWaitExpire (g : Fin 4096)
  /-- BOUNDARY_FRAME_RX (R236): A received boundary frame is checked and its group values held or consumed. -/
  | boundaryFrameRx (chan : Fin 20) (pay : Payload)
  /-- ROLLBACK_RESTORE (R167): After the tick in progress completes, the device restores kept state and reissues tick t. -/
  | rollbackRestore
  /-- BOUNDARY_FRAME_SEND (R234): A boundary frame is sent once all its groups are valid for the tick. -/
  | boundaryFrameSend (o : Fin 4096) (vals : BitVec 896)
  /-- RECALL_SEND (R169): A re-evaluated output group that differs from history is sent in a recall. -/
  | recallSend (g : Fin 4096) (v : Dword)
  /-- RECALL_RX (R170): A received recall replaces held values or triggers rollback, or is discarded. -/
  | recallRx (chan : Fin 20) (pay : Payload)
  /-- WAVE_ROOT_START (R174): The root starts the next low-water wave after its period. -/
  | waveRootStart
  /-- WAVE_START_RX (R175): A WAVE_START begins the wave at the device, recording U and sending MARKs and STARTs. -/
  | waveStartRx (chan : Fin 20) (pay : Payload)
  /-- MARK_RX (R175): A MARK closes its source for the wave, or begins the wave. -/
  | markRx (chan : Fin 20) (pay : Payload)
  /-- WAVE_REPORT_RX (R175): A child's WAVE_REPORT is taken into the device's minimum. -/
  | waveReportRx (chan : Fin 20) (pay : Payload)
  /-- WAVE_REPORT_SEND (R175): With no source open and every child reported, the device sends its report. -/
  | waveReportSend
  /-- WAVE_RESULT_RX (R175): A WAVE_RESULT is applied to L and forwarded to children. -/
  | waveResultRx (chan : Fin 20) (pay : Payload)
  /-- SLUICE_RELEASE (R178): Held effects of a tick are released in order once L passes it. -/
  | sluiceRelease
  /-- LNK_CMD_ENABLE (R218): ENABLE moves a channel from DISABLED or FAILED to WAITING. -/
  | lnkCmdEnable (chan : Fin 20)
  /-- LNK_CMD_DISABLE (R218): DISABLE stops the channel after handing over unacknowledged flits. -/
  | lnkCmdDisable (chan : Fin 20)
  /-- LNK_CMD_RESET (R217): RESET hands over flits, drains receive buffers and ends DISABLED. -/
  | lnkCmdReset (chan : Fin 20)
  /-- LNK_CMD_RETRAIN (R218): RETRAIN starts a retrain from UP. -/
  | lnkCmdRetrain (chan : Fin 20)
  /-- LNK_CMD_RESERVED (R218): A reserved link command is refused. -/
  | lnkCmdReserved (chan : Fin 20) (cmd : BitVec 4)
  /-- LNK_CFG_WRITE (R218): An LNK_CFG write is accepted only in DISABLED or FAILED and without reserved codes. -/
  | lnkCfgWrite (chan : Fin 20) (v : Word)
  /-- LINK_SIGNAL_DETECT (R212): An enabled channel sees the partner's signal and begins training. -/
  | linkSignalDetect (chan : Fin 20)
  /-- TRAIN_RX (R212): A TRAIN flit is received and compared with local settings. -/
  | trainRx (chan : Fin 20) (pay : Payload)
  /-- TRAINING_DONE (R212): Training completes and the channel enters UP. -/
  | trainingDone (chan : Fin 20) (pol : BitVec 4) (rev : Bool)
  /-- TRAINING_FAIL (R212): A training attempt fails or times out and is retried or ends in FAILED. -/
  | trainingFail (chan : Fin 20) (why : Fin 4)
  /-- FLIT_RX (R206): A numbered flit is accepted, discarded as duplicate, or discarded with a NAK. -/
  | flitRx (chan : Fin 20) (hdr : BitVec 24) (pay : Payload) (crc : BitVec 32) (corr : BitVec 16) (unc : BitVec 16) (apart : Bool)
  /-- FLIT_TRANSMIT (R210): The output arbiter chooses and sends the flit of a slot. -/
  | flitTransmit (chan : Fin 20)
  /-- NAK_RX (R207): A received NAK starts a replay from its SEQ. -/
  | nakRx (chan : Fin 20) (hdr : BitVec 24) (nextRx : Fin 1024)
  /-- CREDIT_RX (R209): A CREDIT flit returns credits for its classes. -/
  | creditRx (chan : Fin 20) (hdr : BitVec 24) (pay : Payload)
  /-- IDLE_RX (R210): An IDLE flit is received and may be dropped for rate compensation. -/
  | idleRx (chan : Fin 20) (hdr : BitVec 24)
  /-- RETRAIN_REQ_RX (R208): A RETRAIN_REQ control flit is received. -/
  | retrainReqRx (chan : Fin 20) (hdr : BitVec 24)
  /-- REPLAY_TIMEOUT (R207): No ACK for 2.0 µs causes a replay from the oldest unacknowledged flit. -/
  | replayTimeout (chan : Fin 20)
  /-- CREDIT_RETURN_TIMER (R209): 100 ns after a freed credit, unreturned credits go out in a CREDIT flit. -/
  | creditReturnTimer (chan : Fin 20)
  /-- LINK_STALL_TIMEOUT (R215): An output without credit for LNK_STALL_TO fails the channel with LINK_STALL. -/
  | linkStallTimeout (chan : Fin 20)
  /-- FORD_CUT_THROUGH (R202): A ford beat passing its check delivers the boundary groups it completes. -/
  | fordCutThrough (port : Fin 4) (pay : Payload) (n : Fin 14)
  /-- LANE_LOSS (R216): Loss of a lane retrains at reduced width or fails the channel. -/
  | laneLoss (chan : Fin 16) (lane : Fin 4)
  /-- STROBE_LOSS (R216): Loss of a ford strobe retrains the port. -/
  | strobeLoss (port : Fin 4)
  /-- LINK_SIGNAL_LOSS (R216): Loss of the partner's flit stream starts a retrain. -/
  | linkSignalLoss (chan : Fin 20)
  /-- REFCLK_SER_LOSS (R30): Loss of a reference clock stops every channel it feeds as a lost signal. -/
  | refclkSerLoss (q : Fin 4)
  /-- LINK_RESET_DONE (R217): A channel reset completes when its buffers drain and the channel enters DISABLED. -/
  | linkResetDone (chan : Fin 20)
  /-- HELLO_RX (R223): A HELLO records the neighbour ID and may change the best candidate. -/
  | helloRx (chan : Fin 20) (pay : Payload)
  /-- ELECTION_QUIET_EXPIRE (R223): FAB_QUIET passes without a candidate change and the root starts enumeration. -/
  | electionQuietExpire
  /-- FAB_CMD_DISCOVER (R223): FAB_CTL DISCOVER starts enumeration at the root or is refused. -/
  | fabCmdDiscover
  /-- FAB_CMD_RESERVED (R243): A reserved FAB_CTL code is refused with FAB_RANGE. -/
  | fabCmdReserved (cmd : BitVec 4)
  /-- QUERY_ASSIGN_RX (R225): A QUERY ASSIGN is forwarded, or at its target sets a pending ID and replies. -/
  | queryAssignRx (chan : Fin 20) (pay : Payload)
  /-- QUERY_COMMIT_RX (R225): A QUERY COMMIT is forwarded, or at its target installs ID, tables and masks. -/
  | queryCommitRx (chan : Fin 20) (pay : Payload)
  /-- REPLY_RX (R224): A REPLY is relayed toward the root or taken into enumeration there. -/
  | replyRx (chan : Fin 20) (pay : Payload)
  /-- ROUTES_RX (R225): A ROUTES message is forwarded or written into the shadow table. -/
  | routesRx (chan : Fin 20) (pay : Payload)
  /-- QUERY_TIMEOUT (R224): FAB_QUERY_TO expires and the QUERY is repeated or enumeration fails. -/
  | queryTimeout
  /-- PENDING_ID_TIMEOUT (R225): A pending ID and shadow table are dropped after 100 ms without COMMIT. -/
  | pendingIdTimeout
  /-- NOTICE_RX (R239): A NOTICE is delivered and forwarded; named devices halt with TICK_NO_ROUTE. -/
  | noticeRx (chan : Fin 20) (pay : Payload)
  /-- FENCE_SEND (R237): Once flits received on the channel have left, LINK_DOWN and FENCEs are sent. -/
  | fenceSend (chan : Fin 20)
  /-- LINK_DOWN_RX (R237): LINK_DOWN lets the peer discard accepted flits and release destinations. -/
  | linkDownRx (chan : Fin 20) (pay : Payload)
  /-- FENCE_RX (R237): A FENCE is received; with both classes in, FENCE_DONE is sent. -/
  | fenceRx (chan : Fin 20) (pay : Payload)
  /-- FENCE_DONE_RX (R237): A FENCE_DONE allows release of that destination. -/
  | fenceDoneRx (chan : Fin 20) (pay : Payload)
  /-- FENCE_TIMEOUT (R240): FAB_FENCE_TO expires with a destination still held and no-route handling applies. -/
  | fenceTimeout (chan : Fin 20)
  /-- QUEUE_PUSH (R255): A push is stored, or dropped into a spill marker. -/
  | queuePush (q : Fin 2048)
  /-- QUEUE_POP (R257): A pop returns the head word or the last value with UNDERRUN. -/
  | queuePop (q : Fin 2048)
  /-- POINTER_SYNC (R254): A Gray-coded pointer reaches the other side and updates its view and flags. -/
  | pointerSync (q : Fin 2048) (toRead : Bool)
  /-- SPILL_SEAL (R259): The write side seals and publishes an open spill marker. -/
  | spillSeal (q : Fin 2048)
  /-- QCTL_FLUSH (R260): A flush request puts the read side in FLUSHING. -/
  | qctlFlush (q : Fin 2048)
  /-- FLUSH_ACT (R261): The write side discards earlier words and may enter discard-to-boundary. -/
  | flushAct (q : Fin 2048)
  /-- QCTL_WR_RESET (R263): WR_RESET resets the write side. -/
  | qctlWrReset (q : Fin 2048)
  /-- QCTL_RD_RESET (R263): RD_RESET resets the read side. -/
  | qctlRdReset (q : Fin 2048)
  /-- SIDE_RESET_RELEASE (R287): A side leaves reset, increments its epoch and sends CONNECT. -/
  | sideResetRelease (x : SideXing) (rd : Bool)
  /-- PEER_RESET_SYNC (R286): A peer's reset reaches the other side, which discards pending transfers. -/
  | peerResetSync (x : SideXing) (atRead : Bool)
  /-- EPOCH_CONNECT_RX (R287): A CONNECT records the peer epoch and is answered with ACK. -/
  | epochConnectRx (x : SideXing) (rd : Bool)
  /-- EPOCH_ACK_RX (R287): An ACK naming the current epoch may complete the connection. -/
  | epochAckRx (x : SideXing) (rd : Bool)
  /-- QH_PUSH_WRITE (R274): A write of QH_PUSH pushes the host data word. -/
  | qhPushWrite (q : Fin 2048) (v : Word)
  /-- QH_POP_READ (R274): A read of QH_POP pops one word and latches its payload. -/
  | qhPopRead (q : Fin 2048)
  /-- QCFG_WRITE (R272): A run-time QCFG write is refused or configures the queue. -/
  | qcfgWrite (q : Fin 2048) (v : Word)
  /-- STALE_TIMEOUT (R267): The stale-tail timer expires while an item is open and the queue empty. -/
  | staleTimeout (q : Fin 2048)
  /-- XING_REQ_ARRIVE (R278): A hold-and-flag REQ reaches the reader. -/
  | xingReqArrive (x : FlagXing)
  /-- XING_ACK_ARRIVE (R278): The ACK returns and frees the data register. -/
  | xingAckArrive (x : FlagXing)
  /-- ARBITER_ENTRY (R281): A clocked flag is granted into the clockless side. -/
  | arbiterEntry (sec : Fin 8) (late : Bool) (ball : Option (Fin 480)) (v : Bool)
  /-- POOL_DESC_READ (R303): READ copies a descriptor into POOL_DESC_DATA. -/
  | poolDescRead
  /-- POOL_DESC_WRITE (R303): WRITE checks and stores a descriptor. -/
  | poolDescWrite
  /-- POOL_DESC_CLEAR (R303): CLEAR stores KIND NONE and releases granules. -/
  | poolDescClear
  /-- POOL_DESC_DONE (R303): A descriptor command completes. -/
  | poolDescDone
  /-- POOL_PORT_REQUEST (R308): A pool port channel takes a valid request. -/
  | poolPortRequest (p : Fin 256) (k : Fin 4)
  /-- POOL_PORT_ANSWER (R131): The answer reaches the host tile. -/
  | poolPortAnswer (p : Fin 256) (k : Fin 4)
  /-- DRAIN_DONE (R313): A commit drain completes and frees its entry. -/
  | drainDone (p : Fin 256)
  /-- HBM_ECC_WRITEBACK (R294): A corrected HBM word is written back. -/
  | hbmEccWriteback (wa : BitVec 35)
  /-- HBM_PATROL_READ (R295): The controller patrol reads and checks words. -/
  | hbmPatrolRead (wa : BitVec 35)
  /-- HBM_RFM (R292): A bank activation count reaches threshold and RFM is issued. -/
  | hbmRfm (k : Fin 4)
  /-- HBM_UE_LOC_READ (R324): A read of HBM_UE_LOC latches high word bits and clears. -/
  | hbmUeLocRead (k : Fin 4)
  /-- POOL_PORT_RESET (R322): PP_CTL RESET starts a port reset or is refused. -/
  | poolPortReset (p : Fin 256)
  /-- POOL_PORT_RESET_DONE (R322): After drains, the port discards requests, invalidates and reconnects. -/
  | poolPortResetDone (p : Fin 256)
  /-- POOL_RD_RX (R319): A remote POOL_RD is checked, performed and answered. -/
  | poolRdRx (pay : Payload)
  /-- POOL_WR_RX (R319): A remote POOL_WR is checked, performed and answered. -/
  | poolWrRx (pay : Payload)
  /-- POOL_ANS_RX (R319): A POOL_ANS completes a remote request. -/
  | poolAnsRx (pay : Payload)
  /-- EDDY_CMD_START (R347): START runs the eddy from EDDY_ENTRY. -/
  | eddyCmdStart (e : Fin 512)
  /-- EDDY_CMD_HALT (R347): HALT stops the eddy at the next boundary. -/
  | eddyCmdHalt (e : Fin 512)
  /-- EDDY_CMD_RESET (R348): RESET clears registers, DMA, IRQ and queue sides. -/
  | eddyCmdReset (e : Fin 512)
  /-- EDDY_CMD_RESERVED (R349): A reserved EDDY_CTL value is refused. -/
  | eddyCmdReserved (e : Fin 512) (cmd : BitVec 4)
  /-- EDDY_DOORBELL_WRITE (R339): Doorbell bits set interrupt lines 4–11. -/
  | eddyDoorbellWrite (e : Fin 512) (lines : BitVec 8)
  /-- EDDY_PIN_WRITE (R344): Pinning a leased block revokes the lease. -/
  | eddyPinWrite (e : Fin 512) (hi : Bool) (v : Word)
  /-- DMA_GO (R337): DMA_GO checks and queues a descriptor. -/
  | dmaGo (e : Fin 512)
  /-- DMA_TRANSFER_DONE (R338): A DMA transfer finishes and places a completion. -/
  | dmaTransferDone (d : DmaEnd)
  /-- DMA_DONE_READ (R338): A read of DMA_DONE takes the oldest completion. -/
  | dmaDoneRead (e : Fin 512)
  /-- IRQ_ENTRY (R373): An enabled pending interrupt is taken. -/
  | irqEntry (e : Fin 512)
  /-- EDDY_TIMER_MATCH (R339): TIMER equals TIMER_CMP and raises line 3. -/
  | eddyTimerMatch (e : Fin 512)
  /-- EDDY_TIMER_LO_READ (R350): A TIMER_LO read latches the high half. -/
  | eddyTimerLoRead (e : Fin 512) (now : BitVec 64)
  /-- SECURE_WIPE_DONE (R336): A secure-part wipe completes. -/
  | secureWipeDone (e : Fin 512)
  /-- LEASE_START (R476): Background test leases an idle resource. -/
  | leaseStart (sec : Fin 8) (r : LeaseRes)
  /-- LEASE_DONE (R476): A lease ends with restore. -/
  | leaseDone (sec : Fin 8) (pass : Bool)
  /-- APERTURE_ACCESS (R349): A host aperture access reaches the scratchpad. -/
  | apertureAccess (e : Fin 512) (we : Bool) (off : BitVec 12) (v : Word)
  /-- APERTURE_STARVED (R348): An aperture access waits 16,384 cycles and fails. -/
  | apertureStarved (a : StarvedAccess)
  /-- ADD (R357): Register add. -/
  | eAdd (e : Fin 512) (rd : Fin 32) (ra : Fin 32) (rb : Fin 32) (f : Bool)
  /-- SUB (R357): Register subtract. -/
  | eSub (e : Fin 512) (rd : Fin 32) (ra : Fin 32) (rb : Fin 32) (f : Bool)
  /-- AND (R357): Register and. -/
  | eAnd (e : Fin 512) (rd : Fin 32) (ra : Fin 32) (rb : Fin 32) (f : Bool)
  /-- OR (R357): Register or. -/
  | eOr (e : Fin 512) (rd : Fin 32) (ra : Fin 32) (rb : Fin 32) (f : Bool)
  /-- XOR (R357): Register xor. -/
  | eXor (e : Fin 512) (rd : Fin 32) (ra : Fin 32) (rb : Fin 32) (f : Bool)
  /-- SLL (R357): Shift left logical. -/
  | eSll (e : Fin 512) (rd : Fin 32) (ra : Fin 32) (rb : Fin 32) (f : Bool)
  /-- SRL (R357): Shift right logical. -/
  | eSrl (e : Fin 512) (rd : Fin 32) (ra : Fin 32) (rb : Fin 32) (f : Bool)
  /-- SRA (R357): Shift right arithmetic. -/
  | eSra (e : Fin 512) (rd : Fin 32) (ra : Fin 32) (rb : Fin 32) (f : Bool)
  /-- MUL (R357): Low multiply. -/
  | eMul (e : Fin 512) (rd : Fin 32) (ra : Fin 32) (rb : Fin 32) (f : Bool)
  /-- MULHU (R357): High unsigned multiply. -/
  | eMulhu (e : Fin 512) (rd : Fin 32) (ra : Fin 32) (rb : Fin 32) (f : Bool)
  /-- SLT (R357): Signed set-less-than. -/
  | eSlt (e : Fin 512) (rd : Fin 32) (ra : Fin 32) (rb : Fin 32) (f : Bool)
  /-- SLTU (R357): Unsigned set-less-than. -/
  | eSltu (e : Fin 512) (rd : Fin 32) (ra : Fin 32) (rb : Fin 32) (f : Bool)
  /-- ADDC (R357): Add with carry. -/
  | eAddc (e : Fin 512) (rd : Fin 32) (ra : Fin 32) (rb : Fin 32) (f : Bool)
  /-- SUBB (R357): Subtract with borrow. -/
  | eSubb (e : Fin 512) (rd : Fin 32) (ra : Fin 32) (rb : Fin 32) (f : Bool)
  /-- POPC (R357): Population count. -/
  | ePopc (e : Fin 512) (rd : Fin 32) (ra : Fin 32) (f : Bool)
  /-- CLZ (R357): Count leading zeros. -/
  | eClz (e : Fin 512) (rd : Fin 32) (ra : Fin 32) (f : Bool)
  /-- ADDI (R359): Add immediate. -/
  | eAddi (e : Fin 512) (rd : Fin 32) (ra : Fin 32) (imm : BitVec 16)
  /-- ANDI (R359): And immediate. -/
  | eAndi (e : Fin 512) (rd : Fin 32) (ra : Fin 32) (imm : BitVec 16)
  /-- ORI (R359): Or immediate. -/
  | eOri (e : Fin 512) (rd : Fin 32) (ra : Fin 32) (imm : BitVec 16)
  /-- XORI (R359): Xor immediate. -/
  | eXori (e : Fin 512) (rd : Fin 32) (ra : Fin 32) (imm : BitVec 16)
  /-- SLLI (R359): Shift left immediate. -/
  | eSlli (e : Fin 512) (rd : Fin 32) (ra : Fin 32) (sh : Fin 64)
  /-- SRLI (R359): Shift right logical immediate. -/
  | eSrli (e : Fin 512) (rd : Fin 32) (ra : Fin 32) (sh : Fin 64)
  /-- SRAI (R359): Shift right arithmetic immediate. -/
  | eSrai (e : Fin 512) (rd : Fin 32) (ra : Fin 32) (sh : Fin 64)
  /-- INSH (R359): Insert halfword. -/
  | eInsh (e : Fin 512) (rd : Fin 32) (imm : BitVec 16) (k : Fin 4)
  /-- SLTI (R359): Signed compare immediate. -/
  | eSlti (e : Fin 512) (rd : Fin 32) (ra : Fin 32) (imm : BitVec 16)
  /-- SLTIU (R359): Unsigned compare immediate. -/
  | eSltiu (e : Fin 512) (rd : Fin 32) (ra : Fin 32) (imm : BitVec 16)
  /-- CMPI (R359): Set flags from immediate compare. -/
  | eCmpi (e : Fin 512) (ra : Fin 32) (imm : BitVec 16)
  /-- BC (R360): Conditional branch. -/
  | eBc (e : Fin 512) (cond : Fin 16) (off : BitVec 22)
  /-- BZ (R360): Branch if zero. -/
  | eBz (e : Fin 512) (ra : Fin 32) (imm : BitVec 16)
  /-- BNZ (R360): Branch if nonzero. -/
  | eBnz (e : Fin 512) (ra : Fin 32) (imm : BitVec 16)
  /-- CALL (R360): Call with link in g31. -/
  | eCall (e : Fin 512) (off : BitVec 26)
  /-- JR (R360): Register jump with link. -/
  | eJr (e : Fin 512) (rd : Fin 32) (ra : Fin 32) (imm : BitVec 16)
  /-- LDB (R361): Load byte. -/
  | eLdb (e : Fin 512) (rd : Fin 32) (ra : Fin 32) (imm : BitVec 16)
  /-- LDH (R361): Load halfword. -/
  | eLdh (e : Fin 512) (rd : Fin 32) (ra : Fin 32) (imm : BitVec 16)
  /-- LDW (R361): Load word. -/
  | eLdw (e : Fin 512) (rd : Fin 32) (ra : Fin 32) (imm : BitVec 16)
  /-- LDD (R361): Load doubleword. -/
  | eLdd (e : Fin 512) (rd : Fin 32) (ra : Fin 32) (imm : BitVec 16)
  /-- STB (R361): Store byte. -/
  | eStb (e : Fin 512) (rd : Fin 32) (ra : Fin 32) (imm : BitVec 16)
  /-- STH (R361): Store halfword. -/
  | eSth (e : Fin 512) (rd : Fin 32) (ra : Fin 32) (imm : BitVec 16)
  /-- STW (R361): Store word. -/
  | eStw (e : Fin 512) (rd : Fin 32) (ra : Fin 32) (imm : BitVec 16)
  /-- STD (R361): Store doubleword. -/
  | eStd (e : Fin 512) (rd : Fin 32) (ra : Fin 32) (imm : BitVec 16)
  /-- QPUSH (R362): Push to a queue site. -/
  | eQpush (e : Fin 512) (rd : Fin 32) (rs : Fin 32) (site : Fin 256) (l : Bool)
  /-- QPOP (R362): Pop from a queue site. -/
  | eQpop (e : Fin 512) (rd : Fin 32) (rs : Fin 32) (site : Fin 256)
  /-- QPOPW (R362): Pop, waiting while empty. -/
  | eQpopw (e : Fin 512) (rd : Fin 32) (rs : Fin 32) (site : Fin 256)
  /-- QFLUSH (R362): Request a queue flush. -/
  | eQflush (e : Fin 512) (rd : Fin 32) (site : Fin 256)
  /-- QSTAT (R362): Read queue status and depth. -/
  | eQstat (e : Fin 512) (rd : Fin 32) (site : Fin 256)
  /-- PLD (R364): Issue a pool load. -/
  | ePld (e : Fin 512) (rd : Fin 32) (ra : Fin 32) (h : Fin 8) (off : BitVec 13)
  /-- PLD_ANSWER (R364): A pool load answer writes its register. -/
  | ePldAnswer (e : Fin 512) (n : Nat)
  /-- PST (R364): Post a pool store. -/
  | ePst (e : Fin 512) (rd : Fin 32) (ra : Fin 32) (h : Fin 8) (off : BitVec 13)
  /-- PATOM_SWAP (R365): Atomic swap. -/
  | ePatomSwap (e : Fin 512) (rd : Fin 32) (ra : Fin 32) (rb : Fin 32) (h : Fin 8)
  /-- PATOM_ADD (R365): Atomic add. -/
  | ePatomAdd (e : Fin 512) (rd : Fin 32) (ra : Fin 32) (rb : Fin 32) (h : Fin 8)
  /-- PATOM_AND (R365): Atomic and. -/
  | ePatomAnd (e : Fin 512) (rd : Fin 32) (ra : Fin 32) (rb : Fin 32) (h : Fin 8)
  /-- PATOM_OR (R365): Atomic or. -/
  | ePatomOr (e : Fin 512) (rd : Fin 32) (ra : Fin 32) (rb : Fin 32) (h : Fin 8)
  /-- PATOM_XOR (R365): Atomic xor. -/
  | ePatomXor (e : Fin 512) (rd : Fin 32) (ra : Fin 32) (rb : Fin 32) (h : Fin 8)
  /-- PATOM_CAS (R365): Atomic compare-and-swap. -/
  | ePatomCas (e : Fin 512) (rd : Fin 32) (ra : Fin 32) (rb : Fin 32) (h : Fin 8)
  /-- PATOM_ANSWER (R365): An atomic's old word is written to its register. -/
  | ePatomAnswer (e : Fin 512) (n : Nat)
  /-- CMT (R367): Issue the drain of the oldest committed entry. -/
  | eCmt (e : Fin 512) (rd : Fin 32) (p : Fin 32)
  /-- FENCE (R366): Wait for earlier pool operations or DMA. -/
  | eFence (e : Fin 512) (waitP : Bool) (waitD : Bool)
  /-- MTAKE (R368): Take a model inbox record. -/
  | eMtake (e : Fin 512) (rd : Fin 32) (w : Bool)
  /-- MANS (R368): Place a model answer. -/
  | eMans (e : Fin 512) (ra : Fin 32) (rb : Fin 32)
  /-- ERET (R369): Return from exception or interrupt. -/
  | eEret (e : Fin 512)
  /-- MFC (R369): Read a control register. -/
  | eMfc (e : Fin 512) (rd : Fin 32) (n : Fin 16)
  /-- MTC (R369): Write a control register. -/
  | eMtc (e : Fin 512) (n : Fin 16) (rb : Fin 32)
  /-- TRAP (R369): Raise a TRAP exception. -/
  | eTrap (e : Fin 512) (n : Fin 32)
  /-- BREAK (R369): Halt at the BREAK. -/
  | eBreak (e : Fin 512)
  /-- WFI (R369): Wait for an enabled pending interrupt. -/
  | eWfi (e : Fin 512)
  /-- HALT (R369): Halt with PC at the next instruction. -/
  | eHalt (e : Fin 512)
  /-- ILLEGAL_INSTRUCTION (R354): An unassigned encoding raises ILLEGAL. -/
  | eIllegalInstruction (e : Fin 512)
  /-- BAR2_READ (R381): A host read through a BAR2 slice is checked and served. -/
  | bar2Read (c : Fin 64) (x : BitVec 29)
  /-- BAR2_WRITE (R381): A host write through a BAR2 slice is checked and performed. -/
  | bar2Write (c : Fin 64) (x : BitVec 29) (be : BitVec 8) (v : BitVec 64)
  /-- CTX_CFG_WRITE (R382): A write to a context window register is refused if claimed. -/
  | ctxCfgWrite (c : Fin 64) (reg : Fin 3) (v : Word)
  /-- CTX_DOORBELL_WRITE (R382): A doorbell write raises eddy lines. -/
  | ctxDoorbellWrite (c : Fin 64) (v : Word)
  /-- DMA_TAIL_WRITE (R389): A DMA_TAIL write gives descriptors to the engine or is refused. -/
  | dmaTailWrite (e : Fin 16) (v : Word)
  /-- DMA_RING_WRITE (R389): A ring base or size write is checked. -/
  | dmaRingWrite (e : Fin 16) (reg : Fin 3) (v : Word)
  /-- DMA_DESCRIPTOR_START (R388): The engine takes and checks the next descriptor. -/
  | dmaDescriptorStart (e : Fin 16) (d : BitVec 256)
  /-- DMA_DESCRIPTOR_DONE (R388): A descriptor completes with STATUS and head advance. -/
  | dmaDescriptorDone (e : Fin 16) (data : List (BitVec 64))
  /-- HOST_PORT_RESET (R383): FLR, hot reset or link loss resets the port only. -/
  | hostPortReset
  /-- PCIE_PERST_N_RELEASE (R515): PCIE_PERST_N release starts host link training. -/
  | pciePerstNRelease
  /-- FROZEN_READ_TIMEOUT (R384): A held read is aborted after 10 ms. -/
  | frozenReadTimeout (c : Fin 64)
  /-- KC_LOAD_IMAGE (R414): The LOAD_IMAGE keyed command starts a load or is refused. -/
  | kcLoadImage
  /-- FUSE_READ_DONE (R474): Fuses, identity and repair map are read. -/
  | fuseReadDone
  /-- HEALTH_RECORD_READ (R474): The health record read decides test and marking. -/
  | healthRecordRead
  /-- ABBREVIATED_SEGMENT_DONE (R475): A segment of the abbreviated test completes. -/
  | abbreviatedSegmentDone (fails : List Mark)
  /-- LOAD_HEADER_READ (R397): The header is read whole and checked. -/
  | loadHeaderRead (storeUe : Bool)
  /-- LOAD_PASS_A_END (R417): Pass A ends with tag and stream verdict. -/
  | loadPassAEnd (storeUe : Bool)
  /-- LOAD_IDLE_FILL_END (R418): The idle fill of every tile completes. -/
  | loadIdleFillEnd
  /-- LOAD_PASS_B_END (R418): Pass B finishes writing and recomputes the tag. -/
  | loadPassBEnd (storeUe : Bool)
  /-- LOAD_CHECKS_END (R419): The post-pass checks complete and the tables are written. -/
  | loadChecksEnd
  /-- LOCK_WAIT_END (R422): PLLs and HBM stacks are ready. -/
  | lockWaitEnd
  /-- LOCK_WAIT_TIMEOUT (R422): Lock wait exceeds 2.0 ms and fails the attempt. -/
  | lockWaitTimeout
  /-- SET_RESET_RELEASE_DONE (R422): GSR deasserts in every section. -/
  | setResetReleaseDone
  /-- WRITE_ENABLE_DONE (R422): Writes enabled, queues and ports connected, zeroing done, eddies started. -/
  | writeEnableDone
  /-- OUTPUT_RELEASE_DONE (R422): GIO outputs drive release levels and channels enable. -/
  | outputReleaseDone
  /-- DEVICE_TIMER_EXPIRE (R429): A device timer expires and raises its events and interrupts. -/
  | deviceTimerExpire (d : Fin 16)
  /-- DTMR_CFG_WRITE (R429): A DTMR_CFG write sets a timer unless a feature holds it. -/
  | dtmrCfgWrite (d : Fin 16) (v : Word)
  /-- LDR_CLAIM_Q_WRITE (R431): A claim query selects a resource for LDR_CLAIM_OWNER. -/
  | ldrClaimQWrite (v : Word)
  /-- KC_WRITE_SLOT_DATA (R447): WRITE_SLOT with DATA erases and writes a slot from the staging area. -/
  | kcWriteSlotData
  /-- KC_WRITE_SLOT_ERASE (R447): WRITE_SLOT with ERASE erases a slot. -/
  | kcWriteSlotErase
  /-- KC_WRITE_SLOT_BOOT (R447): WRITE_SLOT with BOOT sets BOOT_SLOT. -/
  | kcWriteSlotBoot
  /-- SLOT_WRITE_DONE (R447): A slot copy completes, setting length and wear. -/
  | slotWriteDone
  /-- KC_SET_LIFECYCLE (R439): SET_LIFECYCLE starts a life-cycle transition. -/
  | kcSetLifecycle
  /-- LIFECYCLE_TRANSITION_DONE (R439): WIPE_PENDING clears and SET_LIFECYCLE completes. -/
  | lifecycleTransitionDone
  /-- KC_UNFREEZE (R453): UNFREEZE releases frozen masters. -/
  | kcUnfreeze
  /-- KC_SET_ROOT (R446): SET_ROOT sets or clears ROOT_ROLE. -/
  | kcSetRoot
  /-- KC_WRITE_ROUTES_ENTRIES (R233): WRITE_ROUTES writes shadow table entries. -/
  | kcWriteRoutesEntries
  /-- KC_WRITE_ROUTES_APPLY (R233): WRITE_ROUTES APPLY installs the shadow once VL0 and VL1 drain. -/
  | kcWriteRoutesApply
  /-- ROUTES_APPLY_DRAINED (R233): Buffers drain, or 1 ms passes, and APPLY completes or is refused. -/
  | routesApplyDrained
  /-- KC_KEY_LOAD (R448): KEY_LOAD unwraps and stores a key. -/
  | kcKeyLoad
  /-- KC_BG_TEST_ON (R480): BIST program 0x01 turns background test on. -/
  | kcBgTestOn
  /-- KC_BG_TEST_OFF (R480): BIST program 0x02 turns background test off. -/
  | kcBgTestOff
  /-- KC_HBM_SWEEP (R480): BIST program 0x03 starts an HBM sweep. -/
  | kcHbmSweep
  /-- HBM_SWEEP_DONE (R480): The HBM sweep finishes. -/
  | hbmSweepDone
  /-- KC_RAW_MODE_ENTER (R481): BIST_ENTER RAW enters raw test mode. -/
  | kcRawModeEnter
  /-- KC_ZEROISE (R450): ZEROISE causes the zeroise response. -/
  | kcZeroise
  /-- KC_SHUTDOWN (R37): SHUTDOWN enters SHUTTING_DOWN. -/
  | kcShutdown
  /-- KC_UNASSIGNED (R442): A keyed command with unassigned CMD fails with SEC_FORMAT. -/
  | kcUnassigned
  /-- MBX_LOCKOUT_END (R443): The 100 ms lockout wait ends and checking begins. -/
  | mbxLockoutEnd
  /-- MBX_COUNTER_STORED (R444): The command counter is stored and later checks run. -/
  | mbxCounterStored (pin : Bool)
  /-- MBX_CTR_LO_READ (R455): A MBX_CTR_LO read latches the high half. -/
  | mbxCtrLoRead
  /-- LC_FLOOR_LO_READ (R456): A floor low-half read latches the high half. -/
  | lcFloorLoRead (two : Bool)
  /-- TAMPER_N_ASSERT (R449): TAMPER_N low past its filter is a tamper event. -/
  | tamperNAssert
  /-- VBAT_LOSS (R435): VBAT below 1.1 V loses K_BBK. -/
  | vbatLoss
  /-- TAMPER_TEMPERATURE (R449): The island sensor leaves −45 to 130 °C. -/
  | tamperTemperature
  /-- VCC_HUB_EXCURSION (R517): VCC_HUB leaves range, with internal reset and tamper. -/
  | vccHubExcursion (low : Bool)
  /-- REFCLK_SYS_LOSS (R449): REFCLK_SYS is absent or out of frequency. -/
  | refclkSysLoss
  /-- FRZ_POP_WRITE (R453): FRZ_POP removes the oldest freeze record. -/
  | frzPopWrite (v : Word)
  /-- SCRUB_FRAME (R465): The scrubber reads and checks its next frame. -/
  | scrubFrame (sec : Fin 8)
  /-- SCRUB_PRIORITY_REWRITE (R465): The scrubber serves a checker rewrite request. -/
  | scrubPriorityRewrite (sec : Fin 8)
  /-- FRAME_REWRITE_APPLY (R466): A frame rewrite takes effect in its tile. -/
  | frameRewriteApply (tile : BitVec 20)
  /-- SCR_CFG_PEER_CHECK (R468): A peer scrubber checks SCR_CFG every 1 ms. -/
  | scrCfgPeerCheck (sec : Fin 8)
  /-- SCRUB_WATCHDOG (R469): The watchdog resets a stalled scrubber. -/
  | scrubWatchdog (sec : Fin 8) (recent : Fin 3)
  /-- SCR_CFG_WRITE (R463): An SCR_CFG write sets EN and PERIOD. -/
  | scrCfgWrite (sec : Fin 8) (v : Word)
  /-- READBACK_READ (R467): A readback read returns a frame or is denied. -/
  | readbackRead (off : BitVec 25)
  /-- REP_XLAT_Q_WRITE (R477): REP_XLAT_Q converts a physical column. -/
  | repXlatQWrite (sec : Fin 8) (v : Word)
  /-- TEST_RAW_APPLY (R485): A raw-mode APPLY applies one pattern step. -/
  | testRawApply (seg : Fin 16)
  /-- TRC_CMD_START (R500): START begins tracing. -/
  | trcCmdStart
  /-- TRC_CMD_STOP (R499): STOP ends tracing after the FIFO drains. -/
  | trcCmdStop
  /-- TRACE_STOP_DONE (R499): The FIFO drains and trace stops. -/
  | traceStopDone
  /-- TRC_CMD_SNAP_NOW (R498): SNAP_NOW snapshots the present tick. -/
  | trcCmdSnapNow
  /-- TRC_CMD_SNAP_ARM (R498): SNAP_ARM arms a snapshot at a later tick. -/
  | trcCmdSnapArm
  /-- SNAPSHOT_DONE (R498): The snapshot is written and SNAP_DONE set. -/
  | snapshotDone
  /-- TRC_CMD_EXPORT_ON (R495): EXPORT_ON takes FW for export. -/
  | trcCmdExportOn
  /-- TRC_CMD_EXPORT_OFF (R495): EXPORT_OFF releases FW. -/
  | trcCmdExportOff
  /-- TRC_CMD_RESET_RING (R500): RESET_RING zeroes the ring indices. -/
  | trcCmdResetRing
  /-- TRC_CMD_RESERVED (R500): A reserved TRC_CTL value is refused. -/
  | trcCmdReserved (cmd : BitVec 4)
  /-- TRACE_RECORD_WRITE (R494): The compressor writes a record into the ring. -/
  | traceRecordWrite (sec : Fin 8) (ex : Bool)
  /-- TRC_PROBE_WRITE (R487): A TRC_PROBE write sets a probe. -/
  | trcProbeWrite (sec : Fin 8) (k : Fin 1024) (v : Word)
  /-- TRC_RING_POOL_WRITE (R492): A ring pool write is checked. -/
  | trcRingPoolWrite (v : Word)
  /-- THERMAL_READ (R525): Die sensors update THERM_STAT every 1 ms. -/
  | thermalRead (temps : BitVec 72)
  /-- HBM_SUPPLY_FAULT (R517): An HBM rail out of range marks every stack failed. -/
  | hbmSupplyFault
  /-- SMB_SET_OFFSET (R529): SMBus 0x10 sets the BAR0 offset. -/
  | smbSetOffset (v : Word)
  /-- SMB_BLOCK_READ (R529): SMBus 0x11 returns a register and advances. -/
  | smbBlockRead
  /-- SMB_OTHER_COMMAND (R529): Another SMBus command is NACKed. -/
  | smbOtherCommand
  /-- JTAG_IDCODE (R527): IDCODE selects the IDCODE register. -/
  | jtagIdcode
  /-- JTAG_SAMPLE_PRELOAD (R527): SAMPLE/PRELOAD captures the boundary register. -/
  | jtagSamplePreload (lvl : BitVec 2246) (load : BitVec 2246)
  /-- JTAG_EXTEST (R527): EXTEST drives balls only in reset or CFG_ERR. -/
  | jtagExtest (lvl : BitVec 2246) (load : BitVec 2246)
  /-- JTAG_HIGHZ (R527): HIGHZ releases balls under the same condition. -/
  | jtagHighz (lvl : BitVec 2246) (load : BitVec 2246)
  /-- JTAG_CLAMP (R527): CLAMP holds outputs under the same condition. -/
  | jtagClamp (lvl : BitVec 2246) (load : BitVec 2246)
  /-- JTAG_EXTEST_PULSE (R527): IEEE 1149.6 pulse test. -/
  | jtagExtestPulse (lvl : BitVec 2246) (load : BitVec 2246)
  /-- JTAG_EXTEST_TRAIN (R527): IEEE 1149.6 train test. -/
  | jtagExtestTrain (lvl : BitVec 2246) (load : BitVec 2246)
  /-- JTAG_PRIVATE (R481): Private test instructions act only in raw mode. -/
  | jtagPrivate (op : BitVec 8)
  /-- JTAG_BYPASS (R527): BYPASS selects the bypass register. -/
  | jtagBypass
  /-- READ_CLEAR (R5): A read of an RC register returns and clears it. -/
  | readClear (off : BitVec 26)
  /-- REGISTER_WRITE (R5): A write to a register without its own row acts by its access type. -/
  | registerWrite (off : BitVec 26) (v : Word) (split : Bool)
  /-- GIO_HOLD_EXPIRE (R178): The GIO_HOLD minimum drive time of a released tick's GIO values runs out, so the next released tick's values may replace them and G advances. -/
  | gioHoldExpire
  /-- PST_COMPLETE (R364): A posted pool store completes when the HBM controller accepts it, lowering PLOUT and releasing FENCE waits. -/
  | pstComplete (e : Fin 512) (n : Nat)
  /-- SLOT_ERASE_DONE (R447): An erase-only WRITE_SLOT finishes erasing the slot, applies BOOT if set and completes the keyed command. -/
  | slotEraseDone
  /-- KEY_STORED (R448): KEY_LOAD finishes programming the fuse key, or storing the battery-backed key, and the command completes, changing the derived keys. -/
  | keyStored
  /-- RAILS_IN_RANGE (R517): Every supply rail comes within range after PORST_N release or after a VCC_HUB internal reset, and the device then acts on the release. -/
  | railsInRange
  /-- HOST_LINK_UP (R515): PCIe link training of the host port completes and the link rate and width appear in HOST_LINK. -/
  | hostLinkUp (rate : BitVec 4) (width : BitVec 6) (flit : Bool)
  deriving DecidableEq, Repr

end Sys2Proof
end

