-- ==== Sys2Proof/Decode.lean ====
section
/-! DEFINITION. The decoder of table words. No row of the table of operations gives bits: its commands reach the block as
bus accesses, flits, pin events and internal completions, and no word spells one. The instruction words of the eddies are
decoded by the eddies (Machine/Operands.lean). -/

namespace Sys2Proof

/-- No word spells a command. -/
def decodeTableWord (_nbits _w : Nat) : Option Instr := none

end Sys2Proof
end

