-- ==== Sys2Proof/Config.lean ====
section
/-! DEFINITION. What the manual leaves open: free values, uninterpreted functions of the standards the
device uses, and the fused values of one device. -/

namespace Sys2Proof

/-- A FREE VALUE of `w` bits: the `n`-th value drawn. Nothing constrains it. -/
opaque Config.free (w n : Nat) : BitVec w

/-- The 64-bit device serial number, fixed in fuses (R220). -/
opaque Config.serial : BitVec 64

/-- The grade of the device, fixed at manufacture: true for grade E (R2, R379). -/
opaque Config.gradeE : Bool

/-- Word `i` of the scratchpad image of firmware module `m`, as the firmware store holds it (R341). -/
opaque Config.fwWord (m i : Nat) : BitVec 64

/-- The signature of firmware module `m` verifies (R342). -/
opaque Config.fwSigned (m : Nat) : Bool

/-- The signature of test program `p` verifies (R480). -/
opaque Config.testSigned (p : Nat) : Bool

/-- The check bits of a ford beat, a SECDED code over D, K, FRM and VLD (R197). -/
opaque Config.beatCheck (x : BitVec 70) : BitVec 8

/-- What the `n`-th filler beat of a ford port carries on D and K (R200). -/
opaque Config.filler (port n : Nat) : BitVec 68

/-- Lane repair stands in for pseudo-channel `c` of stack `k`, should self-test find it failing (R292, R478). -/
opaque Config.laneRepair (k c : Nat) : Bool

/-- Where the loader lays word `i` of the shadow, in words of the device-private region: the work area has no stated place
(R296, R464). -/
opaque Config.shadowAt (i : Nat) : Nat

end Sys2Proof
end

