-- ==== Sys2Proof/Machine/Bits.lean ====
section
/-! DEFINITION. Bit-field, saturation and byte helpers used by every part of the model. -/

namespace Sys2Proof.Machine

/-- The field of `len` bits at bit `lo` of `x`, as a number (bit 0 is the least significant). -/
def fld {n : Nat} (x : BitVec n) (lo len : Nat) : Nat := (x.toNat >>> lo) % 2 ^ len

/-- One bit of `x`. -/
def bitAt {n : Nat} (x : BitVec n) (i : Nat) : Bool := (x.toNat >>> i) % 2 == 1

/-- `x` with the field of `len` bits at `lo` replaced by `v` (mod `2 ^ len`). -/
def setFld {n : Nat} (x : BitVec n) (lo len v : Nat) : BitVec n :=
  BitVec.ofNat n (x.toNat - fld x lo len * 2 ^ lo + (v % 2 ^ len) * 2 ^ lo)

/-- `x` with bit `i` set to `b`. -/
def setBit {n : Nat} (x : BitVec n) (i : Nat) (b : Bool) : BitVec n :=
  if bitAt x i = b then x
  else if b then BitVec.ofNat n (x.toNat + 2 ^ i) else BitVec.ofNat n (x.toNat - 2 ^ i)

/-- `x` with bit `i` inverted, for `i` inside the width. -/
def flipBit {n : Nat} (x : BitVec n) (i : Nat) : BitVec n :=
  if i < n then setBit x i (!bitAt x i) else x

/-- A Boolean as the number 0 or 1. -/
def b2n (b : Bool) : Nat := if b then 1 else 0

/-- A word built from a number. -/
def w32 (n : Nat) : Word := BitVec.ofNat 32 n

/-- A saturating 32-bit counter one event later (R15). -/
def satInc (w : Word) : Word := if w = 0xFFFF_FFFF#32 then w else w + 1#32

/-- A saturating 32-bit counter `n` events later (R15). -/
def satAdd (w : Word) (n : Nat) : Word := w32 (min 0xFFFF_FFFF (w.toNat + n))

/-- `n` bytes of a payload from byte `i`, little-endian (R172). -/
def payN (p : Payload) (i n : Nat) : Nat := fld p (8 * i) (8 * n)

/-- A payload with `n` bytes from byte `i` replaced by `v`, little-endian. -/
def payPut (p : Payload) (i n v : Nat) : Payload := setFld p (8 * i) (8 * n) v

/-- Population count of a number below `2 ^ fuel`. -/
def popc : Nat → Nat → Nat
  | 0, _ => 0
  | f + 1, x => x % 2 + popc f (x / 2)

/-- The numbers of the set bits of `x` below `fuel`, rising from `i`. -/
def bitList : Nat → Nat → Nat → List Nat
  | 0, _, _ => []
  | f + 1, i, x => if x % 2 = 1 then i :: bitList f (i + 1) (x / 2) else bitList f (i + 1) (x / 2)

/-- Number of leading zeros of a `w`-bit number. -/
def clzN : Nat → Nat → Nat
  | 0, _ => 0
  | w + 1, x => if x / 2 ^ w % 2 = 1 then 0 else 1 + clzN w x

/-- A `w`-bit number read as a signed one. -/
def sgn (w x : Nat) : Int := if x % 2 ^ w < 2 ^ (w - 1) then (x % 2 ^ w : Nat) else (x % 2 ^ w : Nat) - (2 ^ w : Nat)

/-- Sign extension of a `w`-bit number to 64 bits. -/
def sext64 (w x : Nat) : Dword := BitVec.ofInt 64 (sgn w x)

/-- One bit step of the reflected CRC-32 of IEEE 802.3 (R205). -/
def crcBit (c : Nat) : Nat := if c % 2 = 1 then Nat.xor (c / 2) 0xEDB88320 else c / 2

/-- One byte of the reflected CRC-32. -/
def crcByte (c b : Nat) : Nat := crcBit (crcBit (crcBit (crcBit (crcBit (crcBit (crcBit (crcBit (Nat.xor c b))))))))

/-- CRC-32 of IEEE 802.3: initial value all ones, reflected, final inversion (R205). -/
def crc32 (l : List Nat) : Nat := Nat.xor (l.foldl crcByte 0xFFFFFFFF) 0xFFFFFFFF

end Sys2Proof.Machine
end

