-- ==== Sys2Proof/Machine/RegTable.lean ====
section
/-! DEFINITION. The registers of the BAR0 map (R8): the offset of every register the spec's register
tables name, and one row per register with its instances, access type, reset value and writable bits. -/

namespace Sys2Proof.Machine

/-- Register access types (R5). -/
inductive Acc where
  | ro | rw | w1c | w1s | wo | rc | key
  deriving DecidableEq, Repr

/-- One row of a register table: `n1` instances `s1` bytes apart, each of `n2` elements `s2` bytes apart. -/
structure RegRow where
  base : Nat
  n1 : Nat
  s1 : Nat
  n2 : Nat
  s2 : Nat
  acc : Acc
  reset : Nat
  mask : Nat
  deriving DecidableEq, Repr

/-- BAR0 offset of DEV_STATE. -/
def Reg.devState : Nat := 0x40
/-- BAR0 offset of DEV_CAUSE. -/
def Reg.devCause : Nat := 0x44
/-- BAR0 offset of DEV_EVENT. -/
def Reg.devEvent : Nat := 0x48
/-- BAR0 offset of DEV_EVENT_EN. -/
def Reg.devEventEn : Nat := 0x4C
/-- BAR0 offset of DEV_TRANSITIONS. -/
def Reg.devTransitions : Nat := 0x50
/-- BAR0 offset of SEC_VSENSE. -/
def Reg.secVsense (i : Nat) : Nat := 0xB0000 + 256 * i
/-- BAR0 offset of SEC_VFLAGS. -/
def Reg.secVflags (i : Nat) : Nat := 0xB0004 + 256 * i
/-- BAR0 offset of SEC_UV_COUNT. -/
def Reg.secUvCount (i : Nat) : Nat := 0xB0008 + 256 * i
/-- BAR0 offset of SEC_OV_COUNT. -/
def Reg.secOvCount (i : Nat) : Nat := 0xB000C + 256 * i
/-- BAR0 offset of SEC_RAIL_ERR. -/
def Reg.secRailErr (i : Nat) : Nat := 0xB0010 + 256 * i
/-- BAR0 offset of SEC_RAIL_LOC. -/
def Reg.secRailLoc (i : Nat) : Nat := 0xB0014 + 256 * i
/-- BAR0 offset of SEC_REPLICA. -/
def Reg.secReplica (i : Nat) : Nat := 0xB0018 + 256 * i
/-- BAR0 offset of SEC_GSR. -/
def Reg.secGsr (i : Nat) : Nat := 0xB001C + 256 * i
/-- BAR0 offset of GSR_CTL. -/
def Reg.gsrCtl : Nat := 0xB0800
/-- BAR0 offset of GSR_STAT. -/
def Reg.gsrStat : Nat := 0xB0804
/-- BAR0 offset of GSR_REFUSED. -/
def Reg.gsrRefused : Nat := 0xB0808
/-- BAR0 offset of RT_CENSUS. -/
def Reg.rtCensus (i : Nat) : Nat := 0xB0020 + 256 * i
/-- BAR0 offset of RT_CENSUS_LOC. -/
def Reg.rtCensusLoc (i : Nat) : Nat := 0xB0024 + 256 * i
/-- BAR0 offset of RT_CENSUS_COUNT. -/
def Reg.rtCensusCount (i : Nat) : Nat := 0xB0028 + 256 * i
/-- BAR0 offset of RT_DC_COUNT. -/
def Reg.rtDcCount (i : Nat) : Nat := 0xB002C + 256 * i
/-- BAR0 offset of RT_DC_LOC. -/
def Reg.rtDcLoc (i : Nat) : Nat := 0xB0030 + 256 * i
/-- BAR0 offset of RT_STAT. -/
def Reg.rtStat (i : Nat) : Nat := 0xB0034 + 256 * i
/-- BAR0 offset of BM_CE_COUNT. -/
def Reg.bmCeCount (i : Nat) : Nat := 0xB0040 + 256 * i
/-- BAR0 offset of BM_UE_COUNT. -/
def Reg.bmUeCount (i : Nat) : Nat := 0xB0044 + 256 * i
/-- BAR0 offset of BM_UE_LOC. -/
def Reg.bmUeLoc (i : Nat) : Nat := 0xB0048 + 256 * i
/-- BAR0 offset of BM_WW_COUNT. -/
def Reg.bmWwCount (i : Nat) : Nat := 0xB004C + 256 * i
/-- BAR0 offset of BM_BUSY_COUNT. -/
def Reg.bmBusyCount (i : Nat) : Nat := 0xB0050 + 256 * i
/-- BAR0 offset of BM_UNDO_STALL. -/
def Reg.bmUndoStall (i : Nat) : Nat := 0xB0054 + 256 * i
/-- BAR0 offset of BM_WR_BLOCKED. -/
def Reg.bmWrBlocked (i : Nat) : Nat := 0xB0058 + 256 * i
/-- BAR0 offset of BM_SPARES. -/
def Reg.bmSpares (i : Nat) : Nat := 0xB005C + 256 * i
/-- BAR0 offset of BM_CFG_LOC. -/
def Reg.bmCfgLoc (i : Nat) : Nat := 0xB0060 + 256 * i
/-- BAR0 offset of BM_CFG_COUNT. -/
def Reg.bmCfgCount (i : Nat) : Nat := 0xB0064 + 256 * i
/-- BAR0 offset of TICK_STATE. -/
def Reg.tickState : Nat := 0x80000
/-- BAR0 offset of TICK_CTL. -/
def Reg.tickCtl : Nat := 0x80004
/-- BAR0 offset of TICK_CMD_STAT. -/
def Reg.tickCmdStat : Nat := 0x80008
/-- BAR0 offset of TICK_CAUSE. -/
def Reg.tickCause : Nat := 0x8000C
/-- BAR0 offset of TICK_NOW_LO. -/
def Reg.tickNowLo : Nat := 0x80010
/-- BAR0 offset of TICK_NOW_HI. -/
def Reg.tickNowHi : Nat := 0x80014
/-- BAR0 offset of TICK_STOP_LO. -/
def Reg.tickStopLo : Nat := 0x80018
/-- BAR0 offset of TICK_STOP_HI. -/
def Reg.tickStopHi : Nat := 0x8001C
/-- BAR0 offset of TICK_CFG. -/
def Reg.tickCfg : Nat := 0x80020
/-- BAR0 offset of TICK_PACE_PERIOD. -/
def Reg.tickPacePeriod : Nat := 0x80024
/-- BAR0 offset of TICK_TIMEOUT. -/
def Reg.tickTimeout : Nat := 0x80028
/-- BAR0 offset of TICK_OUT_CFG. -/
def Reg.tickOutCfg : Nat := 0x8002C
/-- BAR0 offset of CAD_LEN. -/
def Reg.cadLen : Nat := 0x80030
/-- BAR0 offset of CAD_POS. -/
def Reg.cadPos : Nat := 0x80034
/-- BAR0 offset of TICK_PENDING. -/
def Reg.tickPending : Nat := 0x80038
/-- BAR0 offset of TICK_RANGE_COUNT. -/
def Reg.tickRangeCount : Nat := 0x8003C
/-- BAR0 offset of TICK_PERIOD_LAST. -/
def Reg.tickPeriodLast : Nat := 0x80040
/-- BAR0 offset of TICK_PERIOD_MIN. -/
def Reg.tickPeriodMin : Nat := 0x80044
/-- BAR0 offset of TICK_PERIOD_MAX. -/
def Reg.tickPeriodMax : Nat := 0x80048
/-- BAR0 offset of TICK_RATE. -/
def Reg.tickRate : Nat := 0x8004C
/-- BAR0 offset of TICK_SLIPS. -/
def Reg.tickSlips : Nat := 0x80050
/-- BAR0 offset of TICK_PACE_DROPPED. -/
def Reg.tickPaceDropped : Nat := 0x80054
/-- BAR0 offset of TICK_TIMEOUTS. -/
def Reg.tickTimeouts : Nat := 0x80058
/-- BAR0 offset of TICK_TO_LOC. -/
def Reg.tickToLoc : Nat := 0x8005C
/-- BAR0 offset of TICK_TO_COUNT. -/
def Reg.tickToCount : Nat := 0x80060
/-- BAR0 offset of TICK_FAULTS. -/
def Reg.tickFaults : Nat := 0x80064
/-- BAR0 offset of TICK_LIMIT. -/
def Reg.tickLimit (j : Nat) : Nat := 0x80070 + 4 * j
/-- BAR0 offset of AVS_CFG. -/
def Reg.avsCfg : Nat := 0x80100
/-- BAR0 offset of AVS_CAP. -/
def Reg.avsCap : Nat := 0x80104
/-- BAR0 offset of AVS_POWER. -/
def Reg.avsPower : Nat := 0x80108
/-- BAR0 offset of AVS_STAT. -/
def Reg.avsStat : Nat := 0x8010C
/-- BAR0 offset of AVS_ERR. -/
def Reg.avsErr : Nat := 0x80110
/-- BAR0 offset of AVS_CAP_UNMET. -/
def Reg.avsCapUnmet : Nat := 0x80114
/-- BAR0 offset of AVS_TARGET. -/
def Reg.avsTarget (j : Nat) : Nat := 0x80120 + 4 * j
/-- BAR0 offset of TICK_VF. -/
def Reg.tickVf (j : Nat) : Nat := 0x80140 + 4 * j
/-- BAR0 offset of CAD_MASK_LO. -/
def Reg.cadMaskLo (j : Nat) : Nat := 0x90000 + 8 * j
/-- BAR0 offset of CAD_MASK_HI. -/
def Reg.cadMaskHi (j : Nat) : Nat := 0x90004 + 8 * j
/-- BAR0 offset of RA_CFG. -/
def Reg.raCfg : Nat := 0xC0000
/-- BAR0 offset of RA_STAT. -/
def Reg.raStat : Nat := 0xC0004
/-- BAR0 offset of RA_LWM_LO. -/
def Reg.raLwmLo : Nat := 0xC0008
/-- BAR0 offset of RA_LWM_HI. -/
def Reg.raLwmHi : Nat := 0xC000C
/-- BAR0 offset of RA_U_LO. -/
def Reg.raULo : Nat := 0xC0010
/-- BAR0 offset of RA_U_HI. -/
def Reg.raUHi : Nat := 0xC0014
/-- BAR0 offset of RA_WAVE_PERIOD. -/
def Reg.raWavePeriod : Nat := 0xC0018
/-- BAR0 offset of RA_WAVES. -/
def Reg.raWaves : Nat := 0xC001C
/-- BAR0 offset of RA_ROLLBACKS. -/
def Reg.raRollbacks : Nat := 0xC0020
/-- BAR0 offset of RA_TICKS_REDONE. -/
def Reg.raTicksRedone : Nat := 0xC0024
/-- BAR0 offset of RA_MISPREDICT. -/
def Reg.raMispredict : Nat := 0xC0028
/-- BAR0 offset of RA_PRED_HITS. -/
def Reg.raPredHits : Nat := 0xC002C
/-- BAR0 offset of RA_RECALLS_SENT. -/
def Reg.raRecallsSent : Nat := 0xC0030
/-- BAR0 offset of RA_RECALLS_RCVD. -/
def Reg.raRecallsRcvd : Nat := 0xC0034
/-- BAR0 offset of RA_RECALLS_IGNORED. -/
def Reg.raRecallsIgnored : Nat := 0xC0038
/-- BAR0 offset of RA_WINDOW_WAIT. -/
def Reg.raWindowWait : Nat := 0xC003C
/-- BAR0 offset of RA_JOURNAL_STALL. -/
def Reg.raJournalStall : Nat := 0xC0040
/-- BAR0 offset of RA_BAD_MSG. -/
def Reg.raBadMsg : Nat := 0xC0044
/-- BAR0 offset of RA_LAST_RB. -/
def Reg.raLastRb : Nat := 0xC0048
/-- BAR0 offset of RA_RB_MAX. -/
def Reg.raRbMax : Nat := 0xC004C
/-- BAR0 offset of RA_RANGE_COUNT. -/
def Reg.raRangeCount : Nat := 0xC0050
/-- BAR0 offset of LNK_CFG. -/
def Reg.lnkCfg (i : Nat) : Nat := 0x100000 + 65536 * i
/-- BAR0 offset of LNK_CTL. -/
def Reg.lnkCtl (i : Nat) : Nat := 0x100004 + 65536 * i
/-- BAR0 offset of LNK_STAT. -/
def Reg.lnkStat (i : Nat) : Nat := 0x100008 + 65536 * i
/-- BAR0 offset of LNK_CAUSE. -/
def Reg.lnkCause (i : Nat) : Nat := 0x10000C + 65536 * i
/-- BAR0 offset of LNK_TXEQ. -/
def Reg.lnkTxeq (i j : Nat) : Nat := 0x100010 + 65536 * i + 4 * j
/-- BAR0 offset of LNK_STALL_TO. -/
def Reg.lnkStallTo (i : Nat) : Nat := 0x100020 + 65536 * i
/-- BAR0 offset of FLITS_TX. -/
def Reg.flitsTx (i : Nat) : Nat := 0x100040 + 65536 * i
/-- BAR0 offset of FLITS_RX. -/
def Reg.flitsRx (i : Nat) : Nat := 0x100044 + 65536 * i
/-- BAR0 offset of CRC_ERR. -/
def Reg.crcErr (i : Nat) : Nat := 0x100048 + 65536 * i
/-- BAR0 offset of NAKS_SENT. -/
def Reg.naksSent (i : Nat) : Nat := 0x10004C + 65536 * i
/-- BAR0 offset of REPLAYS. -/
def Reg.replays (i : Nat) : Nat := 0x100050 + 65536 * i
/-- BAR0 offset of RETRY_FULL. -/
def Reg.retryFull (i : Nat) : Nat := 0x100054 + 65536 * i
/-- BAR0 offset of FEC_SYM_CORR. -/
def Reg.fecSymCorr (i : Nat) : Nat := 0x100058 + 65536 * i
/-- BAR0 offset of FEC_UNCORR. -/
def Reg.fecUncorr (i : Nat) : Nat := 0x10005C + 65536 * i
/-- BAR0 offset of BEAT_CORR. -/
def Reg.beatCorr (i : Nat) : Nat := 0x100060 + 65536 * i
/-- BAR0 offset of BEAT_UNCORR. -/
def Reg.beatUncorr (i : Nat) : Nat := 0x100064 + 65536 * i
/-- BAR0 offset of CT_CORRECTIONS. -/
def Reg.ctCorrections (i : Nat) : Nat := 0x100068 + 65536 * i
/-- BAR0 offset of RETRAINS. -/
def Reg.retrains (i : Nat) : Nat := 0x10006C + 65536 * i
/-- BAR0 offset of LANE_DEGRADE. -/
def Reg.laneDegrade (i : Nat) : Nat := 0x100070 + 65536 * i
/-- BAR0 offset of LINK_FAILS. -/
def Reg.linkFails (i : Nat) : Nat := 0x100074 + 65536 * i
/-- BAR0 offset of VL2_DROPPED. -/
def Reg.vl2Dropped (i : Nat) : Nat := 0x100078 + 65536 * i
/-- BAR0 offset of BAD_CTL. -/
def Reg.badCtl (i : Nat) : Nat := 0x10007C + 65536 * i
/-- BAR0 offset of LNK_RANGE_COUNT. -/
def Reg.lnkRangeCount (i : Nat) : Nat := 0x100080 + 65536 * i
/-- BAR0 offset of FAB_ID. -/
def Reg.fabId : Nat := 0x300000
/-- BAR0 offset of FAB_SERIAL_LO. -/
def Reg.fabSerialLo : Nat := 0x300004
/-- BAR0 offset of FAB_SERIAL_HI. -/
def Reg.fabSerialHi : Nat := 0x300008
/-- BAR0 offset of FAB_CFG. -/
def Reg.fabCfg : Nat := 0x30000C
/-- BAR0 offset of FAB_CTL. -/
def Reg.fabCtl : Nat := 0x300010
/-- BAR0 offset of FAB_STAT. -/
def Reg.fabStat : Nat := 0x300014
/-- BAR0 offset of FAB_CAUSE. -/
def Reg.fabCause : Nat := 0x300018
/-- BAR0 offset of FAB_EPOCH. -/
def Reg.fabEpoch : Nat := 0x30001C
/-- BAR0 offset of FAB_ROOT_LO. -/
def Reg.fabRootLo : Nat := 0x300020
/-- BAR0 offset of FAB_ROOT_HI. -/
def Reg.fabRootHi : Nat := 0x300024
/-- BAR0 offset of FAB_PARENT. -/
def Reg.fabParent : Nat := 0x300028
/-- BAR0 offset of FAB_CHILDREN. -/
def Reg.fabChildren : Nat := 0x30002C
/-- BAR0 offset of FAB_UP_MASK. -/
def Reg.fabUpMask : Nat := 0x300030
/-- BAR0 offset of FAB_QUIET. -/
def Reg.fabQuiet : Nat := 0x300034
/-- BAR0 offset of FAB_QUERY_TO. -/
def Reg.fabQueryTo : Nat := 0x300038
/-- BAR0 offset of FAB_FENCE_TO. -/
def Reg.fabFenceTo : Nat := 0x30003C
/-- BAR0 offset of FAB_DISCOVERIES. -/
def Reg.fabDiscoveries : Nat := 0x300040
/-- BAR0 offset of FAB_FAILOVERS. -/
def Reg.fabFailovers : Nat := 0x300044
/-- BAR0 offset of FAB_BAD_MSG. -/
def Reg.fabBadMsg : Nat := 0x300048
/-- BAR0 offset of FAB_TURN_ERR. -/
def Reg.fabTurnErr : Nat := 0x30004C
/-- BAR0 offset of FAB_NO_ROUTE. -/
def Reg.fabNoRoute : Nat := 0x300050
/-- BAR0 offset of FAB_ROOT_CONFLICT. -/
def Reg.fabRootConflict : Nat := 0x300054
/-- BAR0 offset of FAB_VL2_UNROUTED. -/
def Reg.fabVl2Unrouted : Nat := 0x300058
/-- BAR0 offset of FAB_RANGE_COUNT. -/
def Reg.fabRangeCount : Nat := 0x30005C
/-- BAR0 offset of FAB_ROUTE. -/
def Reg.fabRoute (j : Nat) : Nat := 0x301000 + 4 * j
/-- BAR0 offset of BND_OUT_MAP. -/
def Reg.bndOutMap (j : Nat) : Nat := 0x304000 + 4 * j
/-- BAR0 offset of BND_IN_MAP. -/
def Reg.bndInMap (j : Nat) : Nat := 0x308000 + 4 * j
/-- BAR0 offset of FAB_TOPO. -/
def Reg.fabTopo (j : Nat) : Nat := 0x320000 + 4 * j
/-- BAR0 offset of QCFG. -/
def Reg.qcfg (i : Nat) : Nat := 0x400000 + 256 * i
/-- BAR0 offset of QCTL. -/
def Reg.qctl (i : Nat) : Nat := 0x400004 + 256 * i
/-- BAR0 offset of QSTAT. -/
def Reg.qstat (i : Nat) : Nat := 0x400008 + 256 * i
/-- BAR0 offset of QRESULT. -/
def Reg.qresult (i : Nat) : Nat := 0x40000C + 256 * i
/-- BAR0 offset of QTIMER. -/
def Reg.qtimer (i : Nat) : Nat := 0x400010 + 256 * i
/-- BAR0 offset of QWPTR. -/
def Reg.qwptr (i : Nat) : Nat := 0x400014 + 256 * i
/-- BAR0 offset of QRPTR. -/
def Reg.qrptr (i : Nat) : Nat := 0x400018 + 256 * i
/-- BAR0 offset of QPWPTR. -/
def Reg.qpwptr (i : Nat) : Nat := 0x40001C + 256 * i
/-- BAR0 offset of QEPOCH. -/
def Reg.qepoch (i : Nat) : Nat := 0x400020 + 256 * i
/-- BAR0 offset of QEVENT. -/
def Reg.qevent (i : Nat) : Nat := 0x400024 + 256 * i
/-- BAR0 offset of QEVENT_EN. -/
def Reg.qeventEn (i : Nat) : Nat := 0x400028 + 256 * i
/-- BAR0 offset of Q_DROPPED. -/
def Reg.qDropped (i : Nat) : Nat := 0x400040 + 256 * i
/-- BAR0 offset of Q_SPILLS. -/
def Reg.qSpills (i : Nat) : Nat := 0x400044 + 256 * i
/-- BAR0 offset of Q_UNDERRUN. -/
def Reg.qUnderrun (i : Nat) : Nat := 0x400048 + 256 * i
/-- BAR0 offset of Q_FLUSHED. -/
def Reg.qFlushed (i : Nat) : Nat := 0x40004C + 256 * i
/-- BAR0 offset of FLUSH_DISCARD. -/
def Reg.flushDiscard (i : Nat) : Nat := 0x400050 + 256 * i
/-- BAR0 offset of Q_PEER_DISCARD. -/
def Reg.qPeerDiscard (i : Nat) : Nat := 0x400054 + 256 * i
/-- BAR0 offset of Q_CE. -/
def Reg.qCe (i : Nat) : Nat := 0x400058 + 256 * i
/-- BAR0 offset of Q_UE. -/
def Reg.qUe (i : Nat) : Nat := 0x40005C + 256 * i
/-- BAR0 offset of Q_STALE. -/
def Reg.qStale (i : Nat) : Nat := 0x400060 + 256 * i
/-- BAR0 offset of Q_LEVEL. -/
def Reg.qLevel (i : Nat) : Nat := 0x400064 + 256 * i
/-- BAR0 offset of Q_RANGE_COUNT. -/
def Reg.qRangeCount (i : Nat) : Nat := 0x400068 + 256 * i
/-- BAR0 offset of QH_DATA_LO. -/
def Reg.qhDataLo (i : Nat) : Nat := 0x400080 + 256 * i
/-- BAR0 offset of QH_DATA_HI. -/
def Reg.qhDataHi (i : Nat) : Nat := 0x400084 + 256 * i
/-- BAR0 offset of QH_PUSH. -/
def Reg.qhPush (i : Nat) : Nat := 0x400088 + 256 * i
/-- BAR0 offset of QH_POP. -/
def Reg.qhPop (i : Nat) : Nat := 0x40008C + 256 * i
/-- BAR0 offset of QH_POP_LO. -/
def Reg.qhPopLo (i : Nat) : Nat := 0x400090 + 256 * i
/-- BAR0 offset of QH_POP_HI. -/
def Reg.qhPopHi (i : Nat) : Nat := 0x400094 + 256 * i
/-- BAR0 offset of XING_BUSY_COUNT. -/
def Reg.xingBusyCount (i : Nat) : Nat := 0xB0070 + 256 * i
/-- BAR0 offset of XING_DISCARD. -/
def Reg.xingDiscard (i : Nat) : Nat := 0xB0074 + 256 * i
/-- BAR0 offset of XING_LATE. -/
def Reg.xingLate (i : Nat) : Nat := 0xB0078 + 256 * i
/-- BAR0 offset of XING_STALE. -/
def Reg.xingStale (i : Nat) : Nat := 0xB007C + 256 * i
/-- BAR0 offset of XING_RECONNECT. -/
def Reg.xingReconnect (i : Nat) : Nat := 0xB0080 + 256 * i
/-- BAR0 offset of XING_LOC. -/
def Reg.xingLoc (i : Nat) : Nat := 0xB0084 + 256 * i
/-- BAR0 offset of POOL_DESC_ID. -/
def Reg.poolDescId : Nat := 0x500000
/-- BAR0 offset of POOL_DESC_CMD. -/
def Reg.poolDescCmd : Nat := 0x500004
/-- BAR0 offset of POOL_DESC_STAT. -/
def Reg.poolDescStat : Nat := 0x500008
/-- BAR0 offset of POOL_RANGE_COUNT. -/
def Reg.poolRangeCount : Nat := 0x50000C
/-- BAR0 offset of POOL_VIOLATIONS. -/
def Reg.poolViolations : Nat := 0x500010
/-- BAR0 offset of POOL_MODEL_BAD. -/
def Reg.poolModelBad : Nat := 0x500014
/-- BAR0 offset of POOL_CFG_LOC. -/
def Reg.poolCfgLoc : Nat := 0x500018
/-- BAR0 offset of POOL_CFG_COUNT. -/
def Reg.poolCfgCount : Nat := 0x50001C
/-- BAR0 offset of POOL_DESC_DATA. -/
def Reg.poolDescData (j : Nat) : Nat := 0x500020 + 4 * j
/-- BAR0 offset of POOL_SEC_CFG. -/
def Reg.poolSecCfg (j : Nat) : Nat := 0x500040 + 4 * j
/-- BAR0 offset of HBM_STAT. -/
def Reg.hbmStat (j : Nat) : Nat := 0x500100 + 64 * j
/-- BAR0 offset of HBM_CE. -/
def Reg.hbmCe (j : Nat) : Nat := 0x500104 + 64 * j
/-- BAR0 offset of HBM_UE. -/
def Reg.hbmUe (j : Nat) : Nat := 0x500108 + 64 * j
/-- BAR0 offset of HBM_UE_LOC. -/
def Reg.hbmUeLoc (j : Nat) : Nat := 0x50010C + 64 * j
/-- BAR0 offset of HBM_ODECC. -/
def Reg.hbmOdecc (j : Nat) : Nat := 0x500110 + 64 * j
/-- BAR0 offset of HBM_RFM. -/
def Reg.hbmRfm (j : Nat) : Nat := 0x500114 + 64 * j
/-- BAR0 offset of HBM_TEMP. -/
def Reg.hbmTemp (j : Nat) : Nat := 0x500118 + 64 * j
/-- BAR0 offset of HBM_UE_LOC_HI. -/
def Reg.hbmUeLocHi (j : Nat) : Nat := 0x50011C + 64 * j
/-- BAR0 offset of PP_CFG. -/
def Reg.ppCfg (i : Nat) : Nat := 0x510000 + 256 * i
/-- BAR0 offset of PP_CTL. -/
def Reg.ppCtl (i : Nat) : Nat := 0x510004 + 256 * i
/-- BAR0 offset of PP_STAT. -/
def Reg.ppStat (i : Nat) : Nat := 0x510008 + 256 * i
/-- BAR0 offset of PP_BIND. -/
def Reg.ppBind (i j : Nat) : Nat := 0x510010 + 256 * i + 4 * j
/-- BAR0 offset of PP_HITS. -/
def Reg.ppHits (i : Nat) : Nat := 0x510040 + 256 * i
/-- BAR0 offset of PP_MISSES. -/
def Reg.ppMisses (i : Nat) : Nat := 0x510044 + 256 * i
/-- BAR0 offset of PP_WB_STALL. -/
def Reg.ppWbStall (i : Nat) : Nat := 0x510048 + 256 * i
/-- BAR0 offset of PP_WW_COUNT. -/
def Reg.ppWwCount (i : Nat) : Nat := 0x51004C + 256 * i
/-- BAR0 offset of PP_RANGE. -/
def Reg.ppRange (i : Nat) : Nat := 0x510050 + 256 * i
/-- BAR0 offset of PP_CE. -/
def Reg.ppCe (i : Nat) : Nat := 0x510054 + 256 * i
/-- BAR0 offset of PP_UE. -/
def Reg.ppUe (i : Nat) : Nat := 0x510058 + 256 * i
/-- BAR0 offset of EDDY_ID. -/
def Reg.eddyId (i : Nat) : Nat := 0x1000000 + 32768 * i
/-- BAR0 offset of EDDY_CTL. -/
def Reg.eddyCtl (i : Nat) : Nat := 0x1000004 + 32768 * i
/-- BAR0 offset of EDDY_STAT. -/
def Reg.eddyStat (i : Nat) : Nat := 0x1000008 + 32768 * i
/-- BAR0 offset of EDDY_ENTRY. -/
def Reg.eddyEntry (i : Nat) : Nat := 0x100000C + 32768 * i
/-- BAR0 offset of EDDY_PC. -/
def Reg.eddyPc (i : Nat) : Nat := 0x1000010 + 32768 * i
/-- BAR0 offset of EDDY_PIN_LO. -/
def Reg.eddyPinLo (i : Nat) : Nat := 0x1000014 + 32768 * i
/-- BAR0 offset of EDDY_PIN_HI. -/
def Reg.eddyPinHi (i : Nat) : Nat := 0x1000018 + 32768 * i
/-- BAR0 offset of EDDY_APERTURE. -/
def Reg.eddyAperture (i : Nat) : Nat := 0x100001C + 32768 * i
/-- BAR0 offset of EDDY_DOORBELL. -/
def Reg.eddyDoorbell (i : Nat) : Nat := 0x1000020 + 32768 * i
/-- BAR0 offset of EDDY_FW_ID. -/
def Reg.eddyFwId (i : Nat) : Nat := 0x1000024 + 32768 * i
/-- BAR0 offset of EDDY_SP_CE. -/
def Reg.eddySpCe (i : Nat) : Nat := 0x1000040 + 32768 * i
/-- BAR0 offset of EDDY_SP_UE. -/
def Reg.eddySpUe (i : Nat) : Nat := 0x1000044 + 32768 * i
/-- BAR0 offset of EDDY_UNALIGNED. -/
def Reg.eddyUnaligned (i : Nat) : Nat := 0x1000048 + 32768 * i
/-- BAR0 offset of EDDY_DMA_STARVE. -/
def Reg.eddyDmaStarve (i : Nat) : Nat := 0x100004C + 32768 * i
/-- BAR0 offset of EDDY_HOST_STARVED. -/
def Reg.eddyHostStarved (i : Nat) : Nat := 0x1000050 + 32768 * i
/-- BAR0 offset of EDDY_LEASE_PREEMPT. -/
def Reg.eddyLeasePreempt (i : Nat) : Nat := 0x1000054 + 32768 * i
/-- BAR0 offset of EDDY_IRQ_DELAYED. -/
def Reg.eddyIrqDelayed (i : Nat) : Nat := 0x1000058 + 32768 * i
/-- BAR0 offset of EDDY_IRQ_DELAY_NS. -/
def Reg.eddyIrqDelayNs (i : Nat) : Nat := 0x100005C + 32768 * i
/-- BAR0 offset of EDDY_WIPES. -/
def Reg.eddyWipes (i : Nat) : Nat := 0x1000060 + 32768 * i
/-- BAR0 offset of EDDY_REFUSED. -/
def Reg.eddyRefused (i : Nat) : Nat := 0x1000064 + 32768 * i
/-- BAR0 offset of EDDY_RANGE_COUNT. -/
def Reg.eddyRangeCount (i : Nat) : Nat := 0x1000068 + 32768 * i
/-- BAR0 offset of DEV_IDENT. -/
def Reg.devIdent : Nat := 0x0
/-- BAR0 offset of DEV_STEPPING. -/
def Reg.devStepping : Nat := 0x4
/-- BAR0 offset of DEV_IDCODE. -/
def Reg.devIdcode : Nat := 0x8
/-- BAR0 offset of CTX_CFG. -/
def Reg.ctxCfg (i : Nat) : Nat := 0x800000 + 4096 * i
/-- BAR0 offset of CTX_BASE_LO. -/
def Reg.ctxBaseLo (i : Nat) : Nat := 0x800004 + 4096 * i
/-- BAR0 offset of CTX_BASE_HI. -/
def Reg.ctxBaseHi (i : Nat) : Nat := 0x800008 + 4096 * i
/-- BAR0 offset of CTX_STAT. -/
def Reg.ctxStat (i : Nat) : Nat := 0x80000C + 4096 * i
/-- BAR0 offset of CTX_DOORBELL. -/
def Reg.ctxDoorbell (i : Nat) : Nat := 0x800010 + 4096 * i
/-- BAR0 offset of CTX_EVENT. -/
def Reg.ctxEvent (i : Nat) : Nat := 0x800014 + 4096 * i
/-- BAR0 offset of CTX_EVENT_EN. -/
def Reg.ctxEventEn (i : Nat) : Nat := 0x800018 + 4096 * i
/-- BAR0 offset of DMA_RING_LO. -/
def Reg.dmaRingLo (i : Nat) : Nat := 0x841000 + 256 * i
/-- BAR0 offset of DMA_RING_HI. -/
def Reg.dmaRingHi (i : Nat) : Nat := 0x841004 + 256 * i
/-- BAR0 offset of DMA_RING_SIZE. -/
def Reg.dmaRingSize (i : Nat) : Nat := 0x841008 + 256 * i
/-- BAR0 offset of DMA_TAIL. -/
def Reg.dmaTail (i : Nat) : Nat := 0x84100C + 256 * i
/-- BAR0 offset of DMA_HEAD. -/
def Reg.dmaHead (i : Nat) : Nat := 0x841010 + 256 * i
/-- BAR0 offset of HOST_DMA_STAT. -/
def Reg.hostDmaStat (i : Nat) : Nat := 0x841014 + 256 * i
/-- BAR0 offset of DMA_DONE_COUNT. -/
def Reg.dmaDoneCount (i : Nat) : Nat := 0x841018 + 256 * i
/-- BAR0 offset of DMA_ERR_COUNT. -/
def Reg.dmaErrCount (i : Nat) : Nat := 0x84101C + 256 * i
/-- BAR0 offset of HOST_LINK. -/
def Reg.hostLink : Nat := 0x840000
/-- BAR0 offset of HOST_UNMAPPED. -/
def Reg.hostUnmapped : Nat := 0x840004
/-- BAR0 offset of HOST_LOCKED_COUNT. -/
def Reg.hostLockedCount : Nat := 0x840008
/-- BAR0 offset of HOST_NOT_READY_COUNT. -/
def Reg.hostNotReadyCount : Nat := 0x84000C
/-- BAR0 offset of HOST_NA_COUNT. -/
def Reg.hostNaCount : Nat := 0x840010
/-- BAR0 offset of HOST_UE. -/
def Reg.hostUe : Nat := 0x840014
/-- BAR0 offset of HOST_FROZEN_DROP. -/
def Reg.hostFrozenDrop : Nat := 0x840018
/-- BAR0 offset of HOST_FROZEN_ABORT. -/
def Reg.hostFrozenAbort : Nat := 0x84001C
/-- BAR0 offset of HOST_RANGE_COUNT. -/
def Reg.hostRangeCount : Nat := 0x840020
/-- BAR0 offset of DTMR_CFG. -/
def Reg.dtmrCfg (j : Nat) : Nat := 0x200 + 16 * j
/-- BAR0 offset of DTMR_COUNT. -/
def Reg.dtmrCount (j : Nat) : Nat := 0x204 + 16 * j
/-- BAR0 offset of DTMR_EVENT. -/
def Reg.dtmrEvent (j : Nat) : Nat := 0x208 + 16 * j
/-- BAR0 offset of DTMR_EXPIRIES. -/
def Reg.dtmrExpiries (j : Nat) : Nat := 0x20C + 16 * j
/-- BAR0 offset of LDR_STAT. -/
def Reg.ldrStat : Nat := 0x20000
/-- BAR0 offset of LDR_RESULT. -/
def Reg.ldrResult : Nat := 0x20004
/-- BAR0 offset of LDR_ATTEMPT. -/
def Reg.ldrAttempt (j : Nat) : Nat := 0x20008 + 4 * j
/-- BAR0 offset of LDR_LOC. -/
def Reg.ldrLoc : Nat := 0x20010
/-- BAR0 offset of LDR_PROGRESS. -/
def Reg.ldrProgress : Nat := 0x20014
/-- BAR0 offset of LDR_BOOT. -/
def Reg.ldrBoot : Nat := 0x20018
/-- BAR0 offset of LDR_STARTUP. -/
def Reg.ldrStartup : Nat := 0x2001C
/-- BAR0 offset of LDR_TIME. -/
def Reg.ldrTime : Nat := 0x20020
/-- BAR0 offset of LDR_LOADS. -/
def Reg.ldrLoads : Nat := 0x20024
/-- BAR0 offset of LDR_FAILS. -/
def Reg.ldrFails : Nat := 0x20028
/-- BAR0 offset of LDR_FALLBACKS. -/
def Reg.ldrFallbacks : Nat := 0x2002C
/-- BAR0 offset of LDR_CLAIM_Q. -/
def Reg.ldrClaimQ : Nat := 0x20030
/-- BAR0 offset of LDR_CLAIM_OWNER. -/
def Reg.ldrClaimOwner : Nat := 0x20034
/-- BAR0 offset of LDR_RANGE_COUNT. -/
def Reg.ldrRangeCount : Nat := 0x20038
/-- BAR0 offset of LDR_IMAGE_ID. -/
def Reg.ldrImageId (j : Nat) : Nat := 0x20040 + 4 * j
/-- BAR0 offset of LDR_SLOT_LEN. -/
def Reg.ldrSlotLen (j : Nat) : Nat := 0x20060 + 4 * j
/-- BAR0 offset of MBX_CTL. -/
def Reg.mbxCtl : Nat := 0x10000
/-- BAR0 offset of MBX_STAT. -/
def Reg.mbxStat : Nat := 0x10004
/-- BAR0 offset of MBX_CTR_LO. -/
def Reg.mbxCtrLo : Nat := 0x10008
/-- BAR0 offset of MBX_CTR_HI. -/
def Reg.mbxCtrHi : Nat := 0x1000C
/-- BAR0 offset of MBX_TAG_FAILS. -/
def Reg.mbxTagFails : Nat := 0x10010
/-- BAR0 offset of MBX_ACCEPTED. -/
def Reg.mbxAccepted : Nat := 0x10014
/-- BAR0 offset of MBX_REFUSED. -/
def Reg.mbxRefused : Nat := 0x10018
/-- BAR0 offset of MBX_RANGE_COUNT. -/
def Reg.mbxRangeCount : Nat := 0x1001C
/-- BAR0 offset of MBX_BUF. -/
def Reg.mbxBuf (j : Nat) : Nat := 0x10800 + 4 * j
/-- BAR0 offset of LC_STATE. -/
def Reg.lcState : Nat := 0x30000
/-- BAR0 offset of LC_POLICY. -/
def Reg.lcPolicy : Nat := 0x30004
/-- BAR0 offset of LC_KEY_STAT. -/
def Reg.lcKeyStat : Nat := 0x30008
/-- BAR0 offset of LC_KCV_FUSE. -/
def Reg.lcKcvFuse : Nat := 0x3000C
/-- BAR0 offset of LC_KCV_BBK. -/
def Reg.lcKcvBbk : Nat := 0x30010
/-- BAR0 offset of LC_FLOOR1_LO. -/
def Reg.lcFloor1Lo : Nat := 0x30014
/-- BAR0 offset of LC_FLOOR1_HI. -/
def Reg.lcFloor1Hi : Nat := 0x30018
/-- BAR0 offset of LC_FLOOR2_LO. -/
def Reg.lcFloor2Lo : Nat := 0x3001C
/-- BAR0 offset of LC_FLOOR2_HI. -/
def Reg.lcFloor2Hi : Nat := 0x30020
/-- BAR0 offset of LC_VBAT. -/
def Reg.lcVbat : Nat := 0x30024
/-- BAR0 offset of TAMPER_STAT. -/
def Reg.tamperStat : Nat := 0x30030
/-- BAR0 offset of TAMPER_EVENT. -/
def Reg.tamperEvent : Nat := 0x30034
/-- BAR0 offset of TAMPER_COUNT. -/
def Reg.tamperCount : Nat := 0x30038
/-- BAR0 offset of LC_SLOT_WEAR. -/
def Reg.lcSlotWear (j : Nat) : Nat := 0x30040 + 4 * j
/-- BAR0 offset of FRZ_CTX. -/
def Reg.frzCtx (j : Nat) : Nat := 0x40000 + 4 * j
/-- BAR0 offset of FRZ_DMA. -/
def Reg.frzDma : Nat := 0x40008
/-- BAR0 offset of FRZ_EDDY. -/
def Reg.frzEddy (j : Nat) : Nat := 0x40010 + 4 * j
/-- BAR0 offset of FRZ_PORT. -/
def Reg.frzPort (j : Nat) : Nat := 0x40050 + 4 * j
/-- BAR0 offset of FRZ_REMOTE. -/
def Reg.frzRemote (j : Nat) : Nat := 0x40070 + 4 * j
/-- BAR0 offset of FRZ_REC_COUNT. -/
def Reg.frzRecCount : Nat := 0x40100
/-- BAR0 offset of FRZ_POP. -/
def Reg.frzPop : Nat := 0x40104
/-- BAR0 offset of FRZ_DROPPED. -/
def Reg.frzDropped : Nat := 0x40108
/-- BAR0 offset of FRZ_TOTAL. -/
def Reg.frzTotal : Nat := 0x4010C
/-- BAR0 offset of FRZ_REC. -/
def Reg.frzRec (j : Nat) : Nat := 0x40120 + 4 * j
/-- BAR0 offset of SCR_CFG. -/
def Reg.scrCfg (i : Nat) : Nat := 0x600000 + 256 * i
/-- BAR0 offset of SCR_STAT. -/
def Reg.scrStat (i : Nat) : Nat := 0x600004 + 256 * i
/-- BAR0 offset of SCR_CE. -/
def Reg.scrCe (i : Nat) : Nat := 0x600008 + 256 * i
/-- BAR0 offset of SCR_UE. -/
def Reg.scrUe (i : Nat) : Nat := 0x60000C + 256 * i
/-- BAR0 offset of SCR_SHADOW_FIX. -/
def Reg.scrShadowFix (i : Nat) : Nat := 0x600010 + 256 * i
/-- BAR0 offset of SCR_LOST. -/
def Reg.scrLost (i : Nat) : Nat := 0x600014 + 256 * i
/-- BAR0 offset of SCR_LOC. -/
def Reg.scrLoc (i : Nat) : Nat := 0x600018 + 256 * i
/-- BAR0 offset of SCR_LOC_TICK. -/
def Reg.scrLocTick (i : Nat) : Nat := 0x60001C + 256 * i
/-- BAR0 offset of SCR_CYCLES. -/
def Reg.scrCycles (i : Nat) : Nat := 0x600020 + 256 * i
/-- BAR0 offset of SCR_TMR_FIX. -/
def Reg.scrTmrFix (i : Nat) : Nat := 0x600024 + 256 * i
/-- BAR0 offset of SCR_PEER_FIX. -/
def Reg.scrPeerFix (i : Nat) : Nat := 0x600028 + 256 * i
/-- BAR0 offset of SCR_WDOG. -/
def Reg.scrWdog (i : Nat) : Nat := 0x60002C + 256 * i
/-- BAR0 offset of SCR_FR_HIT. -/
def Reg.scrFrHit (i : Nat) : Nat := 0x600030 + 256 * i
/-- BAR0 offset of SCR_RB_DENIED. -/
def Reg.scrRbDenied (i : Nat) : Nat := 0x600034 + 256 * i
/-- BAR0 offset of SCR_RANGE_COUNT. -/
def Reg.scrRangeCount (i : Nat) : Nat := 0x600038 + 256 * i
/-- BAR0 offset of REP_COLMAP. -/
def Reg.repColmap (i j : Nat) : Nat := 0x600040 + 256 * i + 4 * j
/-- BAR0 offset of REP_STAT. -/
def Reg.repStat (i : Nat) : Nat := 0x600080 + 256 * i
/-- BAR0 offset of REP_XLAT_Q. -/
def Reg.repXlatQ (i : Nat) : Nat := 0x600084 + 256 * i
/-- BAR0 offset of REP_XLAT_A. -/
def Reg.repXlatA (i : Nat) : Nat := 0x600088 + 256 * i
/-- BAR0 offset of TEST_HEALTH. -/
def Reg.testHealth : Nat := 0x601000
/-- BAR0 offset of TEST_SUMMARY. -/
def Reg.testSummary : Nat := 0x601004
/-- BAR0 offset of TEST_RESULT. -/
def Reg.testResult : Nat := 0x601008
/-- BAR0 offset of TEST_BG_CFG. -/
def Reg.testBgCfg : Nat := 0x60100C
/-- BAR0 offset of TEST_BG_STAT. -/
def Reg.testBgStat : Nat := 0x601010
/-- BAR0 offset of TEST_BG_DONE. -/
def Reg.testBgDone : Nat := 0x601014
/-- BAR0 offset of TEST_BG_PREEMPT. -/
def Reg.testBgPreempt : Nat := 0x601018
/-- BAR0 offset of TEST_BG_FAIL. -/
def Reg.testBgFail : Nat := 0x60101C
/-- BAR0 offset of TEST_RANGE_COUNT. -/
def Reg.testRangeCount : Nat := 0x601020
/-- BAR0 offset of TEST_FAIL_LOG. -/
def Reg.testFailLog (j : Nat) : Nat := 0x601040 + 4 * j
/-- BAR0 offset of SCR_RB_SEL. -/
def Reg.scrRbSel : Nat := 0x601100
/-- BAR0 offset of TEST_RAW_CTL. -/
def Reg.testRawCtl : Nat := 0x602000
/-- BAR0 offset of TEST_RAW_PAT. -/
def Reg.testRawPat (j : Nat) : Nat := 0x602100 + 4 * j
/-- BAR0 offset of TEST_RAW_SIG. -/
def Reg.testRawSig (j : Nat) : Nat := 0x602200 + 4 * j
/-- BAR0 offset of TRC_CFG. -/
def Reg.trcCfg : Nat := 0x700000
/-- BAR0 offset of TRC_CTL. -/
def Reg.trcCtl : Nat := 0x700004
/-- BAR0 offset of TRC_STAT. -/
def Reg.trcStat : Nat := 0x700008
/-- BAR0 offset of TRC_RING_POOL. -/
def Reg.trcRingPool : Nat := 0x70000C
/-- BAR0 offset of TRC_WP_LO. -/
def Reg.trcWpLo : Nat := 0x700010
/-- BAR0 offset of TRC_WP_HI. -/
def Reg.trcWpHi : Nat := 0x700014
/-- BAR0 offset of TRC_RP_LO. -/
def Reg.trcRpLo : Nat := 0x700018
/-- BAR0 offset of TRC_RP_HI. -/
def Reg.trcRpHi : Nat := 0x70001C
/-- BAR0 offset of TRC_OLDEST_LO. -/
def Reg.trcOldestLo : Nat := 0x700020
/-- BAR0 offset of TRC_OLDEST_HI. -/
def Reg.trcOldestHi : Nat := 0x700024
/-- BAR0 offset of TRC_SNAP_POOL. -/
def Reg.trcSnapPool : Nat := 0x700028
/-- BAR0 offset of TRC_SNAP_TICK_LO. -/
def Reg.trcSnapTickLo : Nat := 0x70002C
/-- BAR0 offset of TRC_SNAP_TICK_HI. -/
def Reg.trcSnapTickHi : Nat := 0x700030
/-- BAR0 offset of TRC_EXPORT. -/
def Reg.trcExport : Nat := 0x700034
/-- BAR0 offset of TRC_EVENT. -/
def Reg.trcEvent : Nat := 0x700038
/-- BAR0 offset of TRC_EVENT_EN. -/
def Reg.trcEventEn : Nat := 0x70003C
/-- BAR0 offset of TRC_SAMPLES. -/
def Reg.trcSamples : Nat := 0x700040
/-- BAR0 offset of TRC_DROPPED. -/
def Reg.trcDropped : Nat := 0x700044
/-- BAR0 offset of TRC_GAPS. -/
def Reg.trcGaps : Nat := 0x700048
/-- BAR0 offset of TRC_VOIDS. -/
def Reg.trcVoids : Nat := 0x70004C
/-- BAR0 offset of TRC_EXPORT_DROP. -/
def Reg.trcExportDrop : Nat := 0x700050
/-- BAR0 offset of TRC_SNAPS. -/
def Reg.trcSnaps : Nat := 0x700054
/-- BAR0 offset of TRC_RANGE_COUNT. -/
def Reg.trcRangeCount : Nat := 0x700058
/-- BAR0 offset of TRC_SEC_CFG. -/
def Reg.trcSecCfg (j : Nat) : Nat := 0x700060 + 4 * j
/-- BAR0 offset of PKG_STRAPS. -/
def Reg.pkgStraps : Nat := 0x100
/-- BAR0 offset of CLK_SPREAD. -/
def Reg.clkSpread : Nat := 0x104
/-- BAR0 offset of TEMP_WARN. -/
def Reg.tempWarn : Nat := 0x108
/-- BAR0 offset of THERM_STAT. -/
def Reg.thermStat : Nat := 0x10C
/-- BAR0 offset of THERM_EN. -/
def Reg.thermEn : Nat := 0x110
/-- BAR0 offset of DIE_TEMP. -/
def Reg.dieTemp (j : Nat) : Nat := 0x114 + 4 * j
/-- BAR0 offset of LNK_FWD. -/
def Reg.lnkFwd (i j : Nat) : Nat := 0x108000 + 65536 * i + 4 * j
/-- BAR0 offset of RA_PRED. -/
def Reg.raPred (j : Nat) : Nat := 0xC1000 + 4 * j
/-- BAR0 offset of MSIX_ADDR_LO. -/
def Reg.msixAddrLo (i : Nat) : Nat := 0x880000 + 16 * i
/-- BAR0 offset of MSIX_ADDR_HI. -/
def Reg.msixAddrHi (i : Nat) : Nat := 0x880004 + 16 * i
/-- BAR0 offset of MSIX_DATA. -/
def Reg.msixData (i : Nat) : Nat := 0x880008 + 16 * i
/-- BAR0 offset of MSIX_CTL. -/
def Reg.msixCtl (i : Nat) : Nat := 0x88000C + 16 * i
/-- BAR0 offset of QCFG_LOC. -/
def Reg.qcfgLoc (i : Nat) : Nat := 0xB0068 + 256 * i
/-- BAR0 offset of QCFG_COUNT. -/
def Reg.qcfgCount (i : Nat) : Nat := 0xB006C + 256 * i
/-- BAR0 offset of TRC_PROBE. -/
def Reg.trcProbe (i j : Nat) : Nat := 0x701000 + 4096 * i + 4 * j

/-- The register rows of chapter 01 of the spec. -/
def regRows01 : List RegRow :=
  [ ⟨0x40, 1, 0, 1, 0, .ro, 0x0, 0x0⟩,
    ⟨0x44, 1, 0, 1, 0, .ro, 0x1, 0x0⟩,
    ⟨0x48, 1, 0, 1, 0, .w1c, 0x1, 0xFF⟩,
    ⟨0x4C, 1, 0, 1, 0, .rw, 0x0, 0xFF⟩,
    ⟨0x50, 1, 0, 1, 0, .rc, 0x0, 0x0⟩ ]

/-- The register rows of chapter 02 of the spec. -/
def regRows02 : List RegRow :=
  [ ⟨0xB0000, 8, 256, 1, 0, .ro, 0x0, 0x0⟩,
    ⟨0xB0004, 8, 256, 1, 0, .ro, 0x0, 0x0⟩,
    ⟨0xB0008, 8, 256, 1, 0, .rc, 0x0, 0x0⟩,
    ⟨0xB000C, 8, 256, 1, 0, .rc, 0x0, 0x0⟩,
    ⟨0xB0010, 8, 256, 1, 0, .rc, 0x0, 0x0⟩,
    ⟨0xB0014, 8, 256, 1, 0, .rc, 0x0, 0x0⟩,
    ⟨0xB0018, 8, 256, 1, 0, .ro, 0x0, 0x0⟩,
    ⟨0xB001C, 8, 256, 1, 0, .ro, 0x1, 0x0⟩,
    ⟨0xB0800, 1, 0, 1, 0, .wo, 0x0, 0x0⟩,
    ⟨0xB0804, 1, 0, 1, 0, .ro, 0x0, 0x0⟩,
    ⟨0xB0808, 1, 0, 1, 0, .rc, 0x0, 0x0⟩ ]

/-- The register rows of chapter 03 of the spec. -/
def regRows03 : List RegRow :=
  [ ⟨0xB0020, 8, 256, 1, 0, .ro, 0x0, 0x0⟩,
    ⟨0xB0024, 8, 256, 1, 0, .ro, 0x0, 0x0⟩,
    ⟨0xB0028, 8, 256, 1, 0, .ro, 0x0, 0x0⟩,
    ⟨0xB002C, 8, 256, 1, 0, .rc, 0x0, 0x0⟩,
    ⟨0xB0030, 8, 256, 1, 0, .rc, 0x0, 0x0⟩,
    ⟨0xB0034, 8, 256, 1, 0, .ro, 0x0, 0x0⟩ ]

/-- The register rows of chapter 04 of the spec. -/
def regRows04 : List RegRow :=
  [ ⟨0xB0040, 8, 256, 1, 0, .rc, 0x0, 0x0⟩,
    ⟨0xB0044, 8, 256, 1, 0, .rc, 0x0, 0x0⟩,
    ⟨0xB0048, 8, 256, 1, 0, .rc, 0x0, 0x0⟩,
    ⟨0xB004C, 8, 256, 1, 0, .rc, 0x0, 0x0⟩,
    ⟨0xB0050, 8, 256, 1, 0, .rc, 0x0, 0x0⟩,
    ⟨0xB0054, 8, 256, 1, 0, .rc, 0x0, 0x0⟩,
    ⟨0xB0058, 8, 256, 1, 0, .rc, 0x0, 0x0⟩,
    ⟨0xB005C, 8, 256, 1, 0, .ro, 0x0, 0x0⟩,
    ⟨0xB0060, 8, 256, 1, 0, .ro, 0x0, 0x0⟩,
    ⟨0xB0064, 8, 256, 1, 0, .ro, 0x0, 0x0⟩ ]

/-- The register rows of chapter 05 of the spec. -/
def regRows05 : List RegRow :=
  [ ⟨0x80000, 1, 0, 1, 0, .ro, 0x0, 0x0⟩,
    ⟨0x80004, 1, 0, 1, 0, .wo, 0x0, 0x0⟩,
    ⟨0x80008, 1, 0, 1, 0, .ro, 0x0, 0x0⟩,
    ⟨0x8000C, 1, 0, 1, 0, .ro, 0x0, 0x0⟩,
    ⟨0x80010, 1, 0, 1, 0, .ro, 0x0, 0x0⟩,
    ⟨0x80014, 1, 0, 1, 0, .ro, 0x0, 0x0⟩,
    ⟨0x80018, 1, 0, 1, 0, .rw, 0x0, 0xFFFFFFFF⟩,
    ⟨0x8001C, 1, 0, 1, 0, .rw, 0x0, 0x8000FFFF⟩,
    ⟨0x80020, 1, 0, 1, 0, .rw, 0x0, 0x1D⟩,
    ⟨0x80024, 1, 0, 1, 0, .rw, 0x190, 0xFFFFFF⟩,
    ⟨0x80028, 1, 0, 1, 0, .rw, 0x3E8, 0xFFFFF⟩,
    ⟨0x8002C, 1, 0, 1, 0, .rw, 0x0, 0xFF⟩,
    ⟨0x80030, 1, 0, 1, 0, .rw, 0x1, 0x1FFF⟩,
    ⟨0x80034, 1, 0, 1, 0, .rw, 0x0, 0xFFF⟩,
    ⟨0x80038, 1, 0, 1, 0, .ro, 0x0, 0x0⟩,
    ⟨0x8003C, 1, 0, 1, 0, .rc, 0x0, 0x0⟩,
    ⟨0x80040, 1, 0, 1, 0, .ro, 0x0, 0x0⟩,
    ⟨0x80044, 1, 0, 1, 0, .rc, 0x0, 0x0⟩,
    ⟨0x80048, 1, 0, 1, 0, .rc, 0x0, 0x0⟩,
    ⟨0x8004C, 1, 0, 1, 0, .ro, 0x0, 0x0⟩,
    ⟨0x80050, 1, 0, 1, 0, .rc, 0x0, 0x0⟩,
    ⟨0x80054, 1, 0, 1, 0, .rc, 0x0, 0x0⟩,
    ⟨0x80058, 1, 0, 1, 0, .rc, 0x0, 0x0⟩,
    ⟨0x8005C, 1, 0, 1, 0, .ro, 0x0, 0x0⟩,
    ⟨0x80060, 1, 0, 1, 0, .ro, 0x0, 0x0⟩,
    ⟨0x80064, 1, 0, 1, 0, .rc, 0x0, 0x0⟩,
    ⟨0x80070, 1, 0, 5, 4, .rc, 0x0, 0x0⟩,
    ⟨0x80100, 1, 0, 1, 0, .rw, 0x3841F40, 0x3FF3FF3⟩,
    ⟨0x80104, 1, 0, 1, 0, .rw, 0x1B8, 0x1FF⟩,
    ⟨0x80108, 1, 0, 1, 0, .ro, 0x0, 0x0⟩,
    ⟨0x8010C, 1, 0, 1, 0, .ro, 0x0, 0x0⟩,
    ⟨0x80110, 1, 0, 1, 0, .rc, 0x0, 0x0⟩,
    ⟨0x80114, 1, 0, 1, 0, .rc, 0x0, 0x0⟩,
    ⟨0x80120, 1, 0, 8, 4, .rw, 0x0, 0x3FF⟩,
    ⟨0x80140, 1, 0, 9, 4, .ro, 0x0, 0x0⟩,
    ⟨0x90000, 1, 0, 1, 0, .rw, 0xFFFFFFFF, 0xFFFFFFFF⟩,
    ⟨0x90008, 1, 0, 4095, 8, .rw, 0x0, 0xFFFFFFFF⟩,
    ⟨0x90004, 1, 0, 1, 0, .rw, 0xFFFFFFFF, 0xFFFFFFFF⟩,
    ⟨0x9000C, 1, 0, 4095, 8, .rw, 0x0, 0xFFFFFFFF⟩ ]

/-- The register rows of chapter 06 of the spec. -/
def regRows06 : List RegRow :=
  [ ⟨0xC0000, 1, 0, 1, 0, .rw, 0x0, 0x1FFFF1F⟩,
    ⟨0xC0004, 1, 0, 1, 0, .ro, 0x0, 0x0⟩,
    ⟨0xC0008, 1, 0, 1, 0, .ro, 0x0, 0x0⟩,
    ⟨0xC000C, 1, 0, 1, 0, .ro, 0x0, 0x0⟩,
    ⟨0xC0010, 1, 0, 1, 0, .ro, 0x0, 0x0⟩,
    ⟨0xC0014, 1, 0, 1, 0, .ro, 0x0, 0x0⟩,
    ⟨0xC0018, 1, 0, 1, 0, .rw, 0xA, 0xFFFF⟩,
    ⟨0xC001C, 1, 0, 1, 0, .rc, 0x0, 0x0⟩,
    ⟨0xC0020, 1, 0, 1, 0, .rc, 0x0, 0x0⟩,
    ⟨0xC0024, 1, 0, 1, 0, .rc, 0x0, 0x0⟩,
    ⟨0xC0028, 1, 0, 1, 0, .rc, 0x0, 0x0⟩,
    ⟨0xC002C, 1, 0, 1, 0, .rc, 0x0, 0x0⟩,
    ⟨0xC0030, 1, 0, 1, 0, .rc, 0x0, 0x0⟩,
    ⟨0xC0034, 1, 0, 1, 0, .rc, 0x0, 0x0⟩,
    ⟨0xC0038, 1, 0, 1, 0, .rc, 0x0, 0x0⟩,
    ⟨0xC003C, 1, 0, 1, 0, .rc, 0x0, 0x0⟩,
    ⟨0xC0040, 1, 0, 1, 0, .rc, 0x0, 0x0⟩,
    ⟨0xC0044, 1, 0, 1, 0, .rc, 0x0, 0x0⟩,
    ⟨0xC0048, 1, 0, 1, 0, .rc, 0x0, 0x0⟩,
    ⟨0xC004C, 1, 0, 1, 0, .rc, 0x0, 0x0⟩,
    ⟨0xC0050, 1, 0, 1, 0, .rc, 0x0, 0x0⟩,
    ⟨0xC1000, 1, 0, 4096, 4, .rw, 0x0, 0xF3⟩ ]

/-- The register rows of chapter 07 of the spec. -/
def regRows07 : List RegRow :=
  [ ⟨0x100000, 16, 65536, 1, 0, .rw, 0x3A, 0x3F3F⟩,
    ⟨0x200000, 4, 65536, 1, 0, .rw, 0x900, 0x3F3F⟩,
    ⟨0x100004, 20, 65536, 1, 0, .wo, 0x0, 0x0⟩,
    ⟨0x100008, 20, 65536, 1, 0, .ro, 0x0, 0x0⟩,
    ⟨0x10000C, 20, 65536, 1, 0, .ro, 0x1, 0x0⟩,
    ⟨0x100010, 20, 65536, 4, 4, .rw, 0x0, 0xFFFF⟩,
    ⟨0x100020, 20, 65536, 1, 0, .rw, 0x64, 0xFFFF⟩,
    ⟨0x100040, 20, 65536, 1, 0, .rc, 0x0, 0x0⟩,
    ⟨0x100044, 20, 65536, 1, 0, .rc, 0x0, 0x0⟩,
    ⟨0x100048, 20, 65536, 1, 0, .rc, 0x0, 0x0⟩,
    ⟨0x10004C, 20, 65536, 1, 0, .rc, 0x0, 0x0⟩,
    ⟨0x100050, 20, 65536, 1, 0, .rc, 0x0, 0x0⟩,
    ⟨0x100054, 20, 65536, 1, 0, .rc, 0x0, 0x0⟩,
    ⟨0x100058, 20, 65536, 1, 0, .rc, 0x0, 0x0⟩,
    ⟨0x10005C, 20, 65536, 1, 0, .rc, 0x0, 0x0⟩,
    ⟨0x100060, 20, 65536, 1, 0, .rc, 0x0, 0x0⟩,
    ⟨0x100064, 20, 65536, 1, 0, .rc, 0x0, 0x0⟩,
    ⟨0x100068, 20, 65536, 1, 0, .rc, 0x0, 0x0⟩,
    ⟨0x10006C, 20, 65536, 1, 0, .rc, 0x0, 0x0⟩,
    ⟨0x100070, 20, 65536, 1, 0, .rc, 0x0, 0x0⟩,
    ⟨0x100074, 20, 65536, 1, 0, .rc, 0x0, 0x0⟩,
    ⟨0x100078, 20, 65536, 1, 0, .rc, 0x0, 0x0⟩,
    ⟨0x10007C, 20, 65536, 1, 0, .rc, 0x0, 0x0⟩,
    ⟨0x100080, 20, 65536, 1, 0, .rc, 0x0, 0x0⟩,
    ⟨0x108000, 20, 65536, 1024, 4, .ro, 0x0, 0x0⟩ ]

/-- The register rows of chapter 08 of the spec. -/
def regRows08 : List RegRow :=
  [ ⟨0x300000, 1, 0, 1, 0, .ro, 0x3FE, 0x0⟩,
    ⟨0x300004, 1, 0, 1, 0, .ro, 0x0, 0x0⟩,
    ⟨0x300008, 1, 0, 1, 0, .ro, 0x0, 0x0⟩,
    ⟨0x30000C, 1, 0, 1, 0, .rw, 0x1, 0x1⟩,
    ⟨0x300010, 1, 0, 1, 0, .wo, 0x0, 0x0⟩,
    ⟨0x300014, 1, 0, 1, 0, .ro, 0x0, 0x0⟩,
    ⟨0x300018, 1, 0, 1, 0, .ro, 0x0, 0x0⟩,
    ⟨0x30001C, 1, 0, 1, 0, .ro, 0x0, 0x0⟩,
    ⟨0x300020, 1, 0, 1, 0, .ro, 0x0, 0x0⟩,
    ⟨0x300024, 1, 0, 1, 0, .ro, 0x0, 0x0⟩,
    ⟨0x300028, 1, 0, 1, 0, .ro, 0x0, 0x0⟩,
    ⟨0x30002C, 1, 0, 1, 0, .ro, 0x0, 0x0⟩,
    ⟨0x300030, 1, 0, 1, 0, .ro, 0x0, 0x0⟩,
    ⟨0x300034, 1, 0, 1, 0, .rw, 0xC8, 0xFFFF⟩,
    ⟨0x300038, 1, 0, 1, 0, .rw, 0x64, 0xFFFF⟩,
    ⟨0x30003C, 1, 0, 1, 0, .rw, 0x3E8, 0xFFFF⟩,
    ⟨0x300040, 1, 0, 1, 0, .rc, 0x0, 0x0⟩,
    ⟨0x300044, 1, 0, 1, 0, .rc, 0x0, 0x0⟩,
    ⟨0x300048, 1, 0, 1, 0, .rc, 0x0, 0x0⟩,
    ⟨0x30004C, 1, 0, 1, 0, .rc, 0x0, 0x0⟩,
    ⟨0x300050, 1, 0, 1, 0, .rc, 0x0, 0x0⟩,
    ⟨0x300054, 1, 0, 1, 0, .rc, 0x0, 0x0⟩,
    ⟨0x300058, 1, 0, 1, 0, .rc, 0x0, 0x0⟩,
    ⟨0x30005C, 1, 0, 1, 0, .rc, 0x0, 0x0⟩,
    ⟨0x301000, 1, 0, 1024, 4, .ro, 0x0, 0x0⟩,
    ⟨0x304000, 1, 0, 4096, 4, .ro, 0x0, 0x0⟩,
    ⟨0x308000, 1, 0, 4096, 4, .ro, 0x0, 0x0⟩,
    ⟨0x320000, 1, 0, 65536, 4, .ro, 0x0, 0x0⟩ ]

/-- The register rows of chapter 09 of the spec. -/
def regRows09 : List RegRow :=
  [ ⟨0x400000, 2048, 256, 1, 0, .rw, 0x0, 0xFFFF1F⟩,
    ⟨0x400004, 2048, 256, 1, 0, .wo, 0x0, 0x0⟩,
    ⟨0x400008, 2048, 256, 1, 0, .ro, 0x80, 0x0⟩,
    ⟨0x40000C, 2048, 256, 1, 0, .ro, 0x0, 0x0⟩,
    ⟨0x400010, 2048, 256, 1, 0, .rw, 0x0, 0xFFFF⟩,
    ⟨0x400014, 2048, 256, 1, 0, .ro, 0x0, 0x0⟩,
    ⟨0x400018, 2048, 256, 1, 0, .ro, 0x0, 0x0⟩,
    ⟨0x40001C, 2048, 256, 1, 0, .ro, 0x0, 0x0⟩,
    ⟨0x400020, 2048, 256, 1, 0, .ro, 0x0, 0x0⟩,
    ⟨0x400024, 2048, 256, 1, 0, .w1c, 0x0, 0x1FF⟩,
    ⟨0x400028, 2048, 256, 1, 0, .rw, 0x0, 0x1FF⟩,
    ⟨0x400040, 2048, 256, 1, 0, .rc, 0x0, 0x0⟩,
    ⟨0x400044, 2048, 256, 1, 0, .rc, 0x0, 0x0⟩,
    ⟨0x400048, 2048, 256, 1, 0, .rc, 0x0, 0x0⟩,
    ⟨0x40004C, 2048, 256, 1, 0, .rc, 0x0, 0x0⟩,
    ⟨0x400050, 2048, 256, 1, 0, .rc, 0x0, 0x0⟩,
    ⟨0x400054, 2048, 256, 1, 0, .rc, 0x0, 0x0⟩,
    ⟨0x400058, 2048, 256, 1, 0, .rc, 0x0, 0x0⟩,
    ⟨0x40005C, 2048, 256, 1, 0, .rc, 0x0, 0x0⟩,
    ⟨0x400060, 2048, 256, 1, 0, .rc, 0x0, 0x0⟩,
    ⟨0x400064, 2048, 256, 1, 0, .rc, 0x0, 0x0⟩,
    ⟨0x400068, 2048, 256, 1, 0, .rc, 0x0, 0x0⟩,
    ⟨0x400080, 2048, 256, 1, 0, .rw, 0x0, 0xFFFFFFFF⟩,
    ⟨0x400084, 2048, 256, 1, 0, .rw, 0x0, 0xFFFFFFFF⟩,
    ⟨0x400088, 2048, 256, 1, 0, .wo, 0x0, 0x0⟩,
    ⟨0x40008C, 2048, 256, 1, 0, .rc, 0x0, 0x0⟩,
    ⟨0x400090, 2048, 256, 1, 0, .ro, 0x0, 0x0⟩,
    ⟨0x400094, 2048, 256, 1, 0, .ro, 0x0, 0x0⟩,
    ⟨0xB0068, 8, 256, 1, 0, .ro, 0x0, 0x0⟩,
    ⟨0xB006C, 8, 256, 1, 0, .ro, 0x0, 0x0⟩ ]

/-- The register rows of chapter 10 of the spec. -/
def regRows10 : List RegRow :=
  [ ⟨0xB0070, 8, 256, 1, 0, .rc, 0x0, 0x0⟩,
    ⟨0xB0074, 8, 256, 1, 0, .rc, 0x0, 0x0⟩,
    ⟨0xB0078, 8, 256, 1, 0, .rc, 0x0, 0x0⟩,
    ⟨0xB007C, 8, 256, 1, 0, .rc, 0x0, 0x0⟩,
    ⟨0xB0080, 8, 256, 1, 0, .rc, 0x0, 0x0⟩,
    ⟨0xB0084, 8, 256, 1, 0, .rc, 0x0, 0x0⟩ ]

/-- The register rows of chapter 11 of the spec. -/
def regRows11 : List RegRow :=
  [ ⟨0x500000, 1, 0, 1, 0, .rw, 0x0, 0xFFFFF⟩,
    ⟨0x500004, 1, 0, 1, 0, .wo, 0x0, 0x0⟩,
    ⟨0x500008, 1, 0, 1, 0, .ro, 0x0, 0x0⟩,
    ⟨0x50000C, 1, 0, 1, 0, .rc, 0x0, 0x0⟩,
    ⟨0x500010, 1, 0, 1, 0, .rc, 0x0, 0x0⟩,
    ⟨0x500014, 1, 0, 1, 0, .rc, 0x0, 0x0⟩,
    ⟨0x500018, 1, 0, 1, 0, .ro, 0x0, 0x0⟩,
    ⟨0x50001C, 1, 0, 1, 0, .ro, 0x0, 0x0⟩,
    ⟨0x500020, 1, 0, 8, 4, .rw, 0x0, 0xFFFFFFFF⟩,
    ⟨0x500040, 1, 0, 8, 4, .ro, 0x0, 0x0⟩,
    ⟨0x500100, 1, 0, 4, 64, .ro, 0x0, 0x0⟩,
    ⟨0x500104, 1, 0, 4, 64, .rc, 0x0, 0x0⟩,
    ⟨0x500108, 1, 0, 4, 64, .rc, 0x0, 0x0⟩,
    ⟨0x50010C, 1, 0, 4, 64, .rc, 0x0, 0x0⟩,
    ⟨0x500110, 1, 0, 4, 64, .rc, 0x0, 0x0⟩,
    ⟨0x500114, 1, 0, 4, 64, .rc, 0x0, 0x0⟩,
    ⟨0x500118, 1, 0, 4, 64, .ro, 0x0, 0x0⟩,
    ⟨0x50011C, 1, 0, 4, 64, .ro, 0x0, 0x0⟩,
    ⟨0x510000, 256, 256, 1, 0, .ro, 0x0, 0x0⟩,
    ⟨0x510004, 256, 256, 1, 0, .wo, 0x0, 0x0⟩,
    ⟨0x510008, 256, 256, 1, 0, .ro, 0x0, 0x0⟩,
    ⟨0x510010, 256, 256, 4, 4, .ro, 0x0, 0x0⟩,
    ⟨0x510040, 256, 256, 1, 0, .rc, 0x0, 0x0⟩,
    ⟨0x510044, 256, 256, 1, 0, .rc, 0x0, 0x0⟩,
    ⟨0x510048, 256, 256, 1, 0, .rc, 0x0, 0x0⟩,
    ⟨0x51004C, 256, 256, 1, 0, .rc, 0x0, 0x0⟩,
    ⟨0x510050, 256, 256, 1, 0, .rc, 0x0, 0x0⟩,
    ⟨0x510054, 256, 256, 1, 0, .rc, 0x0, 0x0⟩,
    ⟨0x510058, 256, 256, 1, 0, .rc, 0x0, 0x0⟩ ]

/-- The register rows of chapter 12 of the spec. -/
def regRows12 : List RegRow :=
  [ ⟨0x1000000, 512, 32768, 1, 0, .ro, 0x0, 0x0⟩,
    ⟨0x1000004, 512, 32768, 1, 0, .wo, 0x0, 0x0⟩,
    ⟨0x1000008, 512, 32768, 1, 0, .ro, 0x0, 0x0⟩,
    ⟨0x100000C, 512, 32768, 1, 0, .rw, 0x0, 0xFFFFFFFC⟩,
    ⟨0x1000010, 512, 32768, 1, 0, .ro, 0x0, 0x0⟩,
    ⟨0x1000014, 512, 32768, 1, 0, .rw, 0x0, 0xFFFFFFFF⟩,
    ⟨0x1000018, 512, 32768, 1, 0, .rw, 0xF0000000, 0xFFFFFFF⟩,
    ⟨0x100001C, 512, 32768, 1, 0, .rw, 0x0, 0x3⟩,
    ⟨0x1000020, 512, 32768, 1, 0, .w1s, 0x0, 0xFF⟩,
    ⟨0x1000024, 512, 32768, 1, 0, .ro, 0x0, 0x0⟩,
    ⟨0x1000040, 512, 32768, 1, 0, .rc, 0x0, 0x0⟩,
    ⟨0x1000044, 512, 32768, 1, 0, .rc, 0x0, 0x0⟩,
    ⟨0x1000048, 512, 32768, 1, 0, .rc, 0x0, 0x0⟩,
    ⟨0x100004C, 512, 32768, 1, 0, .rc, 0x0, 0x0⟩,
    ⟨0x1000050, 512, 32768, 1, 0, .rc, 0x0, 0x0⟩,
    ⟨0x1000054, 512, 32768, 1, 0, .rc, 0x0, 0x0⟩,
    ⟨0x1000058, 512, 32768, 1, 0, .rc, 0x0, 0x0⟩,
    ⟨0x100005C, 512, 32768, 1, 0, .rc, 0x0, 0x0⟩,
    ⟨0x1000060, 512, 32768, 1, 0, .rc, 0x0, 0x0⟩,
    ⟨0x1000064, 512, 32768, 1, 0, .rc, 0x0, 0x0⟩,
    ⟨0x1000068, 512, 32768, 1, 0, .rc, 0x0, 0x0⟩ ]

/-- The register rows of chapter 14 of the spec. -/
def regRows14 : List RegRow :=
  [ ⟨0x0, 1, 0, 1, 0, .ro, 0xE7321F3C, 0x0⟩,
    ⟨0x4, 1, 0, 1, 0, .ro, 0xB1, 0x0⟩,
    ⟨0x8, 1, 0, 1, 0, .ro, 0x3E320B4D, 0x0⟩,
    ⟨0x800000, 64, 4096, 1, 0, .rw, 0x0, 0xC00FFFFF⟩,
    ⟨0x800004, 64, 4096, 1, 0, .rw, 0x0, 0xFFFFFFFF⟩,
    ⟨0x800008, 64, 4096, 1, 0, .rw, 0x0, 0x7⟩,
    ⟨0x80000C, 64, 4096, 1, 0, .ro, 0x0, 0x0⟩,
    ⟨0x800010, 64, 4096, 1, 0, .wo, 0x0, 0x0⟩,
    ⟨0x800014, 64, 4096, 1, 0, .w1c, 0x0, 0xFF⟩,
    ⟨0x800018, 64, 4096, 1, 0, .rw, 0x0, 0xFF⟩,
    ⟨0x841000, 16, 256, 1, 0, .rw, 0x0, 0xFFFFFFE0⟩,
    ⟨0x841004, 16, 256, 1, 0, .rw, 0x0, 0xFFFFFFFF⟩,
    ⟨0x841008, 16, 256, 1, 0, .rw, 0x1, 0x1FFF⟩,
    ⟨0x84100C, 16, 256, 1, 0, .rw, 0x0, 0xFFF⟩,
    ⟨0x841010, 16, 256, 1, 0, .ro, 0x0, 0x0⟩,
    ⟨0x841014, 16, 256, 1, 0, .ro, 0x0, 0x0⟩,
    ⟨0x841018, 16, 256, 1, 0, .rc, 0x0, 0x0⟩,
    ⟨0x84101C, 16, 256, 1, 0, .rc, 0x0, 0x0⟩,
    ⟨0x840000, 1, 0, 1, 0, .ro, 0x0, 0x0⟩,
    ⟨0x840004, 1, 0, 1, 0, .rc, 0x0, 0x0⟩,
    ⟨0x840008, 1, 0, 1, 0, .rc, 0x0, 0x0⟩,
    ⟨0x84000C, 1, 0, 1, 0, .rc, 0x0, 0x0⟩,
    ⟨0x840010, 1, 0, 1, 0, .rc, 0x0, 0x0⟩,
    ⟨0x840014, 1, 0, 1, 0, .rc, 0x0, 0x0⟩,
    ⟨0x840018, 1, 0, 1, 0, .rc, 0x0, 0x0⟩,
    ⟨0x84001C, 1, 0, 1, 0, .rc, 0x0, 0x0⟩,
    ⟨0x840020, 1, 0, 1, 0, .rc, 0x0, 0x0⟩,
    ⟨0x880000, 2048, 16, 1, 0, .rw, 0x0, 0xFFFFFFFC⟩,
    ⟨0x880004, 2048, 16, 1, 0, .rw, 0x0, 0xFFFFFFFF⟩,
    ⟨0x880008, 2048, 16, 1, 0, .rw, 0x0, 0xFFFFFFFF⟩,
    ⟨0x88000C, 2048, 16, 1, 0, .rw, 0x1, 0x1⟩ ]

/-- The register rows of chapter 16 of the spec. -/
def regRows16 : List RegRow :=
  [ ⟨0x200, 1, 0, 16, 16, .rw, 0x0, 0xFFFFFFFF⟩,
    ⟨0x204, 1, 0, 16, 16, .ro, 0x0, 0x0⟩,
    ⟨0x208, 1, 0, 16, 16, .w1c, 0x0, 0x3⟩,
    ⟨0x20C, 1, 0, 16, 16, .rc, 0x0, 0x0⟩,
    ⟨0x20000, 1, 0, 1, 0, .ro, 0x700, 0x0⟩,
    ⟨0x20004, 1, 0, 1, 0, .ro, 0x0, 0x0⟩,
    ⟨0x20008, 1, 0, 2, 4, .ro, 0x0, 0x0⟩,
    ⟨0x20010, 1, 0, 1, 0, .ro, 0x0, 0x0⟩,
    ⟨0x20014, 1, 0, 1, 0, .ro, 0x0, 0x0⟩,
    ⟨0x20018, 1, 0, 1, 0, .ro, 0x0, 0x0⟩,
    ⟨0x2001C, 1, 0, 1, 0, .ro, 0xE4, 0x0⟩,
    ⟨0x20020, 1, 0, 1, 0, .ro, 0x0, 0x0⟩,
    ⟨0x20024, 1, 0, 1, 0, .rc, 0x0, 0x0⟩,
    ⟨0x20028, 1, 0, 1, 0, .rc, 0x0, 0x0⟩,
    ⟨0x2002C, 1, 0, 1, 0, .rc, 0x0, 0x0⟩,
    ⟨0x20030, 1, 0, 1, 0, .rw, 0x0, 0xFF0FFFFF⟩,
    ⟨0x20034, 1, 0, 1, 0, .ro, 0x0, 0x0⟩,
    ⟨0x20038, 1, 0, 1, 0, .rc, 0x0, 0x0⟩,
    ⟨0x20040, 1, 0, 8, 4, .ro, 0x0, 0x0⟩,
    ⟨0x20060, 1, 0, 4, 4, .ro, 0x0, 0x0⟩ ]

/-- The register rows of chapter 17 of the spec. -/
def regRows17 : List RegRow :=
  [ ⟨0x10000, 1, 0, 1, 0, .wo, 0x0, 0x0⟩,
    ⟨0x10004, 1, 0, 1, 0, .ro, 0x0, 0x0⟩,
    ⟨0x10008, 1, 0, 1, 0, .ro, 0x0, 0x0⟩,
    ⟨0x1000C, 1, 0, 1, 0, .ro, 0x0, 0x0⟩,
    ⟨0x10010, 1, 0, 1, 0, .rc, 0x0, 0x0⟩,
    ⟨0x10014, 1, 0, 1, 0, .rc, 0x0, 0x0⟩,
    ⟨0x10018, 1, 0, 1, 0, .rc, 0x0, 0x0⟩,
    ⟨0x1001C, 1, 0, 1, 0, .rc, 0x0, 0x0⟩,
    ⟨0x10800, 1, 0, 512, 4, .rw, 0x0, 0xFFFFFFFF⟩,
    ⟨0x30000, 1, 0, 1, 0, .ro, 0x0, 0x0⟩,
    ⟨0x30004, 1, 0, 1, 0, .ro, 0x0, 0x0⟩,
    ⟨0x30008, 1, 0, 1, 0, .ro, 0x0, 0x0⟩,
    ⟨0x3000C, 1, 0, 1, 0, .ro, 0x0, 0x0⟩,
    ⟨0x30010, 1, 0, 1, 0, .ro, 0x0, 0x0⟩,
    ⟨0x30014, 1, 0, 1, 0, .key, 0x0, 0x0⟩,
    ⟨0x30018, 1, 0, 1, 0, .key, 0x0, 0x0⟩,
    ⟨0x3001C, 1, 0, 1, 0, .key, 0x0, 0x0⟩,
    ⟨0x30020, 1, 0, 1, 0, .key, 0x0, 0x0⟩,
    ⟨0x30024, 1, 0, 1, 0, .ro, 0x0, 0x0⟩,
    ⟨0x30030, 1, 0, 1, 0, .ro, 0x0, 0x0⟩,
    ⟨0x30034, 1, 0, 1, 0, .w1c, 0x0, 0x1F⟩,
    ⟨0x30038, 1, 0, 1, 0, .rc, 0x0, 0x0⟩,
    ⟨0x30040, 1, 0, 4, 4, .ro, 0x0, 0x0⟩,
    ⟨0x40000, 1, 0, 2, 4, .ro, 0x0, 0x0⟩,
    ⟨0x40008, 1, 0, 1, 0, .ro, 0x0, 0x0⟩,
    ⟨0x40010, 1, 0, 16, 4, .ro, 0x0, 0x0⟩,
    ⟨0x40050, 1, 0, 8, 4, .ro, 0x0, 0x0⟩,
    ⟨0x40070, 1, 0, 32, 4, .ro, 0x0, 0x0⟩,
    ⟨0x40100, 1, 0, 1, 0, .ro, 0x0, 0x0⟩,
    ⟨0x40104, 1, 0, 1, 0, .wo, 0x0, 0x0⟩,
    ⟨0x40108, 1, 0, 1, 0, .rc, 0x0, 0x0⟩,
    ⟨0x4010C, 1, 0, 1, 0, .rc, 0x0, 0x0⟩,
    ⟨0x40120, 1, 0, 8, 4, .ro, 0x0, 0x0⟩ ]

/-- The register rows of chapter 18 of the spec. -/
def regRows18 : List RegRow :=
  [ ⟨0x600000, 8, 256, 1, 0, .rw, 0x80000012, 0x800003FF⟩,
    ⟨0x600004, 8, 256, 1, 0, .ro, 0x0, 0x0⟩,
    ⟨0x600008, 8, 256, 1, 0, .rc, 0x0, 0x0⟩,
    ⟨0x60000C, 8, 256, 1, 0, .rc, 0x0, 0x0⟩,
    ⟨0x600010, 8, 256, 1, 0, .rc, 0x0, 0x0⟩,
    ⟨0x600014, 8, 256, 1, 0, .rc, 0x0, 0x0⟩,
    ⟨0x600018, 8, 256, 1, 0, .rc, 0x0, 0x0⟩,
    ⟨0x60001C, 8, 256, 1, 0, .rc, 0x0, 0x0⟩,
    ⟨0x600020, 8, 256, 1, 0, .rc, 0x0, 0x0⟩,
    ⟨0x600024, 8, 256, 1, 0, .rc, 0x0, 0x0⟩,
    ⟨0x600028, 8, 256, 1, 0, .rc, 0x0, 0x0⟩,
    ⟨0x60002C, 8, 256, 1, 0, .rc, 0x0, 0x0⟩,
    ⟨0x600030, 8, 256, 1, 0, .rc, 0x0, 0x0⟩,
    ⟨0x600034, 8, 256, 1, 0, .rc, 0x0, 0x0⟩,
    ⟨0x600038, 8, 256, 1, 0, .rc, 0x0, 0x0⟩,
    ⟨0x600040, 8, 256, 16, 4, .ro, 0x0, 0x0⟩,
    ⟨0x600080, 8, 256, 1, 0, .ro, 0x0, 0x0⟩,
    ⟨0x600084, 8, 256, 1, 0, .rw, 0x0, 0x3FF⟩,
    ⟨0x600088, 8, 256, 1, 0, .ro, 0x0, 0x0⟩,
    ⟨0x601000, 1, 0, 1, 0, .ro, 0x0, 0x0⟩,
    ⟨0x601004, 1, 0, 1, 0, .ro, 0x0, 0x0⟩,
    ⟨0x601008, 1, 0, 1, 0, .ro, 0x0, 0x0⟩,
    ⟨0x60100C, 1, 0, 1, 0, .rw, 0xA00, 0xFF0F⟩,
    ⟨0x601010, 1, 0, 1, 0, .ro, 0x0, 0x0⟩,
    ⟨0x601014, 1, 0, 1, 0, .rc, 0x0, 0x0⟩,
    ⟨0x601018, 1, 0, 1, 0, .rc, 0x0, 0x0⟩,
    ⟨0x60101C, 1, 0, 1, 0, .rc, 0x0, 0x0⟩,
    ⟨0x601020, 1, 0, 1, 0, .rc, 0x0, 0x0⟩,
    ⟨0x601040, 1, 0, 16, 4, .ro, 0x0, 0x0⟩,
    ⟨0x601100, 1, 0, 1, 0, .rw, 0x0, 0xFFFFFFFF⟩,
    ⟨0x602000, 1, 0, 1, 0, .wo, 0x0, 0x0⟩,
    ⟨0x602100, 1, 0, 64, 4, .rw, 0x0, 0xFFFFFFFF⟩,
    ⟨0x602200, 1, 0, 2, 4, .ro, 0x0, 0x0⟩ ]

/-- The register rows of chapter 19 of the spec. -/
def regRows19 : List RegRow :=
  [ ⟨0x700000, 1, 0, 1, 0, .rw, 0x0, 0xFF07⟩,
    ⟨0x700004, 1, 0, 1, 0, .wo, 0x0, 0x0⟩,
    ⟨0x700008, 1, 0, 1, 0, .ro, 0x0, 0x0⟩,
    ⟨0x70000C, 1, 0, 1, 0, .rw, 0x0, 0xFFFFF⟩,
    ⟨0x700010, 1, 0, 1, 0, .ro, 0x0, 0x0⟩,
    ⟨0x700014, 1, 0, 1, 0, .ro, 0x0, 0x0⟩,
    ⟨0x700018, 1, 0, 1, 0, .rw, 0x0, 0xFFFFFFFF⟩,
    ⟨0x70001C, 1, 0, 1, 0, .rw, 0x0, 0xFFFFFFFF⟩,
    ⟨0x700020, 1, 0, 1, 0, .ro, 0x0, 0x0⟩,
    ⟨0x700024, 1, 0, 1, 0, .ro, 0x0, 0x0⟩,
    ⟨0x700028, 1, 0, 1, 0, .rw, 0x0, 0xFFFFF⟩,
    ⟨0x70002C, 1, 0, 1, 0, .rw, 0x0, 0xFFFFFFFF⟩,
    ⟨0x700030, 1, 0, 1, 0, .rw, 0x0, 0xFFFF⟩,
    ⟨0x700034, 1, 0, 1, 0, .rw, 0x0, 0x3FF⟩,
    ⟨0x700038, 1, 0, 1, 0, .w1c, 0x0, 0x1F⟩,
    ⟨0x70003C, 1, 0, 1, 0, .rw, 0x0, 0x1F⟩,
    ⟨0x700040, 1, 0, 1, 0, .rc, 0x0, 0x0⟩,
    ⟨0x700044, 1, 0, 1, 0, .rc, 0x0, 0x0⟩,
    ⟨0x700048, 1, 0, 1, 0, .rc, 0x0, 0x0⟩,
    ⟨0x70004C, 1, 0, 1, 0, .rc, 0x0, 0x0⟩,
    ⟨0x700050, 1, 0, 1, 0, .rc, 0x0, 0x0⟩,
    ⟨0x700054, 1, 0, 1, 0, .rc, 0x0, 0x0⟩,
    ⟨0x700058, 1, 0, 1, 0, .rc, 0x0, 0x0⟩,
    ⟨0x700060, 1, 0, 8, 4, .ro, 0x0, 0x0⟩,
    ⟨0x701000, 8, 4096, 1024, 4, .rw, 0x0, 0xFFFFFFFF⟩ ]

/-- The register rows of chapter 20 of the spec. -/
def regRows20 : List RegRow :=
  [ ⟨0x100, 1, 0, 1, 0, .ro, 0x0, 0x0⟩,
    ⟨0x104, 1, 0, 1, 0, .rw, 0x0, 0xF⟩,
    ⟨0x108, 1, 0, 1, 0, .rw, 0x5A, 0xFF⟩,
    ⟨0x10C, 1, 0, 1, 0, .ro, 0x0, 0x0⟩,
    ⟨0x110, 1, 0, 1, 0, .rw, 0x2, 0x3⟩,
    ⟨0x114, 1, 0, 9, 4, .ro, 0x0, 0x0⟩ ]

/-- Every register row of the device. -/
def regTable : List RegRow :=
  regRows01 ++ regRows02 ++ regRows03 ++ regRows04 ++ regRows05 ++ regRows06 ++ regRows07 ++ regRows08 ++ regRows09 ++ regRows10 ++ regRows11 ++ regRows12 ++ regRows14 ++ regRows16 ++ regRows17 ++ regRows18 ++ regRows19 ++ regRows20

/-- Whether offset `o` is an instance of the row. -/
def regHit (o : Nat) (r : RegRow) : Bool :=
  decide (r.base ≤ o) &&
  (let d := o - r.base
   let i := if r.s1 = 0 then 0 else min (d / r.s1) (r.n1 - 1)
   let e := d - i * r.s1
   if r.s2 = 0 then decide (e = 0) else decide (e % r.s2 = 0) && decide (e / r.s2 < r.n2))

/-- The row of the register at BAR0 offset `o`, if the tables define one; every other offset is reserved (R8). -/
def regRow (o : Nat) : Option RegRow := regTable.find? (regHit o)

/-- The value of the register at `o` after PORST_N is released (the Reset column). -/
def resetOf (o : Nat) : Word :=
  match regRow o with
  | some r => w32 r.reset
  | none => 0

end Sys2Proof.Machine
end

