-- ==== Sys2Proof/Machine/SMap.lean ====
section
/-! DEFINITION. Sparse data by number: a list of (key, value) pairs with rising keys and no pair that
holds what an unlisted key reads as. The one canonical form of every bank, memory and table of the model. -/

namespace Sys2Proof.Machine

/-- Sparse data: keys strictly rising, no pair equal to its default. -/
abbrev SMap (α : Type) := List (Nat × α)

/-- The value at key `k`; an unlisted key reads as `d k`. -/
def mget {α : Type} (d : Nat → α) : SMap α → Nat → α
  | [], k => d k
  | (j, v) :: m, k => if j = k then v else mget d m k

/-- Drop key `k`. -/
def merase {α : Type} : SMap α → Nat → SMap α
  | [], _ => []
  | (j, v) :: m, k => if j = k then m else (j, v) :: merase m k

/-- Put `v` at key `k`, keeping the keys rising. -/
def mput {α : Type} : SMap α → Nat → α → SMap α
  | [], k, v => [(k, v)]
  | (j, w) :: m, k, v =>
    if k < j then (k, v) :: (j, w) :: m
    else if k = j then (k, v) :: m
    else (j, w) :: mput m k v

/-- Write `v` at key `k`; writing what an unlisted key reads as removes the pair. -/
def mset {α : Type} [DecidableEq α] (d : Nat → α) (m : SMap α) (k : Nat) (v : α) : SMap α :=
  if v = d k then merase m k else mput m k v

/-- Rewrite every listed value, keeping the canonical form. -/
def mmap {α : Type} [DecidableEq α] (d : Nat → α) (f : Nat → α → α) : SMap α → SMap α
  | [] => []
  | (k, v) :: m => if f k v = d k then mmap d f m else (k, f k v) :: mmap d f m

/-- The data that `f` gives for keys `lo` to `lo + n - 1`. -/
def mtab {α : Type} [DecidableEq α] (d f : Nat → α) (lo : Nat) : Nat → SMap α
  | 0 => []
  | n + 1 => if f lo = d lo then mtab d f (lo + 1) n else (lo, f lo) :: mtab d f (lo + 1) n

/-- Rewrite every key from `lo` to `lo + n - 1` as `f` gives it; the others keep their values. -/
def msplice {α : Type} [DecidableEq α] (d f : Nat → α) (lo n : Nat) (m : SMap α) : SMap α :=
  m.filter (fun p => decide (p.1 < lo)) ++ mtab d f lo n ++ m.filter (fun p => decide (lo + n ≤ p.1))

/-- Keys are above `b` and strictly rising. -/
def mrising {α : Type} : Nat → SMap α → Bool
  | _, [] => true
  | b, (k, _) :: m => decide (b ≤ k) && mrising (k + 1) m

/-- No pair holds its default. -/
def mproper {α : Type} [DecidableEq α] (d : Nat → α) : SMap α → Bool
  | [] => true
  | (k, v) :: m => decide (v ≠ d k) && mproper d m

/-- The canonical form of sparse data. -/
def mwf {α : Type} [DecidableEq α] (d : Nat → α) (m : SMap α) : Bool := mrising 0 m && mproper d m

end Sys2Proof.Machine
end

