-- ==== Sys2Proof/Machine/State.lean ====
section
/-! DEFINITION. The state of the ET32: every register, store, queue, mode and pin the spec gives the
device, as plain data, and the machine right after reset. -/

namespace Sys2Proof.Machine

/-! ### The device manager (R31–R39) -/

/-- Device states (R31). -/
inductive DevState where
  | starting | operational | degraded | shuttingDown
  deriving DecidableEq, Repr

/-- Tamper sources 3 and 4 are examined from 1 ms after PORST_N is released until SHDN_DONE (R449). -/
inductive Watch where
  | soon | on | over
  deriving DecidableEq, Repr

/-- The device manager: the device state, the status balls it drives, and the pins it watches. -/
structure Dev where
  /-- The device state (R31); STARTING after PORST_N is released (R33). -/
  st : DevState := .starting
  /-- CFG_DONE ball (R39). -/
  cfgDone : Bool := false
  /-- CFG_ERR_N asserted (R39). -/
  cfgErr : Bool := false
  /-- SHDN_DONE ball (R37). -/
  shdnDone : Bool := false
  /-- PORST_N held low: the device is in reset (R33). -/
  inReset : Bool := false
  /-- PWR_OFF_REQ_N taken as asserted (R37). -/
  pwrOff : Bool := false
  /-- PORST_N is high; the device may still be in reset for want of a rail (R517). -/
  porstHigh : Bool := true
  /-- A SHUTDOWN command has been accepted (R38). -/
  shutCmd : Bool := false
  /-- Whether tamper sources 3 and 4 are examined (R449). -/
  watch : Watch := .soon
  /-- Tamper sources whose condition has arisen: each may hold still (R456). -/
  cond : BitVec 5 := 0
  /-- CFG_PULL in bits 1:0 and SMB_ADDR in bits 3:2, as sampled (R512). -/
  straps : BitVec 4 := 0
  /-- The wipe of every eddy's secure part that a PORST_N release starts has ended, by the load that followed (R336). -/
  porstWiped : Bool := false
  deriving DecidableEq, Repr

/-! ### Tiles and the fabric (R40–R95) -/

/-- A dual-rail code (R40). -/
inductive Rail where
  | spacer | v0 | v1 | illegal
  deriving DecidableEq, Repr

/-- The idle frame (R403): SRC OFF in all 64 storage elements, select 12 on all 128 cluster input lines. -/
def idleFrame : Frame :=
  BitVec.ofNat 4096
    ((0x0C30C3 * ((2 ^ 384 - 1) / (2 ^ 24 - 1))) * 2 ^ 2880 + (0xCC * ((2 ^ 512 - 1) / 255)) * 2 ^ 3360)

/-- One logical tile: its frame as it stands, and the values its cells and storage elements hold. -/
structure Tile where
  /-- The 4,096 data bits in effect (R67). -/
  frame : Frame := idleFrame
  /-- The bits in which the stored 4,160-bit frame differs from the codeword last written (R459, R466). -/
  upset : BitVec 4160 := 0
  /-- State of the 64 storage elements (R43). -/
  q : BitVec 64 := 0
  /-- Held inputs of the 64 storage elements (R54). -/
  held : BitVec 64 := 0
  /-- Held enables of the 64 storage elements (R54). -/
  heldEn : BitVec 64 := 0
  /-- T rails of OA, OB and COUT of the 32 cells (R40). -/
  oaT : BitVec 32 := 0
  obT : BitVec 32 := 0
  coT : BitVec 32 := 0
  /-- F rails of OA, OB and COUT of the 32 cells (R40). -/
  oaF : BitVec 32 := 0
  obF : BitVec 32 := 0
  coF : BitVec 32 := 0
  /-- Outputs of a queue port, pool port channel or GIO slot of this host tile, once answered in this wave (R65). -/
  portOut : Option (BitVec 128) := none
  /-- The settled report of the tick in progress (R64). -/
  settled : Bool := false
  /-- The spacer-complete report of the tick in progress (R64). -/
  spacerDone : Bool := false
  /-- Clusters whose illegal code has been counted in this phase (R66). -/
  railMark : BitVec 4 := 0
  /-- Free-running: the stage of each cluster holds a token, its ACK_OUT is high (R44). -/
  frFull : BitVec 4 := 0
  /-- Free-running: the joined ACK_IN of ACK_SEL 0b11 for each cluster (R45). -/
  ackC : BitVec 4 := 0
  /-- A port's answer came when every other monitored point of the host tile was valid (R133). -/
  ansLast : Bool := false
  deriving DecidableEq, Repr

/-- A long line: a row's horizontal or a column's vertical line (R88). -/
structure LongLine where
  sec : Nat
  vert : Bool
  idx : Nat
  line : Nat
  deriving DecidableEq, Repr

/-- The fabric as a whole. -/
structure Fabric where
  /-- Tiles by address SEC·2^17 + COL·2^8 + ROW; an unlisted tile is idle (R403). -/
  tiles : SMap Tile := []
  /-- Sections whose GSR is asserted (R57, R59). -/
  gsr : BitVec 8 := 0xFF
  /-- A set-reset pulse is in progress (R61). -/
  gsrBusy : Bool := false
  /-- GSR_STAT RESULT. -/
  gsrResult : Nat := 0
  /-- Tap enables are in effect: the census has passed (R91). -/
  tapsOn : Bool := false
  /-- Lines held at spacer by the one-hot checker (R93). -/
  heldLines : List LongLine := []
  /-- Lines in whose handshake cycle under way a conflict began, with the number of the free value they carry in it (R94). -/
  spoilt : List (LongLine × Nat) := []
  /-- Block memory, pool and queue writes are enabled (R121, R422). -/
  writesOn : Bool := false
  /-- Sections withholding their reports for undervoltage, UV flag (R73). -/
  uv : BitVec 8 := 0
  /-- OV flag (R73). -/
  ov : BitVec 8 := 0
  /-- RET_LOST flag (R75). -/
  retLost : BitVec 8 := 0
  /-- Sections that have had a census violation recorded this census: RT_CENSUS RESULT running (R100). -/
  censusRunning : Bool := false
  deriving DecidableEq, Repr

/-! ### Block memories (R101–R127) -/

/-- The pins one block port took into its held inputs (R108). -/
structure PortIn where
  en : Bool
  we : Bool
  be : BitVec 8
  addr : Nat
  din : BitVec 72
  deriving DecidableEq, Repr

/-- One entry of an undo FIFO (R122): the row before a commit and the tick of that commit. -/
structure Undo where
  tick : Nat
  row : Nat
  data : BitVec 72
  err : BitVec 80
  deriving DecidableEq, Repr

/-- The outputs a block port drives: DOUT, BUSY and ERR (R103). -/
structure PortOut where
  dout : BitVec 72 := 0
  busy : Bool := false
  err : Bool := false
  deriving DecidableEq, Repr

/-- One BM36 block. -/
structure Block where
  /-- The configuration word (R104). -/
  cfg : Word := 0
  /-- The 512 rows of 72 bits; an unlisted row reads 0 (R121). -/
  rows : SMap (BitVec 72) := []
  /-- The bits of a stored row (72 data, 8 check) in error (R119). -/
  errs : SMap (BitVec 80) := []
  /-- Held inputs of ports A and B (R108). -/
  heldA : Option PortIn := none
  heldB : Option PortIn := none
  /-- SYNC read registers of ports A and B, with the ERR they launch (R109). -/
  regA : PortOut := {}
  regB : PortOut := {}
  /-- Outputs driven in this wave by an ASYNC port, or held by a free-running port's stage (R110, R115). -/
  outA : Option PortOut := none
  outB : Option PortOut := none
  /-- Free-running: entry and direction of the latest array access of each port, while its stage is full (R117). -/
  lastA : Option (Nat × Bool) := none
  lastB : Option (Nat × Bool) := none
  /-- Free-running: row of a port's read whose ECC result waits for the other port's access under way, and the number of the
  free value its check uses (R118). -/
  chkA : Option (Nat × Nat) := none
  chkB : Option (Nat × Nat) := none
  /-- The undo FIFO, newest first (R122). -/
  undo : List Undo := []
  /-- Row the patrol reads next (R120). -/
  patrol : Nat := 0
  /-- Rows whose corrected contents wait for an idle array cycle (R119). -/
  wb : List Nat := []
  /-- The host tile's report was withheld for want of undo entries in this tick (R123). -/
  stalled : Bool := false
  deriving DecidableEq, Repr

/-! ### The tick engine (R128–R153, R534) -/

/-- Tick engine states (R128). -/
inductive TState where
  | idle | run | paced | halted | fault
  deriving DecidableEq, Repr

/-- What the engine keeps of an uncommitted tick: its cadence position and mask (R163). -/
structure KeptTick where
  tick : Nat
  pos : Nat
  mask : BitVec 64
  deriving DecidableEq, Repr

/-- An AVSBus frame (R148): command 0x0 target rail voltage, 0x2 rail current, 0xE AVSBus status; a write carries the
target in mV. -/
structure AvsFrame where
  cmd : Nat
  wr : Bool
  rail : Nat
  data : Nat := 0
  deriving DecidableEq, Repr

/-- The AVSBus master (R148–R151). -/
structure Avs where
  /-- The mode in force: AVS_CFG MODE once applied (R151). -/
  mode : Nat := 0
  /-- Frames that wait to be sent, oldest first; the first is in progress. -/
  todo : List AvsFrame := []
  /-- A frame is in progress (AVS_STAT BUSY). -/
  busy : Bool := false
  /-- Repeats made of the frame in progress (R151). -/
  repeats : Nat := 0
  /-- Rails that have failed (AVS_STAT RAIL_FAIL). -/
  railFail : BitVec 8 := 0
  /-- Rails whose current read has failed (R151). -/
  curFail : BitVec 8 := 0
  /-- A MODE written while a frame was in progress, applied when it ends (R151). -/
  modeNext : Option Nat := none
  /-- AVS_STAT CAP_UNMET and the intervals in a row above the cap (R150). -/
  capUnmet : Bool := false
  overRun : Nat := 0
  /-- AVS_STAT LIM and LIM_VALID. -/
  lim : Option Nat := none
  deriving DecidableEq, Repr

/-- The tick engine. -/
structure TickEngine where
  st : TState := .idle
  /-- STEPPING (R129). -/
  stepping : Bool := false
  /-- Number of the tick that follows the last stepped one. -/
  stepEnd : Nat := 0
  /-- A tick is in progress, and its phase: spacer wave or data wave (R153). -/
  inTick : Bool := false
  spacer : Bool := false
  /-- TICK_NOW + 1; 0 before tick 0 of a run (R130, R167). -/
  nowP1 : Nat := 0
  /-- Highest tick issued since the last load or set-reset pulse, plus 1 (R167). -/
  hiP1 : Nat := 0
  /-- The next issue repeats tick TICK_NOW (R146). -/
  redo : Bool := false
  /-- The next issue launches restored values without capture (R146, R167). -/
  relaunch : Bool := false
  /-- Tick 0xFFFF_FFFF_FFFF has completed (R130). -/
  numberEnd : Bool := false
  /-- The fault cause held pending in IDLE, and whether more than one arose (R534). -/
  pend : Option Nat := none
  pendMulti : Bool := false
  /-- The stop tick, while the stop is armed (R153). -/
  stopAt : Option Nat := none
  /-- A STOP waits for the tick in progress (R129). -/
  stopReq : Bool := false
  /-- Pace events due, and whether the oldest arrived on time (R140). -/
  due : Nat := 0
  onTime : Bool := false
  /-- Mask of the tick in progress (R95). -/
  mask : BitVec 64 := 0
  /-- Cadence entry of the first tick above the highest issued (R134, R135). -/
  cadNext : Nat := 0
  /-- Cadence positions and masks of uncommitted ticks (R163). -/
  kept : List KeptTick := []
  /-- Cadence position of the latest tick issued (R497). -/
  lastPos : Nat := 0
  /-- LOCAL_OK, set by the loader (R137). -/
  localOk : Bool := false
  /-- The location found by the timeout in progress, published when the tree has finished (R144). -/
  toLoc : Option (Word × Word) := none
  /-- An issue delayed by the window has been counted (R157). -/
  winCounted : Bool := false
  /-- Ticks of the present 1 ms interval, and how many of them each section settled last (R150, R152). -/
  ivTicks : Nat := 0
  ivLast : SMap Nat := []
  /-- The per-section counts of the latest complete interval (R150). -/
  ivPrev : SMap Nat := []
  /-- Ticks and summed period of each voltage bin in the present interval (R152). -/
  ivBinN : SMap Nat := []
  ivBinSum : SMap Nat := []
  /-- The AVSBus master. -/
  avs : Avs := {}
  /-- TICK_OUT ball level (R142). -/
  tickOut : Bool := false
  /-- Class and section of the contributor that settled last in the tick in progress (R133). -/
  lastCls : Nat := 0
  lastSec : Nat := 0
  /-- A RUN (1), PACED (2) or STEP (4) command, with its count, that a set-reset pulse holds until BUSY clears (R62). -/
  heldStart : Option (Nat × Nat) := none
  /-- A fault cause arises in the confluence cycle of the completion that halted the engine (R145). -/
  haltSame : Bool := false
  /-- The cycle in which the engine last entered FAULT or HALTED may be the present one: whether a further cause is of that cycle is a
  free value (R145). -/
  cycle : Bool := false
  deriving DecidableEq, Repr

/-! ### Run-ahead (R154–R190) -/

/-- A boundary value of one input group at one tick. -/
structure BVal where
  tick : Nat
  g : Nat
  /-- The real value, if it has arrived. -/
  real : Option (BitVec 64) := none
  /-- The predicted value in use, if one was driven (R161). -/
  pred : Option (BitVec 64) := none
  /-- The group has counted as settled with this value at this tick (R160). -/
  used : Bool := false
  deriving DecidableEq, Repr

/-- A sent boundary output group (R163). -/
structure BOut where
  tick : Nat
  g : Nat
  val : BitVec 64
  deriving DecidableEq, Repr

/-- The values launched at one tick: storage elements by tile, SYNC read registers by block (R163). -/
structure RingSnap where
  tick : Nat
  q : List (Nat × BitVec 64)
  regs : List (Nat × PortOut × PortOut)
  deriving DecidableEq, Repr

/-- One journalled queue word: the tick that consumed it last, its tag, payload and POISON (R165, R269). -/
structure JWord where
  tick : Nat
  tag : Nat
  word : BitVec 64
  poison : Bool := false
  deriving DecidableEq, Repr

/-- The journal of one queue: words in order, and how many of them re-evaluated pops have taken (R165). -/
structure Journal where
  words : List JWord := []
  taken : Nat := 0
  deriving DecidableEq, Repr

/-- A decided rollback (R166): target, whether a recall set it, and the channel of that event. -/
structure Rollback where
  target : Nat
  byRecall : Bool
  chan : Nat
  deriving DecidableEq, Repr

/-- The gate of R158: no tick is issued until a wave started after the entry completes. -/
inductive WaveGate where
  | clear | needStart
  | inWave (since : Nat)
  deriving DecidableEq, Repr

/-- A child's WAVE_REPORT: its channel, U_MIN unless NONE, and its depths (R176). -/
structure WaveRep where
  chan : Nat
  isNone : Bool
  umin : Nat
  dmin : Nat
  dmax : Nat
  deriving DecidableEq, Repr

/-- The low-water wave on this device (R175, R177). -/
structure Wave where
  /-- The latest wave begun, if any since the load. -/
  cur : Option Nat := none
  /-- The wave is begun and its report not yet sent. -/
  busy : Bool := false
  /-- Own record; `none` is above every tick (R175). -/
  recd : Option Nat := none
  /-- Source device IDs whose MARK is awaited. -/
  openSrc : List Nat := []
  /-- Reports of the children. -/
  reps : List WaveRep := []
  /-- A load or set-reset pulse came after the wave began: its result moves no L (R156). -/
  stale : Bool := false
  deriving DecidableEq, Repr

/-- Run-ahead. -/
structure RunAhead where
  /-- L + 1: the number of committed ticks (R156). -/
  com : Nat := 0
  /-- G + 1, G the last tick whose GIO values the gate has released (R157). -/
  gio : Nat := 0
  /-- The number of ticks whose other effects the gate has released (R178). -/
  rel : Nat := 0
  /-- Channel of the latest frame that carried a value of each input group since the load (R153). -/
  grpChan : SMap Nat := []
  /-- The GIO_HOLD time of the latest released tick is running (R178). -/
  gioHold : Bool := false
  lwmHeld : Bool := false
  depthMismatch : Bool := false
  /-- The image uses no boundary input and no boundary output (R158). -/
  alone : Bool := true
  /-- RA_STAT WRESULT. -/
  wresult : Nat := 0
  gate : WaveGate := .clear
  /-- No wave started after the latest entry to RUN, PACED or STEP has completed with DEPTH_OK 1 (R158). -/
  entered : Bool := false
  ring : List RingSnap := []
  /-- GIO samples by tick (R165). -/
  gioIn : List (Nat × BitVec 480) := []
  /-- GIO output values and enables held at the gate by tick (R178). -/
  gioOut : List (Nat × BitVec 480 × BitVec 480) := []
  /-- Ticks held at the gate, with the mask that decides whether TICK_OUT toggles (R142). -/
  toggles : List (Nat × BitVec 64) := []
  /-- Journals by queue (R163). -/
  journal : SMap Journal := []
  vals : List BVal := []
  outHist : List BOut := []
  /-- Frames of completed ticks that have not left, as tick and first output group, oldest first: their values stand in the
  boundary output registers (R132, R275). -/
  outPend : List (Nat × Nat) := []
  /-- The boundary output registers: the values of those frames, at most max(D, 1) + 1 ticks of each group (R275). -/
  outReg : List BOut := []
  /-- Sections in which a pop has waited for the journal in this tick (R164). -/
  jStall : BitVec 8 := 0
  rb : Option Rollback := none
  /-- Highest tick issued before the rollback in progress, plus 1 (R167). -/
  rbHigh : Nat := 0
  /-- Steps 1 to 3 of R167 are running. -/
  rolling : Bool := false
  /-- The restore has been made and tick t waits to be reissued. -/
  restored : Bool := false
  /-- Re-evaluation of a rollback decided while HALTED: ends when TICK_NOW + 1 reaches this (R189). -/
  reeval : Option Nat := none
  wave : Wave := {}
  deriving DecidableEq, Repr

/-! ### Link channels (R191–R219) -/

/-- Channel states (R213). -/
inductive ChanState where
  | disabled | waiting | training | up | retraining | failed
  deriving DecidableEq, Repr

/-- A flit of VL0–VL2 inside the device. -/
structure Flit where
  vl : Nat
  /-- Dateline class in which it arrived, or 0 if injected here (R228). -/
  dl : Nat
  /-- Channel it arrived on; none if injected here. -/
  arr : Option Nat := none
  /-- It occupies a place in the receive buffer of that channel (R209). -/
  slot : Bool := false
  pay : Payload
  deriving DecidableEq, Repr

/-- A flit queued at an output, with the dateline class it leaves in (R228). -/
structure OutFlit where
  dl : Nat
  f : Flit
  deriving DecidableEq, Repr

/-- An unacknowledged flit in the retry buffer (R206). -/
structure RetryFlit where
  seq : Nat
  dl : Nat
  f : Flit
  deriving DecidableEq, Repr

/-- What a transmitter put on the wire in its latest slot (R203–R205). -/
structure WireFlit where
  hdr : BitVec 24
  pay : Payload
  crc : BitVec 32
  deriving DecidableEq, Repr

/-- One beat of a ford port: D, the beat check C, K, FRM and VLD (R196, R197). -/
structure Beat where
  d : BitVec 64
  c : BitVec 8
  k : BitVec 4
  frm : Bool
  vld : Bool
  deriving DecidableEq, Repr

/-- A reroute event of a channel (R237). -/
structure Reroute where
  /-- The event number: this device's EVENT count for the channel. -/
  num : Nat
  /-- ID of the device at the far end. -/
  peer : Nat
  /-- Destinations still held. -/
  dests : List Nat
  /-- LINK_DOWN and the FENCEs have been sent. -/
  fenceSent : Bool := false
  /-- The far end's NEXT_RX and its event number, once its LINK_DOWN is here. -/
  down : Option (Nat × Nat) := none
  /-- Destinations whose FENCE_DONE is here, each with the event number it carries. -/
  done : List (Nat × Nat) := []
  /-- FAB_FENCE_TO has expired (R240). -/
  expired : Bool := false
  deriving DecidableEq, Repr

/-- What one serial channel or ford port owns (R214). -/
structure Chan where
  st : ChanState := .disabled
  /-- LNK_STAT WRESULT. -/
  wresult : Nat := 0
  polInv : BitVec 4 := 0
  reversed : Bool := false
  lanesUp : BitVec 4 := 0
  /-- Lanes on which this end receives cleanly (LANES_OK, R212). -/
  lanesOk : BitVec 4 := 0xF
  nextTx : Nat := 0
  nextRx : Nat := 0
  /-- A flit has been accepted since NEXT_RX was last set to 0: ACK is valid. -/
  rxAny : Bool := false
  /-- The retry buffer, oldest first (R206). -/
  retry : List RetryFlit := []
  /-- SEQ of the next replayed flit while a replay runs (R207). -/
  replay : Option Nat := none
  /-- Replays of the oldest flit without an acknowledge (R207). -/
  replays : Nat := 0
  /-- The present wait on a full retry buffer has been counted (R206). -/
  retryWait : Bool := false
  /-- A NAK waits to be sent, and the NEXT_RX that the latest NAK named (R207). -/
  nakDue : Option Nat := none
  nakLast : Option Nat := none
  /-- Credits held and credits unreturned, for classes 2·VL + DL (R209). -/
  credits : List Nat := [0, 0, 0, 0, 0, 0]
  unret : List Nat := [0, 0, 0, 0, 0, 0]
  creditDue : Bool := false
  /-- Flits queued for this output, oldest first. -/
  outq : List OutFlit := []
  /-- Slots since the latest VL2 flit, VL1 flit and IDLE (R210). -/
  slot2 : Nat := 31
  slot1 : Nat := 7
  slotIdle : Nat := 0
  /-- The dateline class that went last within each VL (R210). -/
  lastDl : BitVec 3 := 0
  /-- Failed attempts of the training in progress, and whether it is a first training (R212). -/
  attempts : Nat := 0
  firstTrain : Bool := true
  /-- The training in progress follows a lane loss with DEGRADE_OK (R212). -/
  degrading : Bool := false
  /-- The partner's latest TRAIN payload in this training. -/
  partner : Option Payload := none
  /-- The next training sets SEQ_RESET (R217). -/
  seqReset : Bool := false
  /-- A RESET command is in progress (R217). -/
  resetting : Bool := false
  /-- The port is held by a run-time feature (LINK_OWNED, R219). -/
  owned : Bool := false
  /-- The flit of the latest slot, in the transmit FIFO. -/
  sent : Option WireFlit := none
  /-- Its bits in error while it stands in the transmit FIFO, and the flit that left that FIFO in the latest slot (R283, R532). -/
  sentErr : BitVec 1088 := 0
  /-- Bits in error of the flit that leaves the receive FIFO next (R283, R532). -/
  rxErr : BitVec 1088 := 0
  wire : Option WireFlit := none
  /-- Ford: the beats sent in the latest slot, the flit beats since the latest filler beat, and the filler beats sent (R200). -/
  beats : List Beat := []
  fill : Nat := 0
  fillers : Nat := 0
  /-- Serial with FEC: the symbols sent of the codeword being filled, and those of the latest codeword on each lane in use, in ascending
  order (R193). -/
  fecFill : List Nat := []
  fecLanes : List (List Nat) := []
  /-- Free space of the six classes in the latest TRAIN flit sent in this training (R212). -/
  adv : List Nat := []
  /-- ID, serial number and channel number of the neighbour, from its HELLO (R223, R226). -/
  nbId : Nat := 0x3FE
  nbSerial : Option Nat := none
  nbChan : Nat := 0xFF
  /-- Not usable since a reroute, until the next commit or APPLY (R237). -/
  unusable : Bool := false
  /-- EVENT count, the reroute in progress, and what has come in for one not begun here yet (R237). -/
  events : Nat := 0
  ev : Option Reroute := none
  downEarly : Option (Nat × Nat) := none
  doneEarly : List (Nat × Nat) := []
  deriving DecidableEq, Repr

/-! ### The device fabric (R220–R244) -/

/-- FAB_STAT DSTATE (R243). -/
inductive DState where
  | unassigned | electing | enumerating | pending | ready | failed
  deriving DecidableEq, Repr

/-- A link of an enumerated device, from its REPLY pages (R226). -/
structure Link where
  chan : Nat
  serial : Nat
  nbChan : Nat
  deriving DecidableEq, Repr

/-- A device found by the root (R224). -/
structure Node where
  serial : Nat
  id : Nat
  parent : Nat
  level : Nat
  route : List Nat
  links : List Link := []
  deriving DecidableEq, Repr

/-- What the root waits for (R224). -/
inductive EnumWait where
  /-- Both REPLY pages of the ASSIGN of this ID; bit p set once page p is here. -/
  | assign (id : Nat) (pages : Nat)
  /-- The REPLY of the COMMIT of this ID. -/
  | commit (id : Nat)
  deriving DecidableEq, Repr

/-- An enumeration in progress at the root (R224). -/
structure Enum where
  nodes : List Node
  /-- The node and the channel scanned next. -/
  node : Nat := 0
  chan : Nat := 0
  wait : EnumWait
  /-- Times the message awaited has been sent again. -/
  tries : Nat := 0
  deriving DecidableEq, Repr

/-- A flit held for its destination (R237, R239), with channel and SEQ if it was handed over (R217). -/
structure HeldFlit where
  f : Flit
  from_ : Option (Nat × Nat) := none
  /-- Held for want of a route (R239). -/
  noRoute : Bool := false
  /-- The output it waited for entered FAILED for want of credit (R215, R217). -/
  stalled : Bool := false
  deriving DecidableEq, Repr

/-- A FENCE of one class received (R237): fencer, its channel, its event, class. -/
structure FenceSeen where
  n : Nat
  chan : Nat
  num : Nat
  cls : Nat
  deriving DecidableEq, Repr

/-- A message delivered to this device and not yet taken. -/
structure Delivered where
  chan : Option Nat
  vl : Nat
  pay : Payload
  deriving DecidableEq, Repr

/-- A boundary group delivered by cut-through (R202); `passed` once its flit has passed CRC-32. -/
structure CtGroup where
  chan : Nat
  tick : Nat
  g : Nat
  val : BitVec 64
  passed : Bool := false
  deriving DecidableEq, Repr

/-- This device's place in the fabric of devices. -/
structure DevFab where
  /-- Device ID (R220). -/
  id : Nat := 0x3FE
  /-- The latest epoch this device has used or taken. -/
  epoch : Nat := 0
  /-- FAB_EPOCH: epoch of the latest commit. -/
  commitEpoch : Nat := 0
  /-- Best candidate, role and serial; `none` is this device (R221, R223). -/
  cand : Option (Bool × Nat) := none
  parent : Option Nat := none
  level : Nat := 0
  children : BitVec 20 := 0
  upMask : BitVec 20 := 0
  dstate : DState := .unassigned
  peerHalt : Bool := false
  noRoute : Bool := false
  /-- A discovery has committed since the last load (R223). -/
  committed : Bool := false
  /-- FAB_QUIET has passed since the last change of candidate. -/
  quiet : Bool := false
  /-- FAB_CTL DISCOVER has been written and waits. -/
  discover : Bool := false
  /-- Pending ID and its epoch (R225). -/
  pend : Option (Nat × Nat) := none
  /-- The shadow table (R225, R233). -/
  shadow : SMap Word := []
  /-- The arrival channel written into RET[POS] of the latest QUERY relayed, by POS (R225). -/
  relayRet : SMap Nat := []
  enum : Option Enum := none
  /-- The topology of the latest commit, at the root (FAB_TOPO). -/
  topo : List Node := []
  held : List HeldFlit := []
  fences : List FenceSeen := []
  inbox : List Delivered := []
  ct : List CtGroup := []
  deriving DecidableEq, Repr

/-! ### Weir queues and their crossings (R245–R290) -/

/-- A stored word: payload, tag, and the bits of its 74 that are in error (R252, R269). -/
structure QWord where
  pay : BitVec 64 := 0
  tag : Nat := 0
  err : BitVec 74 := 0
  deriving DecidableEq, Repr

/-- Side states (R285). -/
inductive SideState where
  | disconnected | connecting | connected
  deriving DecidableEq, Repr

/-- A message of the epoch exchange (R287). -/
inductive EpochMsg where
  | connect (e : BitVec 8)
  | ack (e x : BitVec 8)
  deriving DecidableEq, Repr

/-- One side of a two-sided crossing (R285–R287). -/
structure Side where
  st : SideState := .disconnected
  /-- The side is held in reset. -/
  inReset : Bool := true
  epoch : BitVec 8 := 0
  peer : Option (BitVec 8) := none
  ownAcked : Bool := false
  /-- The peer epoch that the latest ACK sent named. -/
  acked : Option (BitVec 8) := none
  /-- Messages on their way to this side, oldest first. -/
  msgs : List EpochMsg := []
  /-- The other side has reset and this side has not yet seen it (R286). -/
  peerRst : Bool := false
  /-- A transfer of this side waits in its hold-and-flag register (R278). -/
  req : Bool := false
  /-- The reader has taken the value and its ACK is on its way back (R278). -/
  ack : Bool := false
  deriving DecidableEq, Repr

/-- The flush in progress (R261). -/
inductive FlushState where
  /-- No flush. -/
  | none
  /-- The read side is in FLUSHING, the write side has not acted. -/
  | asked
  /-- Discard-to-boundary runs for this flush. -/
  | discard
  /-- The marker is written and the read side has not seen it. -/
  | written
  deriving DecidableEq, Repr

/-- A word of the sluice hold (R265). -/
structure HoldWord where
  tick : Nat
  last : Bool
  pay : BitVec 64
  deriving DecidableEq, Repr

/-- One weir queue. -/
structure Queue where
  /-- Storage, 8,192 words by slot (R245). -/
  mem : SMap QWord := []
  /-- wp, rp, pwp and each side's view of the other's pointer, modulo 2N (R253, R254). -/
  wp : Nat := 0
  rp : Nat := 0
  pwp : Nat := 0
  rpW : Nat := 0
  pwpR : Nat := 0
  /-- An open spill marker exists (IND mode, R259), and the read side's synchronised copy of that flag. -/
  openSpill : Bool := false
  spillSeen : Bool := false
  /-- The seal request and the rp it carries (R259). -/
  sealReq : Option Nat := none
  inItem : Bool := false
  itemOpen : Bool := false
  /-- The word most recently popped: payload and tag (R257). -/
  last : BitVec 64 := 0
  lastTag : Nat := 0
  flush : FlushState := .none
  /-- The read side is in FLUSHING (R261). -/
  flushing : Bool := false
  /-- Discard-to-boundary runs (R261, R263). -/
  discarding : Bool := false
  /-- Words discarded at step 2 and dropped by discard-to-boundary for this flush (R262). -/
  flushN : Nat := 0
  flushTail : Nat := 0
  wr : Side := {}
  rd : Side := {}
  hold : List HoldWord := []
  /-- Host pushes not yet at the write side: the one in the crossing's data register, then those that the register path keeps
  (R279, R286). -/
  hostPush : List (BitVec 64 × Bool) := []
  /-- The stale-tail timeout has fired since the latest pop (R267). -/
  staleFired : Bool := false
  /-- dr was at or above LEVEL when last compared (R268). -/
  above : Bool := false
  deriving DecidableEq, Repr

/-- The register path of a section: the transfer in its data register (BAR0 offset, value), whether the section
has taken it, and the writes that wait for the register (R278, R279). -/
structure RegPath where
  data : Option (Nat × Word) := none
  taken : Bool := false
  kept : List (Nat × Word) := []
  deriving DecidableEq, Repr

/-! ### Pools and HBM (R291–R326) -/

/-- A stored 64-bit word and the bits of its 72 in error (R294). -/
structure HWord where
  data : BitVec 64 := 0
  err : BitVec 72 := 0
  deriving DecidableEq, Repr

/-- A write-buffer entry (R312): version, pool, word, byte enables, data, and the channel that wrote each byte. -/
structure WbEntry where
  tick : Nat
  pool : Nat
  idx : Nat
  be : BitVec 8
  data : BitVec 64
  who : BitVec 16 := 0
  /-- The commit agent has issued its drain (R367), and for which eddy. -/
  draining : Option Nat := none
  /-- Tag of the drain's record to a MODEL pool's model, and whether it has been answered (R313). -/
  mtag : Option Nat := none
  answered : Bool := false
  /-- Bits of `data` in error on its way to the controller (R283, R532). -/
  err : BitVec 72 := 0
  deriving DecidableEq, Repr

/-- A cache line: HBM line address and its eight words (R310). -/
structure CLine where
  line : Nat
  words : List HWord
  deriving DecidableEq, Repr

/-- How far a port request has come (R308, R309). -/
inductive PReqState where
  /-- Taken, and waiting for INIT, for room in the model's inbox or for one that arrived before it (R300, R309, R316). -/
  | waiting
  | taken
  | refused
  | model (tag : Nat)
  | answered (data : BitVec 64) (err : Bool)
  deriving DecidableEq, Repr

/-- A request that a pool port channel has taken; `tick` for a tick-bound one. -/
structure PReq where
  tick : Option Nat
  we : Bool
  pool : Nat
  idx : Nat
  be : BitVec 8
  din : BitVec 64
  /-- Arrival number among the requests outstanding at the port (R309). -/
  no : Nat
  st : PReqState
  /-- Bits of `din` in error on its way to the controller (R283, R532). -/
  err : BitVec 72 := 0
  /-- The stage that asked was put under GSR: no stage waits for the answer (R57). -/
  gone : Bool := false
  deriving DecidableEq, Repr

/-- One pool port. -/
structure Port where
  /-- The write buffer, in the order entries were taken (R312). -/
  wb : List WbEntry := []
  /-- Cache sets 0–31, each with at most four lines, most recently used first (R310). -/
  cache : SMap (List CLine) := []
  /-- Requests taken and not yet answered, by channel. -/
  reqs : SMap PReq := []
  /-- The fabric side and the port side of its crossing (R285, R322). -/
  wr : Side := {}
  rd : Side := {}
  /-- PP_CTL RESET was accepted, and its steps 2 to 4 have not run (R322). -/
  resetAsked : Bool := false
  /-- The sticky PEER_RESET flags of the fabric side and of the port side (R286). -/
  peerWr : Bool := false
  peerRd : Bool := false
  /-- PP_STAT RESETTING. -/
  resetting : Bool := false
  /-- Channels whose request waits in the hold-and-flag register, and whose ACK is on its way back (R278). -/
  req : BitVec 4 := 0
  ack : BitVec 4 := 0
  /-- A write has waited for an entry in this tick (R324). -/
  stall : Bool := false
  deriving DecidableEq, Repr

/-- Who made a request that a memory model serves (R317 CLASS). -/
inductive Asker where
  | port (p k : Nat)
  | agent (p : Nat)
  | eddy (e slot : Nat)
  | host (c : Nat)
  | dma (e : Nat)
  | edma (e : Nat)
  | remote (src tag chan : Nat)
  | init (pool : Nat)
  /-- An INIT request of a descriptor that has been written again: its answer reaches no one (R300). -/
  | stale
  deriving DecidableEq, Repr

/-- A model request record (R317). OP: 0 READ, 1 WRITE, 2 INIT. -/
structure ModelRec where
  tag : Nat
  op : Nat
  pool : Nat
  idx : Nat
  be : BitVec 8
  cls : Nat
  mtag : Nat
  data : BitVec 64
  deriving DecidableEq, Repr

/-- An outstanding model record: its tag, OP and asker (R318). -/
structure ModelOut where
  tag : Nat
  op : Nat
  who : Asker
  /-- HBM address of the word. -/
  wa : Nat := 0
  /-- The bytes that forwarding answered when a READ was made, with their enables (R182, R315). -/
  fwdBe : BitVec 8 := 0
  fwd : BitVec 64 := 0
  deriving DecidableEq, Repr

/-- A granule: the owning VERSIONED pool, and the other descriptors that touch it (R302). -/
structure Granule where
  owner : Option Nat := none
  users : Nat := 0
  deriving DecidableEq, Repr

/-- Pools and HBM. -/
structure Pools where
  /-- HBM by 64-bit word address: descriptor table, device private, staging area and pool space (R296). -/
  hbm : SMap HWord := []
  ports : SMap Port := []
  /-- Model inboxes by eddy, oldest first, 32 records (R316). -/
  inbox : SMap (List ModelRec) := []
  outst : List ModelOut := []
  nextTag : Nat := 0
  gran : SMap Granule := []
  /-- A descriptor command is in progress, with the code it completes with (R303). -/
  busy : Option Nat := none
  /-- Pools whose INIT MODEL request is unanswered (R300). -/
  initWait : List Nat := []
  /-- Pools whose INIT request waits for room in the model's inbox (R316). -/
  initAsk : List Nat := []
  /-- Descriptor caches, newest entry first: of the pool ports and eddies of section 0–7, and 8 of the confluence (R304). -/
  dcache : SMap (List (Nat × List Word)) := []
  /-- Corrected words that wait for an idle cycle (R294). -/
  wb : List Nat := []
  /-- The 33-bit location of each stack's recorded error (R324). -/
  ueWord : SMap Nat := []
  /-- Requests held from frozen remote requesters, with their channels (R321). -/
  remHeld : List (Nat × Payload) := []
  /-- Answers that POOL_ANS has brought, by TAG: STATUS and DATA (R319). -/
  remAns : SMap (Nat × BitVec 64) := []
  /-- Bits in error of the data word that leaves each asynchronous FIFO next (R283, R532). -/
  fifo : SMap (BitVec 72) := []
  /-- Tick-bound channels whose request stood when a port's violation stopped the tick, and may violate in that confluence cycle: port,
  channel, cause, pool and index (R454). -/
  cyc : List (Nat × Nat × Nat × Nat × Nat) := []
  deriving DecidableEq, Repr

/-! ### Eddies (R327–R377) -/

/-- Eddy states (R347); UNAVAILABLE is shown for every eddy while the device is SHUTTING_DOWN. -/
inductive EState where
  | off | halted | running | frozen | wiping | failed
  deriving DecidableEq, Repr

/-- What a pool operation of an eddy does (R364, R365, R367). -/
inductive EOpKind where
  | load
  | store (v : BitVec 64)
  | atomic (afn : Nat) (b old : BitVec 64)
  /-- A commit drain of a pool port. -/
  | drain (p : Nat)
  deriving DecidableEq, Repr

/-- A pool operation outstanding, in issue order. -/
structure EOp where
  kind : EOpKind
  pool : Nat
  idx : Nat
  /-- The register it writes. -/
  rd : Option Nat := none
  /-- Tag of the model record that carries it, and the model's answer (R316, R318). -/
  tag : Option Nat := none
  ans : Option (BitVec 64 × Bool) := none
  /-- Its record waits for room in the model's inbox. -/
  ask : Bool := false
  /-- A RESET discarded its result (R377). -/
  dead : Bool := false
  deriving DecidableEq, Repr

/-- An eddy DMA descriptor (R337): the outcome its checks decided, or the transfer as far as it has come. -/
structure EDma where
  toPool : Bool
  tag : BitVec 8
  sp : Nat
  pool : Nat
  idx : Nat
  len : Nat
  /-- EDDY_ and POOL_ codes where the checks did not accept it. -/
  fail : Option (Nat × Nat) := none
  started : Bool := false
  /-- A RESET discards its completion (R348). -/
  dead : Bool := false
  /-- Words moved, for a MODEL pool, and the word the model has been asked for or has answered. -/
  pos : Nat := 0
  asked : Option Nat := none
  ans : Option (BitVec 64 × Bool) := none
  /-- A word from a MODEL pool was uncorrectable (R318). -/
  bad : Bool := false
  deriving DecidableEq, Repr

/-- The loop buffer (R334): the range, the words captured by address, and whether the eddy runs from it. -/
structure LoopBuf where
  lo : Nat
  hi : Nat
  words : List (Nat × Word) := []
  live : Bool := false
  deriving DecidableEq, Repr

/-- One eddy. -/
structure Eddy where
  st : EState := .off
  /-- EDDY_STAT KIND: 0 none, 1 USER, 2 FIRMWARE; and the firmware module ID. -/
  kind : Nat := 0
  fwId : Nat := 0
  secure : Bool := false
  /-- PARAM of a firmware record (R407). -/
  fwParam : Word := 0
  /-- The previous program was Krovenval firmware (R336). -/
  prevFw : Bool := false
  /-- Latest EDDY_ code of a command. -/
  result : Nat := 0
  /-- g1–g31; g0 has no storage (R352). -/
  g : SMap (BitVec 64) := []
  pc : Word := 0
  ie : Bool := false
  exc : Bool := false
  /-- N, Z, C, V in bits 0–3. -/
  flags : BitVec 4 := 0
  epc : Word := 0
  estatus : Word := 0
  cause : Word := 0
  eaddr : Word := 0
  vbase : Word := 0
  scratch : Word := 0
  perr : Bool := false
  /-- The scratchpad: 8,192 words of 72 bits (R331). -/
  spad : SMap HWord := []
  loop : Option LoopBuf := none
  ops : List EOp := []
  /-- A WFI waits (R369). -/
  wfi : Bool := false
  /-- A HALT waits for pool loads in progress (R347). -/
  haltReq : Bool := false
  dmaSp : Word := 0
  dmaPool : Word := 0
  dmaIdxLo : Word := 0
  dmaIdxHi : Word := 0
  dmaLen : Word := 0
  dmaResult : Nat := 0
  dmaQ : List EDma := []
  /-- Completions: TAG, EDDY_ code, POOL_ code (R338). -/
  dmaDone : List (BitVec 8 × Nat × Nat) := []
  ph : SMap Word := []
  irqPend : BitVec 16 := 0
  irqEn : BitVec 16 := 0
  /-- The cycle counter as last shown, and its latched high half (R350). -/
  timer : BitVec 64 := 0
  timerHi : Word := 0
  timerCmp : Word := 0
  /-- By site: TAG, UNDERRUN and POISON of the latest pop, and ACCEPT of the latest push (R330). -/
  qinfo : SMap Word := []
  /-- LEASE_STAT PREEMPTED. -/
  preempted : Bool := false
  /-- A wipe of the secure part is due (R336), that of PORST_N until a load has ended it, and the state that follows it. -/
  wipe : Bool := true
  afterWipe : EState := .off
  deriving DecidableEq, Repr

/-! ### The host port (R378–R392) -/

/-- The MSI-X logic: pending bits, and the vectors whose message has been sent, oldest first. -/
structure Msix where
  pend : BitVec 2048 := 0
  sent : List Nat := []
  /-- PCIe's MSI-X Enable and Function Mask, in the configuration space (R378, R392; log 20). -/
  enable : Bool := true
  funcMask : Bool := false
  deriving DecidableEq, Repr

/-- An access of a host context that waits while the context is frozen (R384). -/
inductive HostAcc where
  | bar2Read (x : Nat)
  | bar2Write (x : Nat) (be : BitVec 8) (v : BitVec 64)
  | doorbell (v : Word)
  | aperture (e : Nat) (we : Bool) (off : Nat) (v : Word)
  | qPush (q : Nat) (v : Word)
  /-- A QH_PUSH that the write crossing holds until its REQ arrives (R278, R286). -/
  | qHold (q : Nat) (v : Word)
  | qPop (q : Nat)
  /-- A write or a read of QH_DATA_LO, QH_DATA_HI, QH_POP_LO or QH_POP_HI, by BAR0 offset. -/
  | regWrite (o : Nat) (v : Word)
  | regRead (o : Nat)
  deriving DecidableEq, Repr

/-- How the latest host read of a host-master region was completed (R384–R386). -/
inductive Completion where
  | ok | poisoned | abort
  deriving DecidableEq, Repr

/-- A host DMA descriptor in progress (R387, R388). -/
structure HDma where
  addr : Nat
  off : Nat
  len : Nat
  pool : Nat
  toHost : Bool
  stage : Bool
  irq : Bool
  /-- HOST_ and POOL_ codes where the checks did not accept it. -/
  fail : Option (Nat × Nat) := none
  pos : Nat := 0
  asked : Option Nat := none
  ans : Option (BitVec 64 × Bool) := none
  /-- A word toward the host was uncorrectable. -/
  bad : Bool := false
  deriving DecidableEq, Repr

/-- The host port beside its registers. -/
structure HostPort where
  /-- Held accesses with their contexts, oldest first (R384). -/
  held : List (Nat × HostAcc) := []
  /-- Data and completion of the latest read of a host-master region. -/
  data : BitVec 64 := 0
  cpl : Completion := .ok
  /-- BAR2 accesses that wait for a memory model: context, the record's tag once placed, the access (R316). -/
  ask : List (Nat × Option Nat × HostAcc) := []
  /-- The descriptor each engine has in progress. -/
  cur : SMap HDma := []
  /-- Words and STATUS words written to host memory, oldest first. -/
  out : List (Nat × BitVec 64) := []
  /-- PCIE_PERST_N is released (R515). -/
  perstHigh : Bool := false
  /-- The link trains (R515). -/
  training : Bool := false
  /-- BAR2's size: 2 to this power GiB, 0 to 8 (R378; log 195). -/
  bar2 : Nat := 8
  /-- AER's uncorrectable error status: bit 15 Completer Abort (R378; log 196). -/
  aer : Word := 0
  deriving DecidableEq, Repr

/-! ### Resource claims (R411, R412, R428) -/

/-- A claim of the image in force: resources `first` to `first + count − 1` of a kind, for an owner (R411). -/
structure Claim where
  kind : Nat
  owner : Nat
  first : Nat
  count : Nat
  deriving DecidableEq, Repr

/-! ### The loader (R393–R432) -/

/-- LDR_STAT PHASE (R431). -/
inductive LdPhase where
  | idle | header | passA | idleFill | passB | checks | startup | done | failed | aborted
  deriving DecidableEq, Repr

/-- The stages of power-up before the load (R474, R512, R517). -/
inductive PowerUp where
  | fuses
  | health
  /-- The abbreviated test, with the segments still to run (R475). -/
  | abbrev (segs : List Nat)
  /-- The load has started. -/
  | over
  deriving DecidableEq, Repr

/-- What an attempt has read and keeps until its checks end. -/
structure LoadWork where
  /-- Header fields (R395). -/
  bodyLen : Nat := 0
  counter : Nat := 0
  keySel : Nat := 0
  startup : Nat := 0xE4
  imageId : List Nat := []
  /-- Frames of CLASS 1 and 2 that the stream wrote, by frame address, 512 bytes as one number (R399). -/
  frames : SMap (BitVec 4096) := []
  claims : List Claim := []
  deriving DecidableEq, Repr

/-- The loader. -/
structure Loader where
  phase : LdPhase := .idle
  pow : PowerUp := .fuses
  /-- A load counts as in progress (R414). -/
  busy : Bool := true
  /-- The power-up load. -/
  powerUp : Bool := true
  /-- SOURCE: 0–3 slot, 4 staging area, 7 none; OFFSET and LENGTH of a staged image. -/
  src : Nat := 7
  off : Nat := 0
  len : Nat := 0
  locked : Bool := false
  /-- Attempts made by this load. -/
  attempt : Nat := 0
  work : LoadWork := {}
  /-- Start-up steps completed, in the order of STARTUP (R422). -/
  steps : Nat := 0
  /-- Effects of steps taken before lock wait, due at its end (R423). -/
  due : List Nat := []
  /-- Eddies that the loader starts, with their entries (R341). -/
  starts : List (Nat × Word) := []
  /-- CHAN_EN of the image in force. -/
  chanEn : BitVec 20 := 0
  /-- The power-up load comes from slot 0, whatever BOOT_SLOT holds (R440). -/
  slot0 : Bool := false
  /-- HBM is to be zeroed and these slots erased before pass A (R439, R450). -/
  zeroise : Bool := false
  erase : BitVec 4 := 0
  /-- QCLK codes and spreads of the sections, and CLK_SPREAD, as last applied (R405, R526). -/
  qclk : BitVec 64 := 0x0404040404040404
  qspread : BitVec 64 := 0
  clkSpread : Word := 0
  /-- The tag of pass B matched (R418). -/
  tagOk : Bool := false
  /-- KEY_SEL of the image in force (R467). -/
  image : Option Nat := none
  deriving DecidableEq, Repr

/-! ### The security island (R433–R450, R455, R456) -/

/-- Life-cycle states (R436). -/
inductive LifeCycle where
  | blank | manufacture | provisioned | deployed | service | retired
  deriving DecidableEq, Repr

/-- A slot of the configuration store (R413): its written length, its bytes as 64-bit words, and its rewrites. -/
structure Slot where
  len : Nat := 0
  words : SMap (BitVec 64) := []
  wear : Nat := 0
  deriving DecidableEq, Repr

/-- A valid copy of the health record (R472; its bytes are `recBytes`'s). -/
structure HealthRec where
  seq : Nat
  kind : Nat
  /-- OUTCOME, set only with COMPLETE. -/
  fail : Bool
  segDone : BitVec 16
  segFail : BitVec 16
  fails : List Mark
  total : Nat
  reached : Nat
  complete : Bool
  overflow : Bool
  sigOk : BitVec 16
  deriving DecidableEq, Repr

/-- What outlives PORST_N: fuses, the store, the VBAT SRAM and the island's own record. -/
structure Nv where
  lc : LifeCycle := .blank
  /-- SERVICE_TRIPS. -/
  trips : Nat := 0
  /-- LC_POLICY as written (R456). -/
  policy : Word := 0
  /-- The fuse key and the battery-backed key, absent until KEY_LOAD (R433). -/
  kFuse : Option (BitVec 256) := none
  kBbk : Option (BitVec 256) := none
  bbkLost : Bool := false
  /-- WIPE_PENDING with the target state (R439). -/
  wipe : Option LifeCycle := none
  /-- Floors of KEY_SEL 1 and 2 (R437), and the stored command counter (R442). -/
  floor1 : Nat := 0
  floor2 : Nat := 0
  counter : Nat := 0
  /-- Store slots 0–3 and BOOT_SLOT (R413). -/
  slots : SMap Slot := []
  boot : Nat := 0
  /-- Copies A and B of the health record; the next write goes to B (R472). -/
  healthA : Option HealthRec := none
  healthB : Option HealthRec := none
  healthTurn : Bool := false
  /-- The repair map is fused, its marks, and the field repair map (R478). -/
  fused : Bool := false
  marks : List Mark := []
  /-- TAMPER_EVENT (R449, R456). -/
  tamper : BitVec 5 := 0
  /-- VBAT was lost while the device did not run: the next power-up finds it (R435). -/
  vbatFound : Bool := false
  /-- Step 2 of R450 is due at the next power-up, with the slots that it erases: an armed event came while the device was held in
  reset, or PORST_N came first (log 197). -/
  zeroDue : Option (BitVec 4) := none
  deriving DecidableEq, Repr

/-- What the mailbox waits for (R441–R444). -/
inductive MbxPhase where
  | idle
  /-- The 100 ms wait of R443. -/
  | lockout
  /-- Steps 1 to 4 have passed; the counter is being stored. -/
  | storing
  /-- A slot is being written: SLOT, staging OFFSET, LENGTH and BOOT. -/
  | slotWrite (slot off len : Nat) (boot : Bool) (floor : Option (Nat × Nat))
  | slotErase (slot : Nat) (boot : Bool)
  /-- A life-cycle transition runs (R439). -/
  | transition
  /-- APPLY waits for VL0 and VL1 to drain (R233). -/
  | apply
  /-- ZEROISE waits for step 2 of R450. -/
  | zeroise
  /-- A key is being stored: the battery-backed key or the fuse key. -/
  | key (bbk : Bool) (k : BitVec 256)
  deriving DecidableEq, Repr

/-- The keyed command mailbox. -/
structure Mailbox where
  phase : MbxPhase := .idle
  /-- Results of SEC_TAG since a command last passed step 3 (R443). -/
  tagRun : Nat := 0
  deriving DecidableEq, Repr

/-! ### Freezing (R451–R457) -/

/-- A freeze record (R452). -/
structure FreezeRec where
  cls : Nat
  idx : Nat
  cause : Nat
  code : Nat
  pool : Nat
  addr : Nat
  /-- TICK_NOW at the violation, if a tick had been issued. -/
  tick : Option Nat
  seq : Nat
  deriving DecidableEq, Repr

/-- Frozen masters of each class, and the freeze records that wait (R451, R453). -/
structure Freeze where
  ctx : BitVec 64 := 0
  dma : BitVec 16 := 0
  eddy : BitVec 512 := 0
  port : BitVec 256 := 0
  remote : BitVec 1024 := 0
  recs : List FreezeRec := []
  seq : Nat := 0
  deriving DecidableEq, Repr

/-! ### Scrubbers, self-test and repair (R459–R486) -/

/-- The scrubber of one section. -/
structure Scrubber where
  /-- Tiles whose rewrite the one-hot checker has asked for, oldest first (R93). -/
  prio : List Nat := []
  /-- The frame it reads next: 256·PCOL + ROW, then 135,168 + k for configuration frame k (R463). -/
  pos : Nat := 0
  /-- Corrections that wait for their tick-bound tile (R466): the bits to change. -/
  rewrites : SMap (BitVec 4160) := []
  /-- Bits in error of the frames of columns that carry no logical column, by 256·PCOL + ROW. -/
  spare : SMap (BitVec 4160) := []
  /-- Bits in error of the block-memory configuration frames k (R460). -/
  bmc : SMap (BitVec 4160) := []
  /-- Bits in error of the shadow copies, 65 words of 72 bits each, by frame position (R464). -/
  shadow : SMap (BitVec 4680) := []
  /-- By how many data bits a shadow copy that was miscorrected and written back differs from the frame (R532). -/
  shadowMis : SMap (BitVec 4160) := []
  /-- Bits in error of the stored SCR_CFG, 32 data and 8 check (R468). -/
  cfgErr : BitVec 40 := 0
  cfgRestored : Bool := false
  /-- A frame has been lost since the last load. -/
  lost : Bool := false
  /-- Marked failed (R469), and the watchdog resets so far. -/
  failed : Bool := false
  resets : Nat := 0
  deriving DecidableEq, Repr

/-- Background test (R476, R480). -/
structure BgTest where
  on : Bool := false
  /-- The device timer it holds. -/
  timer : Nat := 0
  /-- The lease of each section. -/
  leases : SMap LeaseRes := []
  /-- Resources whose latest test failed. -/
  failedOnce : List LeaseRes := []
  deriving DecidableEq, Repr

/-- Marks and what self-test is doing (R470–R481). -/
structure Repair where
  /-- The marks in force since power-up: repair is made from these (R477, R479). -/
  marks : List Mark := []
  /-- Resources marked at run time. -/
  run : List Mark := []
  /-- Tiles marked unusable for a lost frame, until PORST_N (R465). -/
  lost : List Nat := []
  /-- TEST_FAIL_LOG, newest first (R485). -/
  log : List Mark := []
  /-- The outcome of the record read at power-up (TEST_HEALTH): 0 PASS, 1 FAIL, 2 INCOMPLETE, 3 none. -/
  outcome : Nat := 3
  segDone : BitVec 16 := 0
  abbrevRun : Bool := false
  /-- The segment that the shutdown test runs, 16 once all have run; the failures found so far. -/
  seg : Nat := 0
  found : List Mark := []
  segFail : BitVec 16 := 0
  /-- Scrubbers are suspended by a load (R463). -/
  susp : Bool := true
  /-- The loader has written the shadow frames (R464). -/
  shadowOk : Bool := false
  /-- Raw mode (R481), and an HBM sweep in progress (R480). -/
  raw : Bool := false
  sweep : Bool := false
  deriving DecidableEq, Repr

/-! ### Trace (R487–R501) -/

/-- An entry of a section's trace FIFO: a raw sample of a tick, or a drop marker (R490). -/
inductive TrcEntry where
  | sample (tick : Nat) (raw : BitVec 1024)
  | drop (tick count : Nat)
  deriving DecidableEq, Repr

/-- One compressed stream of a section: to the ring, or over FW. -/
structure TrcStream where
  fifo : List TrcEntry := []
  /-- The sample of the latest SAMPLE record, a KEY due, and the records written (R491, R494). -/
  prev : BitVec 1024 := 0
  key : Bool := true
  recs : Nat := 0
  deriving DecidableEq, Repr

/-- A record that stands whole in the ring. -/
structure TrcRec where
  start : Nat
  len : Nat
  tick : Nat
  /-- TYPE VOID. -/
  isVoid : Bool
  deriving DecidableEq, Repr

/-- The snapshot (R498). -/
inductive Snap where
  | off
  | armed (t : Nat)
  | busy (t : Nat)
  deriving DecidableEq, Repr

/-- The trace unit. -/
structure Trace where
  running : Bool := false
  /-- STOP has been given; the FIFOs drain (R499). -/
  stopping : Bool := false
  /-- What the ring held of the snapshot's tick (R497, R498). -/
  snapVals : Option RingSnap := none
  /-- Samples of each section that wait for their tick to commit, oldest first (R489). -/
  held : SMap (List (Nat × BitVec 1024)) := []
  /-- The ring stream and the export stream of each section. -/
  ring : SMap TrcStream := []
  exp : SMap TrcStream := []
  /-- Words reserved since RESET_RING, and the whole records in the ring, oldest first (R492). -/
  wp : Nat := 0
  recs : List TrcRec := []
  snap : Snap := .off
  /-- TRC_STAT RESULT. -/
  result : Nat := 0
  /-- Export holds FW, and the record words that wait for a flit (R496). -/
  exporting : Bool := false
  words : List (BitVec 64) := []
  deriving DecidableEq, Repr

/-! ### Balls (R511–R531) -/

/-- The pins of the package that carry state. -/
structure Pins where
  /-- GIO bank words BANK and ball words BALL by 48·bank + ball (R521). -/
  gioBank : SMap Word := []
  gioBall : SMap Word := []
  /-- Values and output enables the sluice gate has released to the GIO balls (R178, R520). -/
  gioOut : BitVec 480 := 0
  gioOe : BitVec 480 := 0
  /-- Balls that have taken their first value since output release (R521). -/
  gioFirst : BitVec 480 := 0
  /-- GIO sample of the tick in progress (R165), and the arbitrated inputs of free-running readers (R284). -/
  gioTick : BitVec 480 := 0
  gioFree : BitVec 480 := 0
  /-- The level each ball was last driven to, which a keeper holds (R512). -/
  kept : BitVec 480 := 0
  /-- Banks whose VCCIO_GIO supply is absent (R517). -/
  absent : BitVec 10 := 0
  deriving DecidableEq, Repr
/-- The instruction in the JTAG instruction register (R527). -/
inductive JtagInst where
  | idcode | sample | extest | highz | clamp | extestPulse | extestTrain | bypass
  | priv (op : BitVec 8)
  deriving DecidableEq, Repr

/-- The test access port: its instruction, what the boundary cells captured, and what they hold to drive (R528). -/
structure Jtag where
  inst : JtagInst := .idcode
  cap : BitVec 2246 := 0
  upd : BitVec 2246 := 0
  /-- What the instruction register and the data register last captured, to be shifted out (R527). -/
  irOut : BitVec 8 := 0x01
  drOut : BitVec 32 := 0x3E320B4D
  deriving DecidableEq, Repr

/-- The SMBus target (R529): the offset set, and the outcome of the latest command. -/
structure Smbus where
  off : Nat := 0
  data : Word := 0
  nack : Bool := false
  /-- The packet error code that follows the latest block read. -/
  pec : BitVec 8 := 0
  deriving DecidableEq, Repr

/-! ### The whole device -/

/-- The state of the ET32. -/
structure State where
  /-- The commands that wait, first in, first out. -/
  pending : List Instr := []
  /-- Every register whose value is held as such, by BAR0 offset; an unlisted one holds its reset value (R5). -/
  regs : SMap Word := []
  dev : Dev := {}
  fab : Fabric := {}
  /-- BM36 blocks by 4,096·section + block index (R101). -/
  bm : SMap Block := []
  tick : TickEngine := {}
  ra : RunAhead := {}
  /-- Link channels 0–19: SC0–SC15, FN, FE, FS, FW (R222). -/
  chans : SMap Chan := []
  net : DevFab := {}
  /-- Register paths of the sections (R275). -/
  paths : SMap RegPath := []
  /-- Weir queues by device-wide index (R245). -/
  queues : SMap Queue := []
  pool : Pools := {}
  /-- Eddies by logical number E (R327). -/
  eddies : SMap Eddy := []
  msix : Msix := {}
  host : HostPort := {}
  /-- The data the latest register read returned. -/
  rdata : Word := 0
  /-- The claim table of the image in force, implicit claims included (R411, R412). -/
  claims : List Claim := []
  ldr : Loader := {}
  nv : Nv := {}
  mbx : Mailbox := {}
  frz : Freeze := {}
  /-- Scrubbers by section. -/
  scr : SMap Scrubber := []
  bg : BgTest := {}
  rep : Repair := {}
  trc : Trace := {}
  jtag : Jtag := {}
  smb : Smbus := {}
  pins : Pins := {}
  /-- THE MODEL'S OWN field, not the spec's: counts the free values drawn so far (see Config). -/
  free : Nat := 0
  deriving DecidableEq, Repr

/-- The machine right after PORST_N is released. -/
def State.reset : State := {}

/-- No command of this model stops with a fault. -/
inductive Fault where
  /-- Raised by no command. Safe. -/
  | none
  deriving DecidableEq, Repr

/-- Why a command has no meaning. -/
inductive Refusal where
  /-- An arm not written yet; safe. -/
  | notModelled (mnemonic : String)
  deriving DecidableEq, Repr

end Sys2Proof.Machine
end

