-- ==== Sys2Proof/Machine/Ops.lean ====
section
/-! DEFINITION. The named operations over registers, counters and device-level events that every family shares. -/

namespace Sys2Proof.Machine

/-- The outcome of every command of the model. -/
abbrev Res := Host.Outcome State Fault Refusal

/-- The held value of the register at BAR0 offset `o`. -/
def getReg (s : State) (o : Nat) : Word := mget resetOf s.regs o

/-- Store `v` as the held value of the register at offset `o`. -/
def setReg (o : Nat) (v : Word) (s : State) : State := { s with regs := mset resetOf s.regs o v }

/-- Count one event in the saturating counter at `o` (R15). -/
def bump (o : Nat) (s : State) : State := setReg o (satInc (getReg s o)) s

/-- Count `n` events in the saturating counter at `o` (R15). -/
def bumpBy (o n : Nat) (s : State) : State := if n = 0 then s else setReg o (satAdd (getReg s o) n) s

/-- Set the bits of `m` in the register at `o`. -/
def orReg (o : Nat) (m : Word) (s : State) : State := setReg o (getReg s o ||| m) s

/-- Clear the bits of `m` in the register at `o`. -/
def andNotReg (o : Nat) (m : Word) (s : State) : State := setReg o (getReg s o &&& ~~~m) s

/-- Replace the field of `len` bits at `lo` in the register at `o`. -/
def setRegFld (o lo len v : Nat) (s : State) : State := setReg o (setFld (getReg s o) lo len v) s

/-- Record `v` in a location latch that keeps the first value since the last read (bit 31 VALID). -/
def latchFirst (o : Nat) (v : Word) (s : State) : State :=
  if bitAt (getReg s o) 31 then s else setReg o v s

/-- Draw a free value number: the counter that a free value of Config is applied to. -/
def drawFree (s : State) : State := { s with free := s.free + 1 }

/-- Whether the device runs a loaded image (R31). -/
def deviceUp (s : State) : Bool := s.dev.st == .operational || s.dev.st == .degraded

/-- The management window takes this write: not in reset, and not SHUTTING_DOWN, where writes outside the identity,
mailbox and life cycle blocks are discarded (R385). -/
def mgmtOpen (s : State) : Bool := !s.dev.inReset && s.dev.st != .shuttingDown

/-- A write in the management window (R380, R385). -/
def mgmt (f : State → State) (s : State) : State := if mgmtOpen s then f s else s

/-- A read in the management window that has its own command: it returns 0 in SHUTTING_DOWN (R385). -/
def mgmtRd (f : State → State) (s : State) : State :=
  if s.dev.inReset then s else if s.dev.st == .shuttingDown then { s with rdata := 0 } else f s

/-- An access to the blocks that are served in every device state but reset (R385). -/
def awake (f : State → State) (s : State) : State := if s.dev.inReset then s else f s

/-- Apply `f` for each element, in order. -/
def forEach {α : Type} (f : α → State → State) : List α → State → State
  | [], s => s
  | a :: l, s => forEach f l (f a s)

/-- The numbers below `n`, rising. -/
def upTo (n : Nat) : List Nat := List.range n

/-- Start-up step `c` of STARTUP has completed (R396, R422): 0 lock wait, 1 set-reset, 2 write enable, 3 output. -/
def stepDone (s : State) (c : Nat) : Bool :=
  (upTo (min 4 s.ldr.steps)).any (fun k => s.ldr.work.startup / 4 ^ k % 4 = c)

/-- Both lock wait and write enable have completed. -/
def clockedUp (s : State) : Bool :=
  deviceUp s || (s.dev.st == .starting && s.ldr.phase == .startup && stepDone s 0 && stepDone s 2)

/-- Channels may leave DISABLED: from output release on, after lock wait, and never after a final failure (R31, R421, R423, R425). -/
def chansOpen (s : State) : Bool :=
  deviceUp s || (s.dev.st == .starting && s.ldr.phase == .startup && stepDone s 0 && stepDone s 3)

/-- The staging area is locked: by a load from it, or by a WRITE_SLOT with DATA (R416, R447). -/
def stageLocked (s : State) : Bool :=
  (s.ldr.locked && s.ldr.src = 4) || (match s.mbx.phase with | .slotWrite _ _ _ _ _ => true | _ => false)

/-! ### Interrupts and device events -/

/-- Raise MSI-X vector `v` (R392): its message is sent, or stays pending while the vector is masked. -/
def raiseVec (v : Nat) (s : State) : State :=
  if !s.msix.enable || s.msix.funcMask || bitAt (getReg s (Reg.msixCtl v)) 0 then { s with msix := { s.msix with pend := setBit s.msix.pend v true } }
  else { s with msix := { s.msix with sent := s.msix.sent ++ [v] } }

/-- Set bits of DEV_EVENT, and raise vector 0 for an enabled one (R39). -/
def devEvent (bits : Nat) (s : State) : State :=
  let s := orReg Reg.devEvent (w32 bits) s
  if getReg s Reg.devEvent &&& getReg s Reg.devEventEn &&& w32 bits = 0 then s else raiseVec 0 s

/-- Record a device state change: DEV_STATE, DEV_CAUSE and DEV_TRANSITIONS (R33, R39). -/
def devGo (st : DevState) (cause : Nat) (s : State) : State :=
  let moved := s.dev.st != st
  let s := setReg Reg.devCause (w32 cause) { s with dev := { s.dev with st := st } }
  if moved then bump Reg.devTransitions s else s

/-- TICK_CAUSE (R145). -/
def setCause (code : Nat) (multi : Bool) (s : State) : State :=
  setReg Reg.tickCause (w32 (code + 256 * b2n multi)) s

/-- Enter HALTED with a code (R129). -/
def enterHalt (code : Nat) (multi : Bool) (s : State) : State :=
  setCause code multi { s with tick := { s.tick with st := .halted, stepping := false, stopReq := false, cycle := true } }

/-- Whether the cause that arises now is of the cycle in which the engine last changed state is a free value (R145; DESIGN CHOICE,
log 216). -/
def sameCycle (s : State) : Bool := s.tick.cycle && bitAt (Config.free 1 s.free) 0

/-- A further cause of the cycle in which FAULT was entered: the lowest fault code stands, and MULTI is set (R145). -/
def joinFault (code : Nat) (s : State) : State :=
  if !s.tick.cycle then s
  else
    let same := sameCycle s
    let s := drawFree s
    if same then setCause (min code (fld (getReg s Reg.tickCause) 0 8)) true s else { s with tick := { s.tick with cycle := false } }

/-! ### Eddies as other blocks see them -/

/-- An unlisted eddy: OFF, its secure part still to be wiped. -/
def dEddy (_ : Nat) : Eddy := {}
def getEddy (s : State) (e : Nat) : Eddy := mget dEddy s.eddies e
def setEddy (e : Nat) (x : Eddy) (s : State) : State := { s with eddies := mset dEddy s.eddies e x }

/-- Latch interrupt line `n` of an eddy (R339). -/
def latchIrq (e n : Nat) (s : State) : State :=
  let x := getEddy s e
  setEddy e { x with irqPend := setBit x.irqPend n true } s

/-- The owner that claims resource `i` of a kind in the image in force (R411, R428). -/
def claimOwner (s : State) (kind i : Nat) : Option Nat :=
  (s.claims.find? (fun c => c.kind = kind && c.first ≤ i && i < c.first + c.count)).map Claim.owner

/-! ### The register path of a section (R275, R278, R279) -/

def dPath (_ : Nat) : RegPath := {}
def getPath (s : State) (sec : Nat) : RegPath := mget dPath s.paths sec
def setPath (sec : Nat) (p : RegPath) (s : State) : State := { s with paths := mset dPath s.paths sec p }

/-- A write of `v` to the register at `o` of a section, whose effect there is `act`: while the data register of the section's
register path is not free it is refused, counted once and kept; the path offers it again when the register is free (R279). -/
def viaPath (sec o : Nat) (v : Word) (act : State → State) (s : State) : State :=
  let p := getPath s sec
  if p.data.isSome then bump (Reg.xingBusyCount sec) (setPath sec { p with kept := p.kept ++ [(o, v)] } s) else act s

end Sys2Proof.Machine
end

