-- ==== Sys2Proof/Machine/Fabric.lean ====
section
/-! DEFINITION. Tiles, logic cells, routing and completion (chapters Logic Cells and Handshakes, and
Routing, Switch Boxes and Section Bridges): what each wire carries, and what each cell makes of it. -/

namespace Sys2Proof.Machine

/-! ### Frame fields (R67, R68, R82) -/

def fLut (f : Frame) (n i : Nat) : Bool := bitAt f (64 * n + i)
def fSel (f : Frame) (n k : Nat) : Nat := fld f (2048 + 24 * n + 4 * k) 4
def fMode (f : Frame) (n : Nat) : Nat := fld f (2816 + 2 * n) 2
def fSrc (f : Frame) (e : Nat) : Nat := fld f (2880 + 6 * e) 2
def fEn (f : Frame) (e : Nat) : Nat := fld f (2882 + 6 * e) 2
def fInit (f : Frame) (e : Nat) : Bool := bitAt f (2884 + 6 * e)
def fDom (f : Frame) (e : Nat) : Bool := bitAt f (2885 + 6 * e)
def fDomA (f : Frame) (c : Nat) : Nat := fld f (3264 + 16 * c) 6
def fDomB (f : Frame) (c : Nat) : Nat := fld f (3270 + 16 * c) 6
def fCin (f : Frame) (c : Nat) : Nat := fld f (3276 + 16 * c) 2
def fAck (f : Frame) (c : Nat) : Nat := fld f (3278 + 16 * c) 2
def fFree (f : Frame) : Bool := bitAt f 3328
def fToken (f : Frame) (c : Nat) : Bool := bitAt f (3329 + c)
def fWait (f : Frame) (c : Nat) : Bool := bitAt f (3333 + c)
def fLine (f : Frame) (l : Nat) : Nat := fld f (3360 + 4 * l) 4
def fL1 (f : Frame) (d k : Nat) : Nat := fld f (3872 + 3 * (8 * d + k)) 3
def fL4 (f : Frame) (d k : Nat) : Nat := fld f (3968 + 3 * (4 * d + k)) 3
def fL12 (f : Frame) (d k : Nat) : Nat := fld f (4016 + 4 * (2 * d + k)) 4
def fL48 (f : Frame) (d : Nat) : Nat := fld f (4048 + 4 * d) 4
def fTapEn (f : Frame) (vert : Bool) : Bool := bitAt f (if vert then 4070 else 4064)
def fTapSrc (f : Frame) (vert : Bool) : Nat := fld f (if vert then 4071 else 4065) 5
def fAckRt (f : Frame) (c : Nat) : Nat := fld f (4076 + 5 * c) 5

/-! ### Tiles and their places -/

/-- Address of tile (column, row) of a section. -/
def tileAddr (sec col row : Nat) : Nat := sec * 131072 + col * 256 + row
def tSec (t : Nat) : Nat := t / 131072
def tCol (t : Nat) : Nat := t / 256 % 512
def tRow (t : Nat) : Nat := t % 256

/-- An unlisted tile. -/
def dTile (_ : Nat) : Tile := {}
def getTile (s : State) (t : Nat) : Tile := mget dTile s.fab.tiles t
def setTile (t : Nat) (x : Tile) (s : State) : State :=
  { s with fab := { s.fab with tiles := mset dTile s.fab.tiles t x } }
def frameOf (s : State) (t : Nat) : Frame := (getTile s t).frame

/-- An unlisted block. -/
def dBlock (_ : Nat) : Block := {}
def getBlock (s : State) (m : Nat) : Block := mget dBlock s.bm m
def setBlock (m : Nat) (b : Block) (s : State) : State := { s with bm := mset dBlock s.bm m b }

/-- Whether the data wave of a tick is under way: storage elements drive their rails (R42). -/
def waveOn (s : State) : Bool := s.tick.inTick && !s.tick.spacer

/-- Whether the GSR of section `sec` is asserted (R57). -/
def gsrOn (s : State) (sec : Nat) : Bool := bitAt s.fab.gsr sec

/-- The rail code of a valid value. -/
def railOfBool (b : Bool) : Rail := if b then .v1 else .v0

/-- The code on two rails (R40). -/
def railOfTF (t f : Bool) : Rail :=
  if t then (if f then .illegal else .v1) else (if f then .v0 else .spacer)

def Rail.valid (r : Rail) : Bool := r == .v0 || r == .v1
def Rail.high (r : Rail) : Bool := r == .v1

/-! ### Host tiles (R101, R248, R305, R520) -/

/-- What a host tile serves. -/
inductive HostTile where
  | none
  | bm (m : Nat) (portB : Bool)
  | qWr (q : Nat)
  | qRd (q : Nat)
  | pool (port : Nat) (k : Nat)
  | gio (bank : Nat) (k : Nat)
  deriving DecidableEq, Repr

def bmUse (w : Word) : Bool := bitAt w 0
def bmAspect (w : Word) : Nat := fld w 1 3
def bmPorts (w : Word) : Nat := fld w 4 2
def bmAsync (w : Word) (portB : Bool) : Bool := bitAt w (if portB then 7 else 6)
def bmRdw (w : Word) : Nat := fld w 8 2
def bmDom (w : Word) : Nat := fld w 10 6
def bmPatrol (w : Word) : Bool := bitAt w 16

/-- Whether the port exists (R104, R106). -/
def bmHasPort (w : Word) (portB : Bool) : Bool := bmUse w && (!portB || bmPorts w != 0)
/-- Whether the port reads: A reads unless the block is SDP; B always reads (R106). -/
def bmReads (w : Word) (portB : Bool) : Bool := portB || bmPorts w != 1
/-- Whether the port writes: B writes only in TDP (R106). -/
def bmWrites (w : Word) (portB : Bool) : Bool := !portB || bmPorts w == 2
/-- Data width W of an aspect ratio (R104). -/
def bmWidth (w : Word) : Nat := [1, 2, 4, 9, 18, 36, 72, 72].getD (bmAspect w) 72
/-- Entries per row E of an aspect ratio (R107). -/
def bmPerRow (w : Word) : Nat := [64, 32, 16, 8, 4, 2, 1, 1].getD (bmAspect w) 1
/-- Address bits of an aspect ratio: log2 D (R103). -/
def bmABits (w : Word) : Nat := [15, 14, 13, 12, 11, 10, 9, 9].getD (bmAspect w) 9

/-- The word of GIO ball `g` = 48·bank + ball (R521), and its DIR. -/
def gioBall (s : State) (g : Nat) : Word := mget (fun _ => 0) s.pins.gioBall g
/-- A ball's bank has its supply; without it the ball is high-Z and reads valid 0 (R517). -/
def bankOn (s : State) (g : Nat) : Bool := !bitAt s.pins.absent (g / 48)
def gioDir (s : State) (g : Nat) : Nat := fld (gioBall s g) 0 2

def qEn (w : Word) : Bool := bitAt w 0
def qWrSide (w : Word) : Nat := fld w 8 2
def qRdSide (w : Word) : Nat := fld w 10 2

/-- What tile `t` serves as a host tile. -/
def hostOf (s : State) (t : Nat) : HostTile :=
  let sec := tSec t
  let c := tCol t
  let r := tRow t
  if c % 32 = 30 then
    let m := 4096 * sec + 256 * (c / 32) + r
    if bmHasPort (getBlock s m).cfg false then .bm m false else .none
  else if c % 32 = 31 then
    let m := 4096 * sec + 256 * (c / 32) + r
    if bmHasPort (getBlock s m).cfg true then .bm m true else .none
  else if c % 32 = 29 then
    let q := 256 * sec + 16 * (c / 32) + r / 16
    let w := getReg s (Reg.qcfg q)
    if r % 16 = 0 && qEn w && qWrSide w == 1 then .qWr q
    else if r % 16 = 8 && qEn w && qRdSide w == 1 then .qRd q else .none
  else if c % 32 = 28 then
    let k := r % 64
    let h := r / 128
    let p := 32 * sec + 2 * (c / 32) + h
    if r % 128 / 64 = 1 && k < 4 && bitAt (getReg s (Reg.ppCfg p)) 0 && bitAt (getReg s (Reg.ppCfg p)) (1 + k) then
      .pool p k else .none
  else if c % 32 = 27 then
    let k := c / 32
    let b := if r = 8 then sec else 8 + sec
    if (r = 8 || (r = 136 && sec < 2)) && k < 12 &&
        (upTo 4).any (fun n => gioDir s (48 * b + 4 * k + n) != 0) then .gio b k else .none
  else .none

/-! ### Sources (R51, R77–R90) -/

/-- A source a select can name. -/
inductive Src where
  /-- Constant valid 0 for the reading tile (R51, R81). -/
  | zero (t : Nat)
  | line (t l : Nat)
  | out (t o : Nat)
  | l1 (t d k : Nat)
  | l4 (t d k : Nat)
  | l12 (t d k : Nat)
  | l48 (t d : Nat)
  | long (l : LongLine)
  | ack (t c : Nat)
  deriving DecidableEq, Repr

/-- The tile `dist` tiles back along a wire that travels in direction `d` (N, E, S, W) and is seen at `t` (R77). -/
def backTile (t d dist : Nat) : Option Nat :=
  let c := tCol t
  let r := tRow t
  let base := tileAddr (tSec t)
  if d = 0 then (if dist ≤ r then some (base c (r - dist)) else none)
  else if d = 1 then (if dist ≤ c then some (base (c - dist) r) else none)
  else if d = 2 then (if r + dist < 256 then some (base c (r + dist)) else none)
  else (if c + dist < 512 then some (base (c + dist) r) else none)

/-- The origin of the L1 that ends at `t` travelling `d`, across a section bridge at a facing edge (R80). -/
def backL1 (t d : Nat) : Option Nat :=
  match backTile t d 1 with
  | some o => some o
  | none =>
    let s := tSec t
    if d = 1 then (if s % 4 = 0 then none else some (tileAddr (s - 1) 511 (tRow t)))
    else if d = 3 then (if s % 4 = 3 then none else some (tileAddr (s + 1) 0 (tRow t)))
    else if d = 2 then (if s < 4 then none else some (tileAddr (s - 4) (tCol t) 0))
    else (if s < 4 then some (tileAddr (s + 4) (tCol t) 255) else none)

/-- L1 travelling `d`, ending at `t`, index `k`. -/
def visL1 (t d k : Nat) : Src := match backL1 t d with | some o => .l1 o d k | none => .zero t
/-- L4 travelling `d`, visible index `v` at `t` (R77). -/
def visL4 (t d v : Nat) : Src :=
  match backTile t d (v / 4 + 1) with | some o => .l4 o d (v % 4) | none => .zero t
/-- L12 travelling `d`, visible index `v` at `t` (R77). -/
def visL12 (t d v : Nat) : Src :=
  match backTile t d (4 * (v / 2 + 1)) with | some o => .l12 o d (v % 2) | none => .zero t
/-- L48 travelling `d`, visible index `v` at `t` (R77). -/
def visL48 (t d v : Nat) : Src :=
  match backTile t d (12 * (v + 1)) with | some o => .l48 o d | none => .zero t

def hLine (t ln : Nat) : Src := .long ⟨tSec t, false, tRow t, ln % 64⟩
def vLine (t ln : Nat) : Src := .long ⟨tSec t, true, tCol t, ln % 32⟩

/-- Source of cluster input line `l` (R83). -/
def lineSrc (f : Frame) (t l : Nat) : Src :=
  let s := fLine f l
  let c := l / 32
  let i := l % 32
  if s < 4 then visL1 t s (i % 8)
  else if s < 8 then visL4 t (s - 4) ((i + s) % 16)
  else if s = 8 then visL12 t (i % 4) (i / 4 % 6)
  else if s = 9 then visL48 t ((i + 2) % 4) (i / 4 % 4)
  else if s = 10 then hLine t (l + tCol t)
  else if s = 11 then vLine t (l + tRow t)
  else .out t (32 * ((c + s - 12) % 4) + i)

/-- Source of the L1 driver (R84). -/
def l1Src (f : Frame) (t d k : Nat) : Src :=
  let s := fL1 f d k
  if s < 4 then .out t (32 * s + 8 * d + k)
  else if s = 4 then visL1 t d k
  else if s = 5 then visL1 t ((d + 1) % 4) k
  else if s = 6 then visL1 t ((d + 3) % 4) k
  else if fFree f then .ack t (k % 4) else visL4 t d (12 + k % 4)

/-- Source of the L4 driver (R85). -/
def l4Src (f : Frame) (t d k : Nat) : Src :=
  let s := fL4 f d k
  if s < 4 then .out t (32 * s + 8 * d + 2 * k + s % 2)
  else if s = 4 then visL4 t d (12 + k)
  else if s = 5 then visL4 t ((d + 1) % 4) (12 + k)
  else if s = 6 then visL4 t ((d + 3) % 4) (12 + k)
  else visL12 t d (4 + k % 2)

/-- Source of the L12 driver (R86). -/
def l12Src (f : Frame) (t d k : Nat) : Src :=
  let s := fL12 f d k
  if s < 4 then .out t (4 * (8 * s + 2 * d + k) + 2)
  else if s < 8 then .out t (4 * (8 * (s - 4) + 2 * d + k))
  else if s = 8 then visL12 t d (4 + k)
  else if s = 9 then visL12 t ((d + 1) % 4) (4 + k)
  else if s = 10 then visL12 t ((d + 3) % 4) (4 + k)
  else if s = 11 then visL4 t d (12 + 2 * k)
  else if s = 12 then visL48 t d 3
  else if s = 13 then hLine t (tCol t + 8 * d + k)
  else if s = 14 then vLine t (tRow t + 4 * d + k)
  else visL1 t d k

/-- Source of the L48 driver (R86). -/
def l48Src (f : Frame) (t d : Nat) : Src :=
  let s := fL48 f d
  if s < 4 then .out t (4 * (8 * s + 2 * d) + 2)
  else if s < 8 then .out t (4 * (8 * (s - 4) + 2 * d + 1))
  else if s = 8 then visL48 t d 3
  else if s = 9 then visL48 t ((d + 1) % 4) 3
  else if s = 10 then visL48 t ((d + 3) % 4) 3
  else if s = 11 then visL12 t d 4
  else if s = 12 then visL12 t d 5
  else if s = 13 then hLine t (tCol t + 16 * d)
  else if s = 14 then vLine t (tRow t + 8 * d)
  else visL4 t d 12

/-- Source of input `k` of LC `n` (R51). -/
def lcSrc (f : Frame) (t n k : Nat) : Src :=
  let s := fSel f n k
  let c := n / 8
  let j := n % 8
  if s < 12 then .line t (32 * c + (12 * k + 2 * j + s) % 32)
  else if s = 12 then .out t (4 * (8 * c + (j + k + 1) % 8))
  else if s = 13 then .out t (4 * (8 * c + (j + k + 1) % 8) + 1)
  else if s = 14 then .out t (4 * (8 * c + (j + k) % 8) + 2)
  else .zero t

/-- The wire ACK_RT[c] of a tile names (R87). -/
def ackRtSrc (f : Frame) (t c : Nat) : Src := visL1 t (fAckRt f c / 8) (fAckRt f c % 8)

/-- The tile output a tap drives from (R89). -/
def tapOut (f : Frame) (vert : Bool) : Nat :=
  let s := fTapSrc f vert
  if s < 16 then 4 * (2 * s + b2n vert) else 4 * (2 * (s - 16) + b2n (!vert)) + 2

/-- The eight tap tiles of a long line, by tap number (R88). -/
def tapTiles (l : LongLine) : List Nat :=
  (upTo 8).map fun j =>
    if l.vert then tileAddr l.sec l.idx (l.line + 32 * j) else tileAddr l.sec (l.line + 64 * j) l.idx

/-- Tap tiles of a line whose EN bit is set. -/
def tapsSet (s : State) (l : LongLine) : List Nat :=
  (tapTiles l).filter fun t => fTapEn (frameOf s t) l.vert

/-! ### What each wire carries -/

/-- Output rails of storage element `e` of tile `t` (R43, R44, R57). -/
def elemRail (s : State) (t e : Nat) : Rail :=
  let x := getTile s t
  if fSrc x.frame e = 3 || gsrOn s (tSec t) then .spacer
  else if fFree x.frame then (if bitAt x.frFull (e / 16) then railOfBool (bitAt x.q e) else .spacer)
  else if waveOn s then railOfBool (bitAt x.q e) else .spacer

/-- Outputs a host tile drives that are constant valid 0 on a tick-bound queue port (R251). -/
def queueConst (wr : Bool) (o : Nat) : Bool := if wr then o < 3 else o = 68 || o = 69

/-- An answered host output. -/
def answered (p : Option (BitVec 128)) (o : Nat) : Rail :=
  match p with | some v => railOfBool (bitAt v o) | none => .spacer

/-- Tile output `o` (R82): a cell's or storage element's, or the pin of what the host tile serves. -/
def outRail (s : State) (t o : Nat) : Rail :=
  let x := getTile s t
  let n := o / 4
  match hostOf s t with
  | .none =>
    if o % 4 = 0 then railOfTF (bitAt x.oaT n) (bitAt x.oaF n)
    else if o % 4 = 1 then railOfTF (bitAt x.obT n) (bitAt x.obF n)
    else elemRail s t (2 * n + (o % 4 - 2))
  | .bm m pb =>
    let b := getBlock s m
    let out := if pb then b.outB else b.outA
    let reg := if pb then b.regB else b.regA
    if !bmReads b.cfg pb || !(o < bmWidth b.cfg || o = 72 || o = 73) then .spacer
    else
      let po : Option PortOut :=
        if fFree x.frame then out
        else if !waveOn s then none
        else if o = 72 then some {}
        else if bmAsync b.cfg pb then out else some reg
      match po with
      | none => .spacer
      | some p => if o = 72 then railOfBool p.busy else if o = 73 then railOfBool p.err else railOfBool (bitAt p.dout o)
  | .qWr _ =>
    if 3 ≤ o then .spacer
    else if fFree x.frame then answered x.portOut o
    else if waveOn s then .v0 else .spacer
  | .qRd _ =>
    if 70 ≤ o then .spacer
    else if fFree x.frame then answered x.portOut o
    else if queueConst false o then (if waveOn s then .v0 else .spacer)
    else answered x.portOut o
  | .pool _ _ => if 66 ≤ o then .spacer else answered x.portOut o
  | .gio b k =>
    if 4 ≤ o then .spacer
    else
      let g := 48 * b + 4 * k + o
      if fFree x.frame then (if gioDir s g = 0 then .v0 else answered x.portOut o)
      else if waveOn s then railOfBool (gioDir s g != 0 && bankOn s g && bitAt s.pins.gioTick g) else .spacer

/-- A bound on the length of any path of wires: the segmented wires of the device and their ends. -/
def routeFuel : Nat := 134217728

/-- What a source carries now. A path that never reaches a cell, which only a ring of wires can make, stays at spacer.
DESIGN CHOICE (log 5): a constant source of a free-running tile stays valid 0 between handshakes, where no data wave is. -/
def railOf (s : State) : Nat → Src → Rail
  | 0, _ => .spacer
  | n + 1, src =>
    match src with
    | .zero t => if fFree (frameOf s t) || waveOn s then .v0 else .spacer
    | .line t l => railOf s n (lineSrc (frameOf s t) t l)
    | .out t o => outRail s t o
    | .l1 t d k => railOf s n (l1Src (frameOf s t) t d k)
    | .l4 t d k => railOf s n (l4Src (frameOf s t) t d k)
    | .l12 t d k => railOf s n (l12Src (frameOf s t) t d k)
    | .l48 t d => railOf s n (l48Src (frameOf s t) t d)
    | .ack t c => railOfBool (bitAt (getTile s t).frFull c)
    | .long l =>
      if !s.fab.tapsOn || s.fab.heldLines.contains l then .spacer
      else match tapsSet s l with
        | [] => .spacer
        | [t] =>
          let r := outRail s t (tapOut (frameOf s t) l.vert)
          match s.fab.spoilt.find? (fun p => p.1 = l) with
          | some p => if r.valid then railOfBool (bitAt (Config.free 1 p.2) 0) else r
          | none => r
        | _ => railOfTF (bitAt (Config.free 2 s.free) 0) (bitAt (Config.free 2 s.free) 1)

def rail (s : State) (src : Src) : Rail := railOf s routeFuel src

/-- Where the path of a source ends: a tile output, an acknowledge or a constant; none for a ring of wires and for a long
line that carries no single source. -/
def srcEnd (s : State) : Nat → Src → Option Src
  | 0, _ => none
  | n + 1, src =>
    match src with
    | .zero t => some (.zero t)
    | .out t o => some (.out t o)
    | .ack t c => some (.ack t c)
    | .line t l => srcEnd s n (lineSrc (frameOf s t) t l)
    | .l1 t d k => srcEnd s n (l1Src (frameOf s t) t d k)
    | .l4 t d k => srcEnd s n (l4Src (frameOf s t) t d k)
    | .l12 t d k => srcEnd s n (l12Src (frameOf s t) t d k)
    | .l48 t d => srcEnd s n (l48Src (frameOf s t) t d)
    | .long l => match tapsSet s l with | [t] => some (.out t (tapOut (frameOf s t) l.vert)) | _ => none

/-- What cluster input line `l` of tile `t` carries. -/
def lineRail (s : State) (t l : Nat) : Rail := rail s (.line t l)

/-- The number that a run of cluster input lines carries, low line first. -/
def linesVal (s : State) (t l : Nat) : Nat → Nat
  | 0 => 0
  | n + 1 => b2n (lineRail s t l).high + 2 * linesVal s t (l + 1) n

/-- Whether every line of a list carries a valid value. -/
def linesValid (s : State) (t : Nat) (ls : List Nat) : Bool := ls.all fun l => (lineRail s t l).valid

/-! ### Logic cells (R47–R50) -/

/-- COUT of LC `n` of tile `t`: its own in ARITH, else constant valid 0 (R47). -/
def coutRail (s : State) (t n : Nat) : Rail :=
  let x := getTile s t
  if fMode x.frame n = 3 then railOfTF (bitAt x.coT n) (bitAt x.coF n)
  else if fFree x.frame || waveOn s then .v0 else .spacer

/-- CIN of LC `n` of tile `t` (R50). -/
def cinRail (s : State) (t n : Nat) : Rail :=
  let f := frameOf s t
  let c := n / 8
  let const (r : Rail) : Rail := if fFree f || waveOn s then r else .spacer
  if n % 8 ≠ 0 then coutRail s t (n - 1)
  else if fCin f c = 0 then const .v0
  else if fCin f c = 1 then const .v1
  else if fCin f c = 2 then
    (if c ≠ 0 then coutRail s t (n - 1)
     else if tRow t = 0 then const .v0 else coutRail s (t - 1) 31)
  else lineRail s t (32 * c + 31)

/-- Input rails I0–I5 of LC `n`. -/
def lcIns (s : State) (t n : Nat) : List Rail := (upTo 6).map fun k => rail s (lcSrc (frameOf s t) t n k)

/-- Index of a truth table from input rails, low input first (R48). -/
def lutIdx : List Rail → Nat
  | [] => 0
  | r :: l => b2n r.high + 2 * lutIdx l

/-- The outputs OA, OB and COUT of LC `n` for these inputs and carry: `none` while an input they need is missing (R47–R49). -/
def lcOut (f : Frame) (n : Nat) (ins : List Rail) (cin : Rail) : Option Bool × Option Bool × Option Bool :=
  let i (k : Nat) : Rail := ins.getD k .spacer
  let v (ks : List Nat) : Bool := ks.all fun k => (i k).valid
  let fa := fLut f n (lutIdx [i 0, i 1, i 2, i 3, i 4])
  let fb := fLut f n (32 + lutIdx [i 0, i 1, i 2, i 3, i 5])
  if fMode f n = 1 then
    (if v [0, 1, 2, 3, 4, 5] then some (fLut f n (lutIdx [i 0, i 1, i 2, i 3, i 4, i 5])) else none, none, none)
  else if fMode f n = 2 then
    (if v [0, 1, 2, 3, 4] then some fa else none, if v [0, 1, 2, 3, 5] then some fb else none, none)
  else if fMode f n = 3 then
    let oa := if v [0, 1, 2, 3, 4] && cin.valid then some (fa != cin.high) else none
    let co := if v [0, 1, 2, 3, 4] then
        (if fa then (if cin.valid then some cin.high else none)
         else if (i 5).valid then some fb else none)
      else none
    (oa, co, co)
  else (none, none, none)

/-- Raise the rail of a value on an output: no rail falls (R41), so an output whose other rail an upset raised first shows
the illegal code (R40, R66). -/
def raise (v : Option Bool) (n : Nat) (t f : BitVec 32) : BitVec 32 × BitVec 32 :=
  match v with
  | none => (t, f)
  | some b => if b then (setBit t n true, f) else (t, setBit f n true)

/-- The inputs that output `out` (0 OA, 1 OB, 2 COUT) of a cell depends on in its mode (R49). -/
def lcDeps (mode out : Nat) : List Nat :=
  if mode = 2 then (if out = 0 then [0, 1, 2, 3, 4] else if out = 1 then [0, 1, 2, 3, 5] else [])
  else if mode = 3 && out = 0 then [0, 1, 2, 3, 4]
  else if mode = 0 then [] else [0, 1, 2, 3, 4, 5]

/-- Where CIN of LC `n` comes from: a COUT, a line, or neither for a constant (R50). -/
def cinFrom (f : Frame) (t n : Nat) : Option (Nat × Nat) × Option Src :=
  let c := n / 8
  if n % 8 ≠ 0 then (some (t, n - 1), none)
  else if fCin f c = 2 then
    (if c ≠ 0 then (some (t, n - 1), none) else if tRow t = 0 then (none, none) else (some (t - 1, 31), none))
  else if fCin f c = 3 then (none, some (.line t (32 * c + 31)))
  else (none, none)

/-- Output `out` of LC `n` depends on constants alone, through at most the given number of cells: it never returns to
spacer in a free-running tile, and like a constant source it takes no part in completion (R63, log 6). -/
def constLc (s : State) : Nat → Nat → Nat → Nat → Bool
  | 0, _, _, _ => false
  | k + 1, t, n, out =>
    let f := frameOf s t
    let fixed (src : Src) : Bool :=
      match srcEnd s routeFuel src with
      | some (.zero _) => true
      | some (.out u o) => hostOf s u == .none && o % 4 < 2 && constLc s k u (o / 4) (o % 4)
      | _ => false
    fMode f n != 0 && (lcDeps (fMode f n) out).all (fun i => fixed (lcSrc f t n i)) &&
      (fMode f n != 3 ||
        match cinFrom f t n with
        | (some (u, j), _) => fMode (frameOf s u) j != 3 || constLc s k u j 2
        | (_, some src) => fixed src
        | _ => true)

/-- A source that is constant. -/
def constSrc (s : State) (src : Src) : Bool :=
  match srcEnd s routeFuel src with
  | some (.zero _) => true
  | some (.out u o) => hostOf s u == .none && o % 4 < 2 && constLc s routeFuel u (o / 4) (o % 4)
  | _ => false

/-- A source has returned to spacer, or is constant and need not. -/
def drained (s : State) (src : Src) : Bool := rail s src == .spacer || constSrc s src

/-- CIN of LC `n` has returned to spacer, or is constant and need not. -/
def cinDrained (s : State) (t n : Nat) : Bool :=
  cinRail s t n == .spacer ||
    match cinFrom (frameOf s t) t n with
    | (some (u, j), _) => fMode (frameOf s u) j != 3 || constLc s routeFuel u j 2
    | (_, some src) => constSrc s src
    | _ => true

/-- In a free-running tile output `out` of LC `n` returns to spacer: every input it depends on has, constants apart
(R41, R44). DESIGN CHOICE (log 6). -/
def lcBack (s : State) (t n out : Nat) : Bool :=
  let f := frameOf s t
  fFree f && !constLc s routeFuel t n out && (lcDeps (fMode f n) out).all (fun i => drained s (lcSrc f t n i)) &&
    (fMode f n != 3 || cinDrained s t n)

/-- The source of the input of storage element `e` (R53). -/
def elemIn (s : State) (t e : Nat) : Rail :=
  let f := frameOf s t
  let n := e / 2
  if fSrc f e = 0 then outRail s t (4 * n)
  else if fSrc f e = 1 then outRail s t (4 * n + 1)
  else if fSrc f e = 2 then rail s (lcSrc f t n 5)
  else .spacer

/-- The enable of storage element `e`: its line, and whether it must be 1 (R53). -/
def elemEnLine (f : Frame) (e : Nat) : Option Nat :=
  let c := e / 16
  if fEn f e = 0 then none else if fEn f e = 2 then some (32 * c + 31) else some (32 * c + 30)

def elemEnOk (f : Frame) (e : Nat) (r : Rail) : Bool := if fEn f e = 3 then r == .v0 else r == .v1

/-- Take the input and the enable of element `e` into its held inputs where they are valid (R54). -/
def holdElem (s : State) (t e : Nat) (x : Tile) : Tile :=
  if fSrc x.frame e = 3 || fFree x.frame then x
  else
    let r := elemIn s t e
    let x := if r.valid then { x with held := setBit x.held e r.high } else x
    match elemEnLine x.frame e with
    | none => { x with heldEn := setBit x.heldEn e true }
    | some l =>
      let a := lineRail s t l
      if a.valid then { x with heldEn := setBit x.heldEn e (elemEnOk x.frame e a) } else x

/-! ### Completion (R63–R66) -/

/-- The mask of the cadence entry that the next tick uses (R111, R251): the engine knows it from the start of the wave. -/
def cadMask (s : State) (i : Nat) : BitVec 64 :=
  BitVec.ofNat 64 ((getReg s (Reg.cadMaskLo i)).toNat + (getReg s (Reg.cadMaskHi i)).toNat * 2 ^ 32)

def cadLen (s : State) : Nat := (getReg s Reg.cadLen).toNat

/-- Number of the tick the engine issues next. -/
def nextTick (s : State) : Nat := if s.tick.redo then s.tick.nowP1 - 1 else s.tick.nowP1

/-- Cadence entry of the tick after the one in progress: kept for a re-evaluated tick, else the table's (R135). -/
def maskAfter (s : State) : BitVec 64 :=
  match s.tick.kept.find? (fun k => k.tick = s.tick.nowP1) with
  | some k => if s.tick.nowP1 < s.tick.hiP1 then k.mask else cadMask s s.tick.cadNext
  | none => cadMask s s.tick.cadNext

/-- Whether the port domain of a host tile is active in the entry the next tick uses (R251, R308). -/
def portActive (s : State) (t : Nat) : Bool := bitAt (maskAfter s) (fDomA (frameOf s t) 0)

/-- Cluster input lines a host tile monitors: the pins in use (R63, R103, R249, R306, R520). -/
def hostLines (s : State) (t : Nat) : List Nat :=
  let run (a n : Nat) : List Nat := (upTo n).map (· + a)
  match hostOf s t with
  | .none => []
  | .bm m pb =>
    let w := (getBlock s m).cfg
    run 0 (bmABits w) ++ [16] ++
      (if bmWrites w pb then
        [15] ++ (if 18 ≤ bmWidth w then run 17 (bmWidth w / 9) else []) ++ run 32 (bmWidth w) else [])
  | .qWr _ => [15, 16] ++ run 32 64
  | .qRd _ => [15]
  | .pool _ _ => run 0 47 ++ run 64 64
  | .gio b k =>
    (upTo 4).foldr (fun n l =>
      let d := gioDir s (48 * b + 4 * k + n)
      (if d = 2 then [8 * n] else if d = 3 then [8 * n, 8 * n + 1] else []) ++ l) []

/-- The request pin of a port's host tile: PUSH, POP or REQ (R249, R306). -/
def requestLine (h : HostTile) : Option Nat :=
  match h with
  | .qWr _ | .qRd _ => some 15
  | .pool _ _ => some 0
  | _ => none

/-- A port that cannot act in this tick, or whose request pin is valid 0: its outputs go valid with every bit 0 (R65). -/
def portQuiet (s : State) (t : Nat) : Bool :=
  match requestLine (hostOf s t) with
  | none => false
  | some l => waveOn s && !fFree (frameOf s t) && (!portActive s t || lineRail s t l == .v0)

/-- Whether the port interface of the tile has answered the requests of cluster `c` in this tick (R65). -/
def answerValid (s : State) (t c : Nat) : Bool :=
  match requestLine (hostOf s t) with
  | some _ => c != 0 || (getTile s t).portOut.isSome || portQuiet s t
  | none => true

/-- Keep the rule for every listed tile. -/
def mapTiles (f : Nat → Tile → Tile) (s : State) : State :=
  { s with fab := { s.fab with tiles := mmap dTile f s.fab.tiles } }

/-- A line whose source is back at spacer begins its next handshake cycle, and carries its source again (R94). -/
def endSpoilt (s : State) : State :=
  let spoilt := s.fab.spoilt.filter (fun p => (tapsSet s p.1).any (fun t => (outRail s t (tapOut (frameOf s t) p.1.vert)).valid))
  { s with fab := { s.fab with spoilt := spoilt } }

/-- ACK_IN of cluster `c` of a free-running tile from its sources (R45). -/
def ackIn (s : State) (t c : Nat) : Bool :=
  let x := getTile s t
  let own := bitAt x.frFull c
  let next := if c ≠ 3 then bitAt x.frFull (c + 1)
    else if tRow t = 255 then own else bitAt (getTile s (t + 1)).frFull 0
  let rt := match rail s (ackRtSrc x.frame t c) with | .v1 | .illegal => true | _ => false
  if fAck x.frame c = 0 then own
  else if fAck x.frame c = 1 then next
  else if fAck x.frame c = 2 then rt
  else if next && rt then true else if !next && !rt then false else bitAt x.ackC c

/-- Let the joined acknowledges of ACK_SEL 0b11 follow their two sources (R45). -/
def refreshAcks (s : State) : State :=
  mapTiles (fun t x =>
    if fFree x.frame then
      { x with ackC := BitVec.ofNat 4 ((upTo 4).foldl (fun a c => a + b2n (ackIn s t c) * 2 ^ c) 0) }
    else x) s

/-- Drive the outputs of a quiet port (R65). -/
def quietPort (t : Nat) (s : State) : State :=
  if portQuiet s t && (getTile s t).portOut.isNone then setTile t { getTile s t with portOut := some 0, ansLast := false } s else s

/-- Evaluate LC `n` of tile `t` (R49). In a free-running tile an output returns to spacer once the inputs
it depends on have (R41, R44). -/
def lcEval (t n : Nat) (s : State) : State :=
  let x := getTile s t
  if gsrOn s (tSec t) then s
  else if hostOf s t != .none then quietPort t s
  else
    let ins := lcIns s t n
    let (oa, ob, co) := lcOut x.frame n ins (cinRail s t n)
    let clr (out : Nat) (v : BitVec 32) : BitVec 32 := if lcBack s t n out then setBit v n false else v
    let a := raise oa n (clr 0 x.oaT) (clr 0 x.oaF)
    let b := raise ob n (clr 1 x.obT) (clr 1 x.obF)
    let c := raise co n (clr 2 x.coT) (clr 2 x.coF)
    let x := { x with oaT := a.1, oaF := a.2, obT := b.1, obF := b.2, coT := c.1, coF := c.2 }
    let s := setTile t x s
    let s := if waveOn s then setTile t (holdElem s t (2 * n + 1) (holdElem s t (2 * n) (getTile s t))) s else s
    refreshAcks (endSpoilt s)

/-- The monitored rails of cluster `c` of a tick-bound tile, apart from answer lines (R63). -/
def clusterPoints (s : State) (t c : Nat) : List Rail :=
  let f := frameOf s t
  let x := getTile s t
  if hostOf s t != .none then
    let lines := (hostLines s t).filter (fun l => l / 32 = c)
    lines.map (lineRail s t) ++
      (match hostOf s t with
       | .bm m pb =>
         if c = 0 && bmAsync (getBlock s m).cfg pb && bmReads (getBlock s m).cfg pb then
           [outRail s t 0, outRail s t 73] else []
       | _ => [])
  else
    (upTo 8).foldr (fun j l =>
      let n := 8 * c + j
      let m := fMode f n
      (if m = 0 then [] else [railOfTF (bitAt x.oaT n) (bitAt x.oaF n)]) ++
      (if m = 2 || m = 3 then [railOfTF (bitAt x.obT n) (bitAt x.obF n)] else []) ++
      (if m = 3 then [railOfTF (bitAt x.coT n) (bitAt x.coF n)] else []) ++
      ([2 * n, 2 * n + 1].foldr (fun e k =>
        if fSrc f e = 3 then k
        else elemIn s t e :: (match elemEnLine f e with | none => k | some a => lineRail s t a :: k)) []) ++ l) []

/-- A cluster of a tick-bound tile is data-complete (R63). -/
def dataComplete (s : State) (t c : Nat) : Bool :=
  (clusterPoints s t c).all Rail.valid && (!fWait (frameOf s t) c || answerValid s t c)

/-- A tile has nothing to monitor: it settles at once (R403). -/
def nothingInUse (s : State) (t : Nat) : Bool :=
  (upTo 4).all fun c => (clusterPoints s t c).isEmpty && (!fWait (frameOf s t) c || answerValid s t c)

/-- Count an illegal code seen in cluster `c` of tile `t`, once per phase (R66); `pcol` is the physical column. -/
def countRail (t c pcol : Nat) (s : State) : State :=
  let x := getTile s t
  if bitAt x.railMark c then s
  else
    let s := setTile t { x with railMark := setBit x.railMark c true } s
    latchFirst (Reg.secRailLoc (tSec t)) (w32 (2 ^ 31 + c * 2 ^ 18 + pcol * 2 ^ 8 + tRow t))
      (bump (Reg.secRailErr (tSec t)) s)

/-- Force every cell output of every tick-bound tile to spacer, and clear what the wave reported (R42). -/
def forceSpacer (s : State) : State :=
  let s := mapTiles (fun _ x =>
    if fFree x.frame then x
    else { x with oaT := 0, oaF := 0, obT := 0, obF := 0, coT := 0, coF := 0, portOut := none,
                  settled := false, spacerDone := false, railMark := 0, ansLast := false }) s
  { s with bm := mmap dBlock (fun m b =>
      let t := tileAddr (m / 4096) (32 * (m % 4096 / 256) + 30) (m % 256)
      if fFree (frameOf s t) then b else { b with outA := none, outB := none }) s.bm }

/-- The initial values of every storage element of a tile (R57, R58). -/
def initQ (f : Frame) : BitVec 64 :=
  BitVec.ofNat 64 ((upTo 64).foldl (fun a e => a + b2n (fInit f e) * 2 ^ e) 0)

/-- Every tile as GSR holds it: initial values, nothing reported, every stage empty (R57); on release, stages start with the
tokens that FR_TOKEN gives (R46, R60). -/
def initTiles (tokens : Bool) (s : State) : State :=
  mapTiles (fun _ x =>
    { x with q := initQ x.frame, held := 0, heldEn := 0, oaT := 0, oaF := 0, obT := 0, obF := 0, coT := 0, coF := 0,
             portOut := none, settled := false, spacerDone := false, railMark := 0, ansLast := false, ackC := 0,
             frFull := if tokens && fFree x.frame then BitVec.ofNat 4 (fld x.frame 3329 4) else 0 }) s

/-- Host tile of a channel (R305). -/
def poolTile (p k : Nat) : Nat := tileAddr (p / 32) (32 * (p % 32 / 2) + 28) (128 * (p % 2) + 64 + k)

/-- A free-running channel's handshake ends under GSR (R57): a request that its port has not taken is withdrawn, and the answer of one that
has reached memory or a model finds no stage that waits. -/
def dropStage (s : State) (p : Nat) (x : Port) : Port :=
  let free (k : Nat) : Bool := fFree (frameOf s (poolTile p k))
  let begun (r : PReq) : Bool := match r.st with | .taken | .model _ => true | _ => false
  let waits (k : Nat) : Bool := bitAt x.req k && !free k
  { x with req := BitVec.ofNat 4 ((upTo 4).foldl (fun a k => a + b2n (waits k) * 2 ^ k) 0)
           reqs := (x.reqs.filter (fun q => !free q.1 || begun q.2)).map (fun q => (q.1, { q.2 with gone := q.2.gone || free q.1 })) }

/-- GSR is asserted in every section: every tile is held (R57, R59, R61). -/
def gsrAssert (s : State) : State :=
  let s := { s with pool := { s.pool with ports := mmap (fun _ => {}) (dropStage s) s.pool.ports } }
  initTiles false { s with fab := { s.fab with gsr := 0xFF, spoilt := [] } }

/-- GSR is released in every section (R46, R60); SYNC read registers hold 0 (R109). -/
def gsrRelease (s : State) : State :=
  let clr (_ : Nat) (b : Block) : Block := { b with regA := {}, regB := {}, outA := none, outB := none }
  let s := initTiles true s
  refreshAcks { s with fab := { s.fab with gsr := 0 }, bm := mmap dBlock clr s.bm }

/-- Storage elements of cluster `c` that are in use. -/
def stageElems (f : Frame) (c : Nat) : List Nat := ((upTo 16).map (· + 16 * c)).filter fun e => fSrc f e != 3

end Sys2Proof.Machine
end

