-- ==== Sys2Proof/Machine/Repair.lean ====
section
/-! DEFINITION. Marks of failed resources and what repair makes of them: column, block and eddy mapping, and
the resources left unrepaired (chapter Scrubbing, Self-Test and Repair; R126, R327, R477–R479). -/

namespace Sys2Proof.Machine

/-- Every mark in force: those of power-up and those made at run time. -/
def allMarks (s : State) : List Mark := s.rep.marks ++ s.rep.run

/-- The indices marked at power-up for a kind in a section, rising and each once. -/
def markedIdx (s : State) (kind sec bound : Nat) : List Nat :=
  (upTo bound).filter fun i => s.rep.marks.any (fun m => m.kind = kind && m.sec = sec && m.idx = i)

/-- Whether a resource is marked. -/
def marked (s : State) (kind sec idx : Nat) : Bool := (allMarks s).contains ⟨kind, sec, idx⟩

/-! ### Columns (R477) -/

/-- Failed physical columns of a section. -/
def failedCols (s : State) (sec : Nat) : List Nat := markedIdx s 1 sec 528

/-- Physical columns that are not failed. -/
def goodCols (s : State) (sec : Nat) : List Nat :=
  let bad := failedCols s sec
  (upTo 528).filter fun p => !bad.contains p

/-- The physical column of a logical one, unless it is unrepaired. -/
def colOf (s : State) (sec x : Nat) : Option Nat := (goodCols s sec)[x]?

/-- The physical column of a logical one, as locations show it. -/
def physCol (s : State) (sec col : Nat) : Nat :=
  if s.rep.marks.any (fun m => m.kind = 1 && m.sec = sec) then (colOf s sec col).getD col else col

/-- The logical column that a physical one carries, if any. -/
def logCol (s : State) (sec p : Nat) : Option Nat :=
  if (failedCols s sec).contains p then none
  else
    let x := p - ((failedCols s sec).filter (· < p)).length
    if x < 512 then some x else none

/-- Logical columns without a physical column. -/
def unrepairedCols (s : State) (sec : Nat) : List Nat := (upTo 512).drop (goodCols s sec).length

/-- Every cluster of a tick-bound tile that shows an illegal code at a monitored point is counted (R66). -/
def countRails (s : State) : State :=
  forEach (fun (p : Nat × Tile) s =>
    if fFree p.2.frame then s
    else forEach (fun c s =>
      if (clusterPoints s p.1 c).any (fun r => r == .illegal) then countRail p.1 c (physCol s (tSec p.1) (tCol p.1)) s
      else s) (upTo 4) s) s.fab.tiles s

/-! ### Blocks and eddies (R126, R327) -/

/-- Spare blocks of a section that are not marked. -/
def goodSpares (s : State) (sec : Nat) : List Nat :=
  let bad := markedIdx s 2 sec 4160
  ((upTo 64).map (· + 4096)).filter fun p => !bad.contains p

/-- The block that a physical block serves as: spares 4096–4159 stand in for the lowest marked blocks. -/
def logBlock (s : State) (sec p : Nat) : Option Nat :=
  let bad := (markedIdx s 2 sec 4160).filter (· < 4096)
  if p < 4096 then (if bad.contains p then none else some p)
  else ((goodSpares s sec).zip bad).lookup p

/-- Blocks of a section that are marked and have no spare in their place. -/
def unrepairedBlocks (s : State) (sec : Nat) : List Nat :=
  ((markedIdx s 2 sec 4160).filter (· < 4096)).drop (goodSpares s sec).length ++
    (s.rep.run.filter (fun m => m.kind = 2 && m.sec = sec)).filterMap (fun m => logBlock s sec m.idx)

/-- Spare blocks in use in a section. -/
def spareBlocksUsed (s : State) (sec : Nat) : Nat :=
  let bad := markedIdx s 2 sec 4160
  min (bad.filter (· < 4096)).length (goodSpares s sec).length

/-- Working physical eddies of a section. -/
def goodEddies (s : State) (sec : Nat) : List Nat :=
  (upTo 66).filter fun p => !s.rep.marks.any (fun m => m.kind = 3 && m.sec = sec && m.idx = p)

/-- The physical number of logical eddy `E`. -/
def physEddy (s : State) (e : Nat) : Option Nat := (goodEddies s (e / 64))[e % 64]?

/-- The logical eddy that a physical one serves as. -/
def logEddy (s : State) (sec p : Nat) : Option Nat :=
  let i := (goodEddies s sec).findIdx (· = p)
  if i < (goodEddies s sec).length && i < 64 then some (64 * sec + i) else none

/-- Spare eddies in use in a section. -/
def spareEddiesUsed (s : State) (sec : Nat) : Nat :=
  (((goodEddies s sec).take 64).filter (64 ≤ ·)).length

/-- Logical eddies without a working physical one. -/
def unrepairedEddies (s : State) (sec : Nat) : List Nat :=
  ((upTo 64).map (· + 64 * sec)).filter fun e =>
    match physEddy s e with
    | none => true
    | some p => s.rep.run.contains ⟨3, sec, p⟩

/-! ### Sites, ports, channels and HBM -/

/-- A queue site, pool port or channel that is marked: kinds 4, 5 and 6 have no spares (R478). -/
def siteFailed (s : State) (q : Nat) : Bool := marked s 4 (q / 256) (q % 256)
def portFailed (s : State) (p : Nat) : Bool := marked s 5 (p / 32) (p % 32)
def chanFailed (s : State) (c : Nat) : Bool := (allMarks s).any (fun m => m.kind = 6 && m.sec = c)
/-- A pseudo-channel that a power-up mark names, and that lane repair has brought back (R292, R477, R478; DESIGN CHOICE, log 155: which
ones it can is a fact of the device). Nothing is repaired at run time (R479). -/
def laneRepaired (s : State) (m : Mark) : Bool := m.kind = 7 && s.rep.marks.contains m && Config.laneRepair m.sec m.idx
/-- A stack or pseudo-channel is marked failed without repair (R478 KIND 7): of any stack, and of stack `k`. -/
def hbmFailed (s : State) : Bool := (allMarks s).any (fun m => m.kind = 7 && !laneRepaired s m)
def stackFailed (s : State) (k : Nat) : Bool := (allMarks s).any (fun m => m.kind = 7 && m.sec = k && !laneRepaired s m)
/-- Pseudo-channels of stack `k` that lane repair has brought back (HBM_STAT bits 15:8). -/
def lanesRepaired (s : State) (k : Nat) : Nat := ((s.rep.marks.dedup).filter (fun m => m.sec = k && laneRepaired s m)).length
/-- Shared confluence logic is marked: every load fails (R478 KIND 9). -/
def hubFailed (s : State) : Bool := (allMarks s).any (fun m => m.kind = 9)

/-- Resources unrepaired: no spare stands in their place (R479). -/
def unrepaired (s : State) : Nat :=
  ((upTo 8).map fun sec => (unrepairedCols s sec).length + (unrepairedBlocks s sec).length +
    (unrepairedEddies s sec).length).foldl (· + ·) 0 +
  (s.rep.marks.filter (fun m => 4 ≤ m.kind && !laneRepaired s m)).length +
  (s.rep.run.filter (fun m => m.kind = 1 || 4 ≤ m.kind)).length + s.rep.lost.length

end Sys2Proof.Machine
end

