-- ==== Sys2Proof/Machine/Freeze.lean ====
section
/-! DEFINITION. Freezing a master and its record (R451–R453). -/

namespace Sys2Proof.Machine

/-- Write a freeze record; a full FIFO of 64 loses it (R452, R453). Vector 12 is raised (R392). -/
def freezeRecord (cls idx cause code pool addr : Nat) (s : State) : State :=
  let f := s.frz
  let r : FreezeRec := ⟨cls, idx, cause, code, pool, addr, if s.tick.nowP1 = 0 then none else some (s.tick.nowP1 - 1), f.seq⟩
  let s := bump Reg.frzTotal { s with frz := { f with seq := (f.seq + 1) % 65536 } }
  if f.recs.length < 64 then raiseVec 12 { s with frz := { s.frz with recs := f.recs ++ [r] } }
  else bump Reg.frzDropped s

/-- Mark a master of a class as frozen, or not (R451). -/
def setFrozen (cls idx : Nat) (on : Bool) (s : State) : State :=
  let f := s.frz
  { s with frz :=
    if cls = 0 then { f with ctx := setBit f.ctx idx on }
    else if cls = 1 then { f with dma := setBit f.dma idx on }
    else if cls = 2 then { f with eddy := setBit f.eddy idx on }
    else if cls = 3 then { f with port := setBit f.port idx on }
    else if cls = 4 then { f with remote := setBit f.remote idx on } else f }

/-- Whether a master is frozen. -/
def isFrozen (s : State) (cls idx : Nat) : Bool :=
  let f := s.frz
  if cls = 0 then bitAt f.ctx idx else if cls = 1 then bitAt f.dma idx else if cls = 2 then bitAt f.eddy idx
  else if cls = 3 then bitAt f.port idx else if cls = 4 then bitAt f.remote idx else false

/-- A master commits a violation: it is frozen at once and one record is written (R451). -/
def freezeMaster (cls idx cause code pool addr : Nat) (s : State) : State :=
  freezeRecord cls idx cause code pool addr (setFrozen cls idx true s)

/-- A violation in the pool block (R320, R324, R392); a remote requester's is answered POOL_RIGHTS, whatever its cause (R321). -/
def poolViolation (cls idx cause pool addr : Nat) (s : State) : State :=
  raiseVec 9 (bump Reg.poolViolations (freezeMaster cls idx cause (if cause = 4 && cls != 4 then 1 else 2) pool addr s))

end Sys2Proof.Machine
end

