-- ==== Sys2Proof/Machine/Ecc.lean ====
section
/-! DEFINITION. What a SECDED check finds and returns (R532). -/

namespace Sys2Proof.Machine

/-- What a SECDED check of one word finds (R532). -/
inductive Ecc where
  | ok | ce | ue
  deriving DecidableEq, Repr

/-- The verdict on a word with `n` bits in error; from three bits on it is one of three outcomes, freely (R532). -/
def eccVerdict (n freeNo : Nat) : Ecc :=
  if n = 0 then .ok else if n = 1 then .ce else if n = 2 then .ue
  else if Config.free 2 freeNo = 0#2 then .ue else if Config.free 2 freeNo = 1#2 then .ce else .ok

/-- The data a check returns: corrected where one bit is in error; miscorrected by one free bit, as read, or
as it stands where three or more are (R532). -/
def eccData {w : Nat} (n freeNo : Nat) (data err : BitVec w) : BitVec w :=
  if n = 1 then data ^^^ err
  else if 2 < n && eccVerdict n freeNo == .ce then flipBit data ((Config.free 16 freeNo).toNat % w) else data

/-- The number of an asynchronous FIFO in the bank of their errors (R275, R283). -/
def fifoNo : Fifo → Nat
  | .hbmIn k => k
  | .hbmOut k => 4 + k
  | .subUp sec => 8 + sec
  | .subDown sec => 16 + sec
  | .hostIn => 24
  | .hostOut => 25

/-- An unlisted FIFO carries no error. -/
def dFifo (_ : Nat) : BitVec 72 := 0

end Sys2Proof.Machine
end

