-- ==== Sys2Proof/Machine/Net.lean ====
section
/-! DEFINITION. Messages between devices: fields, channels, forwarding and the dateline, flits without a route,
and the reroute of a failed channel (chapters Serial Channels and Ford Ports; Fabrics of Many Devices). -/

namespace Sys2Proof.Machine

/-! ### Message fields (R172, R176) -/

/-- The common fields of a device message: TYPE, bytes 3:2, SRC and DST. -/
def mkMsg (typ w src dst : Nat) : Payload :=
  payPut (payPut (payPut (payPut 0 0 1 typ) 2 2 w) 4 2 src) 6 2 dst

def msgType (p : Payload) : Nat := payN p 0 1
def msgSrc (p : Payload) : Nat := payN p 4 2 % 1024
def msgDst (p : Payload) : Nat := payN p 6 2 % 1024

/-- This device's ID (R220). -/
def ownId (s : State) : Nat := s.net.id

/-- This device is the fabric root: it holds ID 0x000 (R220). -/
def isRoot (s : State) : Bool := s.net.id = 0

def parentChan (s : State) : Option Nat := s.net.parent

/-- The channels of CHILDREN. -/
def childChans (s : State) : List Nat := bitList 20 0 s.net.children.toNat

/-! ### Boundary maps (R234) -/

/-- Register words of a run of BAR0 that hold VALID in bit 31, as element numbers. -/
def validWords (s : State) (base n : Nat) : List Nat :=
  (s.regs.filter (fun (p : Nat × Word) => base ≤ p.1 && p.1 < base + 4 * n && bitAt p.2 31)).map (fun p => (p.1 - base) / 4)

/-- Input groups that BND_IN_MAP marks VALID. -/
def inGroups (s : State) : List Nat := validWords s (Reg.bndInMap 0) 4096
/-- Output groups that BND_OUT_MAP marks VALID. -/
def outGroups (s : State) : List Nat := validWords s (Reg.bndOutMap 0) 4096
/-- Source device of an input group. -/
def groupSrc (s : State) (g : Nat) : Nat := fld (getReg s (Reg.bndInMap g)) 0 10
/-- Destination device and destination input group of an output group. -/
def groupDst (s : State) (o : Nat) : Nat := fld (getReg s (Reg.bndOutMap o)) 12 10
def groupRemote (s : State) (o : Nat) : Nat := fld (getReg s (Reg.bndOutMap o)) 0 12

def bndSources (s : State) : List Nat := ((inGroups s).map (groupSrc s)).dedup
def bndDests (s : State) : List Nat := ((outGroups s).map (groupDst s)).dedup

/-- A device that a BND map names has no forwarding entry (R241). -/
def bndUnreachable (s : State) : Bool :=
  (bndSources s ++ bndDests s).any (fun d => getReg s (Reg.fabRoute d) == 0)

/-! ### Channels -/

/-- An unlisted channel. -/
def dChan (_ : Nat) : Chan := {}
def getChan (s : State) (c : Nat) : Chan := mget dChan s.chans c
def setChan (c : Nat) (x : Chan) (s : State) : State := { s with chans := mset dChan s.chans c x }

/-- ID of the neighbour at the far end of a channel (R223). -/
def neighId (s : State) (c : Nat) : Nat := (getChan s c).nbId

/-- Class 2·VL + DL of a flit's receive buffer (R208, R209). -/
def flitClass (vl dl : Nat) : Nat := 2 * vl + dl

/-- Whether a channel carries flits of the design: UP or RETRAINING, not held by a reroute (R228). -/
def chanUsable (s : State) (c : Nat) : Bool :=
  let x := getChan s c
  (x.st == .up || x.st == .retraining) && !x.unusable && !x.resetting

/-- A flit leaves its receive buffer: one credit of its class is owed to the partner (R209). -/
def freeSlot (f : Flit) (s : State) : State :=
  match f.arr with
  | some a =>
    if f.slot then
      let x := getChan s a
      let k := flitClass f.vl f.dl
      let u := x.unret.set k (x.unret.getD k 0 + 1)
      setChan a { x with unret := u, creditDue := x.creditDue || 8 ≤ u.getD k 0 } s
    else s
  | none => s

/-- Deliver a flit to this device: its message waits to be taken. -/
def deliverHere (f : Flit) (s : State) : State :=
  freeSlot f { s with net := { s.net with inbox := s.net.inbox ++ [⟨f.arr, f.vl, f.pay⟩] } }

/-- Queue a flit at output `c`. -/
def enqueue (c dl : Nat) (f : Flit) (s : State) : State :=
  let x := getChan s c
  setChan c { x with outq := x.outq ++ [⟨dl, f⟩] } s

/-- Send a message of this device straight on a channel: a discovery, tree or neighbour message (R223, R225, R230). -/
def sendChan (c vl : Nat) (p : Payload) (s : State) : State := enqueue c 0 { vl := vl, dl := 0, pay := p } s

/-- A delivered message is taken. -/
def takeMsg (p : Payload) (s : State) : State :=
  let i := s.net.inbox.findIdx (fun m => m.pay = p)
  { s with net := { s.net with inbox := s.net.inbox.eraseIdx i } }

/-! ### Forwarding (R227, R228) -/

/-- The forwarding entry for `d` in the copy a flit uses: its arrival channel's, or FAB_ROUTE for an injected one. -/
def routeEntry (s : State) (arr : Option Nat) (d : Nat) : Word :=
  match arr with
  | some a => getReg s (Reg.lnkFwd a d)
  | none => getReg s (Reg.fabRoute d)

/-- Whether a flit arrived by a down move. -/
def arrivedDown (s : State) (arr : Option Nat) : Bool :=
  match arr with | some a => bitAt s.net.upMask a | none => false

/-- The in-use next hop of an entry: the primary channel if valid and usable, else the alternate. -/
def nextHop (s : State) (e : Word) (down : Bool) : Option Nat :=
  let b := if down then 12 else 0
  let p := fld e b 5
  let q := fld e (b + 6) 5
  if bitAt e (b + 5) && chanUsable s p then some p
  else if bitAt e (b + 11) && chanUsable s q then some q
  else none

/-- Whether a reroute holds destination `d`. -/
def destHeld (s : State) (d : Nat) : Bool :=
  s.chans.any (fun p => match p.2.ev with | some e => e.dests.contains d | none => false)

/-- Whether destination `d` is held past FAB_FENCE_TO. -/
def destExpired (s : State) (d : Nat) : Bool :=
  s.chans.any (fun p => match p.2.ev with | some e => e.expired && e.dests.contains d | none => false)

def holdFlit (h : HeldFlit) (s : State) : State := { s with net := { s.net with held := s.net.held ++ [h] } }

/-- The engine halts for want of a route, if it runs (R129). -/
def haltNoRoute (s : State) : State :=
  if s.tick.st == .run || s.tick.st == .paced then enterHalt 4 false s
  else if s.tick.st == .fault then joinFault 0xFF s
  else s

/-- FAB_CAUSE. -/
def fabCause (code : Nat) (s : State) : State := setReg Reg.fabCause (w32 code) s

/-- The NOTICE that names a flow (R238). -/
def noticeMsg (me src dst : Nat) : Payload :=
  payPut (payPut (payPut (mkMsg 0x36 0 me 0x3FF) 1 1 1) 8 2 src) 10 2 dst

/-- Send a NOTICE along the discovery tree, except on one channel (R230). -/
def spreadNotice (p : Payload) (skip : Option Nat) (s : State) : State :=
  let cs := (match s.net.parent with | some c => [c] | none => []) ++ childChans s
  forEach (fun c s => sendChan c 2 p s) (cs.filter (fun c => some c != skip)) s

/-- A flow is found without a route (R239). -/
def flowNoRoute (code src dst : Nat) (s : State) : State :=
  let was := s.net.noRoute
  let s := fabCause code (bump Reg.fabNoRoute { s with net := { s.net with noRoute := true } })
  let s := if was then s else raiseVec 5 s
  let s := spreadNotice (noticeMsg (ownId s) src dst) none s
  if src = ownId s || dst = ownId s then haltNoRoute s else s

/-- A flit of flow `src` to `dst` waits for want of a route. This device's own FENCEs are no flow (log 36). -/
def flowWaits (s : State) (src dst : Nat) : Bool :=
  s.net.held.any (fun h => h.noRoute && msgSrc h.f.pay = src && msgDst h.f.pay = dst &&
    !(msgType h.f.pay = 0x26 && src = ownId s))

/-- Name a flow without a route once, counting from the state `s₀` before its flit was held (R239). -/
def nameFlow (code : Nat) (f : Flit) (s₀ s : State) : State :=
  if flowWaits s₀ (msgSrc f.pay) (msgDst f.pay) then s else flowNoRoute code (msgSrc f.pay) (msgDst f.pay) s

/-- A flit has no route: a VL2 flit is dropped and counted; another is held, and its flow named once (R239). -/
def keepNoRoute (code : Nat) (f : Flit) (s : State) : State :=
  if f.vl = 2 then freeSlot f (bump Reg.fabVl2Unrouted s)
  else nameFlow code f s (holdFlit { f := f, noRoute := true } s)

/-- Queue a flit at its next hop, taking the dateline at a down-to-up turn (R228, R229). -/
def turnAndSend (c : Nat) (f : Flit) (s : State) : State :=
  let turn := arrivedDown s f.arr && bitAt s.net.upMask c
  let s := if turn && f.dl = 1 then bump Reg.fabTurnErr s else s
  enqueue c (if turn then 1 else f.dl) f s

/-- A message whose DST is not allowed for its TYPE is discarded (R220). -/
def fabBad (f : Flit) (s : State) : State := freeSlot f (bump Reg.fabBadMsg s)

/-- A VL1 request: POOL_RD or POOL_WR (R319). -/
def isRequest (f : Flit) : Bool := f.vl = 1 && (msgType f.pay = 0x40 || msgType f.pay = 0x41)

/-- A flit follows others of its flow that are held for want of a route: it waits behind them, so that the flow keeps its order
(R171, R239; DEDUCED, log 149). FENCEs travel as arriving flits do, and requests complete, so neither takes part. -/
def behindHeld (s : State) (f : Flit) : Bool :=
  f.vl ≤ 1 && !isRequest f && msgType f.pay != 0x26 &&
    s.net.held.any (fun h => h.noRoute && msgType h.f.pay != 0x26 && msgSrc h.f.pay = msgSrc f.pay && msgDst h.f.pay = msgDst f.pay)

/-- Forward a flit (R228): deliver it, hold it, or queue it at its next hop; `lost` is what becomes of one without a route.
A trace export flit of another device is discarded and counted (R496). -/
def forwardBy (lost : Flit → State → State) (f : Flit) (s : State) : State :=
  let d := msgDst f.pay
  let t := msgType f.pay
  if f.vl = 1 && t = 0x50 then fabBad f s
  else if d = 0x3FE then (if t = 0x31 || t = 0x33 then deliverHere f s else fabBad f s)
  else if d = 0x3FF then (if t = 0x30 || t = 0x36 then deliverHere f s else fabBad f s)
  else if f.vl = 2 && t = 0x32 then deliverHere f s
  else
    let e := routeEntry s f.arr d
    if bitAt e 28 then deliverHere f s
    else if f.vl ≤ 1 && destExpired s d then lost f s
    else if behindHeld s f then holdFlit { f := f, noRoute := true } s
    else if f.vl ≤ 1 && destHeld s d then holdFlit { f := f } s
    else match nextHop s e (arrivedDown s f.arr) with
      | some c => turnAndSend c f s
      | none => lost f s

/-- A VL1 request has no route: it completes at its requester with FAB_NO_ROUTE (R239; DEDUCED, log 43: by a POOL_ANS, which
a device on the way sends back). -/
def poolNoRoute (f : Flit) (s : State) : State :=
  let src := msgSrc f.pay
  let a := payPut (mkMsg 0x42 (payN f.pay 2 2) (msgDst f.pay) src) 1 1 7
  let s := freeSlot f s
  if src = ownId s then { s with net := { s.net with inbox := s.net.inbox ++ [⟨none, 1, a⟩] } }
  else forwardBy (keepNoRoute 7) { vl := 1, dl := 0, pay := a } s

/-- What becomes of a flit without a route (R239): a VL1 request completes at its requester, its flow being named; any other flit
is held, or dropped on VL2. -/
def holdNoRoute (code : Nat) (f : Flit) (s : State) : State :=
  if isRequest f then nameFlow code f s (poolNoRoute f s) else keepNoRoute code f s

/-- Forward a flit (R228). -/
def forward (f : Flit) (s : State) : State := forwardBy (holdNoRoute 7) f s

/-- Send a message of this device to device `dst` (R228): an injected flit starts in DL 0. -/
def sendDev (vl _dst : Nat) (p : Payload) (s : State) : State := forward { vl := vl, dl := 0, pay := p } s

/-! ### Reroute (R237) -/

/-- Assigned IDs, as the forwarding table shows them. -/
def assignedIds (s : State) : List Nat :=
  (s.regs.filter (fun (p : Nat × Word) => Reg.fabRoute 0 ≤ p.1 && p.1 < Reg.fabRoute 1024)).map
    (fun p => (p.1 - Reg.fabRoute 0) / 4)

/-- Destinations whose in-use next hop is channel `c`. -/
def destsVia (s : State) (c : Nat) : List Nat :=
  (assignedIds s).filter (fun d =>
    let e := getReg s (Reg.fabRoute d)
    nextHop s e false == some c || nextHop s e true == some c)

/-- Forward the held flits whose destination is held no more, oldest first. -/
def releaseHeld (s : State) : State :=
  let go (h : HeldFlit) : Bool := !h.noRoute && !destHeld s (msgDst h.f.pay)
  let s' := { s with net := { s.net with held := s.net.held.filter (fun h => !go h) } }
  forEach (fun h s => forward h.f s) (s.net.held.filter go) s'

/-- Step 4 of R237 for one event: a destination is released once LINK_DOWN is here, and its FENCE_DONE unless it is the
far end itself. A FENCE_DONE counts only under the event that LINK_DOWN names. -/
def settleEvent (e : Reroute) : Option Reroute :=
  let e := match e.down with
    | some (_, ev) => if e.expired then e else { e with dests := e.dests.filter (fun d => d != e.peer && !e.done.contains (d, ev)) }
    | none => e
  if e.dests.isEmpty && e.fenceSent then none else some e

/-- Let every event release what it may. -/
def settleEvents (s : State) : State :=
  let f (_ : Nat) (x : Chan) : Chan := match x.ev with | some e => { x with ev := settleEvent e } | none => x
  releaseHeld { s with chans := mmap dChan f s.chans }

/-- SEQ `q` precedes `n` (R237). -/
def seqBefore (q n : Nat) : Bool := (q + 1024 - n) % 1024 ≥ 512

/-- A message of discovery goes out on the channel it names, a HELLO or NOTICE on the one it was sent on, and no other (R223,
R225, R230): one that waits for a channel that fails is lost with it. -/
def boundToChan (f : Flit) : Bool := let t := msgType f.pay; (0x30 ≤ t && t ≤ 0x33) || t = 0x36

/-- Begin the reroute of channel `c` as it leaves UP or RETRAINING (R237 step 1), handing over its unacknowledged VL0
and VL1 flits (R217); `count` counts its VL2 flits in VL2_DROPPED, `stalled` says that it fails for want of credit. -/
def beginReroute (c : Nat) (count stalled : Bool) (s : State) : State :=
  let x := getChan s c
  let dests := destsVia s c
  let old := match x.ev with | some e => e.dests | none => []
  let done := match x.ev with | some e => e.done | none => []
  let kept (q : Nat) : Bool := match x.downEarly with | some (n, _) => !seqBefore q n | none => true
  let handed := (x.retry.filter (fun r => r.f.vl ≤ 1 && kept r.seq)).map
    (fun r => ({ f := r.f, from_ := some (c, r.seq) } : HeldFlit))
  let queued := (x.outq.filter (fun o => o.f.vl ≤ 1)).map (fun o => ({ f := o.f, stalled := stalled } : HeldFlit))
  let vl2 := (x.outq.filter (fun o => o.f.vl = 2 && !boundToChan o.f)).map OutFlit.f
  let drop := (x.retry.filter (fun r => r.f.vl = 2)).length + (x.outq.filter (fun o => o.f.vl = 2 && boundToChan o.f)).length
  let n := (x.events + 1) % 65536
  let e : Reroute := { num := n, peer := x.nbId, dests := (old ++ dests).dedup, down := x.downEarly, done := done ++ x.doneEarly }
  let s := setChan c { x with retry := [], replay := none, replays := 0, outq := [], unusable := true, events := n,
                              ev := some e, downEarly := none, doneEarly := [] } s
  let s := if count then bumpBy (Reg.vl2Dropped c) drop s else s
  let s := bump Reg.fabFailovers { s with net := { s.net with held := handed ++ queued ++ s.net.held } }
  settleEvents (forEach forward vl2 s)

/-- A new table is in force (R237, R239): channels are usable again, expired events end, and every flit held for want
of a route is forwarded once more. -/
def newTables (s : State) : State :=
  let f (_ : Nat) (x : Chan) : Chan :=
    { x with unusable := false, ev := match x.ev with | some e => if e.expired then none else some e | none => none }
  let s := { s with chans := mmap dChan f s.chans, net := { s.net with noRoute := false } }
  let again := s.net.held.filter HeldFlit.noRoute
  let s := { s with net := { s.net with held := s.net.held.filter (fun h => !h.noRoute) } }
  releaseHeld (forEach (fun h s => forward h.f s) again s)

/-- Write one entry into FAB_ROUTE and into every channel's copy; its reserved bits are 0 (R227, R6). -/
def setRoute (d : Nat) (v : Word) (s : State) : State :=
  let v := v &&& 0x10FFFFFF#32
  forEach (fun c s => setReg (Reg.lnkFwd c d) v s) (upTo 20) (setReg (Reg.fabRoute d) v s)

/-- Copy a table into FAB_ROUTE and every channel's copy in one step (R225, R233). -/
def installTable (tab : Nat → Word) (s : State) : State := forEach (fun d s => setRoute d (tab d) s) (upTo 1022) s

end Sys2Proof.Machine
end

