-- ==== Sys2Proof/Machine/Queues.lean ====
section
/-! DEFINITION. Weir queues: storage, pointers, pushes and pops, spill markers, flush, the resets and the epoch
exchange of their sides, and their tick-bound ports (chapters Weir Queues; Crossing Between Clockless and Clocked Logic). -/

namespace Sys2Proof.Machine

/-! ### Access -/

/-- An unlisted queue: both sides in reset, nothing stored. -/
def dQueue (_ : Nat) : Queue := {}
def getQ (s : State) (q : Nat) : Queue := mget dQueue s.queues q
def qCfg (s : State) (q : Nat) : Word := getReg s (Reg.qcfg q)

def qInd (w : Word) : Bool := bitAt w 4
def qSizeCode (w : Word) : Nat := fld w 1 3
def qWrEddy (w : Word) : Nat := fld w 12 6
def qRdEddy (w : Word) : Nat := fld w 18 6
/-- N: the words of storage in use (R253). -/
def qN (w : Word) : Nat := 512 * 2 ^ min 4 (qSizeCode w)
/-- A large configuration (R253). -/
def qLarge (w : Word) : Bool := 3 ≤ qSizeCode w

/-- The pointer `n` places on, modulo 2N. -/
def ptrAdd (w : Word) (p n : Nat) : Nat := (p + n) % (2 * qN w)
/-- The distance from `a` to `b`, modulo 2N. -/
def ptrSub (w : Word) (b a : Nat) : Nat := (b + 2 * qN w - a) % (2 * qN w)

def dWord (_ : Nat) : QWord := {}
/-- The stored word at a pointer. -/
def qSlot (w : Word) (x : Queue) (p : Nat) : QWord := mget dWord x.mem (p % qN w)
def qStore (w : Word) (p : Nat) (v : QWord) (x : Queue) : Queue := { x with mem := mset dWord x.mem (p % qN w) v }

/-- d, the depth (R253). -/
def qDepth (w : Word) (x : Queue) : Nat := ptrSub w x.wp x.rp
/-- dw and dr, the views of the two sides (R254). -/
def qDw (w : Word) (x : Queue) : Nat := if qInd w then ptrSub w x.wp x.rpW else qDepth w x
def qDr (w : Word) (x : Queue) : Nat :=
  if x.flushing then 0 else if qInd w then ptrSub w x.pwpR x.rp else ptrSub w x.pwp x.rp
def qFull (w : Word) (x : Queue) : Bool := qN w ≤ qDw w x + 1
def qEmpty (w : Word) (x : Queue) : Bool := qDr w x = 0

/-- Store a queue; an eddy on its read side sees that it is not EMPTY (line 12, R339). -/
def setQ (q : Nat) (x : Queue) (s : State) : State :=
  let w := qCfg s q
  let s := { s with queues := mset dQueue s.queues q x }
  if fld w 10 2 = 2 && !qEmpty w x then latchIrq (64 * (q / 256) + qRdEddy w) 12 s else s

/-- Both sides are CONNECTED (R285). -/
def qLinked (x : Queue) : Bool := x.wr.st == .connected && x.rd.st == .connected

/-- Set bits of QEVENT; an enabled one raises the queue pair's vector (R274, R392). -/
def qEvent (q bits : Nat) (s : State) : State :=
  let s := orReg (Reg.qevent q) (w32 bits) s
  if getReg s (Reg.qeventEn q) &&& w32 bits = 0 then s else raiseVec (512 + q / 2) s

/-- QRESULT: the latest Q_ code (R273). -/
def qResult (q code : Nat) (s : State) : State := setReg (Reg.qresult q) (w32 code) s

/-- The level comparison of a large configuration (R268). -/
def qLevel (q : Nat) (s : State) : State :=
  let w := qCfg s q
  let x := getQ s q
  let lev := fld (getReg s (Reg.qtimer q)) 0 16
  let now := qLarge w && lev != 0 && lev ≤ qDr w x
  let s := setQ q { x with above := now } s
  if now && !x.above then qEvent q 0x40 (bump (Reg.qLevel q) s) else s

/-! ### Push (R255, R256, R258, R261, R263) -/

/-- A dropped push: counts, event and status. -/
def qDrop (q code : Nat) (s : State) : State := qResult q code (qEvent q 2 (bump (Reg.qDropped q) s))

/-- Increment the marker at the newest place in place, or write a new one, which Q_SPILLS counts, if its check finds a
double-bit error (R258, R269). -/
def bumpMarker (q : Nat) (s : State) : State :=
  let w := qCfg s q
  let x := getQ s q
  let p := ptrAdd w x.wp (2 * qN w - 1)
  let m := qSlot w x p
  let n := popc 74 m.err.toNat
  let v := eccVerdict n s.free
  let d := eccData n s.free m.pay (m.err.setWidth 64)
  let s := if 2 < n then drawFree s else s
  match v with
  | .ue =>
    bump (Reg.qSpills q) (qEvent q 0x100 (bump (Reg.qUe q) (setQ q (qStore w p { pay := 1, tag := 2 } x) s)))
  | _ =>
    let up := min 0xFFFF_FFFF (d.toNat % 2 ^ 32 + 1)
    let s := setQ q (qStore w p { pay := BitVec.ofNat 64 up, tag := 2 } x) s
    if v == .ce then qEvent q 0x80 (bump (Reg.qCe q) s) else s

/-- The TAG of the newest word, as its check gives it (R269): corrected where one bit is in error, else as read. -/
def newestTag (s : State) (q : Nat) : Nat :=
  let w := qCfg s q
  let x := getQ s q
  let m := qSlot w x (ptrAdd w x.wp (2 * qN w - 1))
  let raw : BitVec 66 := BitVec.ofNat 66 (m.pay.toNat + m.tag % 4 * 2 ^ 64)
  fld (eccData (popc 74 m.err.toNat) s.free raw (m.err.setWidth 66)) 64 2

/-- A push dropped for want of room places, or adds to, a spill marker (R258). At d = N the newest word is one (R253). -/
def spill (q : Nat) (s : State) : State :=
  let w := qCfg s q
  let x := getQ s q
  let newest := if qInd w then x.openSpill
    else qN w ≤ qDepth w x || (0 < qDepth w x && newestTag s q = 2)
  let s := qDrop q 1 s
  if newest then bumpMarker q s
  else
    let x := getQ s q
    let x := qStore w x.wp { pay := 1, tag := 2 } x
    let wp := ptrAdd w x.wp 1
    let x := if qInd w then { x with wp := wp, openSpill := true } else { x with wp := wp, pwp := wp, pwpR := wp }
    bump (Reg.qSpills q) (setQ q x s)

/-- Write the FLUSH marker and publish it; in SAME mode the read side sees it at once (R261 steps 4 and 5). -/
def flushMarker (q : Nat) (s : State) : State :=
  let w := qCfg s q
  let x := getQ s q
  let pay := BitVec.ofNat 64 (min 0xFFFF_FFFF x.flushTail + (x.flushN % 65536) * 2 ^ 32)
  let x := qStore w x.wp { pay := pay, tag := 3 } x
  let wp := ptrAdd w x.wp 1
  if qInd w then setQ q { x with wp := wp, pwp := wp, flush := .written } s
  else qLevel q (qEvent q 4 (setQ q { x with wp := wp, pwp := wp, pwpR := wp, flush := .none, flushing := false } s))

/-- A word offered to discard-to-boundary (R261 step 3, R263): dropped and counted in FLUSH_DISCARD, up to the next LAST word. -/
def discardWord (q : Nat) (last : Bool) (s : State) : State :=
  let x := getQ s q
  let s := qResult q 1 (qEvent q 2 (bump (Reg.flushDiscard q) s))
  let fl := x.flush == .discard
  let x := { x with flushTail := if fl then x.flushTail + 1 else x.flushTail, discarding := !last }
  let s := setQ q x s
  if last && fl then flushMarker q s else s

/-- Store a word after the newest one; in IND mode an open marker before it is sealed (R256). -/
def storeWord (q : Nat) (pay : BitVec 64) (last : Bool) (s : State) : State :=
  let w := qCfg s q
  let x := qStore w (getQ s q).wp { pay := pay, tag := b2n last } (getQ s q)
  let wp := ptrAdd w x.wp 1
  let x := { x with wp := wp, pwp := wp, openSpill := false, sealReq := none }
  let x := if qInd w then x else { x with pwpR := wp }
  qLevel q (qResult q 0 (setQ q x s))

/-- A word offered while a side is not CONNECTED is dropped without a marker (R263). DEDUCED (log 150): while discard-to-boundary
runs it is one of the words that this drops, too. -/
def offUnlinked (q : Nat) (last : Bool) (s : State) : State :=
  qDrop q 4 (if (getQ s q).discarding then discardWord q last s else s)

/-- A push reaches the write side: ACCEPT, and the state after it. -/
def pushWord (q : Nat) (pay : BitVec 64) (last : Bool) (s : State) : Bool × State :=
  let w := qCfg s q
  let x := getQ s q
  if x.wr.inReset then (false, s)
  else
    let s := setQ q { x with inItem := !last } s
    if !qLinked x then (false, offUnlinked q last s)
    else if x.discarding then (false, discardWord q last s)
    else if qDw w x + 2 ≤ qN w then (true, storeWord q pay last s)
    else (false, spill q s)

/-- A host push is offered to the write crossing: its data register takes it if it is free, else the register path keeps it,
counted once (R278, R279). -/
def hostPushHold (q : Nat) (pay : BitVec 64) (last : Bool) (s : State) : State :=
  let x := getQ s q
  if x.wr.inReset then s
  else
    let busy := !x.hostPush.isEmpty || x.wr.req || x.wr.ack
    let s := setQ q { x with hostPush := x.hostPush ++ [(pay, last)], wr := { x.wr with req := x.wr.req || !busy } } s
    if busy then bump (Reg.xingBusyCount (q / 256)) s else s

/-- A host push: taken at once, unless others wait in the crossing before it. -/
def hostPushNow (q : Nat) (pay : BitVec 64) (last : Bool) (s : State) : State :=
  if (getQ s q).hostPush.isEmpty then (pushWord q pay last s).2 else hostPushHold q pay last s

/-- The REQ of a held host push reaches the write side, which takes the push and acknowledges it (R278). -/
def hostPushArrive (q : Nat) (s : State) : State :=
  let x := getQ s q
  match x.hostPush with
  | w :: l =>
    if x.wr.req then
      (pushWord q w.1 w.2 (setQ q { x with hostPush := l, wr := { x.wr with req := false, ack := true } } s)).2
    else s
  | [] => s

/-! ### Pop (R257, R263, R269) -/

/-- The read side raises a seal request, carrying rp, while it finds nothing to read and sees OPEN_SPILL (R259). -/
def sealAsk (w : Word) (x : Queue) : Queue :=
  if qInd w && qDr w x = 0 && !x.flushing && x.spillSeen && x.sealReq.isNone then { x with sealReq := some x.rp } else x

/-- What a pop returns. -/
structure PopRes where
  pay : BitVec 64
  tag : Nat
  underrun : Bool
  poison : Bool
  deriving DecidableEq, Repr

/-- A pop reaches the read side: what it returns, and the state after it. -/
def popWord (q : Nat) (s : State) : PopRes × State :=
  let w := qCfg s q
  let x := getQ s q
  let empty : PopRes := ⟨x.last, x.lastTag, true, false⟩
  if x.rd.inReset then (empty, s)
  else
    let s := setQ q { x with staleFired := false } s
    if !qLinked x then (empty, qResult q 4 (qEvent q 1 (bump (Reg.qUnderrun q) s)))
    else if qEmpty w x then (empty, qResult q 2 (qEvent q 1 (bump (Reg.qUnderrun q) s)))
    else
      let m := qSlot w x x.rp
      let n := popc 74 m.err.toNat
      let v := eccVerdict n s.free
      let raw : BitVec 66 := BitVec.ofNat 66 (m.pay.toNat + m.tag % 4 * 2 ^ 64)
      let d := eccData n s.free raw (m.err.setWidth 66)
      let pay : BitVec 64 := d.setWidth 64
      let tag := fld d 64 2
      let rp := ptrAdd w x.rp 1
      let s := if 2 < n then drawFree s else s
      let x := { getQ s q with rp := rp, rpW := if qInd w then x.rpW else rp, last := pay, lastTag := tag,
                               itemOpen := if tag = 0 then true else if tag = 2 then x.itemOpen else false }
      let s := qLevel q (setQ q (sealAsk w x) s)
      match v with
      | .ok => (⟨pay, tag, false, false⟩, qResult q 0 s)
      | .ce => (⟨pay, tag, false, false⟩, qResult q 0 (qEvent q 0x80 (bump (Reg.qCe q) s)))
      | .ue => (⟨pay, tag, false, true⟩, qResult q 3 (qEvent q 0x100 (bump (Reg.qUe q) s)))

/-! ### Pointers, seal and flush (R254, R259–R262) -/

/-- POINTER_SYNC: a pointer, and with it the OPEN_SPILL flag, reaches the other side of an IND queue (R254, R259); the
read side leaves FLUSHING when it sees the marker (R261). -/
def pointerSync (q : Nat) (toRead : Bool) (s : State) : State :=
  let w := qCfg s q
  let x := getQ s q
  if !qInd w then s
  else if !toRead then setQ q { x with rpW := x.rp } s
  else
    let x := { x with pwpR := x.pwp, spillSeen := x.openSpill }
    let seen := x.flush == .written
    let x := if seen then { x with flush := .none, flushing := false } else x
    let s := setQ q (sealAsk w x) s
    qLevel q (if seen then qEvent q 4 s else s)

/-- SPILL_SEAL: the write side serves a seal request (R259). -/
def spillSeal (q : Nat) (s : State) : State :=
  let x := getQ s q
  match x.sealReq with
  | some r =>
    if x.openSpill then setQ q { x with openSpill := false, pwp := x.wp, rpW := r, sealReq := none } s
    else setQ q { x with sealReq := none } s
  | none => s

/-- A flush request (R260, R261 step 1): whether it was taken. -/
def flushAsk (q : Nat) (s : State) : State :=
  let x := getQ s q
  if !qLinked x then qResult q 4 s
  else if x.flush != .none then s
  else qLevel q (qResult q 0 (setQ q { x with flush := .asked, flushing := true } s))

/-- Whether the words pushed before a flush end within an item. DEDUCED (log 151): words of the sluice hold are pushed words that
the flush discards, and the newest of them decides. -/
def withinItem (x : Queue) : Bool :=
  match x.hold.getLast? with | some h => !h.last | none => x.inItem

/-- FLUSH_ACT: the write side acts (R261 steps 2 to 4). -/
def flushAct (q : Nat) (s : State) : State :=
  let w := qCfg s q
  let x := getQ s q
  if x.flush != .asked then s
  else
    let n := qDepth w x + x.hold.length
    let x := { x with inItem := withinItem x }
    let x := { x with rp := x.wp, rpW := x.wp, pwp := x.wp, pwpR := x.wp, openSpill := false, spillSeen := false,
                      sealReq := none, hold := [], flushN := n, flushTail := 0,
                      flush := if x.inItem then .discard else .asked, discarding := x.inItem }
    let s := qLevel q (bumpBy (Reg.qFlushed q) n (setQ q x s))
    if x.inItem then s else flushMarker q s

/-! ### Side resets and the epoch exchange (R263, R264, R285–R288) -/

/-- Count and record a transfer that a reset discards (R286, R290). -/
def xingDiscard (sec kind side idx : Nat) (s : State) : State :=
  latchFirst (Reg.xingLoc sec) (w32 (2 ^ 31 + kind * 2 ^ 28 + side * 2 ^ 8 + idx)) (bump (Reg.xingDiscard sec) s)

/-- A side enters reset: DISCONNECTED at once, its half of the exchange cleared (R286). A reset of the other side that is
still on its way reaches it all the same (R288). -/
def Side.reset (x : Side) : Side :=
  { x with st := .disconnected, inReset := true, peer := none, ownAcked := false, acked := none, req := false, ack := false }

/-- A flush that a reset abandons, outside discard-to-boundary (R263). -/
def dropFlush (x : Queue) : Queue :=
  if x.flush == .asked || x.flush == .written then { x with flush := .none, flushing := false } else x

/-- The write side resets (R263, R286): a host push held in the crossing is discarded, and those kept behind it meet a side in
reset, which performs nothing. -/
def wrReset (q : Nat) (s : State) : State :=
  let w := qCfg s q
  let x := getQ s q
  let s := if x.wr.req then xingDiscard (q / 256) 0 0 (q % 256) s else s
  let x := { x with hostPush := [] }
  let wp := if x.openSpill then ptrAdd w x.wp (2 * qN w - 1) else x.wp
  let x := dropFlush { x with wp := wp, hold := [], openSpill := false, sealReq := none, inItem := false,
                              discarding := false, wr := x.wr.reset, rd := { x.rd with peerRst := true, msgs := [] } }
  setQ q { x with flush := .none } s

/-- The read side resets (R263, R286). -/
def rdReset (q : Nat) (s : State) : State :=
  let x := getQ s q
  let s := if x.rd.req then xingDiscard (q / 256) 1 1 (q % 256) s else s
  let keep := x.flush == .discard
  let x := dropFlush { x with last := 0, lastTag := 0, itemOpen := false, spillSeen := false, sealReq := none,
                              rd := x.rd.reset, wr := { x.wr with peerRst := true, msgs := [] } }
  setQ q { x with flush := .none, flushing := if keep then false else x.flushing } s

/-- A side that has seen its peer's reset (R286). -/
def Side.peerSeen (x : Side) : Side :=
  { x with peerRst := false, peer := none, ownAcked := false, acked := none, req := false, ack := false,
           st := if x.inReset then x.st else .connecting }

/-- PEER_RESET_SYNC: a reset of one side reaches the other (R263, R286). Where the write side that sees it is itself in
reset, both sides reset together and the unread words count in Q_PEER_DISCARD (R263). -/
def peerReset (q : Nat) (atRead : Bool) (s : State) : State :=
  let w := qCfg s q
  let x := getQ s q
  if atRead then
    if !x.rd.peerRst then s
    else
      let n := ptrSub w x.pwp x.rp
      let s := if x.rd.req then xingDiscard (q / 256) 1 0 (q % 256) s else s
      let s := setQ q { x with rp := x.pwp, rpW := x.pwp, pwpR := x.pwp, spillSeen := false, rd := x.rd.peerSeen } s
      qLevel q (qEvent q 8 (bumpBy (Reg.qPeerDiscard q) n s))
  else
    if !x.wr.peerRst then s
    else
      let n := qDepth w x
      let s := if x.wr.req then xingDiscard (q / 256) 0 1 (q % 256) s else s
      let s := setQ q { x with rp := x.wp, rpW := x.wp, pwp := x.wp, pwpR := x.wp, openSpill := false, sealReq := none, hostPush := []
                               discarding := x.discarding || x.inItem, wr := x.wr.peerSeen } s
      let s := qLevel q (qEvent q 16 (bumpBy (if x.wr.inReset then Reg.qPeerDiscard q else Reg.qDropped q) n s))
      forEach (fun (w : BitVec 64 × Bool) s => (pushWord q w.1 w.2 s).2) (if x.wr.req then x.hostPush.drop 1 else x.hostPush) s

/-- A side leaves reset: a new epoch, CONNECTING, and CONNECT to the other side (R287). -/
def sideRelease (me ot : Side) : Side × Side :=
  let e := me.epoch + 1
  ({ me with epoch := e, inReset := false, st := .connecting }, { ot with msgs := ot.msgs ++ [.connect e] })

/-- Answer with ACK unless an ACK naming this peer epoch was already sent (R287). -/
def sideAnswer (me ot : Side) : Side × Side :=
  match me.peer with
  | none => (me, ot)
  | some e =>
    if me.acked = some e then (me, ot)
    else ({ me with acked := some e }, { ot with msgs := ot.msgs ++ [.ack me.epoch e] })

/-- A side enters CONNECTED when both conditions of R287 hold: whether it does so now. -/
def sideConnects (me : Side) : Bool :=
  me.st == .connecting && me.ownAcked && me.acked == me.peer && me.peer.isSome

/-- Take the oldest message to this side: a CONNECT (`ack` false) or an ACK (R287). Answers whether the message
applied, whether it was stale, and both sides. -/
def sideTake (ack : Bool) (me ot : Side) : Bool × Bool × Side × Side :=
  let done (me : Side) (stale : Bool) : Bool × Bool × Side × Side :=
    let r := sideAnswer me ot
    let up := if sideConnects r.1 then { r.1 with st := .connected } else r.1
    (true, stale, up, r.2)
  match me.msgs with
  | .connect e :: l => if me.inReset || ack then (false, false, me, ot) else done { me with msgs := l, peer := some e } false
  | .ack e n :: l =>
    if me.inReset || !ack then (false, false, me, ot)
    else done { me with msgs := l, peer := some e, ownAcked := me.ownAcked || n = me.epoch } (n != me.epoch)
  | [] => (false, false, me, ot)

/-- SIDE_RESET_RELEASE of a queue in use, once the start-up order lets it connect (R287, R422). DESIGN CHOICE (log 140): a site
marked failed is isolated (R31), and its sides stay in reset. -/
def qRelease (q : Nat) (rd : Bool) (s : State) : State :=
  let x := getQ s q
  let me := if rd then x.rd else x.wr
  if !me.inReset || !qEn (qCfg s q) || !clockedUp s || siteFailed s q then s
  else if rd then
    let r := sideRelease x.rd x.wr
    setQ q { x with rd := r.1, wr := r.2 } s
  else
    let r := sideRelease x.wr x.rd
    setQ q { x with wr := r.1, rd := r.2 } s

/-- A message of the epoch exchange reaches a side of a queue (R287). -/
def qMsg (q : Nat) (rd ack : Bool) (s : State) : State :=
  let x := getQ s q
  let was := if rd then x.rd.st else x.wr.st
  let (ok, stale, me, ot) := if rd then sideTake ack x.rd x.wr else sideTake ack x.wr x.rd
  if !ok then s
  else
    let x := if rd then { x with rd := me, wr := ot } else { x with wr := me, rd := ot }
    let x := if qLinked x && x.flush == .none then { x with flushing := false } else x
    let s := setQ q x s
    let s := if stale then bump (Reg.xingStale (q / 256)) s else s
    if was != me.st then bump (Reg.xingReconnect (q / 256)) s else s

/-! ### Fabric ports (R248–R251, R265, R266) -/

/-- Host tiles of a queue (R248). -/
def qWrTile (q : Nat) : Nat := tileAddr (q / 256) (32 * (q % 256 / 16) + 29) (16 * (q % 16))
def qRdTile (q : Nat) : Nat := qWrTile q + 8

/-- Drive a port's outputs for this request, and note whether the answer comes last of the tile's monitored points (R133). -/
def portAnswer (t : Nat) (v : BitVec 128) (s : State) : State :=
  let rest := (upTo 4).all (fun c => (clusterPoints s t c).all Rail.valid)
  setTile t { getTile s t with portOut := some v, ansLast := rest } s

/-- A free-running port has taken its inputs and answered (R44, R250). Under GSR no ACK_OUT rises (R57). -/
def portStage (t : Nat) (v : BitVec 128) (s : State) : State :=
  let x := getTile s t
  if gsrOn s (tSec t) then s else refreshAcks (setTile t { x with portOut := some v, frFull := setBit x.frFull 0 true } s)

/-- Whether a free-running port may take its inputs now. -/
def portTakes (s : State) (t : Nat) : Bool :=
  fFree (frameOf s t) && !gsrOn s (tSec t) && !bitAt (getTile s t).frFull 0 && !ackIn s t 0 &&
  linesValid s t (hostLines s t)

/-- A tick-bound write port: the word waits in the sluice hold (R265); a side in reset performs nothing (R263). While the ACK of the transfer before it is on
its way back the writer waits (R279). -/
def pushTick (q t : Nat) (s : State) : State :=
  if !waveOn s || (getTile s t).portOut.isSome || !linesValid s t (hostLines s t) || portQuiet s t then quietPort t s
  else if (getQ s q).wr.ack then s
  else
    let x := getQ s q
    let last := (lineRail s t 16).high
    let pay : BitVec 64 := BitVec.ofNat 64 (linesVal s t 32 64)
    let s := setQ q { x with wr := { x.wr with ack := x.wr.ack || x.wr.req, req := false } } s
    let x := getQ s q
    let s := if x.wr.inReset then s
      else if !qLinked x then offUnlinked q last (setQ q { x with inItem := !last } s)
      else setQ q { x with hold := x.hold ++ [⟨s.tick.nowP1 - 1, last, pay⟩] } s
    portAnswer t 0 s

/-- QUEUE_PUSH at the FABRIC write side: a push, a held word, or no operation. Before lock wait a free-running handshake that meets an
unconnected queue stays in its evaluate phase (R423). -/
def queuePush (q : Nat) (s : State) : State :=
  let t := qWrTile q
  if hostOf s t != .qWr q then s
  else if !fFree (frameOf s t) then pushTick q t s
  else if !portTakes s t then s
  else if lineRail s t 15 == .v0 then portStage t 0 s
  else if (getQ s q).wr.ack || (!clockedUp s && !qLinked (getQ s q)) then s
  else
    let pay : BitVec 64 := BitVec.ofNat 64 (linesVal s t 32 64)
    let x := getQ s q
    let s := setQ q { x with wr := { x.wr with ack := x.wr.ack || x.wr.req, req := false } } s
    let (acc, s) := pushWord q pay (lineRail s t 16).high s
    let full := qFull (qCfg s q) (getQ s q)
    portStage t (BitVec.ofNat 128 (b2n acc + 2 * b2n full + 4 * b2n (bitAt (getReg s (Reg.qevent q)) 4))) s

/-- The outputs of a read port: DOUT, TAG, UNDERRUN, POISON, EMPTY, PEER_RESET (R249). -/
def readOuts (r : PopRes) (empty peer : Bool) : BitVec 128 :=
  BitVec.ofNat 128 (r.pay.toNat + r.tag % 4 * 2 ^ 64 + b2n r.underrun * 2 ^ 66 + b2n r.poison * 2 ^ 67 +
    b2n empty * 2 ^ 68 + b2n peer * 2 ^ 69)

/-- An empty journal. -/
def dJournal (_ : Nat) : Journal := {}

/-- Entries that the journal of a section holds (R163). -/
def journalUsed (s : State) (sec : Nat) : Nat :=
  (s.ra.journal.filter (fun p => p.1 / 256 = sec)).foldl (fun a p => a + p.2.words.length) 0

/-- A tick-bound pop waits for the journal: counted once for each tick of the section (R164). -/
def journalStall (sec : Nat) (s : State) : State :=
  if bitAt s.ra.jStall sec then s
  else bump Reg.raJournalStall { s with ra := { s.ra with jStall := setBit s.ra.jStall sec true } }

/-- A tick-bound read port: journalled words first, then the queue (R165, R266). -/
def popTick (q t : Nat) (s : State) : State :=
  if !waveOn s || (getTile s t).portOut.isSome || !linesValid s t (hostLines s t) || portQuiet s t then quietPort t s
  else if (getQ s q).rd.ack then s
  else
    let x := getQ s q
    let s := setQ q { x with rd := { x.rd with ack := x.rd.ack || x.rd.req, req := false } } s
    let k := s.tick.nowP1 - 1
    let j := mget dJournal s.ra.journal q
    match j.words[j.taken]? with
    | some jw =>
      let j := { words := j.words.set j.taken { jw with tick := k }, taken := j.taken + 1 }
      let s := { s with ra := { s.ra with journal := mset dJournal s.ra.journal q j } }
      portAnswer t (readOuts ⟨jw.word, jw.tag, false, jw.poison⟩ false false) s
    | none =>
      if 65536 ≤ journalUsed s (q / 256) then journalStall (q / 256) s
      else
        let (r, s) := popWord q s
        let j := if r.underrun then j
          else { words := j.words ++ [⟨k, r.tag, r.pay, r.poison⟩], taken := j.taken + 1 }
        let s := { s with ra := { s.ra with journal := mset dJournal s.ra.journal q j } }
        portAnswer t (readOuts r false false) s

/-- QUEUE_POP at the FABRIC read side. -/
def queuePop (q : Nat) (s : State) : State :=
  let t := qRdTile q
  if hostOf s t != .qRd q then s
  else if !fFree (frameOf s t) then popTick q t s
  else if !portTakes s t then s
  else if lineRail s t 15 == .v0 then portStage t 0 s
  else if (getQ s q).rd.ack || (!clockedUp s && !qLinked (getQ s q)) then s
  else
    let x := getQ s q
    let s := setQ q { x with rd := { x.rd with ack := x.rd.ack || x.rd.req, req := false } } s
    let (r, s) := popWord q s
    portStage t (readOuts r (qEmpty (qCfg s q) (getQ s q)) (bitAt (getReg s (Reg.qevent q)) 3)) s

/-! ### What ticks do to the holds (R265) -/

/-- The hold discards its words of tick `t` and later. -/
def qDiscardFrom (t : Nat) (s : State) : State :=
  { s with queues := mmap dQueue (fun _ x => { x with hold := x.hold.filter (fun h => h.tick < t) }) s.queues }

/-- The hold of one queue releases its words of tick `t` and earlier as pushes, in order. -/
def qReleaseOne (t q : Nat) (s : State) : State :=
  let x := getQ s q
  let now := x.hold.filter (fun h => h.tick ≤ t)
  let s := if now.isEmpty then s else setQ q { x with hold := x.hold.filter (fun h => t < h.tick) } s
  forEach (fun (h : HoldWord) s => (pushWord q h.pay h.last s).2) now s

/-- Every hold releases its words of tick `t` (QUEUE_HOLD_RELEASE). -/
def qReleaseTick (t : Nat) (s : State) : State := forEach (qReleaseOne t) (s.queues.map Prod.fst) s

/-- QCTL WR_RESET and RD_RESET: the operation completes with Q_OK (R273, R274). -/
def qctlWrReset (q : Nat) (s : State) : State := qResult q 0 (wrReset q s)
def qctlRdReset (q : Nat) (s : State) : State := qResult q 0 (rdReset q s)

end Sys2Proof.Machine
end

