-- ==== Sys2Proof/Machine/Pools.lean ====
section
/-! DEFINITION. HBM, descriptors, granules, the port caches and write buffers, memory models, and what a pool
access reads and writes (chapter Pools and High-Bandwidth Memory). -/

namespace Sys2Proof.Machine

/-! ### HBM words (R291–R296) -/

/-- An unlisted HBM word. -/
def dHbm (_ : Nat) : HWord := {}
def hbmAt (s : State) (wa : Nat) : HWord := mget dHbm s.pool.hbm wa
def setHbm (wa : Nat) (w : HWord) (s : State) : State :=
  { s with pool := { s.pool with hbm := mset dHbm s.pool.hbm wa w } }

/-- The stack of a word: A[9:8] xor A[21:20] (R293). -/
def hbmStack (wa : Nat) : Nat := Nat.xor (8 * wa / 2 ^ 8 % 4) (8 * wa / 2 ^ 20 % 4)
/-- The stack-local word address A[37:10] × 32 + A[7:3] (R324). -/
def hbmLoc (wa : Nat) : Nat := 8 * wa / 2 ^ 10 % 2 ^ 28 * 32 + wa % 32

/-- Count and record a double-bit error, raising vector 10 (R294, R392). -/
def hbmUe (wa src : Nat) (s : State) : State :=
  let k := hbmStack wa
  let s := bump (Reg.hbmUe k) s
  let s := if bitAt (getReg s (Reg.hbmUeLoc k)) 31 then s
    else setReg (Reg.hbmUeLoc k) (w32 (2 ^ 31 + src * 2 ^ 30 + hbmLoc wa % 2 ^ 30))
      { s with pool := { s.pool with ueWord := mput s.pool.ueWord k (hbmLoc wa) } }
  raiseVec 10 s

/-- The controller reads and checks a word (R294, R532): data, whether uncorrectable, and what it leaves. -/
def hbmFetch (wa src : Nat) (s : State) : BitVec 64 × Bool × State :=
  let w := hbmAt s wa
  let n := popc 72 w.err.toNat
  let v := eccVerdict n s.free
  let d := eccData n s.free w.data (w.err.setWidth 64)
  let s := if 2 < n then drawFree s else s
  match v with
  | .ok => (d, false, s)
  | .ce =>
    let s := bump (Reg.hbmCe (hbmStack wa)) s
    let s := if n = 1 then
        { s with pool := { s.pool with wb := if s.pool.wb.contains wa then s.pool.wb else s.pool.wb ++ [wa] } }
      else setHbm wa { data := d } s
    (d, false, s)
  | .ue => (d, true, hbmUe wa src s)

/-- The bytes of `new` that `be` enables laid over `old`. -/
def mergeBytes (be : BitVec 8) (old new : BitVec 64) : BitVec 64 :=
  (upTo 8).foldl (fun a i => if bitAt be i then setFld a (8 * i) 8 (fld new (8 * i) 8) else a) old

/-- A data word leaves an asynchronous FIFO with `err` of its bits in error: the data, and whether it is uncorrectable (R283, R532; DESIGN
CHOICE, log 152: counted as the controller counts the word it is for). -/
def fifoCheck (wa : Nat) (d : BitVec 64) (err : BitVec 72) (s : State) : BitVec 64 × Bool × State :=
  let n := popc 72 err.toNat
  let v := eccVerdict n s.free
  let d := eccData n s.free (d ^^^ err.setWidth 64) (err.setWidth 64)
  let s := if 2 < n then drawFree s else s
  match v with
  | .ok => (d, false, s)
  | .ce => (d, false, bump (Reg.hbmCe (hbmStack wa)) s)
  | .ue => (d, true, hbmUe wa 0 s)

/-- A data word passes FIFO `k`, and leaves it without the error that stood in it (R275, R283). -/
def fifoPass (k wa : Nat) (d : BitVec 64) (s : State) : BitVec 64 × Bool × State :=
  let err := mget dFifo s.pool.fifo k
  if err = 0 then (d, false, s)
  else
    let fifo := merase s.pool.fifo k
    fifoCheck wa d err { s with pool := { s.pool with fifo := fifo } }

/-- A word read for a master: the controller's check, then the FIFO that brings the answer (R283, R294). -/
def hbmRead (wa : Nat) (s : State) : BitVec 64 × Bool × State :=
  let r := hbmFetch wa 0 s
  let f := fifoPass (fifoNo (.hbmOut (Fin.ofNat 4 (hbmStack wa)))) wa r.1 r.2.2
  (f.1, r.2.1 || f.2.1, f.2.2)

/-- The controller stores a word (R323): a partial write to an uncorrectable word, and any of a word that reached it uncorrectable, leave it
uncorrectable. -/
def hbmStore (wa : Nat) (be : BitVec 8) (d : BitVec 64) (lost : Bool) (s : State) : State :=
  let kept (s : State) : State := { s with pool := { s.pool with wb := s.pool.wb.filter (· != wa) } }
  let word (v : BitVec 64) (bad : Bool) : HWord := { data := v, err := if bad then 3#72 <<< 64 else 0 }
  if be = 0xFF#8 then setHbm wa (word d lost) (kept s)
  else if be = 0#8 then s
  else
    let (old, bad, s) := hbmFetch wa 0 s
    setHbm wa (word (mergeBytes be old d) (bad || lost)) (kept s)

/-- A master's write: its data passes the FIFO before the controller, which stores it. -/
def hbmWrite (wa : Nat) (be : BitVec 8) (d : BitVec 64) (s : State) : State :=
  let f := fifoPass (fifoNo (.hbmIn (Fin.ofNat 4 (hbmStack wa)))) wa d s
  hbmStore wa be f.1 f.2.1 f.2.2

/-- Write back a corrected word in an idle cycle (R294). -/
def hbmWriteBack (wa : Nat) (s : State) : State :=
  if s.pool.wb.contains wa then
    let w := hbmAt s wa
    let s := { s with pool := { s.pool with wb := s.pool.wb.filter (· != wa) } }
    if popc 72 w.err.toNat = 1 then setHbm wa { data := w.data ^^^ w.err.setWidth 64 } s else s
  else s

/-- Zero `n` words from `a` (INIT ZERO). -/
def hbmZero (a n : Nat) (s : State) : State :=
  { s with pool := { s.pool with hbm := s.pool.hbm.filter (fun p => p.1 < a || a + n ≤ p.1)
                                 wb := s.pool.wb.filter (fun w => w < a || a + n ≤ w) } }

/-! ### Descriptors (R298–R303) -/

/-- A descriptor: its eight words (R298). -/
abbrev Desc := List Word

/-- Bits of each descriptor word that are not reserved. -/
def descMask (w : Nat) : Word :=
  if w = 2 then 0x00FFFF07#32 else if w = 3 then 0x01FF00FF#32 else if w = 5 then 0x3FF#32 else if w = 7 then 0 else 0xFFFFFFFF#32

/-- Read descriptor `n`, at HBM byte 32n: four words that the controller checks (R294, R303). -/
def readDesc (n : Nat) (s : State) : Desc × State :=
  (upTo 4).foldl (fun (a : Desc × State) i =>
    let r := hbmRead (4 * n + i) a.2
    (a.1 ++ [r.1.setWidth 32, w32 (r.1.toNat / 2 ^ 32)], r.2.2)) ([], s)

/-- Descriptor `n` as a read of the table gives it. -/
def tableDesc (s : State) (n : Nat) : Desc := (readDesc n s).1

def dDescs (_ : Nat) : List (Nat × Desc) := []

/-- Descriptor `n` in cache `u`: 0–7 a section's, 8 the confluence's (R304). -/
def cachedDesc (s : State) (u n : Nat) : Option Desc :=
  ((mget dDescs s.pool.dcache u).find? (fun e => e.1 = n)).map Prod.snd

/-- Descriptor `n` as a user of cache `u` sees it. -/
def descOf (s : State) (u n : Nat) : Desc := (cachedDesc s u n).getD (tableDesc s n)

/-- A binding of a port of section `u` names pool `n`: its descriptor is pinned there (R304). -/
def pinned (s : State) (u n : Nat) : Bool :=
  u < 8 && (upTo 128).any (fun i =>
    let b := getReg s (Reg.ppBind (32 * u + i / 4) (i % 4))
    bitAt b 31 && fld b 0 20 = n)

/-- Enter a descriptor in cache `u`. Of more than 4,096 the oldest that is not pinned leaves (DESIGN CHOICE, log 154: the spec
gives no order of replacement). -/
def cacheDesc (u n : Nat) (d : Desc) (s : State) : State :=
  let l := (n, d) :: (mget dDescs s.pool.dcache u).filter (fun e => e.1 != n)
  let l := if l.length ≤ 4096 then l
    else match l.reverse.find? (fun e => !pinned s u e.1) with | some e => l.filter (fun q => q.1 != e.1) | none => l.take 4096
  { s with pool := { s.pool with dcache := mset dDescs s.pool.dcache u l } }

/-- A user of cache `u` looks descriptor `n` up: a miss reads it from HBM (R304). -/
def descTouch (u n : Nat) (s : State) : State :=
  match cachedDesc s u n with
  | some _ => s
  | none => let r := readDesc n s; cacheDesc u n r.1 r.2

/-- Run `f` with descriptor `n`, looked up through cache `u`. -/
def withDesc {α : Type} (u n : Nat) (f : Desc → State → α) (s : State) : α := f (descOf s u n) (descTouch u n s)

/-- Drop descriptor `n` from every cache (R303); where it is pinned the new one, `d`, takes its place. -/
def dropDesc (n : Nat) (d : Desc) (s : State) : State :=
  forEach (fun u s =>
    let l := (mget dDescs s.pool.dcache u).filter (fun e => e.1 != n)
    let s := { s with pool := { s.pool with dcache := mset dDescs s.pool.dcache u l } }
    if pinned s u n then cacheDesc u n d s else s) (upTo 9) s

def dW (d : Desc) (i : Nat) : Word := d.getD i 0
def dBase (d : Desc) : Nat := (dW d 0).toNat
def dDepth (d : Desc) : Nat := (dW d 1).toNat + fld (dW d 2) 0 3 * 2 ^ 32
def dKind (d : Desc) : Nat := fld (dW d 2) 8 3
def dCache (d : Desc) : Bool := bitAt (dW d 2) 11
def dSpec (d : Desc) : Nat := fld (dW d 2) 12 2
def dInit (d : Desc) : Nat := fld (dW d 2) 14 2
def dRight (d : Desc) (i : Nat) : Bool := bitAt (dW d 2) (16 + i)
def dOwner (d : Desc) : Nat := fld (dW d 3) 0 8
def dModelEddy (d : Desc) : Nat := fld (dW d 3) 16 9
def dTag (d : Desc) : Nat := (dW d 4).toNat
def dRemote (d : Desc) : Nat := fld (dW d 5) 0 10
def dVersioned (d : Desc) : Bool := dSpec d = 1
def dModel (d : Desc) : Bool := dKind d = 2

/-- Store a descriptor, reserved bits as 0: every cache drops the old one (R298, R303). -/
def setDesc (n : Nat) (d : Desc) (s : State) : State :=
  let d := (upTo 8).map (fun w => dW d w &&& descMask w)
  dropDesc n d (forEach (fun i s =>
    hbmWrite (4 * n + i) 0xFF (BitVec.ofNat 64 ((dW d (2 * i)).toNat + (dW d (2 * i + 1)).toNat * 2 ^ 32)) s) (upTo 4) s)

/-- The granules of 2 MiB that a descriptor's bytes touch (R302). -/
def descGranules (d : Desc) : List Nat :=
  if dKind d = 0 || dDepth d = 0 then []
  else
    let a := dBase d * 64 / 2 ^ 21
    let b := (dBase d * 64 + dDepth d * 8 - 1) / 2 ^ 21
    (upTo (b + 1 - a)).map (· + a)

def dGran (_ : Nat) : Granule := {}

/-- Take or release the granules of pool `n`'s descriptor (R302). -/
def useGranules (n : Nat) (d : Desc) (take : Bool) (s : State) : State :=
  forEach (fun g s =>
    let x := mget dGran s.pool.gran g
    let x := if dVersioned d then { x with owner := if take then some n else none }
      else { x with users := if take then x.users + 1 else x.users - 1 }
    { s with pool := { s.pool with gran := mset dGran s.pool.gran g x } }) (descGranules d) s

/-- The check of a descriptor for pool `n` with its old granules released (R301): a POOL_ code, 0 if it passes. -/
def descCheck (s : State) (n : Nat) (d : Desc) : Nat :=
  if dKind d = 0 then 0
  else if 2 < dKind d || 1 < dSpec d || dInit d = 3 then 0x20
  else if dDepth d = 0 || dDepth d = 0x7FFFFFFFF then 0x20
  else if dBase d * 64 < 0xC0000000 || 0x3000000000 < dBase d * 64 + dDepth d * 8 then 0x20
  else if dInit d = 2 && dKind d != 2 then 0x20
  else if dVersioned d && (!dRight d 1 || dBase d % 0x8000 != 0) then 0x20
  else
    let g := (descGranules d).map (mget dGran s.pool.gran)
    if g.any (fun x => match x.owner with | some o => o != n | none => false) || (dVersioned d && g.any (fun x => 0 < x.users)) then 5
    else if !dVersioned d && g.any (fun x => 2047 ≤ x.users) then 0x20 else 0

/-- Word `i` of a pool, as an HBM word address (R298). -/
def poolAddr (d : Desc) (i : Nat) : Nat := dBase d * 8 + i

/-! ### Memory models (R316–R318) -/

def dInbox (_ : Nat) : List ModelRec := []

/-- CLASS of a request record (R317). -/
def askClass (a : Asker) : Nat :=
  match a with
  | .port _ _ => 0 | .agent _ => 1 | .eddy _ _ => 2 | .edma _ => 2 | .host _ => 3 | .dma _ => 4 | .remote _ _ _ => 5 | .init _ => 6 | .stale => 6

/-- Place a record in the model's inbox, unless it is full: the tag it got, and the state (R316). `f` is what forwarding answered of
a read when it was made. -/
def askModel (who : Asker) (op : Nat) (n : Nat) (d : Desc) (idx : Nat) (be : BitVec 8) (data : BitVec 64) (s : State)
    (f : BitVec 8 × BitVec 64 := (0, 0)) : Option (Nat × State) :=
  let e := dModelEddy d
  let q := mget dInbox s.pool.inbox e
  if 32 ≤ q.length then none
  else
    let t := s.pool.nextTag
    let cls := match who with | .init _ => 1 | a => askClass a
    let r : ModelRec := ⟨t, op, n, idx, if op = 1 then be else 0xFF, cls, dTag d, if op = 1 then data else 0⟩
    let p := s.pool
    let p := { p with inbox := mset dInbox p.inbox e (q ++ [r]), outst := p.outst ++ [⟨t, op, who, poolAddr d idx, f.1, f.2⟩]
                      nextTag := (t + 1) % 65536 }
    some (t, latchIrq e 2 { s with pool := p })

/-! ### Write buffers and caches (R310, R312, R315) -/

def dPort (_ : Nat) : Port := {}
def getPort (s : State) (p : Nat) : Port := mget dPort s.pool.ports p
def setPort (p : Nat) (x : Port) (s : State) : State :=
  { s with pool := { s.pool with ports := mset dPort s.pool.ports p x } }

/-- The buffered bytes of a word that a reader sees: versions below `t`, newest last (R182, R315). -/
def forwarded (x : Port) (pool idx t : Nat) : BitVec 8 × BitVec 64 :=
  let es := x.wb.filter (fun e => e.pool = pool && e.idx = idx && e.tick < t)
  let sorted := es.mergeSort (fun a b => a.tick ≤ b.tick)
  sorted.foldl (fun a e => (a.1 ||| e.be, mergeBytes e.be a.2 e.data)) (0, 0)

def dSet (_ : Nat) : List CLine := []

/-- Drop a line from a port's cache. -/
def dropLine (line : Nat) (x : Port) : Port :=
  let k := line % 32
  { x with cache := mset dSet x.cache k ((mget dSet x.cache k).filter (fun l => l.line != line)) }

/-- A write by another master invalidates the line in every port's cache but `own`'s (R310). -/
def invalidate (wa : Nat) (own : Option Nat) (s : State) : State :=
  { s with pool := { s.pool with ports := mmap dPort (fun p x => if some p = own then x else dropLine (wa / 8) x) s.pool.ports } }

/-- Store a word in a cached line. -/
def putLineWord (wa : Nat) (w : HWord) (x : Port) : Port :=
  let upd (l : CLine) : CLine := if l.line = wa / 8 then { l with words := l.words.set (wa % 8) w } else l
  { x with cache := mset dSet x.cache (wa / 8 % 32) ((mget dSet x.cache (wa / 8 % 32)).map upd) }

/-- Update a cached word of port `p`'s own cache (R310). A write of some bytes works on the checked word: a single-bit error is
corrected and counted, a double-bit error drops the line. -/
def updateLine (p wa : Nat) (be : BitVec 8) (d : BitVec 64) (s : State) : State :=
  let x := getPort s p
  match (mget dSet x.cache (wa / 8 % 32)).find? (fun l => l.line = wa / 8) with
  | none => s
  | some l =>
    if be = 0xFF#8 then setPort p (putLineWord wa { data := d } x) s
    else if be = 0#8 then s
    else
      let w := l.words.getD (wa % 8) {}
      let n := popc 72 w.err.toNat
      let dt := eccData n s.free w.data (w.err.setWidth 64)
      let v := eccVerdict n s.free
      let s := if 2 < n then drawFree s else s
      match v with
      | .ue => bump (Reg.ppUe p) (setPort p (dropLine (wa / 8) x) s)
      | v =>
        let s := setPort p (putLineWord wa { data := mergeBytes be dt d } x) s
        if v == .ce then bump (Reg.ppCe p) s else s

/-- Zero `n` words from `a`, dropping their lines from every port's cache where the pool is CACHE 1 (R300, R310). -/
def poolZero (cache : Bool) (a n : Nat) (s : State) : State :=
  let drop (_ : Nat) (x : Port) : Port :=
    { x with cache := mmap dSet (fun _ ls => ls.filter (fun l => 8 * l.line + 8 ≤ a || a + n ≤ 8 * l.line)) x.cache }
  hbmZero a n (if cache then { s with pool := { s.pool with ports := mmap dPort drop s.pool.ports } } else s)

/-- Read the eight words of a line from HBM for a miss. -/
def fillLine (ln : Nat) (s : State) : List (BitVec 64 × Bool) × State :=
  (upTo 8).foldl (fun (a : List (BitVec 64 × Bool) × State) i =>
    let r := hbmRead (8 * ln + i) a.2
    (a.1 ++ [(r.1, r.2.1)], r.2.2)) ([], s)

/-- A read miss allocates a line, replacing the least recently used (R310); a word that came uncorrectable stays so in it. -/
def missRead (p wa : Nat) (s : State) : BitVec 64 × Bool × State :=
  let ln := wa / 8
  let (ws, s) := fillLine ln s
  let x := getPort s p
  let k := ln % 32
  let line : CLine := ⟨ln, ws.map (fun w => { data := w.1, err := if w.2 then 3#72 <<< 64 else 0 })⟩
  let set := (line :: (mget dSet x.cache k).filter (fun l => l.line != ln)).take 4
  let w := ws.getD (wa % 8) (0, false)
  (w.1, w.2, setPort p { x with cache := mset dSet x.cache k set } s)

/-- A port's read of committed contents of a PLAIN pool, through its cache where CACHE is 1 (R310). -/
def portMemRead (p : Nat) (d : Desc) (wa : Nat) (s : State) : BitVec 64 × Bool × State :=
  if !dCache d then hbmRead wa s
  else
    let ln := wa / 8
    let k := ln % 32
    let x := getPort s p
    let set := mget dSet x.cache k
    match set.find? (fun l => l.line = ln) with
    | none => missRead p wa (bump (Reg.ppMisses p) s)
    | some l =>
      let w := l.words.getD (wa % 8) {}
      let n := popc 72 w.err.toNat
      let v := eccVerdict n s.free
      let dt := eccData n s.free w.data (w.err.setWidth 64)
      let s := if 2 < n then drawFree s else s
      match v with
      | .ue => missRead p wa (bump (Reg.ppUe p) (setPort p (dropLine ln x) s))
      | v =>
        let l := { l with words := l.words.set (wa % 8) { data := dt } }
        let s := setPort p { x with cache := mset dSet x.cache k (l :: set.filter (fun m => m.line != ln)) } s
        (dt, false, bump (Reg.ppHits p) (if v == .ce then bump (Reg.ppCe p) s else s))

/-- An upset in a cached word. -/
def cacheUpset (p set way w b : Nat) (s : State) : State :=
  let x := getPort s p
  let f (h : HWord) : HWord := { data := if b < 64 then flipBit h.data b else h.data, err := flipBit h.err b }
  let ls := (mget dSet x.cache set).modify way (fun l => { l with words := l.words.modify w f })
  setPort p { x with cache := mset dSet x.cache set ls } s

/-! ### Accesses by masters other than a port (R300, R315) -/

/-- Writes of other masters to a VERSIONED pool take effect only in IDLE or HALTED with no tick uncommitted (R300). -/
def versionedShut (s : State) (d : Desc) : Bool :=
  dVersioned d && !((s.tick.st == .idle || s.tick.st == .halted) && !(s.ra.com < s.tick.nowP1))

/-- Port that owns a VERSIONED pool. -/
def ownerPort (d : Desc) : Nat := dOwner d

/-- What the owner's write buffer answers of a read by another master: the newest entry at or below L (R315). -/
def forwardOther (s : State) (n : Nat) (d : Desc) (idx : Nat) : BitVec 8 × BitVec 64 :=
  if dVersioned d then forwarded (getPort s (ownerPort d)) n idx s.ra.com else (0, 0)

/-- A read of a PLAIN pool by a master that is no port: the newest entry at or below L, else memory (R315). -/
def otherRead (n : Nat) (d : Desc) (idx : Nat) (s : State) : BitVec 64 × Bool × State :=
  let f := forwardOther s n d idx
  if f.1 = 0xFF#8 then (f.2, false, s)
  else
    let (m, bad, s) := hbmRead (poolAddr d idx) s
    (mergeBytes f.1 m f.2, bad, s)

/-- A write of a PLAIN pool by a master that is no port. -/
def otherWrite (d : Desc) (idx : Nat) (be : BitVec 8) (v : BitVec 64) (s : State) : State :=
  let wa := poolAddr d idx
  let s := if dCache d then invalidate wa none s else s
  hbmWrite wa be v s

/-- The first entry of the oldest version that satisfies `f`. -/
def oldestEntry (f : WbEntry → Bool) : List WbEntry → Option WbEntry
  | [] => none
  | w :: l =>
    match oldestEntry f l with
    | some v => if f w && w.tick ≤ v.tick then some w else some v
    | none => if f w then some w else none

/-! ### What ticks do to write buffers (R163, R182) -/

/-- Drop the versions of tick `t` and later, and the requests of those ticks. -/
def poolDiscardFrom (t : Nat) (s : State) : State :=
  let f (_ : Nat) (x : Port) : Port :=
    { x with wb := x.wb.filter (fun e => e.tick < t),
             reqs := x.reqs.filter (fun r => match r.2.tick with | some k => k < t | none => true) }
  { s with pool := { s.pool with ports := mmap dPort f s.pool.ports } }

/-- A new tick: stalls may be counted again. -/
def poolNewTick (s : State) : State :=
  { s with pool := { s.pool with cyc := [], ports := mmap dPort (fun _ x => { x with stall := false }) s.pool.ports } }

/-- A port with an enabled tick-bound channel. -/
def portTickBound (s : State) (p : Nat) : Bool :=
  (upTo 4).any (fun k => bitAt (getReg s (Reg.ppCfg p)) (1 + k) && !fFree (frameOf s (poolTile p k)))

/-- A frozen port with a tick-bound channel keeps the cause TICK_MASTER_FROZEN present (R145, R321). -/
def frozenTickPort (s : State) : Bool := (upTo 256).any (fun p => isFrozen s 3 p && portTickBound s p)

end Sys2Proof.Machine
end

