-- ==== Sys2Proof/Machine/Trace.lean ====
section
/-! DEFINITION. Trace: samples and their FIFOs, records in the ring and over FW, and what rollbacks and commits
do to them (chapter Trace and Counters). -/

namespace Sys2Proof.Machine

/-- Set TRC_EVENT bits; an enabled one raises vector 14 (R500, R392). -/
def trcEvent (bits : Nat) (s : State) : State :=
  let s := orReg Reg.trcEvent (w32 bits) s
  if getReg s Reg.trcEventEn &&& w32 bits = 0 then s else raiseVec 14 s

/-- TRC_STAT RESULT; TRACE_RANGE also counts in RANGE_COUNT. -/
def trcResult (code : Nat) (s : State) : State :=
  let s := { s with trc := { s.trc with result := code } }
  if code = 0x20 then bump Reg.trcRangeCount s else s

def dStream (_ : Nat) : TrcStream := {}
def dHeld (_ : Nat) : List (Nat × BitVec 1024) := []
/-- The ring stream or the export stream of a section. -/
def getStream (s : State) (ex : Bool) (sec : Nat) : TrcStream := mget dStream (if ex then s.trc.exp else s.trc.ring) sec
def setStream (ex : Bool) (sec : Nat) (x : TrcStream) (s : State) : State :=
  if ex then { s with trc := { s.trc with exp := mset dStream s.trc.exp sec x } }
  else { s with trc := { s.trc with ring := mset dStream s.trc.ring sec x } }

def trcEarly (s : State) : Bool := bitAt (getReg s Reg.trcCfg) 0
def trcWrap (s : State) : Bool := bitAt (getReg s Reg.trcCfg) 1
def trcChangeOnly (s : State) : Bool := bitAt (getReg s Reg.trcCfg) 2
/-- Sections in SEC_EN. -/
def trcSecs (s : State) : List Nat := bitList 8 0 (fld (getReg s Reg.trcCfg) 8 8)

/-! ### Samples (R487, R489, R490) -/

/-- What a probe sees: the output its element launched, 0 for a free-running tile or an element OFF. -/
def probeBit (s : State) (sec : Nat) (w : Word) : Bool :=
  let x := getTile s (tileAddr sec (fld w 17 9) (fld w 8 8))
  let e := fld w 0 6
  !fFree x.frame && fSrc x.frame e != 3 && bitAt x.q e

/-- The raw sample of a section: probe k at bit k. -/
def rawSample (s : State) (sec : Nat) : BitVec 1024 :=
  (validWords s (Reg.trcProbe sec 0) 1024).foldl
    (fun a k => setBit a k (probeBit s sec (getReg s (Reg.trcProbe sec k)))) 0

/-- One more sample dropped at a FIFO's end: a drop marker, or one more in the newest. -/
def dropAtEnd (t : Nat) (l : List TrcEntry) : List TrcEntry :=
  match l.getLast? with
  | some (.drop u n) => l.dropLast ++ [.drop u (min 0xFFFFFFFF (n + 1))]
  | _ => l ++ [.drop t 1]

/-- A sample enters a FIFO of 256; a full one drops it (R490). -/
def enterFifo (ex : Bool) (sec t : Nat) (raw : BitVec 1024) (s : State) : State :=
  let x := getStream s ex sec
  if x.fifo.length < 256 then setStream ex sec { x with fifo := x.fifo ++ [.sample t raw] } s
  else setStream ex sec { x with fifo := dropAtEnd t x.fifo } s

/-- A committed sample is offered to the streams that take it; one that a full FIFO turns away counts once (R490). -/
def offerSample (toRing toExport : Bool) (sec t : Nat) (raw : BitVec 1024) (s : State) : State :=
  let full (ex : Bool) : Bool := decide (256 ≤ (getStream s ex sec).fifo.length)
  let lost := (toRing && full false) || (toExport && full true)
  let s := if toRing then enterFifo false sec t raw s else s
  let s := if toExport then enterFifo true sec t raw s else s
  if lost then trcEvent 4 (bump Reg.trcDropped s) else s

/-- A tick has launched: every section in SEC_EN samples it (R487, R489). -/
def traceSample (s : State) : State :=
  if !s.trc.running || s.trc.stopping || s.tick.nowP1 = 0 then s
  else
    let t := s.tick.nowP1 - 1
    forEach (fun sec s =>
      let raw := rawSample s sec
      let s := if trcEarly s then offerSample true false sec t raw s else s
      if trcEarly s && !s.trc.exporting then s
      else
        let h := (mget dHeld s.trc.held sec).filter (fun p => p.1 != t) ++ [(t, raw)]
        { s with trc := { s.trc with held := mset dHeld s.trc.held sec h } }) (trcSecs s) s

/-- Tick `t` has committed and passes the gate: its held samples enter the FIFOs (R489, R496). -/
def traceCommit (t : Nat) (s : State) : State :=
  if !s.trc.running then s
  else
    forEach (fun sec s =>
      let l := mget dHeld s.trc.held sec
      match l.find? (fun p => p.1 = t) with
      | none => s
      | some p =>
        let s := { s with trc := { s.trc with held := mset dHeld s.trc.held sec (l.filter (fun p => p.1 != t)) } }
        offerSample (!trcEarly s) s.trc.exporting sec t p.2 s) (s.trc.held.map Prod.fst) s

/-! ### The ring (R492) -/

/-- The ring pool's descriptor. -/
def ringDesc (s : State) : Desc := descOf s 8 (fld (getReg s Reg.trcRingPool) 0 20)

/-- TRC_RP. -/
def trcRp (s : State) : Nat := (getReg s Reg.trcRpLo).toNat + (getReg s Reg.trcRpHi).toNat * 2 ^ 32

/-- Reserve space for a record and write it. The last two words of a ring without WRAP are kept for a GAP record. -/
def ringPut (ws : List (BitVec 64)) (t : Nat) (isVoid isGap : Bool) (s : State) : Option State :=
  let d := ringDesc s
  let n := dDepth d
  let wp := s.trc.wp
  if n < ws.length || dKind d != 1 then none
  else if !trcWrap s && trcRp s + (if isGap then n else n - 2) < wp + ws.length then none
  else
    let s := forEach (fun i s => otherWrite d ((wp + i) % n) 0xFF#8 (ws.getD i 0) s) (upTo ws.length) s
    let wq := wp + ws.length
    let r : TrcRec := ⟨wp, ws.length, t, isVoid⟩
    let rs := (s.trc.recs ++ [r]).filter (fun (r : TrcRec) => wq ≤ r.start + n)
    some { s with trc := { s.trc with wp := wq, recs := rs } }

/-- TRC_OLDEST: the oldest whole record. -/
def trcOldest (s : State) : Nat := match s.trc.recs with | r :: _ => r.start | [] => s.trc.wp

/-- The first header word of a record (R494). -/
def recHead (s : State) (typ : Nat) (spec key : Bool) (sec arg : Nat) : BitVec 64 :=
  BitVec.ofNat 64 (typ * 2 ^ 60 + b2n spec * 2 ^ 59 + b2n key * 2 ^ 58 + sec * 2 ^ 55 + ownId s * 2 ^ 42 + arg)

/-- A rollback to tick `t` (R493): samples of `t` and later are discarded; a VOID record follows those already in the ring. -/
def traceVoid (t : Nat) (s : State) : State :=
  if !s.trc.running then s
  else
    let keep (e : TrcEntry) : Bool := match e with | .sample u _ => u < t | .drop _ _ => true
    let held := mmap dHeld (fun _ l => l.filter (fun p => p.1 < t)) s.trc.held
    let s := { s with trc := { s.trc with held := held } }
    if !trcEarly s then s
    else
      let cut (_ : Nat) (x : TrcStream) : TrcStream := { x with fifo := x.fifo.filter keep }
      let s := { s with trc := { s.trc with ring := mmap dStream cut s.trc.ring } }
      if s.trc.recs.any (fun r => !r.isVoid && t ≤ r.tick) then
        match ringPut [recHead s 2 false false 0 0, BitVec.ofNat 64 t] t true false s with
        | some s =>
          bump Reg.trcVoids (forEach (fun sec s => setStream false sec { getStream s false sec with key := true } s) (trcSecs s) s)
        | none => trcEvent 8 s
      else s

/-! ### Records (R491, R494, R496) -/

/-- Word `i` of a sample. -/
def smpWord (x : BitVec 1024) (i : Nat) : BitVec 64 := BitVec.ofNat 64 (fld x (64 * i) 64)

/-- The SAMPLE record of a section, and the MASK it carries. -/
def smpRecord (s : State) (sec t : Nat) (raw prev : BitVec 1024) (key spec : Bool) : List (BitVec 64) :=
  let on := (upTo 16).filter (fun i => key || smpWord raw i != smpWord prev i)
  let mask := on.foldl (fun a i => a + 2 ^ i) 0
  [recHead s 1 spec key sec mask, BitVec.ofNat 64 t] ++
    on.map (fun i => if key then smpWord raw i else smpWord raw i ^^^ smpWord prev i)

/-- Send the record words that fill a flit of TYPE 0x50 (R496); `all` sends the rest too, padded with 0. -/
def exportFlits (all : Bool) : Nat → State → State
  | 0, s => s
  | n + 1, s =>
    let w := s.trc.words
    if w.length < 15 && !(all && 0 < w.length) then s
    else
      let p := (upTo 15).foldl (fun p i => payPut p (8 + 8 * i) 8 (w.getD i 0).toNat)
        (mkMsg 0x50 0 (ownId s) (fld (getReg s Reg.trcExport) 0 10))
      exportFlits all n (sendChan 19 1 p { s with trc := { s.trc with words := w.drop 15 } })

/-- Queue a record for FW (R496). -/
def exportPut (ws : List (BitVec 64)) (s : State) : Option State :=
  let x := getChan s 19
  if (x.st == .up || x.st == .retraining) && !x.resetting then
    let l := s.trc.words ++ ws
    some (exportFlits false l.length { s with trc := { s.trc with words := l } })
  else none

/-- Put a record into its stream: the ring, or FW. -/
def putRecord (ex : Bool) (ws : List (BitVec 64)) (t : Nat) (isGap : Bool) (s : State) : Option State :=
  if ex then exportPut ws s else ringPut ws t false isGap s

/-- The compressor takes the front entry of a section's stream and writes its record (R490, R491, R494). -/
def traceRecord (ex : Bool) (sec : Nat) (s : State) : State :=
  let x := getStream s ex sec
  match x.fifo with
  | [] => s
  | .drop t n :: rest =>
    match putRecord ex [recHead s 3 false false sec n, BitVec.ofNat 64 t] t true s with
    | some s => bump Reg.trcGaps (setStream ex sec { x with fifo := rest, key := true, recs := x.recs + 1 } s)
    | none => s
  | .sample t raw :: rest =>
    let key := x.key || x.recs % 1024 = 1023
    if trcChangeOnly s && !key && raw = x.prev then setStream ex sec { x with fifo := rest } s
    else
      let spec := !ex && trcEarly s && s.ra.com ≤ t
      match putRecord ex (smpRecord s sec t raw x.prev key spec) t false s with
      | some s =>
        let s := setStream ex sec { fifo := rest, prev := raw, key := false, recs := x.recs + 1 } s
        if ex then s else bump Reg.trcSamples s
      | none =>
        let l : List TrcEntry := match rest with
          | .drop _ n :: r => .drop t (min 0xFFFFFFFF (n + 1)) :: r
          | r => .drop t 1 :: r
        let s := trcEvent (if ex then 4 else 12) (bump Reg.trcDropped (setStream ex sec { x with fifo := l } s))
        if ex then bump Reg.trcExportDrop s else s

/-! ### Stopping -/

/-- Every FIFO is empty. -/
def fifosEmpty (s : State) : Bool := (s.trc.ring ++ s.trc.exp).all (fun p => p.2.fifo.isEmpty)

/-- Abandon a snapshot that is armed or in progress (R499). -/
def snapAbort (s : State) : State :=
  if s.trc.snap == .off then s
  else trcEvent 2 (trcResult 4 { s with trc := { s.trc with snap := .off, snapVals := none } })

/-- The engine may issue the next tick for all the snapshot requires (R498). -/
def snapAllows (s : State) : Bool :=
  match s.trc.snap with
  | .off => true
  | .armed t => s.tick.nowP1 ≤ t || s.tick.redo
  | .busy _ => false

end Sys2Proof.Machine
end

