-- ==== Sys2Proof/Machine/TickOps.lean ====
section
/-! DEFINITION. The tick engine's shared operations: entering FAULT and HALTED, abandoning a tick, and
what is discarded and freed as ticks are undone or committed (chapters The Tick, Run-Ahead and Rollback). -/

namespace Sys2Proof.Machine

/-- D (R154). -/
def raDepth (s : State) : Nat := fld (getReg s Reg.raCfg) 0 5

/-- The window in ticks: max(D, 1) (R157). -/
def raSpan (s : State) : Nat := max (raDepth s) 1

/-- Journal words of ticks below `t` count as taken; the others are replayed (R165). -/
def journalBack (t : Nat) (s : State) : State :=
  let back (_ : Nat) (j : Journal) : Journal := { j with taken := ((j.words.take j.taken).filter (fun w => w.tick < t)).length }
  { s with ra := { s.ra with journal := mmap dJournal back s.ra.journal } }

/-- The frames of the output maps: first group and number of groups, in runs of at most 14 (R234). -/
def outFrames (s : State) : List (Nat × Nat) :=
  ((outGroups s).foldl (fun l o =>
    match l with
    | (a, n) :: r =>
      if o = a + n && n < 14 && groupDst s o = groupDst s a && groupRemote s o = groupRemote s a + n then (a, n + 1) :: r
      else (o, 1) :: l
    | [] => [(o, 1)]) []).reverse

/-- The frame that begins at group `a` has been sent for tick `k`. -/
def frameSent (s : State) (k a : Nat) : Bool := s.ra.outHist.any (fun h => h.tick = k && h.g = a)

/-- A boundary frame of `n` values (R235). -/
def frameMsg (tick src dst first n : Nat) (vals : BitVec 896) : Payload :=
  payPut (payPut (payPut (mkMsg 0x20 (tick % 65536) src dst) 1 1 n) 8 2 first) 16 (8 * n) vals.toNat

/-- The frame of tick `k` that begins at group `a` leaves, and enters the output history while its tick is uncommitted (R132, R163). -/
def frameLeave (k a n : Nat) (vals : BitVec 896) (s : State) : State :=
  let sent := (upTo n).map (fun i => ({ tick := k, g := a + i, val := BitVec.ofNat 64 (fld vals (64 * i) 64) } : BOut))
  let pend := s.ra.outPend.filter (fun p => !(p.1 = k && p.2 = a))
  let reg := s.ra.outReg.filter (fun o => !(o.tick = k && a ≤ o.g && o.g < a + n))
  let s := { s with ra := { s.ra with outHist := s.ra.outHist ++ sent.filter (fun h => s.ra.com ≤ h.tick), outPend := pend, outReg := reg } }
  let d := groupDst s a
  sendDev 0 d (frameMsg k (ownId s) d (groupRemote s a) n vals) s

/-- The `n` values from group `a` on that the boundary output registers hold for tick `k`. -/
def regVals (s : State) (k a n : Nat) : BitVec 896 :=
  let val (g : Nat) : Nat := match s.ra.outReg.find? (fun o => o.tick = k && o.g = g) with | some o => o.val.toNat | none => 0
  BitVec.ofNat 896 ((upTo n).foldl (fun v i => v + val (a + i) * 2 ^ (64 * i)) 0)

/-- A tick completes: its frames that have not left stay in the boundary output registers, and hold nothing back (R132, R275). DESIGN
CHOICE (log 194): the spec names no wire of an output group, so a value that no BOUNDARY_FRAME_SEND brought is a free value. A frame that
max(D, 1) + 1 later ones of its groups follow leaves before the next is held. -/
def keepFrames (k : Nat) (s : State) : State :=
  let hold (p : Nat × Nat) (s : State) : State :=
    let due := s.ra.outPend.filter (fun q => q.2 = p.1)
    let s := if due.length ≤ raSpan s then s
      else match due with | q :: _ => frameLeave q.1 p.1 p.2 (regVals s q.1 p.1 p.2) s | [] => s
    let reg := (upTo p.2).map (fun i => ({ tick := k, g := p.1 + i, val := Config.free 64 (s.free + i) } : BOut))
    { s with ra := { s.ra with outPend := s.ra.outPend ++ [(k, p.1)], outReg := s.ra.outReg ++ reg }, free := s.free + 14 }
  forEach hold ((outFrames s).filter (fun p => !frameSent s k p.1)) s

/-- Discard every kept effect of tick `t` and later (the On rollback column of R163). -/
def discardFrom (t : Nat) (s : State) : State :=
  let s := { s with ra := { s.ra with
    gioOut := s.ra.gioOut.filter (fun p => p.1 < t)
    toggles := s.ra.toggles.filter (fun p => p.1 < t), outPend := s.ra.outPend.filter (fun p => p.1 < t)
    outReg := s.ra.outReg.filter (fun o => o.tick < t)
    vals := s.ra.vals.map (fun v => if t ≤ v.tick then { v with pred := none, used := false } else v) } }
  poolDiscardFrom t (qDiscardFrom t (journalBack t s))

/-- Abandon the tick in progress: its effects are discarded and the spacer is released; the next issue repeats it (R146). -/
def abandonTick (s : State) : State :=
  if s.tick.inTick then
    let s := discardFrom (s.tick.nowP1 - 1) s
    forceSpacer { s with tick := { s.tick with inTick := false, spacer := true, redo := true, relaunch := true } }
  else s

/-- Enter FAULT with a code (R129, R145, R146); a halt cause of the same confluence cycle sets MULTI. -/
def enterFault (code : Nat) (multi : Bool) (s : State) : State :=
  let late := s.tick.st == .halted && !s.tick.inTick && s.tick.cycle
  let multi := multi || s.tick.haltSame || (late && sameCycle s)
  let s := abandonTick (if late then drawFree s else s)
  let s := { s with tick := { s.tick with st := .fault, stepping := false, stopReq := false, haltSame := false, cycle := true },
                    ra := { s.ra with reeval := none } }
  raiseVec 1 (bump Reg.tickFaults (setCause code multi s))

/-- Fault causes arise (R145, R534): the lowest code stands; in IDLE they are held pending; in FAULT they change nothing,
but for those of the cycle that entered it. DESIGN CHOICE (log 136): a second occurrence of the same code in IDLE counts as a further cause, so that MULTI is set. -/
def tickFaults (codes : List Nat) (s : State) : State :=
  match codes with
  | [] => s
  | c :: l =>
    let lo := l.foldl min c
    let multi := !l.isEmpty
    match s.tick.st with
    | .fault => joinFault lo s
    | .idle =>
      match s.tick.pend with
      | none => { s with tick := { s.tick with pend := some lo, pendMulti := multi } }
      | some p => { s with tick := { s.tick with pend := some (min p lo), pendMulti := true } }
    | _ => enterFault lo multi s

def tickFault (code : Nat) (s : State) : State := tickFaults [code] s

/-- Free what is kept of ticks below `com`, the number of committed ticks (R122, R163). -/
def freeKept (s : State) : State :=
  let c := s.ra.com
  let free (_ : Nat) (j : Journal) : Journal :=
    let live := (j.words.take j.taken).filter (fun w => c ≤ w.tick)
    { words := live ++ j.words.drop j.taken, taken := live.length }
  let ra := { s.ra with
    ring := s.ra.ring.filter (fun r => c ≤ r.tick)
    gioIn := s.ra.gioIn.filter (fun p => c ≤ p.1)
    vals := s.ra.vals.filter (fun v => c ≤ v.tick + 9)
    outHist := s.ra.outHist.filter (fun o => c ≤ o.tick)
    journal := mmap dJournal free s.ra.journal }
  let tk := { s.tick with kept := s.tick.kept.filter (fun k => c ≤ k.tick) }
  let bm := mmap dBlock (fun _ b => { b with undo := b.undo.filter (fun u => c ≤ u.tick) }) s.bm
  { s with tick := tk, ra := ra, bm := bm }

/-- U, the unsettled tick (R155), with LWM_HELD holding it at L + 1 (R181). -/
def unsettled (s : State) : Nat :=
  let base := if s.tick.inTick || s.tick.redo then s.tick.nowP1 - 1 else s.tick.nowP1
  let u := s.ra.vals.foldl (fun m v => if v.pred.isSome && v.real.isNone then min m v.tick else m) base
  let u := match s.ra.rb with | some r => min u r.target | none => u
  if s.ra.lwmHeld then s.ra.com else u

/-- L rises to `n - 1`, never falling (R156); under LWM_HELD no further tick is committed (R181). -/
def advanceL (n : Nat) (s : State) : State :=
  if s.ra.com < n && !s.ra.lwmHeld then freeKept { s with ra := { s.ra with com := n } } else s

/-- A tick number no one has committed: issued above L (R157). -/
def uncommitted (s : State) : Bool := s.ra.com < s.tick.nowP1

/-- The engine may leave IDLE only in these device states (R32). -/
def engineAllowed (s : State) : Bool := deviceUp s

end Sys2Proof.Machine
end

