-- ==== Sys2Proof/Machine/BlockMem.lean ====
section
/-! DEFINITION. Block memories: rows and entries, tick-bound commits and reads, free-running accesses,
ECC, patrol and the undo FIFO (chapter Block Memories). -/

namespace Sys2Proof.Machine

def bmRow (b : Block) (r : Nat) : BitVec 72 := mget (fun _ => 0) b.rows r
def bmErr (b : Block) (r : Nat) : BitVec 80 := mget (fun _ => 0) b.errs r
def errCount (e : BitVec 80) : Nat := popc 80 e.toNat

/-- Region of a block: that of its host tiles. -/
def bmFree (s : State) (m : Nat) : Bool :=
  fFree (frameOf s (tileAddr (m / 4096) (32 * (m % 4096 / 256) + 30) (m % 256)))

/-- Host tile of a port (R101). -/
def bmTile (m : Nat) (portB : Bool) : Nat :=
  tileAddr (m / 4096) (32 * (m % 4096 / 256) + 30 + b2n portB) (m % 256)

/-- Entry `e` of a row (R107). -/
def entryGet (w : Word) (row : BitVec 72) (e : Nat) : Nat :=
  let wd := bmWidth w
  if 9 ≤ wd then fld row (e * wd) wd
  else (upTo wd).foldl (fun a i =>
    let d := e * wd + i
    a + b2n (bitAt row (9 * (d / 8) + d % 8)) * 2 ^ i) 0

/-- The row with entry `e` written by one port in the bytes it enables (R107). -/
def entryPut (w : Word) (row : BitVec 72) (e : Nat) (be : BitVec 8) (din : BitVec 72) : BitVec 72 :=
  let wd := bmWidth w
  if 18 ≤ wd then
    (upTo (wd / 9)).foldl (fun r i =>
      if bitAt be i then setFld r (e * wd + 9 * i) 9 (fld din (9 * i) 9) else r) row
  else if wd = 9 then setFld row (e * wd) 9 (fld din 0 9)
  else (upTo wd).foldl (fun r i =>
    let d := e * wd + i
    setBit r (9 * (d / 8) + d % 8) (bitAt din i)) row

/-- A write that covers its whole row needs no read first (R119). -/
def fullRow (w : Word) (be : BitVec 8) : Bool := bmWidth w == 72 && be == 0xFF#8

/-- The BM_UE_LOC record (R127). -/
def ueLoc (m row src : Nat) : Word := w32 (2 ^ 31 + src * 2 ^ 29 + row * 2 ^ 12 + m % 4096)

/-- Count and record a double-bit error (R119), raising the section's vector (R392). -/
def bmUe (m row src : Nat) (s : State) : State :=
  let sec := m / 4096
  raiseVec (24 + sec) (latchFirst (Reg.bmUeLoc sec) (ueLoc m row src) (bump (Reg.bmUeCount sec) s))

/-- Check the row of block `m` as a read by `src` (0 port A, 1 port B, 2 patrol) does (R119, R120, R532):
the data returned, whether it is uncorrectable, and the counts, write-back and fault it leaves. -/
def bmCheck (m row src : Nat) (stop : Bool) (s : State) : BitVec 72 × Bool × State :=
  let b := getBlock s m
  let e := bmErr b row
  let n := errCount e
  let v := eccVerdict n s.free
  let d := eccData n s.free (bmRow b row) (e.setWidth 72)
  let s := if 2 < n then drawFree s else s
  match v with
  | .ok => (d, false, s)
  | .ce =>
    let b := if n = 1 then { b with wb := if b.wb.contains row then b.wb else b.wb ++ [row] }
      else { b with rows := mset (fun _ => 0) b.rows row d, errs := mset (fun _ => 0) b.errs row 0 }
    (d, false, setBlock m b (bump (Reg.bmCeCount (m / 4096)) s))
  | .ue =>
    let s := bmUe m row src s
    (d, true, if stop then tickFault 0x13 s else s)

/-- Store an entry write of port `src` (R107, R119). -/
def bmStore (m row e : Nat) (be : BitVec 8) (din : BitVec 72) (src : Nat) (s : State) : State :=
  let w := (getBlock s m).cfg
  if fullRow w be then
    let b := getBlock s m
    setBlock m { b with rows := mset (fun _ => 0) b.rows row (entryPut w (bmRow b row) e be din),
                        errs := mset (fun _ => 0) b.errs row 0, wb := b.wb.filter (· != row) } s
  else
    let (d, bad, s) := bmCheck m row src false s
    let b := getBlock s m
    setBlock m { b with rows := mset (fun _ => 0) b.rows row (entryPut w d e be din),
                        errs := mset (fun _ => 0) b.errs row (if bad then 3#80 <<< 72 else 0),
                        wb := b.wb.filter (· != row) } s

/-- The pins of a port as its host tile's lines carry them (R103, R108). -/
def portPins (s : State) (m : Nat) (portB : Bool) : PortIn :=
  let t := bmTile m portB
  let w := (getBlock s m).cfg
  let wr := bmWrites w portB
  { en := (lineRail s t 16).high
    we := wr && (lineRail s t 15).high
    be := if 18 ≤ bmWidth w && wr then BitVec.ofNat 8 (linesVal s t 17 (bmWidth w / 9)) else 0xFF
    addr := linesVal s t 0 (bmABits w)
    din := if wr then BitVec.ofNat 72 (linesVal s t 32 (bmWidth w)) else 0 }

def PortIn.writes (p : Option PortIn) : Bool := match p with | some i => i.en && i.we | none => false

/-- Rows that the held writes will change (R123). -/
def undoRows (b : Block) : List Nat :=
  let f (p : Option PortIn) : List Nat :=
    match p with | some i => if i.en && i.we then [i.addr / bmPerRow b.cfg] else [] | none => []
  (f b.heldA ++ f b.heldB).dedup

/-- The block's host tiles take their pins into held inputs (R108). -/
def holdPort (m : Nat) (portB : Bool) (s : State) : State :=
  let b := getBlock s m
  let p := some (portPins s m portB)
  setBlock m (if portB then { b with heldB := p } else { b with heldA := p }) s

/-- Whether the block lacks undo entries for the next commit (R123). -/
def undoShort (s : State) (m : Nat) : Bool :=
  let b := getBlock s m
  bitAt (maskAfter s) (bmDom b.cfg) && 64 < b.undo.length + (undoRows b).length

/-- The entry a port's held address names. -/
def heldEntry (w : Word) (p : PortIn) : Nat × Nat := (p.addr / bmPerRow w, p.addr % bmPerRow w)

/-- Read data of a port at a tick: R111 and R113 for a SYNC port. `before` is the entry before the commit, `wOwn`
and `wOth` the committing writes of the two ports to that entry, `portB` whether the reader is port B. -/
def syncRead (w : Word) (portB : Bool) (keep : BitVec 72) (before : Nat) (wOwn wOth : Option PortIn) : BitVec 72 :=
  let row0 : BitVec 72 := BitVec.ofNat 72 before
  let flat (p : PortIn) (r : BitVec 72) : BitVec 72 :=
    if 18 ≤ bmWidth w then
      (upTo (bmWidth w / 9)).foldl (fun r i => if bitAt p.be i then setFld r (9 * i) 9 (fld p.din (9 * i) 9) else r) r
    else setFld r 0 (bmWidth w) p.din.toNat
  let app (p : Option PortIn) (r : BitVec 72) : BitVec 72 := match p with | some i => flat i r | none => r
  if bmRdw w = 1 then app wOwn row0
  else if bmRdw w = 2 then (if wOwn.isSome then keep else row0)
  else if bmRdw w = 3 then (if portB then app wOwn (app wOth row0) else app wOth (app wOwn row0))
  else row0

/-- One port's SYNC read at a commit (R109): the new register. DESIGN CHOICE (log 146): a port under HOLD that writes its own entry
keeps DOUT, but its row is checked as for any read and ERR follows that check. -/
def syncPort (m : Nat) (portB : Bool) (s : State) : State :=
  let b := getBlock s m
  let own := if portB then b.heldB else b.heldA
  let oth := if portB then b.heldA else b.heldB
  match own with
  | none => s
  | some p =>
    if !p.en || bmAsync b.cfg portB || !bmReads b.cfg portB || !bmHasPort b.cfg portB then s
    else
      let (row, e) := heldEntry b.cfg p
      let same (q : Option PortIn) : Option PortIn :=
        match q with | some i => if i.en && i.we && i.addr = p.addr then some i else none | none => none
      let (d, bad, s) := bmCheck m row (b2n portB) true s
      let b := getBlock s m
      let keep := (if portB then b.regB else b.regA).dout
      let out : PortOut := { dout := syncRead b.cfg portB keep (entryGet b.cfg d e) (same own) (same oth), err := bad }
      setBlock m (if portB then { b with regB := out } else { b with regA := out }) s

/-- The commit of one tick-bound block at tick `k` with this mask (R108, R109, R113, R122). -/
def bmCommit (m k : Nat) (mask : BitVec 64) (s : State) : State :=
  let b := getBlock s m
  if !bmUse b.cfg || bmFree s m || !bitAt mask (bmDom b.cfg) then s
  else
    let undo := (undoRows b).map fun r => ({ tick := k, row := r, data := bmRow b r, err := bmErr b r } : Undo)
    let ww := PortIn.writes b.heldA && PortIn.writes b.heldB &&
      (b.heldA.map PortIn.addr == b.heldB.map PortIn.addr)
    let s := syncPort m true (syncPort m false s)
    let wr (p : Option PortIn) (src : Nat) (s : State) : State :=
      match p with
      | some i => if i.en && i.we then
          bmStore m (heldEntry b.cfg i).1 (heldEntry b.cfg i).2 i.be i.din src s else s
      | none => s
    let s := wr b.heldB 1 (wr b.heldA 0 s)
    let s := if ww then bump (Reg.bmWwCount (m / 4096)) s else s
    let b := getBlock s m
    setBlock m { b with undo := undo ++ b.undo } s

/-- Restore the rows changed after tick `t`, newest first (R124). -/
def bmUndo (t : Nat) (b : Block) : Block :=
  let b' := (b.undo.filter (fun u => t < u.tick)).foldl (fun b u =>
    { b with rows := mset (fun _ => 0) b.rows u.row u.data, errs := mset (fun _ => 0) b.errs u.row u.err }) b
  { b' with undo := b.undo.filter (fun u => u.tick ≤ t) }

/-- An ASYNC read during the data wave (R110, R111). A double-bit error abandons the tick, and with it what the port drove. -/
def bmAsyncRead (m : Nat) (portB : Bool) (s : State) : State :=
  let b := getBlock s m
  let w := b.cfg
  let t := bmTile m portB
  let have_ := if portB then b.outB else b.outA
  let pins : List Nat :=
    [15, 16] ++ (if 18 ≤ bmWidth w then (upTo (bmWidth w / 9)).map (· + 17) else []) ++
      (upTo (bmWidth w)).map (· + 32) ++ (upTo (bmABits w))
  let addr : List Nat := [16] ++ upTo (bmABits w)
  let needs (pb : Bool) : Bool := !bmHasPort w pb || linesValid s (bmTile m pb) (if bmWrites w pb then pins else addr)
  let ready := linesValid s t (upTo (bmABits w)) &&
    (bmRdw w != 1 || needs portB) && (bmRdw w != 3 || (needs false && needs true))
  if !bmHasPort w portB || bmFree s m || !bmAsync w portB || !bmReads w portB || !waveOn s || have_.isSome || !ready then s
  else
    let a := linesVal s t 0 (bmABits w)
    let row := a / bmPerRow w
    let e := a % bmPerRow w
    let will := bitAt (maskAfter s) (bmDom w)
    let hw (pb : Bool) : Option PortIn :=
      let p := portPins s m pb
      if bmHasPort w pb && bmWrites w pb && will && p.en && p.we && p.addr = a then some p else none
    let (d, bad, s) := bmCheck m row (b2n portB) false s
    let own := hw portB
    let oth := hw (!portB)
    let v := if bmRdw w = 1 || bmRdw w = 3 then syncRead w portB 0 (entryGet w d e) own oth
      else BitVec.ofNat 72 (entryGet w d e)
    let out : PortOut := { dout := v, err := bad }
    let b := getBlock s m
    let s := setBlock m (if portB then { b with outB := some out } else { b with outA := some out }) s
    if bad then tickFault 0x13 s else s

/-- The ECC result of a free-running read that waited for the other port's access is reported (R118, R119). -/
def bmFrReport (m : Nat) (portB : Bool) (s : State) : State :=
  let b := getBlock s m
  match if portB then b.chkB else b.chkA with
  | none => s
  | some (row, k) =>
    let s' := (bmCheck m row (b2n portB) false
      { setBlock m (if portB then { b with chkB := none } else { b with chkA := none }) s with free := k }).2.2
    { s' with free := s.free }

/-- One handshake of a free-running port (R115–R118). `overlap`: the access reaches the array while the other
port's latest access is under way, and is second in the arbiter's order. `followed`: the other port's next access reaches the
array while this one is under way; a read then reports its ECC result only if the two do not collide (R118). DESIGN CHOICE (log 207): ERR
stays 0 for a narrow write whose read finds a double-bit error. -/
def bmFrAccess (m : Nat) (portB overlap followed : Bool) (s : State) : State :=
  let b := getBlock s m
  let w := b.cfg
  let t := bmTile m portB
  let have_ := if portB then b.outB else b.outA
  if !bmHasPort w portB || !bmFree s m || gsrOn s (m / 4096) || have_.isSome ||
      bitAt (getTile s t).frFull 0 || !linesValid s t (hostLines s t) || ackIn s t 0 then s
  else
    let p := portPins s m portB
    let (row, e) := heldEntry w p
    let last := if portB then b.lastA else b.lastB
    let hit := p.en && overlap && (match last with | some (a, wr) => a = p.addr && (wr || p.we) | none => false)
    let othRead := hit && (match last with | some (_, wr) => !wr | none => false)
    let s :=
      if othRead then setBlock m (if portB then { b with chkA := none } else { b with chkB := none }) s
      else bmFrReport m (!portB) s
    let (out, s) : PortOut × State :=
      if !p.en then ({}, s)
      else if p.we then
        if s.fab.writesOn then ({ busy := hit }, bmStore m row e p.be p.din (b2n portB) s)
        else ({ busy := hit }, bump (Reg.bmWrBlocked (m / 4096)) s)
      else if hit then ({ dout := BitVec.ofNat 72 (fld (Config.free 72 s.free) 0 (bmWidth w)), busy := true }, drawFree s)
      else
        let (d, bad, s') := bmCheck m row (b2n portB) false s
        let wait : Option (Nat × Nat) := some (row, s.free)
        let b := getBlock s m
        ({ dout := BitVec.ofNat 72 (entryGet w d e), err := bad },
         if followed then { setBlock m (if portB then { b with chkB := wait } else { b with chkA := wait }) s with free := s'.free }
         else s')
    let s := if hit then bump (Reg.bmBusyCount (m / 4096)) s else s
    let spoil (o : Option PortOut) : Option PortOut :=
      if othRead then o.map (fun o => { o with dout := BitVec.ofNat 72 (fld (Config.free 72 s.free) 0 (bmWidth w)), err := false }) else o
    let b := getBlock s m
    let acc := if p.en then some (p.addr, p.we) else none
    let b := if portB then { b with outB := some out, lastB := acc, outA := spoil b.outA }
      else { b with outA := some out, lastA := acc, outB := spoil b.outB }
    let s := if othRead then drawFree (setBlock m b s) else setBlock m b s
    let x := getTile s t
    refreshAcks (setTile t { x with frFull := setBit x.frFull 0 true } s)

/-- Write back a corrected row in an idle array cycle (R119). -/
def bmWriteBack (m row : Nat) (s : State) : State :=
  let b := getBlock s m
  if b.wb.contains row then
    let b := { b with wb := b.wb.filter (· != row) }
    let fix := errCount (bmErr b row) = 1
    setBlock m (if fix then { b with rows := mset (fun _ => 0) b.rows row (bmRow b row ^^^ (bmErr b row).setWidth 72),
                                     errs := mset (fun _ => 0) b.errs row 0 } else b) s
  else s

/-- One patrol read (R120). -/
def bmPatrolRead (m : Nat) (s : State) : State :=
  let b := getBlock s m
  if bmUse b.cfg && bmPatrol b.cfg then
    let s := (bmCheck m b.patrol 2 false s).2.2
    let b := getBlock s m
    setBlock m { b with patrol := (b.patrol + 1) % 512 } s
  else s

/-! ### The commands -/

def execBmAsyncRead (sec : Fin 8) (m : Fin 4096) (portB : Bool) (s : State) : Res :=
  .next (bmAsyncRead (4096 * sec + m) portB s)

def execBmFrAccess (sec : Fin 8) (m : Fin 4096) (portB : Bool) (meet : FrMeet) (s : State) : Res :=
  .next (bmFrAccess (4096 * sec + m) portB meet.overlap meet.followed s)

def execBmEccWriteback (sec : Fin 8) (m : Fin 4096) (row : Fin 512) (s : State) : Res :=
  .next (bmWriteBack (4096 * sec + m) row s)

def execBmPatrolRead (sec : Fin 8) (m : Fin 4096) (s : State) : Res :=
  .next (bmPatrolRead (4096 * sec + m) s)

end Sys2Proof.Machine
end

