-- ==== Sys2Proof/Machine/Cells.lean ====
section
/-! DEFINITION. The commands of the fabric: cells, tiles, free-running stages, set-reset pulses, upsets,
the section sensors and the one-hot checker (chapters Logic Cells and Handshakes; Routing). -/

namespace Sys2Proof.Machine

/-! ### Logic cells -/

/-- An output of LC `n` shows the illegal code. -/
def lcIllegal (x : Tile) (n : Nat) : Bool :=
  (bitAt x.oaT n && bitAt x.oaF n) || (bitAt x.obT n && bitAt x.obF n) || (bitAt x.coT n && bitAt x.coF n)

/-- LC_EVALUATE (R49): an output that shows the illegal code is counted wherever it is monitored (R66). -/
def lcEvaluate (t n : Nat) (s : State) : State :=
  let s := lcEval t n s
  if lcIllegal (getTile s t) n then countRails s else s

/-! ### Completion reports -/

/-- Count BM_UNDO_STALL once for each tick of a section in which a block withholds its report (R123). -/
def stallBlock (m : Nat) (s : State) : State :=
  let sec := m / 4096
  let already := s.bm.any (fun p => p.1 / 4096 = sec && p.2.stalled)
  let s := setBlock m { getBlock s m with stalled := true } s
  if already then s else bump (Reg.bmUndoStall sec) s

/-- The class of a tile's settled report (R133): its pool port or queue where an answer line came last, the undo FIFO that held it back,
or cells. -/
def settledClass (s : State) (t : Nat) : Nat :=
  let x := getTile s t
  let port (n : Nat) : Nat := if x.ansLast && (upTo 4).any (fWait x.frame) then n else 0
  match hostOf s t with
  | .pool _ _ => port 1
  | .qWr _ | .qRd _ => port 2
  | .bm m _ => if (getBlock s m).stalled then 4 else 0
  | _ => 0

/-- A tile's settled report reaches the confluence: the class and section that settled last are those of this tile (R133). -/
def reportSettled (t : Nat) (x : Tile) (s : State) : State :=
  let c := settledClass s t
  setTile t { x with settled := true } { s with tick := { s.tick with lastCls := c, lastSec := tSec t } }

/-- A tick-bound tile reports settled (R64): every cluster data-complete, its section not withholding (R57, R73).
A host tile of a block first takes its pins into held inputs (R108), and waits for undo entries (R123). -/
def tileSettled (t : Nat) (s : State) : State :=
  let x := getTile s t
  if !waveOn s || fFree x.frame || x.settled || gsrOn s (tSec t) || bitAt s.fab.uv (tSec t) ||
      !(upTo 4).all (dataComplete s t) then s
  else
    match hostOf s t with
    | .bm m pb =>
      let s := holdPort m pb s
      if undoShort s m then stallBlock m s else reportSettled t x s
    | _ =>
      let s := quietPort t s
      reportSettled t ((upTo 64).foldl (fun x e => holdElem s t e x) (getTile s t)) s

/-- A tile reports spacer complete once every monitored point has returned to spacer (R64). -/
def tileSpacerComplete (t : Nat) (s : State) : State :=
  let x := getTile s t
  if s.tick.inTick && s.tick.spacer && !fFree x.frame && !gsrOn s (tSec t) && !bitAt s.fab.uv (tSec t) &&
      (upTo 4).all (fun c => (clusterPoints s t c).all (fun r => r == .spacer)) then
    setTile t { x with spacerDone := true } s
  else s

/-! ### Free-running stages -/

/-- A GIO host tile's stage takes OUT and OE of its slots (R520). -/
def gioStage (b k t : Nat) (s : State) : State :=
  (upTo 4).foldl (fun s n =>
    let g := 48 * b + 4 * k + n
    let d := gioDir s g
    if d < 2 then s
    else
      let p := s.pins
      let o := (lineRail s t (8 * n)).high
      let e := d = 2 || (lineRail s t (8 * n + 1)).high
      { s with pins := { p with gioOut := setBit p.gioOut g o, gioOe := setBit p.gioOe g e,
                                kept := if e then setBit p.kept g o else p.kept,
                                gioFirst := setBit p.gioFirst g true } }) s

/-- Step 2 and 3 of R44: a free-running stage captures its valid inputs while ACK_IN is low, and raises ACK_OUT. DESIGN
CHOICE (log 142): a cluster with no storage element in use never captures; with FR_TOKEN 1 it starts full all the same. -/
def frCapture (t c : Nat) (s : State) : State :=
  let x := getTile s t
  if !fFree x.frame || gsrOn s (tSec t) || bitAt x.frFull c || ackIn s t c then s
  else
    match hostOf s t with
    | .none =>
      let es := stageElems x.frame c
      if es.isEmpty || !es.all (fun e => (elemIn s t e).valid) then s
      else
        let q := es.foldl (fun q e => setBit q e (elemIn s t e).high) x.q
        refreshAcks (setTile t { x with q := q, frFull := setBit x.frFull c true } s)
    | .gio b k =>
      if c = 0 && linesValid s t (hostLines s t) then
        let s := gioStage b k t s
        let ins : BitVec 128 := BitVec.ofNat 128 (if bankOn s (48 * b) then fld s.pins.gioFree (48 * b + 4 * k) 4 else 0)
        refreshAcks (setTile t { getTile s t with frFull := setBit x.frFull 0 true, portOut := some ins } s)
      else s
    | _ => s

/-- The inputs of a free-running stage have all returned to spacer, constants apart. -/
def stageDrained (s : State) (t c : Nat) : Bool :=
  match hostOf s t with
  | .none =>
    let f := frameOf s t
    (stageElems f c).all (fun e =>
      elemIn s t e == .spacer || (fSrc f e < 2 && constLc s routeFuel t (e / 2) (fSrc f e)) ||
        (fSrc f e = 2 && constSrc s (lcSrc f t (e / 2) 5)))
  | _ => (hostLines s t).all (fun l => drained s (.line t l))

/-- Steps 4 and 5 of R44: outputs return to spacer once the inputs have and ACK_IN is high; ACK_OUT falls. -/
def frRelease (t c : Nat) (s : State) : State :=
  let x := getTile s t
  if !fFree x.frame || !bitAt x.frFull c || !ackIn s t c || !stageDrained s t c then s
  else
    let s := setTile t { x with frFull := setBit x.frFull c false,
                                portOut := if c = 0 then none else x.portOut } s
    let s := match hostOf s t with
      | .bm m pb =>
        let s := bmFrReport m pb s
        let b := getBlock s m
        setBlock m (if pb then { b with outB := none, lastB := none } else { b with outA := none, lastA := none }) s
      | _ => s
    refreshAcks (endSpoilt s)

/-! ### The set-reset pulse (R61, R62) -/

/-- GSR_STAT RESULT of a refused request, in the order of R62. -/
def gsrRefusal (s : State) : Option Nat :=
  if !deviceUp s then some 4
  else if s.tick.st == .run || s.tick.st == .paced then some 2
  else if s.tick.st == .fault then some 5
  else if uncommitted s then some 3
  else none

/-- The snapshot the backwater ring keeps of what tick `k` launched (R163). -/
def ringSnap (k : Nat) (s : State) : RingSnap :=
  { tick := k
    q := s.fab.tiles.map (fun p => (p.1, p.2.q))
    regs := s.bm.map (fun p => (p.1, p.2.regA, p.2.regB)) }

/-- The value of a tile's storage elements in a snapshot. -/
def snapQ (snap : RingSnap) (a : Nat) : BitVec 64 :=
  match snap.q.find? (fun (p : Nat × BitVec 64) => p.1 = a) with | some p => p.2 | none => 0

/-- The SYNC read registers of a block in a snapshot. -/
def snapRegs (snap : RingSnap) (m : Nat) : PortOut × PortOut :=
  match snap.regs.find? (fun (p : Nat × PortOut × PortOut) => p.1 = m) with | some p => p.2 | none => ({}, {})

/-- A snapshot whose armed tick has committed goes on from the values kept of it (R498). -/
def snapPromote (s : State) : State :=
  match s.trc.snap with
  | .armed t => if t < s.ra.com then { s with trc := { s.trc with snap := .busy t } } else s
  | _ => s

/-- The run starts afresh: the next tick is tick 0, nothing is committed, LWM_HELD clears (R130, R156, R181), and no group delivered by
cut-through is of it (R202). -/
def freshRun (s : State) : State :=
  { snapPromote s with
    tick := { s.tick with nowP1 := 0, hiP1 := 0, redo := false, relaunch := false, numberEnd := false, kept := [] },
    ra := { s.ra with com := 0, gio := 0, rel := 0, lwmHeld := false, ring := [], gioIn := [], gioOut := [], toggles := [],
                      journal := [], vals := [], outHist := [], outPend := [], outReg := [], rb := none, rolling := false, restored := false,
                      reeval := none, wave := { s.ra.wave with stale := true } }
    net := { s.net with ct := [] } }

/-- A write of GSR_CTL (R61, R62): merged while BUSY, refused and counted, or accepted. An accepted pulse takes an
engine in HALTED to IDLE with cause 0x00 (R129); a cause pending in IDLE stays (R534). -/
def gsrPulse (v : Word) (s : State) : State :=
  if !bitAt v 0 then s
  else if s.fab.gsrBusy && deviceUp s then s
  else
    match gsrRefusal s with
    | some r => bump Reg.gsrRefused { s with fab := { s.fab with gsrResult := r } }
    | none =>
      let s := freshRun (gsrAssert { s with fab := { s.fab with gsrBusy := true } })
      if s.tick.st == .halted then setCause 0 false { s with tick := { s.tick with st := .idle } } else s

/-- An accepted pulse completes (R61): storage elements take INIT as it stands now (R62), SYNC read registers 0 (R109),
and stages start as R46 says. -/
def gsrPulseDone (s : State) : State :=
  if !s.fab.gsrBusy then s
  else
    gsrRelease { s with fab := { s.fab with gsrBusy := false, gsrResult := 1 } }

/-! ### Upsets, sensors and the one-hot checker -/

/-- A rail of an output of LC `n` rises (R66, R466): an illegal code counts in every cluster that monitors it. -/
def upsetRail (t n out : Nat) (tRail : Bool) (s : State) : State :=
  let x := getTile s t
  let x' :=
    if out = 0 then (if tRail then { x with oaT := setBit x.oaT n true } else { x with oaF := setBit x.oaF n true })
    else if out = 1 then (if tRail then { x with obT := setBit x.obT n true } else { x with obF := setBit x.obF n true })
    else (if tRail then { x with coT := setBit x.coT n true } else { x with coF := setBit x.coF n true })
  let s := setTile t x' s
  if lcIllegal x' n then countRails s else s

/-- An unlisted scrubber. -/
def dScr (_ : Nat) : Scrubber := {}
def getScr (s : State) (sec : Nat) : Scrubber := mget dScr s.scr sec
def setScr (sec : Nat) (x : Scrubber) (s : State) : State := { s with scr := mset dScr s.scr sec x }

/-- Unlisted error bits. -/
def dBits (_ : Nat) : BitVec 4160 := 0
def dShadow (_ : Nat) : BitVec 4680 := 0

/-- An upset changes one stored bit (R466). Under GSR a storage element follows its INIT bit (R57). -/
def upset (u : Upset) (s : State) : State :=
  match u with
  | .frameBit t b =>
    let x := getTile s t.toNat
    let f := if b < 4096 then flipBit x.frame b else x.frame
    let q := if gsrOn s (tSec t.toNat) then initQ f else x.q
    refreshAcks (setTile t.toNat { x with upset := flipBit x.upset b, frame := f, q := q } s)
  | .element t e =>
    let x := getTile s t.toNat
    if gsrOn s (tSec t.toNat) then s else refreshAcks (setTile t.toNat { x with q := flipBit x.q e } s)
  | .rail t n o tr => refreshAcks (upsetRail t.toNat n o tr s)
  | .bmRow sec m row b =>
    let k := 4096 * sec.val + m.val
    let bl := getBlock s k
    setBlock k { bl with
      rows := if b.val < 72 then mset (fun _ => 0) bl.rows row (flipBit (bmRow bl row) b) else bl.rows
      errs := mset (fun _ => 0) bl.errs row (flipBit (bmErr bl row) b) } s
  | .queueWord q slot b =>
    let x := getQ s q
    let w := mget dWord x.mem slot
    let w := { w with
      pay := if b.val < 64 then flipBit w.pay b else w.pay
      tag := if b.val = 64 || b.val = 65 then Nat.xor w.tag (2 ^ (b.val - 64)) else w.tag
      err := flipBit w.err b }
    setQ q { x with mem := mset dWord x.mem slot w } s
  | .hbmWord wa b =>
    let w := hbmAt s wa.toNat
    setHbm wa.toNat { w with data := if b.val < 64 then flipBit w.data b else w.data, err := flipBit w.err b } s
  | .cacheWord p st way w b => cacheUpset p st way w b s
  | .onDie k => bump (Reg.hbmOdecc k) s
  | .fifoTx c b =>
    let x := getChan s c
    match x.sent with
    | none => s
    | some w =>
      let w : WireFlit := if b.val < 24 then { w with hdr := flipBit w.hdr b }
        else if b.val < 1048 then { w with pay := flipBit w.pay (b - 24) }
        else if b.val < 1080 then { w with crc := flipBit w.crc (b - 1048) } else w
      setChan c { x with sent := some w, sentErr := flipBit x.sentErr b } s
  | .fifoRx c b =>
    let x := getChan s c
    setChan c { x with rxErr := flipBit x.rxErr b } s
  | .fifoWord f b =>
    let e := s.pool.fifo
    { s with pool := { s.pool with fifo := mset dFifo e (fifoNo f) (flipBit (mget dFifo e (fifoNo f)) b) } }
  | .fifoReq p k b =>
    let x := getPort s p
    let hit (r : PReq) : PReq :=
      if r.we && r.tick.isNone && r.st == .taken then
        { r with err := flipBit r.err b }
      else r
    setPort p { x with reqs := x.reqs.map (fun r => if r.1 = k.val then (r.1, hit r.2) else r) } s
  | .fifoDrain p b =>
    let x := getPort s p
    match oldestEntry (fun e => e.draining.isSome) x.wb with
    | none => s
    | some w =>
      let v := { w with err := flipBit w.err b }
      setPort p { x with wb := x.wb.map (fun e => if e = w then v else e) } s
  | .spadWord e i b =>
    let x := getEddy s e
    let w := mget dHbm x.spad i
    setEddy e { x with spad := mset dHbm x.spad i { data := if b.val < 64 then flipBit w.data b else w.data, err := flipBit w.err b } } s
  | .spareFrame sec p row b =>
    if (logCol s sec p).isSome then s
    else
      let x := getScr s sec
      setScr sec { x with spare := mset dBits x.spare (256 * p + row) (flipBit (mget dBits x.spare (256 * p + row)) b) } s
  | .bmCfg sec k b =>
    let x := getScr s sec
    let s := setScr sec { x with bmc := mset dBits x.bmc k (flipBit (mget dBits x.bmc k) b) } s
    if b.val < 4096 then
      let m := 4096 * sec.val + 128 * k.val + b.val / 32
      let bl := getBlock s m
      setBlock m { bl with cfg := flipBit bl.cfg (b.val % 32) } s
    else s
  | .shadow sec f b =>
    let x := getScr s sec
    setScr sec { x with shadow := mset dShadow x.shadow f (flipBit (mget dShadow x.shadow f) b) } s
  | .scrCfg sec b =>
    let x := getScr s sec
    let s := setScr sec { x with cfgErr := flipBit x.cfgErr b } s
    if b.val < 32 then setReg (Reg.scrCfg sec) (flipBit (getReg s (Reg.scrCfg sec)) b) s else s
  | .scrState sec => bump (Reg.scrTmrFix sec) s

/-- A tile whose configuration and state are lost: free values from number `n` on. The frame that was last written stays
what the shadow holds. -/
def lostTile (gsr : Bool) (n : Nat) (x : Tile) : Tile :=
  let u : BitVec 4160 := Config.free 4160 n
  let f : Frame := x.frame ^^^ x.upset.setWidth 4096 ^^^ u.setWidth 4096
  { x with upset := u, frame := f, q := if gsr then initQ f else Config.free 64 n }

/-- A block whose contents and read registers are lost; the bits in which its configuration word changes are given. -/
def lostBlock (n : Nat) (flip : Word) (b : Block) : Block :=
  { b with cfg := b.cfg ^^^ flip
           rows := mtab (fun _ => 0) (fun r => Config.free 72 (n + r)) 0 512
           errs := mtab (fun _ => 0) (fun r => Config.free 80 (n + r)) 0 512
           undo := b.undo.zipIdx.map (fun u => { u.1 with data := Config.free 72 (n + 514 + u.2), err := Config.free 80 (n + 514 + u.2) })
           regA := { dout := Config.free 72 (n + 512), err := bitAt (Config.free 2 n) 0 }
           regB := { dout := Config.free 72 (n + 513), err := bitAt (Config.free 2 n) 1 } }

/-- What a queue of a lost section holds: its stored words, the words at its sluice hold and its latest word. -/
def lostQueue (n : Nat) (x : Queue) : Queue :=
  let word (i : Nat) : QWord := ⟨Config.free 64 (n + i), (Config.free 2 (n + i)).toNat, Config.free 74 (n + i)⟩
  { x with mem := mtab dWord word 0 8192, last := Config.free 64 (n + 8192), lastTag := (Config.free 2 (n + 8192)).toNat
           hold := x.hold.zipIdx.map (fun h => { h.1 with pay := Config.free 64 (n + 8193 + h.2) }) }

/-- The backwater ring of a lost section (R163). -/
def lostRing (sec n : Nat) (r : RingSnap) : RingSnap :=
  { r with q := r.q.map (fun p => if tSec p.1 = sec then (p.1, Config.free 64 (n + 16 * p.1 + r.tick % 16)) else p)
           regs := r.regs.map (fun p =>
             if p.1 / 4096 = sec then
               (p.1, { dout := Config.free 72 (n + 16 * p.1 + r.tick % 16), err := bitAt (Config.free 2 (n + 16 * p.1 + r.tick % 16)) 0 },
                 { dout := Config.free 72 (n + 2 ^ 20 + 16 * p.1 + r.tick % 16), err := bitAt (Config.free 2 (n + 16 * p.1 + r.tick % 16)) 1 })
             else p) }

/-- The journal of a queue of a lost section (R163). -/
def lostJournal (n : Nat) (j : Journal) : Journal :=
  { j with words := j.words.zipIdx.map (fun w => { w.1 with word := Config.free 64 (n + w.2) }) }

/-- Configuration and storage-element state of a section are lost, and all design state held there (R73, R75, R163): tiles and
left-over columns, block-memory configuration, rows, read registers and undo entries, the backwater ring, the words of the queues that
are enabled or hold any, and their journals. -/
def loseSection (sec : Nat) (s : State) : State :=
  let n := s.free
  let sc := getScr s sec
  let left := (upTo 528).filter fun p => (logCol s sec p).isNone
  let bmc (k : Nat) : BitVec 4160 := Config.free 4160 (n + 2 ^ 20 + k)
  let flip (m : Nat) : Word :=
    BitVec.ofNat 32 (fld (mget dBits sc.bmc (m / 128) ^^^ bmc (m / 128)) (32 * (m % 128)) 32)
  let tiles := msplice dTile (fun t => lostTile (gsrOn s sec) (n + t) (getTile s t)) (131072 * sec) 131072 s.fab.tiles
  let bm := msplice dBlock (fun m => lostBlock (n + 1024 * m) (flip (m % 4096)) (getBlock s m)) (4096 * sec) 4096 s.bm
  let queues := mmap dQueue (fun q x => if q / 256 = sec then lostQueue (n + 2 ^ 26 + 2 ^ 14 * q) x else x) s.queues
  let ring := s.ra.ring.map (lostRing sec (n + 2 ^ 27))
  let journal := mmap dJournal (fun q j => if q / 256 = sec then lostJournal (n + 2 ^ 28 + 2 ^ 17 * q) j else j) s.ra.journal
  let s := { s with fab := { s.fab with tiles := tiles }, bm := bm, queues := queues, free := n + 2 ^ 30
                    ra := { s.ra with ring := ring, journal := journal } }
  setScr sec { sc with
    bmc := mtab dBits bmc 0 32
    spare := mtab dBits (fun i => if left.contains (i / 256) then Config.free 4160 (n + 2 ^ 21 + i) else 0) 0 135168 } s

/-- One sensor update of a section, in millivolts (R73, R76): state is lost at each one below 450 mV, flagged or not. -/
def vsenseUpdate (sec mv : Nat) (s : State) : State :=
  let uvNew := mv < 480 && !bitAt s.fab.uv sec
  let ovNew := 920 < mv && !bitAt s.fab.ov sec
  let rlNew := mv < 450 && !bitAt s.fab.retLost sec
  let f := s.fab
  let s := { s with fab := { f with
    uv := if uvNew then setBit f.uv sec true else if 500 < mv then setBit f.uv sec false else f.uv
    ov := if ovNew then setBit f.ov sec true else if mv < 900 then setBit f.ov sec false else f.ov
    retLost := if rlNew then setBit f.retLost sec true else f.retLost } }
  let s := setReg (Reg.secVsense sec) (w32 mv) s
  let s := if uvNew then bump (Reg.secUvCount sec) s else s
  let s := if ovNew then bump (Reg.secOvCount sec) s else s
  let s := if mv < 450 then loseSection sec s else s
  tickFaults ((if uvNew then [0x11] else []) ++ (if rlNew then [0x15] else [])) s

/-- The RT_DC_LOC record of a conflict (R100). -/
def dcLoc (l : LongLine) (a b : Nat) : Word :=
  w32 (2 ^ 31 + b2n l.vert * 2 ^ 30 + (if l.vert then l.idx * 2 ^ 20 else l.idx * 2 ^ 12) + a * 2 ^ 9 + b * 2 ^ 6 + l.line)

/-- The checker finds two enabled taps on a line (R93, R94): in a free-running region the value of the handshake cycle under way is
undefined, a free value. DESIGN CHOICE (log 143): where its enabled taps stand in tiles of
both regions, the line counts as tick-bound. -/
def oneHotConflict (l : LongLine) (s : State) : State :=
  let taps := tapTiles l
  let on := (upTo 8).filter fun j => fTapEn (frameOf s (taps.getD j 0)) l.vert
  if !s.fab.tapsOn || s.fab.heldLines.contains l || on.length < 2 then s
  else
    let first := !(s.fab.heldLines.any (fun h => h.sec = l.sec))
    let s := { s with fab := { s.fab with heldLines := s.fab.heldLines ++ [l] } }
    let s := latchFirst (Reg.rtDcLoc l.sec) (dcLoc l (on.getD 0 0) (on.getD 1 0)) (bump (Reg.rtDcCount l.sec) s)
    let sc := getScr s l.sec
    let s := setScr l.sec { sc with prio := sc.prio ++ taps.filter (fun t => !sc.prio.contains t) } s
    let s := if first then raiseVec (16 + l.sec) s else s
    let s := refreshAcks s
    let s := if taps.any (fun t => fTapEn (frameOf s t) l.vert && fFree (frameOf s t)) then
        drawFree { s with fab := { s.fab with spoilt := s.fab.spoilt.filter (fun p => p.1 != l) ++ [(l, s.free)] } }
      else s
    if taps.any (fun t => fTapEn (frameOf s t) l.vert && !fFree (frameOf s t)) then tickFault 0x12 s else s

/-! ### The commands -/

def execLcEvaluate (tile : BitVec 20) (n : Fin 32) (s : State) : Res := .next (lcEvaluate tile.toNat n s)
def execTileSettled (tile : BitVec 20) (s : State) : Res := .next (tileSettled tile.toNat s)
def execTileSpacerComplete (tile : BitVec 20) (s : State) : Res := .next (tileSpacerComplete tile.toNat s)
def execFrStageCapture (tile : BitVec 20) (c : Fin 4) (s : State) : Res := .next (frCapture tile.toNat c s)
def execFrStageRelease (tile : BitVec 20) (c : Fin 4) (s : State) : Res := .next (frRelease tile.toNat c s)
/-- A write of GSR_CTL is refused, not lost, in SHUTTING_DOWN (R62). -/
def execGsrPulse (v : Word) (s : State) : Res := .next (awake (gsrPulse v) s)
def execSingleEventUpset (u : Upset) (s : State) : Res := .next (upset u s)
def execVsenseUpdate (sec : Fin 8) (mv : BitVec 10) (s : State) : Res := .next (vsenseUpdate sec mv.toNat s)
def execReplicaUpdate (sec : Fin 8) (ps : BitVec 16) (s : State) : Res :=
  .next (setReg (Reg.secReplica sec) (w32 ps.toNat) s)
def execOneHotConflict (sec : Fin 8) (vert : Bool) (idx : Fin 512) (line : Fin 64) (s : State) : Res :=
  .next (oneHotConflict ⟨sec, vert, idx, line⟩ s)

end Sys2Proof.Machine
end

