-- ==== Sys2Proof/Machine/Tick.lean ====
section
/-! DEFINITION. The tick engine: commands, issue, settle, completion, pacing, the settle timeout, the
cadence table and the AVSBus master (chapter The Tick). -/

namespace Sys2Proof.Machine

/-- TICK_CMD_STAT: LAST and RESULT (R153). -/
def cmdStat (last result : Nat) (s : State) : State := setReg Reg.tickCmdStat (w32 (16 * last + result)) s

/-- A register write of the tick block with its result (LAST 0xF). -/
def wrStat (result : Nat) (s : State) : State := cmdStat 0xF result s

/-- A value refused with TICK_RANGE by a register write (R12, R145). -/
def tickRange (s : State) : State := wrStat 3 (bump Reg.tickRangeCount s)

/-- Cadence and configuration may be written only in IDLE or HALTED (R135). -/
def engineStill (s : State) : Bool := s.tick.st == .idle || s.tick.st == .halted

/-- A tick above the highest issued has not been issued before; one below it is a re-evaluation (R167). -/
def reEval (s : State) : Bool := nextTick s < s.tick.hiP1

/-- The next issue takes no pace event: it re-evaluates a tick. The repeat of an abandoned tick is no re-evaluation: it
waits for an event as any other issue (R140, R146). -/
def noPace (s : State) : Bool := reEval s && !s.tick.redo

/-! ### Commands (R129, R147) -/

/-- Start ticking from IDLE or HALTED: a device in a fabric then waits for a wave (R158). -/
def startTicking (st : TState) (s : State) : State :=
  { s with
    tick := { s.tick with st := st, due := 0, onTime := false, stopReq := false, stepping := false, cycle := false },
    ra := { s.ra with gate := if s.ra.alone then .clear else .needStart, entered := !s.ra.alone, reeval := none } }

/-- RUN, PACED or STEP from IDLE or HALTED, once the device and engine states allow it (R129, R130, R241, R534).
DESIGN CHOICE (log 137): a start that only halts with 0x04 reports RESULT 0b001, and does so before COUNT 0 is refused. -/
def startCmd (cmd : Nat) (go : State → State) (s : State) : State :=
  match s.tick.pend with
  | some p =>
    if s.tick.st == .idle then
      let m := s.tick.pendMulti
      cmdStat cmd 4 (enterFault p m { s with tick := { s.tick with pend := none, pendMulti := false } })
    else go s
  | none =>
    if s.tick.numberEnd then cmdStat cmd 4 s
    else if bndUnreachable s then cmdStat cmd 1 (enterHalt 4 false s)
    else go s

/-- A set-reset pulse holds the start of an engine in IDLE until BUSY clears (R62). -/
def startHeld (s : State) : Bool := s.fab.gsrBusy && s.tick.st == .idle

/-- Hold a start command. DESIGN CHOICE (log 144): TICK_CMD_STAT shows it when it is performed, and the latest stands. -/
def holdStart (cmd count : Nat) (s : State) : State := { s with tick := { s.tick with heldStart := some (cmd, count) } }

/-- The RUN command. -/
def tickRun (s : State) : State :=
  if !engineAllowed s then cmdStat 1 5 s
  else if startHeld s then holdStart 1 0 s
  else if engineStill s then startCmd 1 (fun s => cmdStat 1 1 (startTicking .run s)) s
  else if s.tick.st == .paced then cmdStat 1 1 { s with tick := { s.tick with st := .run } }
  else cmdStat 1 2 s

/-- The PACED command. DESIGN CHOICE (log 11): PACED during a STEP ends the step: STEPPING and its count are dropped. -/
def tickPaced (s : State) : State :=
  if !engineAllowed s then cmdStat 2 5 s
  else if startHeld s then holdStart 2 0 s
  else if engineStill s then startCmd 2 (fun s => cmdStat 2 1 (startTicking .paced s)) s
  else if s.tick.st == .run && !s.tick.stepping then
    cmdStat 2 1 { s with tick := { s.tick with st := .paced, due := 0, onTime := false } }
  else if s.tick.st == .run then
    cmdStat 2 1 { s with tick := { s.tick with st := .paced, due := 0, onTime := false, stepping := false } }
  else cmdStat 2 2 s

/-- The STEP command (COUNT 0 is refused last, R147). -/
def tickStep (count : Nat) (s : State) : State :=
  if !engineAllowed s then cmdStat 4 5 s
  else if startHeld s then holdStart 4 count s
  else if engineStill s then
    startCmd 4 (fun s =>
      if count = 0 then cmdStat 4 3 (bump Reg.tickRangeCount s)
      else
        let s := startTicking .run s
        cmdStat 4 1 { s with tick := { s.tick with stepping := true, stepEnd := nextTick s + count } }) s
  else cmdStat 4 2 s

/-- GSR_PULSE_DONE: the pulse ends, and a start that it held is performed (R61, R62). -/
def pulseDone (s : State) : State :=
  let h := s.tick.heldStart
  let s := gsrPulseDone s
  if s.fab.gsrBusy then s
  else match h with
    | none => s
    | some (c, n) =>
      let s := { s with tick := { s.tick with heldStart := none } }
      if c = 1 then tickRun s else if c = 2 then tickPaced s else tickStep n s

/-- The STOP command: HALTED with cause 0x01 once the tick in progress has completed (R129). -/
def tickStop (s : State) : State :=
  if s.tick.st == .run || s.tick.st == .paced then
    let s := cmdStat 3 1 s
    if s.tick.inTick then { s with tick := { s.tick with stopReq := true } }
    else
      let s := enterHalt 1 false s
      if s.ra.rb.isSome then { s with ra := { s.ra with reeval := some (max s.tick.nowP1 s.ra.rbHigh) } } else s
  else cmdStat 3 2 s

/-- Whether every monitored point of the tick-bound tiles is at spacer: the spacer wave has completed (R145). -/
def fabricAtSpacer (s : State) : Bool :=
  s.fab.tiles.all fun p => fFree p.2.frame ||
    (upTo 4).all (fun c => (clusterPoints s p.1 c).all (fun r => r == .spacer))

/-- CLEAR accepted when the cause condition is no longer present (R145). -/
def clearable (s : State) (code : Nat) : Bool :=
  if code = 0x10 then fabricAtSpacer s
  else if code = 0x11 then s.fab.uv == 0
  else if code = 0x12 then s.fab.heldLines.isEmpty
  else if code = 0x13 || code = 0x16 then true
  else if code = 0x17 then !frozenTickPort s
  else false

/-- The CLEAR command (R146); a rollback recorded in FAULT then restores and reissues (R189). -/
def tickClear (s : State) : State :=
  if s.tick.st != .fault then cmdStat 5 2 s
  else if !clearable s (fld (getReg s Reg.tickCause) 0 8) then cmdStat 5 4 s
  else
    let s := cmdStat 5 1 { s with tick := { s.tick with st := .halted, cycle := false } }
    match s.ra.rb with
    | none => s
    | some r =>
      let t := if s.tick.redo then min r.target (s.tick.nowP1 - 1) else r.target
      { s with ra := { s.ra with rb := some { r with target := t }, rolling := true, reeval := some s.tick.nowP1 } }

/-! ### Register writes with their own rules -/

def tickStopHi (v : Word) (s : State) : State :=
  let v := v &&& 0x8000FFFF#32
  let at_ := (getReg s Reg.tickStopLo).toNat + fld v 0 16 * 2 ^ 32
  wrStat 1 (setReg Reg.tickStopHi v { s with tick := { s.tick with stopAt := if bitAt v 31 then some at_ else none } })

/-- TICK_CFG acts field by field (R147): LOCAL 0, PACE_SRC 2, SLIP_POLICY 3, DITHER 4. -/
def tickCfgWrite (v : Word) (s : State) : State :=
  let old := getReg s Reg.tickCfg
  if engineStill s then wrStat 1 (setReg Reg.tickCfg (v &&& 0x1D#32) s)
  else
    let s := setReg Reg.tickCfg ((old &&& 0x0D#32) ||| (v &&& 0x10#32)) s
    wrStat (if old &&& 0x0D#32 = v &&& 0x0D#32 then 1 else 6) s

def tickPeriodWrite (v : Word) (s : State) : State :=
  let v := v &&& 0xFFFFFF#32
  if v = 0 then tickRange s else wrStat 1 (setReg Reg.tickPacePeriod v s)

def cadLenWrite (v : Word) (s : State) : State :=
  let n := fld v 0 13
  if !engineStill s then wrStat 6 s
  else if n = 0 || 4096 < n then tickRange s
  else wrStat 1 (setReg Reg.cadLen (w32 n) { s with tick := { s.tick with cadNext := 0 } })

def cadPosWrite (v : Word) (s : State) : State :=
  let n := fld v 0 12
  if !engineStill s then wrStat 6 s
  else if cadLen s ≤ n then tickRange s
  else wrStat 1 { s with tick := { s.tick with cadNext := n } }

def cadMaskWrite (i : Nat) (hi : Bool) (v : Word) (s : State) : State :=
  if !engineStill s then wrStat 6 s
  else wrStat 1 (setReg (if hi then Reg.cadMaskHi i else Reg.cadMaskLo i) v s)

/-! ### Pacing (R139, R140) -/

/-- A pace event arrives: held due, or dropped under SLIP_POLICY (R140). -/
def paceEvent (s : State) : State :=
  let cap := if bitAt (getReg s Reg.tickCfg) 3 then 1 else 255
  if cap ≤ s.tick.due then bump Reg.tickPaceDropped s
  else
    let t := s.tick
    { s with tick := { t with due := t.due + 1, onTime := if t.due = 0 then !t.inTick else t.onTime } }

/-- An event of one pace source: 0 the timer, 1 TICK_IN. -/
def paceFrom (src : Bool) (s : State) : State :=
  if s.tick.st == .paced && bitAt (getReg s Reg.tickCfg) 2 == src then paceEvent s else s

/-! ### Boundary values of the tick (R160, R161) -/

def findVal (s : State) (t g : Nat) : Option BVal := s.ra.vals.find? (fun v => v.tick = t && v.g = g)

def putVal (v : BVal) (s : State) : State :=
  { s with ra := { s.ra with vals := s.ra.vals.filter (fun w => !(w.tick = v.tick && w.g = v.g)) ++ [v] } }

/-- v(x) of a group: real if arrived, else predicted; 0 before tick 0 and where nothing is kept (R161). -/
def valAt (s : State) (t : Nat) (back g : Nat) : BitVec 64 :=
  if t < back then 0
  else match findVal s (t - back) g with
    | some v => (v.real.getD (v.pred.getD 0))
    | none => 0

/-- The predicted value of group `g` for tick `t` (R161). -/
def predict (s : State) (t g : Nat) : BitVec 64 :=
  let p := getReg s (Reg.raPred g)
  if fld p 0 2 = 1 then ~~~ (valAt s t 1 g)
  else if fld p 0 2 = 2 then valAt s t (fld p 4 4) g
  else valAt s t 1 g

/-- A boundary input has settled: its class is the last (R133). -/
def groupSettled (s : State) : State := { s with tick := { s.tick with lastCls := 3 } }

/-- Drive group `g` for the tick in progress: its real value, or else a prediction where run-ahead makes one (R160). -/
def driveGroup (mayPredict : Bool) (g : Nat) (s : State) : State :=
  let t := s.tick.nowP1 - 1
  match findVal s t g with
  | some v =>
    if v.used then s
    else if v.real.isSome then groupSettled (putVal { v with used := true } s)
    else if mayPredict then groupSettled (putVal { v with pred := some (predict s t g), used := true } s) else s
  | none =>
    if mayPredict then groupSettled (putVal { tick := t, g := g, pred := some (predict s t g), used := true } s) else s

/-- WAIT expires for a group of the tick in progress (R160). -/
def waitExpire (g : Nat) (s : State) : State :=
  if waveOn s && 0 < raDepth s && (inGroups s).contains g then driveGroup true g s else s

/-! ### Issue (R138) -/

/-- Storage elements of active, enabled domains update from their held inputs (R54). -/
def captureTile (mask : BitVec 64) (x : Tile) : Tile :=
  if fFree x.frame then x
  else
    { x with q := (upTo 64).foldl (fun q e =>
        let c := e / 16
        let d := if fDom x.frame e then fDomB x.frame c else fDomA x.frame c
        if fSrc x.frame e != 3 && bitAt mask d && bitAt x.heldEn e then setBit q e (bitAt x.held e) else q) x.q }

/-- The run-ahead window (R157), and the hold of a snapshot (R498). -/
def windowOpen (s : State) : Bool :=
  nextTick s + 1 ≤ s.ra.com + raSpan s && nextTick s + 1 ≤ s.ra.gio + raSpan s && snapAllows s

/-- Every issue condition but the window (R129, R138, R158, R167, R75, R241): after DEPTH_OK 0 only speculation already done is
re-evaluated (R189), and none before a wave started after the latest entry has completed with DEPTH_OK 1. -/
def mayIssue (s : State) : Bool :=
  (s.tick.st == .run || s.tick.st == .paced || (s.tick.st == .halted && s.ra.reeval.isSome)) &&
  !s.tick.inTick && !s.tick.stopReq && deviceUp s && s.fab.gsr == 0 && s.fab.retLost == 0 && !s.tick.numberEnd &&
  (s.ra.rb.isNone || s.ra.restored) &&
  (s.tick.st == .halted || ((s.ra.gate == .clear || (s.ra.depthMismatch && reEval s && !s.ra.entered)) && (s.ra.alone || s.net.dstate == .ready))) &&
  (s.tick.st != .paced || noPace s || 0 < s.tick.due)

/-- The rollback in progress is counted and recorded once, when its target is reissued (R167). -/
def recordRollback (s : State) : State :=
  match s.ra.rb with
  | none => s
  | some r =>
    let span := s.ra.rbHigh - r.target
    let s := bumpBy Reg.raTicksRedone span (bump Reg.raRollbacks s)
    let s := setReg Reg.raLastRb
      (w32 (2 ^ 31 + b2n r.byRecall * 2 ^ 30 + r.chan * 2 ^ 25 + span % 32 * 2 ^ 16 + r.target % 65536)) s
    let s := setReg Reg.raRbMax (w32 (max (getReg s Reg.raRbMax).toNat (span % 32))) s
    { s with ra := { s.ra with rb := none, rolling := false, restored := false } }

/-- The position and mask of the tick about to be issued: kept for a repeat or a re-evaluation, else from the table (R134, R135). -/
def issueEntry (s : State) : Nat × BitVec 64 :=
  let k := nextTick s
  match s.tick.kept.find? (fun e => e.tick = k) with
  | some e => (e.pos, e.mask)
  | none => (s.tick.cadNext, if k = 0 then 0 else cadMask s s.tick.cadNext)

/-- TICK_IN or timer event used by this issue; late ones are slips (R140). -/
def usePace (s : State) : State :=
  if s.tick.st == .paced && !noPace s then
    let late := !s.tick.onTime
    let s := { s with tick := { s.tick with due := s.tick.due - 1, onTime := false } }
    if late then bump Reg.tickSlips s else s
  else s

/-- Capture and commit at the issue of tick `k`, unless the tick only launches (R54, R56, R108, R146, R167). Ports then hold
no request until the data wave gives one (R108, R123). -/
def captureAll (only : Bool) (k : Nat) (mask : BitVec 64) (s : State) : State :=
  let s :=
    if only || k = 0 then s
    else
      let s := mapTiles (fun _ x => captureTile mask x) s
      forEach (fun m s => bmCommit m k mask s) (s.bm.map Prod.fst) s
  { s with bm := mmap dBlock (fun _ b => { b with heldA := none, heldB := none }) s.bm }

/-- The engine's own state as tick `k` is issued with this entry and GIO sample. -/
def launch (k pos : Nat) (mask : BitVec 64) (gio : BitVec 480) (s : State) : State :=
  let t := s.tick
  let adv := if k < t.hiP1 || k = 0 then t.cadNext else (t.cadNext + 1) % cadLen s
  let keep : KeptTick := { tick := k, pos := pos, mask := mask }
  let t := { t with inTick := true, spacer := false, nowP1 := k + 1, hiP1 := max t.hiP1 (k + 1), redo := false,
                    relaunch := false, mask := mask, cadNext := adv, winCounted := false, lastPos := pos,
                    lastCls := 0, lastSec := 0, haltSame := false, cycle := false,
                    kept := t.kept.filter (fun e => e.tick != k) ++ [keep] }
  let ra := { s.ra with gioIn := s.ra.gioIn.filter (fun p => p.1 != k) ++ [(k, gio)], jStall := 0 }
  let s := mapTiles (fun _ x =>
    if fFree x.frame then x
    else { x with settled := false, spacerDone := false, railMark := 0, portOut := none })
    { s with tick := t, ra := ra, pins := { s.pins with gioTick := gio } }
  poolNewTick { s with bm := mmap dBlock (fun _ b => { b with stalled := false }) s.bm }

/-- Keep what tick `k` launched in the backwater ring (R163). -/
def keepRing (k : Nat) (s : State) : State :=
  { s with ra := { s.ra with ring := s.ra.ring.filter (fun r => r.tick != k) ++ [ringSnap k s] } }

/-- Issue the next tick, every condition holding (R138): its entry, its GIO sample, capture and commit, launch, and the
predictions that WAIT 0 drives at issue (R160). -/
def issueTick (gio : BitVec 480) (s : State) : State :=
  let k := nextTick s
  let only := s.tick.relaunch
  let (pos, mask) := issueEntry s
  let smp := match s.ra.gioIn.find? (fun p => p.1 = k) with | some p => p.2 | none => gio
  let s := recordRollback (keepRing k (captureAll only k mask (launch k pos mask smp (usePace s))))
  if s.tick.st == .fault then s
  else
    let s := forEach (fun t s => quietPort t s) (s.fab.tiles.map Prod.fst) s
    let p := 0 < raDepth s && fld (getReg s Reg.raCfg) 8 8 = 0
    traceSample (forEach (fun g s => driveGroup p g s) (inGroups s) s)

/-- TICK_ISSUE: the next tick is issued if every condition holds; an issue the window delays is counted once (R157). -/
def tickIssue (gio : BitVec 480) (s : State) : State :=
  if !mayIssue s then s
  else if windowOpen s then issueTick gio s
  else if s.tick.winCounted then s
  else bump Reg.raWindowWait { s with tick := { s.tick with winCounted := true } }

/-! ### Settle and completion (R131, R24) -/

/-- Every tick-bound tile has reported, in every section that reports (R64, R73). -/
def tilesReported (done : Tile → Bool) (s : State) : Bool :=
  s.fab.uv == 0 && s.fab.gsr == 0 &&
  s.fab.tiles.all (fun p => fFree p.2.frame || done p.2 || nothingInUse s p.1)

/-- Every contributor of the tick in progress counts as settled (R131). -/
def allSettled (s : State) : Bool :=
  waveOn s && tilesReported Tile.settled s &&
  (inGroups s).all (fun g => match findVal s (s.tick.nowP1 - 1) g with | some v => v.used | none => false)

/-- The GIO outputs and enables of this tick, from the host tiles of tick-bound slots (R520). -/
def gioOutputs (s : State) : BitVec 480 × BitVec 480 :=
  s.fab.tiles.foldl (fun a p =>
    match hostOf s p.1 with
    | .gio b k =>
      if fFree p.2.frame then a
      else (upTo 4).foldl (fun a n =>
        let g := 48 * b + 4 * k + n
        let d := gioDir s g
        if d < 2 then a
        else (setBit a.1 g (lineRail s p.1 (8 * n)).high,
              setBit a.2 g (d = 2 || (lineRail s p.1 (8 * n + 1)).high))) a
    | _ => a) (0, 0)

/-- The output balls of tick-bound slots. -/
def gioTickBalls (s : State) : BitVec 480 :=
  s.fab.tiles.foldl (fun a p =>
    match hostOf s p.1 with
    | .gio b k =>
      if fFree p.2.frame then a
      else (upTo 4).foldl (fun a n => if gioDir s (48 * b + 4 * k + n) < 2 then a else setBit a (48 * b + 4 * k + n) true) a
    | _ => a) 0

/-- The confluence releases the spacer wave; what the tick drives at GIO and TICK_OUT waits at the gate (R131, R178). -/
def spacerRelease (s : State) : State :=
  if !allSettled s then s
  else
    let k := s.tick.nowP1 - 1
    let (o, e) := gioOutputs s
    let s := { s with ra := { s.ra with gioOut := s.ra.gioOut.filter (fun (p : Nat × BitVec 480 × BitVec 480) => p.1 != k) ++ [(k, o, e)],
                                        toggles := s.ra.toggles.filter (fun (p : Nat × BitVec 64) => p.1 != k) ++ [(k, s.tick.mask)] } }
    forceSpacer { s with tick := { s.tick with spacer := true } }

/-- Where L is the device's own: alone, or at depth 0 (R156). -/
def localL (s : State) : Bool := s.ra.alone || raDepth s = 0

/-- Halt causes that apply at the completion of the tick just ended (R129, R145). DESIGN CHOICE (log 138): a stop armed at
or below TICK_NOW while no tick is in progress takes effect when the next tick completes. -/
def haltCodes (s : State) : List Nat :=
  let t := s.tick
  (if t.stopReq then [1] else []) ++
  (match t.stopAt with | some a => if a + 1 ≤ t.nowP1 then [2] else [] | none => []) ++
  (if t.stepping && t.stepEnd ≤ t.nowP1 then [3] else []) ++
  (if t.nowP1 = 2 ^ 48 then [5] else [])

/-- The voltage bin of a section (R152). -/
def voltBin (mv : Nat) : Nat := min 8 ((mv - 500) / 50)

/-- The class counted for a tick: the one that settled last, or the later of those `same` that settled in the same
confluence cycle (R133). -/
def limitClass (same : BitVec 5) (s : State) : Nat :=
  (upTo 5).foldl (fun a c => if bitAt same c then max a c else a) s.tick.lastCls

/-- The measurements of a completed tick: its period, the class and the section that settled last (R133, R152, R153). -/
def measure (period : Word) (same : BitVec 5) (s : State) : State :=
  let cls := limitClass same s
  let sec := s.tick.lastSec
  let s := setReg Reg.tickPeriodLast period s
  let mn := getReg s Reg.tickPeriodMin
  let s := setReg Reg.tickPeriodMin (if mn = 0 ∨ period < mn then period else mn) s
  let mx := getReg s Reg.tickPeriodMax
  let s := setReg Reg.tickPeriodMax (if mx < period then period else mx) s
  let s := bump (Reg.tickLimit cls) s
  let b := voltBin (getReg s (Reg.secVsense sec)).toNat
  let z (m : SMap Nat) (k n : Nat) : SMap Nat := mset (fun _ => 0) m k (mget (fun _ => 0) m k + n)
  let t := s.tick
  { s with tick := { t with ivTicks := t.ivTicks + 1, ivLast := z t.ivLast sec 1, ivBinN := z t.ivBinN b 1,
                            ivBinSum := z t.ivBinSum b period.toNat } }

/-- A group delivered by cut-through for the tick in progress whose flit has not passed CRC-32 (R202 step 2). -/
def ctPending (s : State) : Bool := s.net.ct.any (fun c => c.tick + 1 = s.tick.nowP1 && !c.passed)

/-- The tick that an armed snapshot names has completed: what it launched is kept for the snapshot (R163, R498). -/
def snapKeep (s : State) : State :=
  match s.trc.snap with
  | .armed t => if s.tick.nowP1 = t + 1 then { s with trc := { s.trc with snapVals := some (ringSnap t s) } } else s
  | _ => s

/-- The tick in progress completes (R24, R129, R202); one that waits for a flit's CRC-32 waits for a boundary input. `fault` says that a fault cause arises in the same confluence
cycle: where the completion halts the engine, the fault's own event then sets MULTI (R145). -/
def tickComplete (period : Word) (same : BitVec 5) (fault : Bool) (s : State) : State :=
  if !(s.tick.inTick && s.tick.spacer && tilesReported Tile.spacerDone s) then s
  else if ctPending s then groupSettled s
  else
    let s := measure period same (keepFrames (s.tick.nowP1 - 1) { s with tick := { s.tick with inTick := false, spacer := false } })
    let s := snapKeep s
    let s := if localL s then advanceL (unsettled s) s else s
    let s := { s with tick := { s.tick with numberEnd := s.tick.numberEnd || s.tick.nowP1 = 2 ^ 48 } }
    if s.tick.st == .halted then
      match s.ra.reeval with
      | some n => if n ≤ s.tick.nowP1 && s.ra.rb.isNone then { s with ra := { s.ra with reeval := none } } else s
      | none => s
    else
      match haltCodes s with
      | [] => s
      | c :: l =>
        let n := max s.tick.nowP1 s.ra.rbHigh
        let s := enterHalt (l.foldl min c) (!l.isEmpty) s
        let s := { s with tick := { s.tick with haltSame := fault } }
        if s.ra.rb.isSome then { s with ra := { s.ra with reeval := some n } } else s

/-! ### The settle timeout (R143, R144) -/

/-- The place the watershed tree records, and the number of tiles not reported (R144). -/
def locateStop (s : State) : Word × Word :=
  let ph := b2n s.tick.spacer
  let k := s.tick.nowP1 - 1
  let rec_ (kind sec mid idx : Nat) : Word := w32 (2 ^ 31 + ph * 2 ^ 30 + kind * 2 ^ 27 + sec * 2 ^ 24 + mid + idx)
  let done (x : Tile) : Bool := if s.tick.spacer then x.spacerDone else x.settled
  let open_ := s.fab.tiles.filter (fun p => !fFree p.2.frame && !done p.2 && !nothingInUse s p.1)
  let cnt := w32 (min 0xFFFF_FFFF open_.length)
  let groups := (inGroups s).filter (fun g => match findVal s k g with | some v => !v.used | none => true)
  let pools := open_.filterMap (fun (p : Nat × Tile) => match hostOf s p.1 with
    | .pool q _ => if answerValid s p.1 0 then none else some q | _ => none)
  let queues := open_.filterMap (fun (p : Nat × Tile) => match hostOf s p.1 with
    | .qWr q | .qRd q => if answerValid s p.1 0 then none else some q | _ => none)
  let undos := s.bm.filterMap (fun p => if p.2.stalled then some p.1 else none)
  let low (l : List Nat) : Nat := match l with | [] => 0 | a :: r => r.foldl min a
  let loc :=
    if !s.tick.spacer && !groups.isEmpty then
      rec_ 3 0 (low groups * 2 ^ 12) (mget (fun _ => 0xFFF) s.ra.grpChan (low groups))
    else if !s.tick.spacer && !pools.isEmpty then rec_ 1 (low pools / 32) 0 (low pools % 32)
    else if !s.tick.spacer && !queues.isEmpty then rec_ 2 (low queues / 256) 0 (low queues % 256)
    else if !s.tick.spacer && !undos.isEmpty then rec_ 4 (low undos / 4096) 0 (low undos % 4096)
    else match open_ with
      | [] => 0
      | p :: _ =>
        let c := ((upTo 4).find? (fun c => if s.tick.spacer then
            !(clusterPoints s p.1 c).all (fun r => r == .spacer) else !dataComplete s p.1 c)).getD 0
        rec_ 0 (tSec p.1) (c * 2 ^ 22 + physCol s (tSec p.1) (tCol p.1) * 2 ^ 12) (tRow p.1)
  (loc, cnt)

/-- The awaited phase of the tick in progress has completed: settle, or the spacer wave (R143). -/
def phaseDone (s : State) : Bool := if s.tick.spacer then tilesReported Tile.spacerDone s else allSettled s

/-- The settle timeout expires (R143): counted, located, and TICK_SETTLE_TIMEOUT. A phase that has completed wins (R147).
The location registers keep their values until now (R144). -/
def settleTimeout (s : State) : State :=
  if !s.tick.inTick || getReg s Reg.tickTimeout = 0 || phaseDone s then s
  else
    let s := { s with tick := { s.tick with toLoc := some (locateStop s) } }
    let s := setReg Reg.tickToLoc 0 (setReg Reg.tickToCount 0 s)
    tickFault 0x10 (raiseVec 2 (bump Reg.tickTimeouts s))

/-- TICK_TIMEOUT takes effect at once (R143); `elapsed` is the time spent in the phase, in µs. -/
def timeoutWrite (v elapsed : Word) (s : State) : State :=
  let v := v &&& 0xFFFFF#32
  let s := wrStat 1 (setReg Reg.tickTimeout v s)
  if v != 0 && v < elapsed then settleTimeout s else s

/-- The watershed tree has located the stop (R144). -/
def timeoutLocated (s : State) : State :=
  match s.tick.toLoc with
  | none => s
  | some (l, c) =>
    setReg Reg.tickToLoc l (setReg Reg.tickToCount c { s with tick := { s.tick with toLoc := none } })

/-! ### Intervals and the AVSBus master (R148–R152) -/

/-- The section counted most in an interval, the lowest of equals; none where no tick completed. -/
def maxSec (m : SMap Nat) : Option Nat :=
  (m.foldl (fun (a : Option (Nat × Nat)) p =>
    match a with
    | none => some p
    | some q => if q.2 < p.2 then some p else a) none).map Prod.fst

/-- A 1 ms interval ends (R152, R153): LC_VBAT takes the sensor's value (R456), and the tamper watch that PORST_N's release armed
begins (R449). DESIGN CHOICE (log 202): the mean period of a bin is rounded down to whole ps. -/
def interval1ms (s : State) : State :=
  let t := s.tick
  let s := drawFree (setReg Reg.lcVbat ((Config.free 12 s.free).setWidth 32) s)
  let s := setReg Reg.tickRate (w32 t.ivTicks) s
  let s := forEach (fun b s =>
    let n := mget (fun _ => 0) t.ivBinN b
    if n = 0 then s else setReg (Reg.tickVf b) (w32 (mget (fun _ => 0) t.ivBinSum b / n)) s) (upTo 9) s
  let l := match maxSec t.ivLast with | some x => some x | none => t.avs.lim
  { s with tick := { t with ivTicks := 0, ivPrev := t.ivLast, ivLast := [], ivBinN := [], ivBinSum := [],
                            avs := { t.avs with lim := l } }
           dev := { s.dev with watch := if s.dev.watch == .soon && s.dev.porstHigh && !s.dev.shdnDone then .on else s.dev.watch } }

/-- The mode in force. -/
def avsMode (s : State) : Nat := s.tick.avs.mode
def avsVmin (s : State) : Nat := fld (getReg s Reg.avsCfg) 4 10
def avsVmax (s : State) : Nat := fld (getReg s Reg.avsCfg) 16 10
def avsTarget (s : State) (r : Nat) : Nat := (getReg s (Reg.avsTarget r)).toNat

/-- Queue a frame, unless its rail has failed (R151). -/
def avsSend (f : AvsFrame) (s : State) : State :=
  let a := s.tick.avs
  if bitAt a.railFail f.rail then s
  else { s with tick := { s.tick with avs := { a with todo := a.todo ++ [f], busy := true } } }

/-- Write the target of rail `r` to the regulator (R148, R149). -/
def avsCommand (r : Nat) (s : State) : State := avsSend ⟨0x0, true, r, avsTarget s r⟩ s

/-- Read the current of every rail not being read already (R148, R150). -/
def avsReadCurrents (s : State) : State :=
  forEach (fun r s => if s.tick.avs.todo.contains ⟨0x2, false, r, 0⟩ then s else avsSend ⟨0x2, false, r, 0⟩ s) (upTo 8) s

/-- Apply a MODE: failed rails are commanded again, MANUAL writes each nonzero target, CAP reads the currents, and a row
of intervals above the cap ends (R149–R151). -/
def avsApply (mode : Nat) (s : State) : State :=
  let a := s.tick.avs
  let s := { s with tick := { s.tick with avs := { a with mode := mode, railFail := 0, curFail := 0, todo := [], busy := false,
                                                          repeats := 0, overRun := 0, modeNext := none } } }
  if mode = 1 then forEach (fun r s => if avsTarget s r = 0 then s else avsCommand r s) (upTo 8) s
  else if mode = 2 then avsReadCurrents s else s

/-- A write of AVS_CFG (R149): a MODE written while a frame is in progress applies when it ends (R151). -/
def avsCfgWrite (v : Word) (s : State) : State :=
  if fld v 4 10 < 500 || 900 < fld v 16 10 || fld v 16 10 < fld v 4 10 || fld v 0 2 = 3 then tickRange s
  else
    let s := wrStat 1 (setReg Reg.avsCfg (v &&& 0x3FF3FF3#32) s)
    if s.tick.avs.busy then { s with tick := { s.tick with avs := { s.tick.avs with modeNext := some (fld v 0 2) } } }
    else avsApply (fld v 0 2) s

/-- A write of AVS_TARGET[r] (R149). -/
def avsTargetWrite (r : Nat) (v : Word) (s : State) : State :=
  let t := fld v 0 10
  if t != 0 && (t < avsVmin s || avsVmax s < t) then tickRange s
  else
    let s := wrStat 1 (setReg (Reg.avsTarget r) (w32 t) s)
    if avsMode s = 1 && t != 0 then avsCommand r s else s

/-- A write of AVS_CAP (R149). -/
def avsCapWrite (v : Word) (s : State) : State :=
  let c := fld v 0 9
  if c = 0 || 440 < c then tickRange s else wrStat 1 (setReg Reg.avsCap (w32 c) s)

/-- An AVSBus frame ends (R151): repeated up to three times, then its rail has failed. With no frame queued it is a read
of a target or of the AVSBus status, whose result nothing uses: only its error counts (DESIGN CHOICE, log 139). -/
def avsFrameDone (ok : Bool) (s : State) : State :=
  let a := s.tick.avs
  match a.todo with
  | [] => if ok || a.mode = 0 then s else bump Reg.avsErr s
  | f :: l =>
    let fin (a : Avs) (s : State) : State :=
      let s := { s with tick := { s.tick with avs := { a with repeats := 0, busy := !a.todo.isEmpty } } }
      match a.modeNext with
      | some v => avsApply v s
      | none => s
    if ok then fin { a with todo := l } s
    else
      let s := bump Reg.avsErr s
      if a.repeats < 3 then { s with tick := { s.tick with avs := { a with repeats := a.repeats + 1 } } }
      else fin { a with railFail := setBit a.railFail f.rail true
                        todo := l.filter (fun g => g.rail != f.rail)
                        curFail := if f.cmd = 2 then setBit a.curFail f.rail true else a.curFail } s

/-- Set the target of rail `r` and command it if it changed; a failed rail is held at its last target (R150, R151). -/
def avsSet (r v : Nat) (s : State) : State :=
  if avsTarget s r = v || bitAt s.tick.avs.railFail r then s else avsCommand r (setReg (Reg.avsTarget r) (w32 v) s)

/-- The control loop of CAP mode, from the rail currents in mA averaged over the interval, and the rails whose regulator
does not support the read (R150, R151). The currents of the next interval are then read. -/
def avsCapInterval (cur : BitVec 256) (fail : BitVec 8) (s : State) : State :=
  if avsMode s != 2 then s
  else if fail ||| s.tick.avs.curFail != 0 then
    let a := s.tick.avs
    avsReadCurrents (andNotReg Reg.avsPower 0x80000000#32
      { s with tick := { s.tick with avs := { a with railFail := a.railFail ||| fail, curFail := a.curFail ||| fail, overRun := 0 } } })
  else
    let p := ((upTo 8).foldl (fun a i => a + (getReg s (Reg.secVsense i)).toNat * fld cur (32 * i) 32) 0) / 1000
    let cap := (getReg s Reg.avsCap).toNat * 1000
    let s := setReg Reg.avsPower (w32 (2 ^ 31 + p % 2 ^ 19)) s
    let prev := s.tick.ivPrev
    let s :=
      if !(s.tick.st == .run || s.tick.st == .paced) then s
      else if cap < p then forEach (fun r s => avsSet r (max (avsVmin s) (avsTarget s r - 10)) s) (upTo 8) s
      else if p * 100 < cap * 98 then
        let s := match maxSec prev with
          | some l => avsSet l (min (avsVmax s) (avsTarget s l + 5)) s
          | none => s
        forEach (fun r s => if mget (fun _ => 0) prev r = 0 then avsSet r (max (avsVmin s) (avsTarget s r - 5)) s else s)
          (upTo 8) s
      else s
    let a := s.tick.avs
    let ovr := if cap < p && (upTo 8).all (fun r => avsTarget s r = avsVmin s) then a.overRun + 1 else 0
    let sets := ovr = 10 && !a.capUnmet
    let s := { s with tick := { s.tick with avs := { a with
      overRun := min ovr 10, capUnmet := if sets then true else if p < cap then false else a.capUnmet } } }
    avsReadCurrents (if sets then raiseVec 3 (bump Reg.avsCapUnmet s) else s)

/-! ### The sluice gate (R178) -/

/-- Whether a commit of this mask toggles TICK_OUT (R142). -/
def togglesOut (s : State) (mask : BitVec 64) : Bool :=
  let c := getReg s Reg.tickOutCfg
  bitAt c 7 && (bitAt c 6 || bitAt mask (fld c 0 6))

/-- Release what L has passed, in tick order: one tick's TICK_OUT toggle, queue words and trace, and one tick's GIO
values unless GIO_HOLD still runs (R142, R178). -/
def sluiceRelease (s : State) : State :=
  let t := s.ra.rel
  let s :=
    if t < s.ra.com then
      let tog := s.ra.toggles.any (fun p => p.1 = t && togglesOut s p.2)
      let s := { s with tick := { s.tick with tickOut := if tog then !s.tick.tickOut else s.tick.tickOut },
                        ra := { s.ra with toggles := s.ra.toggles.filter (fun p => t < p.1), rel := t + 1 } }
      traceCommit t (qReleaseTick t s)
    else s
  let g := s.ra.gio
  if g < s.ra.com && !s.ra.gioHold then
    let hold := fld (getReg s Reg.raCfg) 16 8 != 0
    let pins := match s.ra.gioOut.find? (fun p => p.1 = g) with
      | some (_, o, e) =>
        let m := gioTickBalls s
        { s.pins with gioOut := s.pins.gioOut &&& ~~~m ||| o, gioOe := s.pins.gioOe &&& ~~~m ||| e,
                      kept := s.pins.kept &&& ~~~e ||| (o &&& e), gioFirst := s.pins.gioFirst ||| m }
      | none => s.pins
    { s with pins := pins, ra := { s.ra with gioOut := s.ra.gioOut.filter (fun p => g < p.1), gio := g + 1, gioHold := hold } }
  else s

/-! ### The commands -/

def execGsrPulseDone (s : State) : Res := .next (pulseDone s)
def execTickCmdRun (s : State) : Res := .next (mgmt (tickRun) s)
def execTickCmdPaced (s : State) : Res := .next (mgmt (tickPaced) s)
def execTickCmdStop (s : State) : Res := .next (mgmt (tickStop) s)
def execTickCmdStep (count : BitVec 16) (s : State) : Res := .next (mgmt (tickStep count.toNat) s)
def execTickCmdClear (s : State) : Res := .next (mgmt (tickClear) s)
def execTickCmdReserved (cmd : BitVec 4) (s : State) : Res := .next (mgmt (cmdStat cmd.toNat 7) s)
def execTickStopHiWrite (v : Word) (s : State) : Res := .next (mgmt (tickStopHi v) s)
/-- The read returns TICK_NOW[31:0] and latches the high half (R153). -/
def execTickNowLoRead (s : State) : Res :=
  .next (mgmtRd (fun s => setReg Reg.tickNowHi (w32 ((s.tick.nowP1 - 1) / 2 ^ 32))
    { s with rdata := w32 (s.tick.nowP1 - 1) }) s)
def execTickCfgWrite (v : Word) (s : State) : Res := .next (mgmt (tickCfgWrite v) s)
def execTickTimeoutWrite (v elapsed : Word) (s : State) : Res := .next (mgmt (timeoutWrite v elapsed) s)
def execTickPacePeriodWrite (v : Word) (s : State) : Res := .next (mgmt (tickPeriodWrite v) s)
def execCadLenWrite (v : Word) (s : State) : Res := .next (mgmt (cadLenWrite v) s)
def execCadPosWrite (v : Word) (s : State) : Res := .next (mgmt (cadPosWrite v) s)
def execCadMaskWrite (i : Fin 4096) (hi : Bool) (v : Word) (s : State) : Res := .next (mgmt (cadMaskWrite i hi v) s)
def execPaceTimerEvent (s : State) : Res := .next (paceFrom false s)
def execTickInEdge (s : State) : Res := .next (paceFrom true s)
def execTickIssue (gio : BitVec 480) (s : State) : Res := .next (tickIssue gio s)
def execSpacerRelease (s : State) : Res := .next (spacerRelease s)
def execTickComplete (period : Word) (same : BitVec 5) (fault : Bool) (s : State) : Res :=
  .next (tickComplete period same fault s)
def execSettleTimeout (s : State) : Res := .next (settleTimeout s)
def execTimeoutLocated (s : State) : Res := .next (timeoutLocated s)
def execTickInterval1ms (s : State) : Res := .next (interval1ms s)
def execAvsCapInterval (cur : BitVec 256) (fail : BitVec 8) (s : State) : Res := .next (avsCapInterval cur fail s)
def execAvsCfgWrite (v : Word) (s : State) : Res := .next (mgmt (avsCfgWrite v) s)
def execAvsTargetWrite (sec : Fin 8) (v : Word) (s : State) : Res := .next (mgmt (avsTargetWrite sec v) s)
def execAvsCapWrite (v : Word) (s : State) : Res := .next (mgmt (avsCapWrite v) s)
def execAvsFrameDone (ok : Bool) (s : State) : Res := .next (avsFrameDone ok s)
def execPredictionWaitExpire (g : Fin 4096) (s : State) : Res := .next (waitExpire g s)
def execSluiceRelease (s : State) : Res := .next (sluiceRelease s)
/-- The GIO_HOLD time of the released tick runs out (R178). -/
def execGioHoldExpire (s : State) : Res := .next { s with ra := { s.ra with gioHold := false } }

end Sys2Proof.Machine
end

