-- ==== Sys2Proof/Machine/RunAhead.lean ====
section
/-! DEFINITION. Run-ahead: configuration, real values and predictions, rollback, recalls and the
low-water wave (chapter Run-Ahead and Rollback). -/

namespace Sys2Proof.Machine

/-! ### Registers -/

/-- A value of this block refused with TICK_RANGE: counted here, reported in TICK_CMD_STAT (R145, R190). -/
def raRange (s : State) : State := wrStat 3 (bump Reg.raRangeCount s)

/-- RA_STAT WRESULT of a write of RA_CFG, in the order of R159. -/
def raCfgResult (s : State) (v : Word) : Nat :=
  let d := fld v 0 5
  if !engineStill s || uncommitted s then 2
  else if d != 0 && (bitAt (getReg s Reg.raCfg) 24 || bitAt v 24) then 4
  else if 16 < d then 3 else 1

/-- A write of RA_CFG (R159). -/
def raCfgWrite (v : Word) (s : State) : State :=
  let r := raCfgResult s v
  let s := { s with ra := { s.ra with wresult := r } }
  if r = 1 then setReg Reg.raCfg (v &&& 0x1FFFF1F#32) s
  else if r = 3 then raRange s else s

/-- A write of RA_PRED[g] (R161). -/
def raPredWrite (g : Nat) (v : Word) (s : State) : State :=
  let p := fld v 4 4
  if fld v 0 2 = 3 || (fld v 0 2 = 2 && (p = 0 || 8 < p)) then raRange s
  else setReg (Reg.raPred g) (v &&& 0xF3#32) s

/-- L as the registers show it: 0 while no tick is committed (RA_STAT LWM_VALID 0), as RA_LWM_LO reads at reset (R190). -/
def lwm48 (s : State) : Nat := s.ra.com - 1

/-! ### Rollback (R166, R167) -/

/-- Decide a rollback to tick `t`, or lower the target of one decided (R166, R189). -/
def decideRollback (t : Nat) (byRecall : Bool) (chan : Nat) (s : State) : State :=
  let r := s.ra
  let re := if s.tick.st == .halted then some (max s.tick.nowP1 (r.reeval.getD 0)) else r.reeval
  match r.rb with
  | none =>
    { s with ra := { r with rb := some ⟨t, byRecall, chan⟩, rbHigh := s.tick.hiP1, restored := false,
                            rolling := s.tick.st != .fault, reeval := re } }
  | some o =>
    if t < o.target then { s with ra := { r with rb := some ⟨t, byRecall, chan⟩, restored := false, reeval := re } }
    else s

/-- Restore everything kept for the target tick (R163, R167 step 2). -/
def restoreTo (t : Nat) (s : State) : State :=
  let s := match s.ra.ring.find? (fun r => r.tick = t) with
    | some snap =>
      let s := mapTiles (fun a x => if fFree x.frame then x else { x with q := snapQ snap a }) s
      { s with bm := mmap dBlock (fun m b => { b with regA := (snapRegs snap m).1, regB := (snapRegs snap m).2 }) s.bm }
    | none => s
  let s := { s with bm := mmap dBlock (fun _ b => bmUndo t b) s.bm }
  let s := discardFrom t s
  { s with tick := { s.tick with nowP1 := t, redo := false, relaunch := true, numberEnd := false },
           ra := { s.ra with restored := true, rolling := true } }

/-- ROLLBACK_RESTORE: steps 1 and 2 of R167, once no tick is in progress; none in FAULT (R189). -/
def rollbackRestore (s : State) : State :=
  match s.ra.rb with
  | none => s
  | some r =>
    if s.tick.inTick || s.ra.restored || s.tick.st == .fault then s
    else traceVoid r.target (restoreTo r.target s)

/-! ### Real values (R160, R162, R170, R189) -/

/-- The real value of group `g` for tick `t` arrives, in a frame or in a recall taken as the real value. -/
def takeReal (t g : Nat) (v : BitVec 64) (byRecall : Bool) (chan : Nat) (s : State) : State :=
  let undone := match s.ra.rb with | some r => decide (r.target ≤ t) | none => false
  match findVal s t g with
  | none =>
    let live := waveOn s && s.tick.nowP1 = t + 1
    putVal { tick := t, g := g, real := some v, used := live } (if live then groupSettled s else s)
  | some b =>
    match b.pred, b.real with
    | some p, none =>
      let s := putVal { b with real := some v } s
      if undone then s
      else if p = v then bump Reg.raPredHits s
      else decideRollback t byRecall chan (bump Reg.raMispredict s)
    | _, _ =>
      let live := waveOn s && s.tick.nowP1 = t + 1
      putVal { b with real := some v, used := b.used || live } (if live && !b.used then groupSettled s else s)

/-! ### Messages (R172, R176) -/

/-- The full tick of a 16-bit tag: the one in L + 1 to L + 65,536 (R173). -/
def tagTick (s : State) (tag : Nat) : Nat := s.ra.com + (tag + 65536 - s.ra.com % 65536) % 65536

/-- Whether a tag's tick may be held: within L + 17 (R173). -/
def tagHeld (s : State) (t : Nat) : Bool := t ≤ s.ra.com + 16

/-- A discarded message sets LWM_HELD, and raises the run-ahead interrupt when it sets (R177, R181). The wave in progress
reports U at L + 1 too. -/
def badMsg (s : State) : State :=
  let s := bump Reg.raBadMsg s
  if s.ra.lwmHeld then s
  else
    let w := s.ra.wave
    raiseVec 4 { s with ra := { s.ra with lwmHeld := true, wave := { w with recd := w.recd.map (min s.ra.com) } } }

/-! ### Boundary frames (R234–R236) -/

/-- The tick whose frame from group `a` goes out next: the oldest that stands in the boundary output registers, else the one in
progress (R132, R275). -/
def frameTick (s : State) (a : Nat) : Option Nat :=
  match s.ra.outPend.find? (fun p => p.2 = a) with
  | some p => some p.1
  | none => if waveOn s && !frameSent s (s.tick.nowP1 - 1) a then some (s.tick.nowP1 - 1) else none

/-- BOUNDARY_FRAME_SEND: the frame that begins at output group `o` goes out once for its tick, its groups all valid (R132, R234): with
the values that stand at the groups, or of a completed tick with those that the boundary output registers hold (R275). -/
def frameSend (o : Nat) (vals : BitVec 896) (s : State) : State :=
  match (outFrames s).find? (fun p => p.1 = o) with
  | none => s
  | some (a, n) =>
    match frameTick s a with
    | none => s
    | some k => frameLeave k a n (if s.ra.outPend.any (fun p => p.2 = a) then regVals s k a n else vals) s

/-- A group of a frame that cut-through has delivered, its flit having passed, by whichever route (R202). -/
def cutThrough (s : State) (t g : Nat) : Bool := s.net.ct.any (fun c => c.tick = t && c.g = g && c.passed)

/-- Whether the checks of R236 discard a frame. -/
def frameBad (s : State) (p : Payload) : Bool :=
  let n := payN p 1 1
  let t := tagTick s (payN p 2 2)
  let f := payN p 8 2 % 4096
  let held (g : Nat) : Bool := match findVal s t g with | some b => b.real.isSome | none => false
  n = 0 || 14 < n || 4096 < f + n || !tagHeld s t ||
  (upTo n).any (fun i =>
    let g := f + i
    !(inGroups s).contains g || groupSrc s g != msgSrc p || (held g && !cutThrough s t g))

/-- BOUNDARY_FRAME_RX: a frame is discarded with the effects of R236, or its values are held or used (R160, R162). -/
def frameRx (chan : Nat) (p : Payload) (s : State) : State :=
  if frameBad s p then bump Reg.fabBadMsg (badMsg s)
  else
    let t := tagTick s (payN p 2 2)
    let f := payN p 8 2 % 4096
    let one (i : Nat) (s : State) : State :=
      let g := f + i
      let s := { s with ra := { s.ra with grpChan := mput s.ra.grpChan g chan } }
      if cutThrough s t g then
        { s with net := { s.net with ct := s.net.ct.filter (fun c => !(c.tick = t && c.g = g)) } }
      else takeReal t g (BitVec.ofNat 64 (payN p (16 + 8 * i) 8)) false chan s
    forEach one (upTo (payN p 1 1)) s

/-! ### Recalls (R169, R170) -/

/-- A re-evaluated output group becomes valid: a recall if it differs from the history (R169). DESIGN CHOICE (log 210): each changed group
travels in a RECALL of its own, COUNT 1. -/
def recallSend (g : Nat) (v : BitVec 64) (s : State) : State :=
  let k := s.tick.nowP1 - 1
  match s.ra.outHist.find? (fun o => o.tick = k && o.g = g) with
  | none => s
  | some o =>
    if !waveOn s || o.val = v then s
    else
      let h := s.ra.outHist.filter (fun o => !(o.tick = k && o.g = g)) ++ [{ tick := k, g := g, val := v }]
      let s := bump Reg.raRecallsSent { s with ra := { s.ra with outHist := h } }
      let d := groupDst s g
      let p := payPut (payPut (payPut (mkMsg 0x21 (k % 65536) (ownId s) d) 1 1 1) 16 2 (groupRemote s g)) 18 8 v.toNat
      sendDev 0 d p s

/-- One recall entry (R170): a consumed value that differs decides a rollback, or joins one that is decided. -/
def recallEntry (t g : Nat) (v : BitVec 64) (chan : Nat) (s : State) : State :=
  let issued := t < s.tick.nowP1
  match findVal s t g with
  | some b =>
    if b.pred.isSome && b.real.isNone then takeReal t g v true chan s
    else
      let s' := putVal { b with real := some v } s
      if !issued || !b.used || b.real = some v then bump Reg.raRecallsIgnored s'
      else decideRollback t true chan s'
  | none => bump Reg.raRecallsIgnored (putVal { tick := t, g := g, real := some v } s)

/-- A RECALL arrives (R170, R175). -/
def recallRx (chan : Nat) (p : Payload) (s : State) : State :=
  let s := bump Reg.raRecallsRcvd s
  let n := payN p 1 1
  let t := tagTick s (payN p 2 2)
  let grp (i : Nat) : Nat := payN p (16 + 10 * i) 2 % 4096
  let known (i : Nat) : Bool := (inGroups s).contains (grp i) && groupSrc s (grp i) = msgSrc p
  if n = 0 || 11 < n || !tagHeld s t || !(upTo n).all known then badMsg s
  else
    let w := s.ra.wave
    let recd := if w.busy && w.openSrc.contains (msgSrc p) then w.recd.map (min t) else w.recd
    let s := { s with ra := { s.ra with wave := { w with recd := recd } } }
    forEach (fun i s => recallEntry t (grp i) (BitVec.ofNat 64 (payN p (18 + 10 * i) 8)) chan s) (upTo n) s

/-! ### The low-water wave (R174–R177) -/

/-- Begin wave `w` (R175): record U, send MARK and WAVE_START, and wait for the sources and children. `depth` is the root's,
which WAVE_START carries (R158, R176). -/
def beginWave (w depth : Nat) (s : State) : State :=
  let a := s.ra.alone
  let s := { s with ra := { s.ra with
    gate := if s.ra.gate == .needStart then .inWave w else s.ra.gate
    wave := { cur := some w, busy := true, recd := if a then none else some (unsettled s),
              openSrc := if a then [] else bndSources s, reps := [], stale := false } } }
  let s := if a then s
    else forEach (fun d s => sendDev 0 d (payPut (mkMsg 0x22 w (ownId s) d) 14 1 (raDepth s)) s) (bndDests s) s
  forEach (fun c s => sendChan c 2 (payPut (mkMsg 0x23 w (ownId s) (neighId s c)) 14 1 depth) s) (childChans s) s

/-- How a wave message of wave `w` is taken (R177). -/
inductive WaveAct where
  | now | begins | late | bad
  deriving DecidableEq, Repr

def waveAct (s : State) (w : Nat) : WaveAct :=
  match s.ra.wave.cur with
  | none => .begins
  | some c =>
    if w = c then .now
    else if w = (c + 1) % 65536 && !s.ra.wave.busy then .begins
    else if (w + 1) % 65536 = c then .late else .bad

/-- WAVE_START (R175, R177). -/
def waveStartRx (p : Payload) (s : State) : State :=
  let w := payN p 2 2
  match waveAct s w with
  | .now => s
  | .begins => beginWave w (payN p 14 1 % 32) s
  | _ => badMsg s

/-- MARK (R175, R177): one that begins the wave also closes its source. DESIGN CHOICE (log 147): a wave that begins by a MARK
passes on the depth of the MARK's sender, since the root's has not come. -/
def markRx (p : Payload) (s : State) : State :=
  let w := payN p 2 2
  let close (s : State) : State :=
    let v := s.ra.wave
    { s with ra := { s.ra with wave := { v with openSrc := v.openSrc.filter (· != msgSrc p) } } }
  match waveAct s w with
  | .now => close s
  | .begins => close (beginWave w (payN p 14 1 % 32) s)
  | _ => badMsg s

/-- A child's WAVE_REPORT (R175, R177). -/
def waveReportRx (chan : Nat) (p : Payload) (s : State) : State :=
  if s.ra.wave.cur = some (payN p 2 2) && (childChans s).contains chan then
    let r : WaveRep := ⟨chan, bitAt p 8, payN p 8 6, payN p 14 1 % 32, payN p 15 1 % 32⟩
    let v := s.ra.wave
    { s with ra := { s.ra with wave := { v with reps := v.reps.filter (fun q => q.chan != chan) ++ [r] } } }
  else badMsg s

/-- The issue gate after the result of wave `w` (R158): an agreement on depths opens it where the wave began after the
engine was started; a disagreement closes it until a later wave, which may have begun already. -/
def gateAfter (w : Nat) (ok : Bool) (s : State) : WaveGate :=
  let now := s.ra.wave.cur == some w
  match s.ra.gate with
  | .clear => if ok then .clear else if now then .needStart else .inWave (s.ra.wave.cur.getD 0)
  | .needStart => .needStart
  | .inWave g =>
    if ok then (if now || s.ra.wave.cur != some g then .clear else .inWave g)
    else if now then .needStart else .inWave (s.ra.wave.cur.getD 0)

/-- Apply a result at a device in a fabric (R156, R158, R175). -/
def applyResult (w lP1 : Nat) (ok : Bool) (s : State) : State :=
  if s.ra.alone then s
  else
    let s := bump Reg.raWaves s
    if ok then
      let s := if 1 ≤ raDepth s && !s.ra.wave.stale then advanceL lP1 s else s
      let g := gateAfter w true s
      { s with ra := { s.ra with depthMismatch := false, gate := g, entered := s.ra.entered && g != .clear } }
    else
      let new := !s.ra.depthMismatch
      let s := { s with ra := { s.ra with depthMismatch := true, gate := gateAfter w false s } }
      if new then raiseVec 4 s else s

/-- WAVE_RESULT message (R176): L_new + 1, or 0 for NONE. -/
def resultMsg (w src dst lP1 : Nat) (ok : Bool) : Payload :=
  payPut (payPut (mkMsg 0x25 w src dst) 1 1 (b2n ok + 2 * b2n (lP1 = 0))) 8 6 (lP1 - 1)

/-- A WAVE_RESULT arrives (R175, R177): applied and forwarded. -/
def waveResultRx (p : Payload) (s : State) : State :=
  let w := payN p 2 2
  let lP1 := if bitAt p 9 then 0 else payN p 8 6 + 1
  match waveAct s w with
  | .now | .late =>
    if s.ra.wave.cur.isNone then badMsg s
    else
      let s := applyResult w lP1 (bitAt p 8) s
      forEach (fun c s => sendChan c 2 (resultMsg w (ownId s) (neighId s c) lP1 (bitAt p 8)) s) (childChans s) s
  | _ => badMsg s

/-- The minimum of own record and the reports without NONE, with the depths (R175): none if no device is in a fabric. -/
def waveSum (s : State) : Option (Nat × Nat × Nat) :=
  let reps := (s.ra.wave.reps.filter (fun r => !r.isNone)).map (fun r => (r.umin, r.dmin, r.dmax))
  let own := match s.ra.wave.recd with | some u => [(u, raDepth s, raDepth s)] | none => []
  match own ++ reps with
  | [] => none
  | a :: l => some (l.foldl (fun x y => (min x.1 y.1, min x.2.1 y.2.1, max x.2.2 y.2.2)) a)

/-- No source open and every child reported. -/
def waveReady (s : State) : Bool :=
  s.ra.wave.busy && s.ra.wave.openSrc.isEmpty &&
  (childChans s).all (fun c => s.ra.wave.reps.any (fun r => r.chan = c))

/-- WAVE_REPORT_SEND: the report to the parent, or at the root the result down the tree (R175). -/
def waveReportSend (s : State) : State :=
  if !waveReady s then s
  else
    let w := s.ra.wave.cur.getD 0
    let sum := waveSum s
    let s := { s with ra := { s.ra with wave := { s.ra.wave with busy := false } } }
    if isRoot s then
      let lP1 := match sum with | some (u, _, _) => u | none => 0
      let ok := match sum with
        | some (_, a, b) => a = b && (s.ra.alone || raDepth s = a)
        | none => true
      let s := applyResult w lP1 ok s
      forEach (fun c s => sendChan c 2 (resultMsg w (ownId s) (neighId s c) lP1 ok) s) (childChans s) s
    else
      match parentChan s with
      | none => s
      | some c =>
        let m := mkMsg 0x24 w (ownId s) (neighId s c)
        let m := match sum with
          | some (u, a, b) => payPut (payPut (payPut m 8 6 u) 14 1 a) 15 1 b
          | none => payPut m 1 1 1
        sendChan c 2 m s

/-- The root starts the next wave, the result of the last having been sent (R174). -/
def waveRootStart (s : State) : State :=
  if !isRoot s || s.ra.wave.busy then s
  else beginWave (match s.ra.wave.cur with | some c => (c + 1) % 65536 | none => 0) (raDepth s) s

/-! ### The commands -/

def execRaCfgWrite (v : Word) (s : State) : Res := .next (mgmt (raCfgWrite v) s)
def execRaPredWrite (g : Fin 4096) (v : Word) (s : State) : Res := .next (mgmt (raPredWrite g v) s)
/-- The read returns L[31:0] and latches L[47:32] (R190). -/
def execRaLwmLoRead (s : State) : Res :=
  .next (mgmtRd (fun s => setReg Reg.raLwmHi (w32 (lwm48 s / 2 ^ 32)) { s with rdata := w32 (lwm48 s) }) s)
/-- The read returns U[31:0] and latches U[47:32] (R190). -/
def execRaULoRead (s : State) : Res :=
  .next (mgmtRd (fun s => setReg Reg.raUHi (w32 (unsettled s / 2 ^ 32 % 65536)) { s with rdata := w32 (unsettled s) }) s)
def execBoundaryFrameSend (o : Fin 4096) (vals : BitVec 896) (s : State) : Res := .next (frameSend o vals s)
def execBoundaryFrameRx (chan : Fin 20) (pay : Payload) (s : State) : Res := .next (frameRx chan pay (takeMsg pay s))
def execRollbackRestore (s : State) : Res := .next (rollbackRestore s)
def execRecallSend (g : Fin 4096) (v : Dword) (s : State) : Res := .next (recallSend g v s)
def execRecallRx (chan : Fin 20) (pay : Payload) (s : State) : Res := .next (recallRx chan pay (takeMsg pay s))
def execWaveRootStart (s : State) : Res := .next (waveRootStart s)
def execWaveStartRx (_chan : Fin 20) (pay : Payload) (s : State) : Res := .next (waveStartRx pay (takeMsg pay s))
def execMarkRx (_chan : Fin 20) (pay : Payload) (s : State) : Res := .next (markRx pay (takeMsg pay s))
def execWaveReportRx (chan : Fin 20) (pay : Payload) (s : State) : Res := .next (waveReportRx chan pay (takeMsg pay s))
def execWaveReportSend (s : State) : Res := .next (waveReportSend s)
def execWaveResultRx (_chan : Fin 20) (pay : Payload) (s : State) : Res := .next (waveResultRx pay (takeMsg pay s))

end Sys2Proof.Machine
end

