-- ==== Sys2Proof/Machine/Discovery.lean ====
section
/-! DEFINITION. Discovery: election, enumeration, route computation, the discovery messages, NOTICE, and the
messages of a reroute (chapter Fabrics of Many Devices). -/

namespace Sys2Proof.Machine

/-! ### Election (R221, R223) -/

/-- FAB_CFG ROOT_ROLE of this device. -/
def rootRole (s : State) : Bool := bitAt (getReg s Reg.fabCfg) 9

/-- This device as a candidate. -/
def ownCand (s : State) : Bool × Nat := (rootRole s, Config.serial.toNat)

/-- The best candidate: role and serial. -/
def bestCand (s : State) : Bool × Nat := s.net.cand.getD (ownCand s)

/-- The better of two candidates has the lower key (R221). -/
def candBetter (a b : Bool × Nat) : Bool :=
  let k (c : Bool × Nat) : Nat := if c.1 then 0 else 1
  k a < k b || (k a = k b && a.2 < b.2)

/-- Channels in UP. -/
def upChans (s : State) : List Nat := (upTo 20).filter (fun c => (getChan s c).st == .up)

/-- The HELLO of this device for channel `c` (R226). -/
def helloMsg (s : State) (c : Nat) : Payload :=
  let b := bestCand s
  let m := payPut (mkMsg 0x30 s.net.epoch s.net.id 0x3FF) 1 1 c
  payPut (payPut (payPut m 8 1 (b2n (rootRole s) + 2 * b2n b.1)) 16 8 Config.serial.toNat) 24 8 b.2

/-- Send HELLO on a channel. -/
def sendHello (c : Nat) (s : State) : State := sendChan c 2 (helloMsg s c) s

/-- Send HELLO on every UP channel. -/
def helloAll (s : State) : State := forEach sendHello (upChans s) s

/-- The device takes part in the election: DSTATE leaves UNASSIGNED. -/
def electing (s : State) : State :=
  if s.net.dstate == .unassigned then { s with net := { s.net with dstate := .electing, quiet := false } } else s

/-- An enumeration fails (R224): nothing is applied here. -/
def enumFail (code : Nat) (s : State) : State :=
  raiseVec 7 (fabCause code { s with net := { s.net with enum := none, dstate := .failed } })

/-- HELLO_RX (R223): record the neighbour, count a conflict of roles, adopt a better candidate. DESIGN CHOICE (log 214): the two ROOT_ROLE
candidates are compared, the sender's own role is not, and every HELLO that shows a second one counts. -/
def helloRx (ch : Nat) (p : Payload) (s : State) : State :=
  let x := getChan s ch
  let s := electing (setChan ch { x with nbId := msgSrc p, nbSerial := some (payN p 16 8), nbChan := payN p 1 1 } s)
  let c : Bool × Nat := (bitAt p 65, payN p 24 8)
  let b := bestCand s
  let s := if c.1 && b.1 && c.2 != b.2 then bump Reg.fabRootConflict s else s
  if candBetter c b then
    let had := s.net.enum.isSome
    let s := { s with net := { s.net with cand := some c, quiet := false, discover := false } }
    helloAll (if had then enumFail 6 s else s)
  else s

/-! ### Routes (R231, R232) -/

/-- A cost of no path. -/
def infCost : Nat := 1048576

/-- A device of the graph: its ID, and its links as channel and neighbour ID. -/
abbrev GNode := Nat × List (Nat × Nat)

def idOf (ns : List Node) (serial : Nat) : Option Nat := (ns.find? (fun n => n.serial = serial)).map Node.id

/-- The graph of the enumerated devices. -/
def graphOf (ns : List Node) : List GNode :=
  ns.map fun n => (n.id, n.links.filterMap (fun l => (idOf ns l.serial).map (fun y => (l.chan, y))))

def costAt (m : SMap Nat) (x : Nat) : Nat := mget (fun _ => infCost) m x

/-- Dn: hops to `d` by down moves only. IDs rise with LEVEL, so a down move leads to a higher ID. -/
def dnCosts (g : List GNode) (d : Nat) : SMap Nat :=
  g.reverse.foldl (fun m n =>
    let v := if n.1 = d then 0
      else (n.2.filter (fun l => n.1 < l.2)).foldl (fun a l => min a (1 + costAt m l.2)) infCost
    mput m n.1 v) []

/-- A: hops to `d` by up moves followed by down moves. -/
def aCosts (g : List GNode) (d : Nat) : SMap Nat :=
  let dn := dnCosts g d
  g.foldl (fun m n =>
    let v := if n.1 = d then 0
      else (n.2.filter (fun l => l.2 < n.1)).foldl (fun a l => min a (1 + costAt m l.2)) (costAt dn n.1)
    mput m n.1 v) []

/-- The candidate of the lowest cost, the first of equals: channels are listed rising. -/
def bestOf : List (Nat × Nat) → Option (Nat × Nat)
  | [] => none
  | (c, k) :: l =>
    match bestOf l with
    | some (c', k') => if k' < k then some (c', k') else if k < infCost then some (c, k) else none
    | none => if k < infCost then some (c, k) else none

/-- Primary and alternate of a field pair, from plain and crossing candidates as (channel, cost). -/
def priAlt (plain cross : List (Nat × Nat)) : Option Nat × Option Nat :=
  let p := (bestOf plain).map Prod.fst
  let all := (plain.zip cross).map (fun q => (q.1.1, min q.1.2 q.2.2))
  (p, (bestOf (all.filter (fun q => some q.1 != p))).map Prod.fst)

/-- A channel field and its valid bit. -/
def chanField (c : Option Nat) : Nat := match c with | some c => c + 32 | none => 0

/-- The forwarding entry of device `n` for destination `d` (R227, R231, R232). -/
def routeOf (n : GNode) (d : Nat) (a dn : SMap Nat) : Word :=
  if n.1 = d then w32 (2 ^ 28)
  else
    let up (l : Nat × Nat) : Bool := l.2 < n.1
    let dnFree (y : Nat) : Bool := infCost ≤ costAt dn y
    let cost (k : Nat) : Nat := min infCost k
    let anyPlain := n.2.map fun l => (l.1, cost (1 + if up l then costAt a l.2 else costAt dn l.2))
    let anyCross := n.2.map fun l => (l.1, if !up l && dnFree l.2 then cost (1 + costAt a l.2) else infCost)
    let downPlain := n.2.map fun l => (l.1, if up l then infCost else cost (1 + costAt dn l.2))
    let downCross := n.2.map fun l => (l.1, if up l || dnFree l.2 then cost (1 + costAt a l.2) else infCost)
    let (ap, aa) := priAlt anyPlain anyCross
    let (dp, da) := priAlt downPlain downCross
    w32 (chanField ap + chanField aa * 2 ^ 6 + chanField dp * 2 ^ 12 + chanField da * 2 ^ 18)

/-- The table of device `x`: one entry for each enumerated ID, in rising order. -/
def tableOf (ns : List Node) (x : Nat) : List Word :=
  let g := graphOf ns
  match g.find? (fun n => n.1 = x) with
  | none => []
  | some n => ns.map fun d => routeOf n d.id (aCosts g d.id) (dnCosts g d.id)

/-- UP_MASK: the channels whose neighbour ranks lower (R222). -/
def upMaskOf (ns : List Node) (x : Nat) : Nat :=
  match (graphOf ns).find? (fun n => n.1 = x) with
  | none => 0
  | some n => n.2.foldl (fun a l => if l.2 < x then a ||| 2 ^ l.1 else a) 0

/-- CHILDREN: the channels of `x` on which its children were assigned. -/
def childrenOf (ns : List Node) (x : Nat) : Nat :=
  (ns.filter (fun n => n.id != 0 && n.parent = x)).foldl (fun a n => a ||| 2 ^ (n.route.getLastD 0)) 0

/-! ### Discovery messages (R226) -/

/-- Write a list of bytes from byte `i`. -/
def putBytes (p : Payload) (i : Nat) : List Nat → Payload
  | [] => p
  | b :: l => putBytes (payPut p i 1 b) (i + 1) l

/-- A QUERY from the root: OP 0 ASSIGN or 1 COMMIT. -/
def queryMsg (epoch : Nat) (n : Node) (op : Nat) : Payload :=
  let m := payPut (mkMsg 0x31 epoch 0 0x3FE) 1 1 n.route.length
  let m := payPut (payPut m 9 1 op) 10 2 n.id
  putBytes (payPut (payPut m 16 8 Config.serial.toNat) 24 8 n.serial) 32 n.route

/-- A COMMIT with its masks. -/
def commitMsg (epoch : Nat) (ns : List Node) (n : Node) : Payload :=
  payPut (payPut (payPut (queryMsg epoch n 1) 96 4 (childrenOf ns n.id)) 100 4 (upMaskOf ns n.id)) 104 1 n.level

/-- One ROUTES message: `es` are the entries from destination `first`. -/
def routesMsg (epoch : Nat) (route : List Nat) (first : Nat) (es : List Word) : Payload :=
  let m := payPut (mkMsg 0x33 epoch 0 0x3FE) 1 1 route.length
  let m := putBytes (payPut (payPut m 9 1 es.length) 10 2 first) 16 route
  (es.foldl (fun a e => (payPut a.1 a.2 4 e.toNat, a.2 + 4)) (m, 48)).1

/-- Split a table into runs of at most 20 entries. -/
def chunks (n : Nat) (first : Nat) (es : List Word) : List (Nat × List Word) :=
  match n with
  | 0 => []
  | k + 1 => if es.isEmpty then [] else (first, es.take 20) :: chunks k (first + 20) (es.drop 20)

/-- This device's links: UP channels whose neighbour is known. -/
def ownLinks (s : State) : List Link :=
  (upChans s).filterMap fun c =>
    let x := getChan s c
    x.nbSerial.map (fun n => ⟨c, n, x.nbChan⟩)

/-- LNK_STAT STATE of a channel state (R218). -/
def stateCode (c : ChanState) : Nat :=
  match c with
  | .disabled => 0 | .waiting => 1 | .training => 2 | .up => 3 | .retraining => 4 | .failed => 5

/-- A REPLY page (R226). -/
def replyMsg (s : State) (epoch src hops page flags : Nat) : Payload :=
  let m := payPut (mkMsg 0x32 epoch src 0) 1 1 hops
  let m := payPut (payPut (payPut (payPut m 8 1 (hops - 1)) 9 1 flags) 10 1 page) 16 8 Config.serial.toNat
  (upTo 10).foldl (fun m j =>
    let x := getChan s (10 * page + j)
    let o := 24 + 10 * j
    payPut (payPut (payPut m o 8 (x.nbSerial.getD 0)) (o + 8) 1 (if x.st == .up then x.nbChan else 0xFF)) (o + 9) 1
      (stateCode x.st)) m

/-- The links a REPLY page names as UP. -/
def replyLinks (p : Payload) : List Link :=
  let page := payN p 10 1
  (upTo 10).filterMap fun j =>
    let o := 24 + 10 * j
    if payN p (o + 8) 1 != 0xFF && payN p (o + 9) 1 = 3 then
      some ⟨10 * page + j, payN p o 8, payN p (o + 8) 1⟩ else none

/-! ### Enumeration at the root (R224) -/

/-- The links of node `i`: this device's own for the root. -/
def nodeLinks (s : State) (n : Node) : List Link := if n.id = 0 then ownLinks s else n.links

/-- The next link, in order, that leads to a device without an ID. -/
def nextScan (s : State) (e : Enum) : Option (Nat × Node × Link) :=
  let at_ (i : Nat) (n : Node) : List (Nat × Node × Link) :=
    (nodeLinks s n).filterMap fun l =>
      if (e.node < i || (e.node = i && e.chan ≤ l.chan)) && (idOf e.nodes l.serial).isNone then some (i, n, l) else none
  ((upTo e.nodes.length).flatMap (fun i => match e.nodes[i]? with | some n => at_ i n | none => [])).head?

def setEnum (e : Enum) (s : State) : State := { s with net := { s.net with enum := some e } }

/-- Send what installs the tables of `n`: ROUTES, then COMMIT. -/
def sendCommit (e : Enum) (n : Node) (s : State) : State :=
  let c := n.route.headD 0
  let s := forEach (fun (k : Nat × List Word) s => sendChan c 2 (routesMsg s.net.epoch n.route k.1 k.2) s)
    (chunks 64 0 (tableOf e.nodes n.id)) s
  sendChan c 2 (commitMsg s.net.epoch e.nodes n) s

/-- What a commit leaves at any device (R225, R239, R243). -/
def committed (id epoch level up children : Nat) (parent : Option Nat) (s : State) : State :=
  let s := { s with net := { s.net with id := id, epoch := epoch, commitEpoch := epoch, level := level,
                                        upMask := BitVec.ofNat 20 up, children := BitVec.ofNat 20 children,
                                        parent := parent, pend := none, committed := true,
                                        dstate := .ready, peerHalt := false } }
  raiseVec 7 (fabCause 0 (bump Reg.fabDiscoveries (newTables s)))

/-- The last step of an enumeration: the root applies its own tables and masks. -/
def applyOwn (e : Enum) (s : State) : State :=
  let t := tableOf e.nodes 0
  let s := if bitAt (getReg s Reg.fabCfg) 8 then s else installTable (fun d => t.getD d 0) s
  let s := { s with net := { s.net with enum := none, topo := e.nodes } }
  helloAll (committed 0 s.net.epoch 0 (upMaskOf e.nodes 0) (childrenOf e.nodes 0) none s)

/-- Go on to the COMMIT of the next device after `id`, or to the root's own tables. -/
def nextCommit (e : Enum) (id : Nat) (s : State) : State :=
  match e.nodes.find? (fun n => n.id = id + 1) with
  | some n => sendCommit e n (setEnum { e with wait := .commit n.id, tries := 0 } s)
  | none => applyOwn e s

/-- Go on scanning: assign the next device an ID, or go on to the commits. -/
def scanOn (e : Enum) (s : State) : State :=
  match nextScan s e with
  | none =>
    let nodes := e.nodes.map (fun n => if n.id = 0 then { n with links := ownLinks s } else n)
    nextCommit { e with nodes := nodes } 0 s
  | some (i, x, l) =>
    let r := x.route ++ [l.chan]
    let id := e.nodes.length
    if 0x3FD < id then enumFail 1 s
    else if 32 < r.length then enumFail 2 s
    else
      let n : Node := { serial := l.serial, id := id, parent := x.id, level := x.level + 1, route := r }
      let e := { e with nodes := e.nodes ++ [n], node := i, chan := l.chan + 1, wait := .assign id 0, tries := 0 }
      sendChan (r.headD 0) 2 (queryMsg s.net.epoch n 0) (setEnum e s)

/-- Begin an enumeration (R224). -/
def beginEnum (s : State) : State :=
  let ep := (s.net.epoch + 1) % 65536
  let me : Node := { serial := Config.serial.toNat, id := 0, parent := 0, level := 0, route := [] }
  scanOn { nodes := [me], wait := .assign 0 0 }
    { s with net := { s.net with epoch := ep, discover := false, dstate := .enumerating } }

/-- The root starts if the quiet time has passed and one of the conditions of R223 holds. -/
def tryEnum (s : State) : State :=
  let auto := bitAt (getReg s Reg.fabCfg) 0 && !s.net.committed && s.net.dstate != .unassigned
  if s.net.cand.isNone && s.net.enum.isNone && s.net.quiet && (auto || s.net.discover) then beginEnum s else s

/-- FAB_CTL DISCOVER (R223). -/
def discoverCmd (s : State) : State :=
  if s.net.cand.isSome then fabCause 5 s
  else tryEnum { s with net := { s.net with discover := true } }

/-- FAB_QUERY_TO expires: send again, up to three times, or fail (R224). -/
def queryTimeout (s : State) : State :=
  match s.net.enum with
  | none => s
  | some e =>
    if 3 ≤ e.tries then enumFail 3 s
    else
      let s := setEnum { e with tries := e.tries + 1 } s
      match e.wait with
      | .assign id _ =>
        (match e.nodes.find? (fun n => n.id = id) with
         | some n => sendChan (n.route.headD 0) 2 (queryMsg s.net.epoch n 0) s
         | none => s)
      | .commit id =>
        (match e.nodes.find? (fun n => n.id = id) with | some n => sendCommit e n s | none => s)

/-- A REPLY reaches the root (R224). -/
def rootReply (p : Payload) (s : State) : State :=
  match s.net.enum with
  | none => s
  | some e =>
    if payN p 2 2 != s.net.epoch then s
    else match e.wait with
      | .assign id pages =>
        if bitAt p 72 then enumFail 4 s
        else if msgSrc p != id || 1 < payN p 10 1 then s
        else
          let pg := payN p 10 1
          let new := replyLinks p
          let upd (n : Node) : Node :=
            if n.id = id then
              let rest := n.links.filter (fun l => l.chan / 10 != pg)
              { n with links := if pg = 0 then new ++ rest else rest ++ new }
            else n
          let pages := pages ||| 2 ^ pg
          let e := { e with nodes := e.nodes.map upd, wait := .assign id pages }
          if pages = 3 then scanOn e s else setEnum e s
      | .commit id => if msgSrc p = id && bitAt p 74 then nextCommit e id s else s

/-- REPLY_RX: relayed toward the root, or taken there (R225). -/
def replyRx (p : Payload) (s : State) : State :=
  let pos := payN p 8 1
  if pos = 0 then rootReply p s
  else
    match mget (fun _ => (none : Option Nat)) (s.net.relayRet.map (fun q => (q.1, some q.2))) (pos - 1) with
    | some c => sendChan c 2 (payPut p 8 1 (pos - 1)) s
    | none => bump Reg.fabBadMsg s

/-! ### Discovery messages at a target (R225) -/

/-- The pending ID and the shadow table are dropped. -/
def dropPend (s : State) : State :=
  if s.net.pend.isSome then
    { s with net := { s.net with pend := none, shadow := [],
                                 dstate := if s.net.committed then .ready else .electing } }
  else s

/-- Epoch `a` is newer than `b`. -/
def newerEpoch (a b : Nat) : Bool := 0 < (a + 65536 - b) % 65536 && (a + 65536 - b) % 65536 < 32768

/-- A QUERY of a newer epoch drops the pending state. -/
def queryEpoch (p : Payload) (s : State) : State :=
  match s.net.pend with
  | some (_, ep) => if newerEpoch (payN p 2 2) ep then dropPend s else s
  | none => s

/-- A device that runs, or has an uncommitted tick, answers BUSY (R225). -/
def assignBusy (s : State) : Bool :=
  s.tick.st == .run || s.tick.st == .paced || s.tick.st == .fault || uncommitted s

/-- A QUERY on its way: step it on, recording the return channel; true once this device is its target. DESIGN CHOICE (log 215): a channel
code in FWD or RET is taken modulo 32, a reserved one too. -/
def stepQuery (ch : Nat) (p : Payload) (s : State) : Bool × Payload × State :=
  let hops := payN p 1 1
  let pos := payN p 8 1
  if hops ≤ pos then (true, p, s)
  else
    let p := payPut (payPut p (64 + pos) 1 ch) 8 1 (pos + 1)
    if pos + 1 < hops then
      (false, p, sendChan (payN p (32 + pos + 1) 1 % 32) 2 p
        { s with net := { s.net with relayRet := mput s.net.relayRet pos ch } })
    else (true, p, s)

/-- The checks of a QUERY at its target. -/
def queryBad (p : Payload) (s : State) : Bool :=
  payN p 24 8 != Config.serial.toNat || payN p 16 8 != (bestCand s).2

def badHops (p : Payload) : Bool := payN p 1 1 = 0 || 32 < payN p 1 1

/-- QUERY ASSIGN (R225). DESIGN CHOICE (log 212): a BUSY REPLY carries the device's present ID as SRC. -/
def queryAssignRx (ch : Nat) (p : Payload) (s : State) : State :=
  if badHops p then bump Reg.fabBadMsg s
  else
    let (mine, p, s) := stepQuery ch p (queryEpoch p s)
    if !mine then s
    else if queryBad p s then bump Reg.fabBadMsg s
    else
      let hops := payN p 1 1
      let id := payN p 10 2 % 1024
      let ep := payN p 2 2
      let busy := assignBusy s
      let s := if busy then dropPend s
        else { s with net := { s.net with pend := some (id, ep), shadow := [], dstate := .pending } }
      let flags := b2n busy + 2 * b2n (rootRole s)
      let r := payN p (64 + hops - 1) 1 % 32
      let src := if busy then s.net.id else id
      sendChan r 2 (replyMsg s ep src hops 1 flags) (sendChan r 2 (replyMsg s ep src hops 0 flags) s)

/-- QUERY COMMIT (R225, R233). -/
def queryCommitRx (ch : Nat) (p : Payload) (s : State) : State :=
  if badHops p then bump Reg.fabBadMsg s
  else
    let (mine, p, s) := stepQuery ch p (queryEpoch p s)
    if !mine then s
    else if queryBad p s then bump Reg.fabBadMsg s
    else match s.net.pend with
      | none => bump Reg.fabBadMsg s
      | some (id, ep) =>
        if ep != payN p 2 2 then bump Reg.fabBadMsg s
        else
          let hops := payN p 1 1
          let r := payN p (64 + hops - 1) 1 % 32
          let sh := s.net.shadow
          let s := if bitAt (getReg s Reg.fabCfg) 8 then s else installTable (mget (fun _ => 0) sh) s
          let s := committed id ep (payN p 104 1) (payN p 100 4) (payN p 96 4) (some r) s
          helloAll (sendChan r 2 (replyMsg s ep id hops 0 (4 + 2 * b2n (rootRole s))) s)

/-- ROUTES (R225, R233). -/
def routesRx (p : Payload) (s : State) : State :=
  let hops := payN p 1 1
  let pos := payN p 8 1
  if badHops p then bump Reg.fabBadMsg s
  else if pos + 1 < hops then
    sendChan (payN p (16 + pos + 1) 1 % 32) 2 (payPut p 8 1 (pos + 1)) s
  else
    let n := payN p 9 1
    let f := payN p 10 2 % 1024
    match s.net.pend with
    | none => bump Reg.fabBadMsg s
    | some (_, ep) =>
      if ep != payN p 2 2 || n = 0 || 20 < n || 1024 < f + n then bump Reg.fabBadMsg s
      else if bitAt (getReg s Reg.fabCfg) 8 then s
      else
        let sh := (upTo n).foldl (fun m i => mset (fun _ => 0) m (f + i) (w32 (payN p (48 + 4 * i) 4))) s.net.shadow
        { s with net := { s.net with shadow := sh } }

/-! ### NOTICE and the messages of a reroute (R237–R240) -/

/-- NOTICE (R230, R239). -/
def noticeRx (ch : Nat) (p : Payload) (s : State) : State :=
  let s := spreadNotice p (some ch) s
  let src := payN p 8 2 % 1024
  let dst := payN p 10 2 % 1024
  if src = ownId s || dst = ownId s then haltNoRoute s
  else
    let was := s.net.peerHalt
    let s := { s with net := { s.net with peerHalt := true } }
    if was then s else raiseVec 6 s

/-- A FENCE as a flit arriving on channel `c` would be routed (R237). -/
def sendFence (c d cls : Nat) (e : Reroute) (s : State) : State :=
  let m := payPut (payPut (payPut (mkMsg 0x26 e.num (ownId s) d) 1 1 cls) 8 2 e.peer) 10 1 c
  let f : Flit := { vl := 0, dl := cls, arr := some c, pay := m }
  match nextHop s (routeEntry s (some c) d) (arrivedDown s (some c)) with
  | some q => turnAndSend q f s
  | none => holdFlit { f := f, noRoute := true } s

/-- Flits received on channel `c` that have neither left nor been delivered. -/
def flitsFrom (s : State) (c : Nat) : Bool :=
  let mine (f : Flit) : Bool := f.slot && f.arr == some c
  s.chans.any (fun p => p.2.outq.any (fun o => mine o.f)) || s.net.held.any (fun h => mine h.f)

/-- FENCE_SEND: LINK_DOWN to the far end and both FENCEs to every other assigned device (R237 step 2). -/
def fenceSend (c : Nat) (s : State) : State :=
  let x := getChan s c
  match x.ev with
  | none => s
  | some e =>
    if e.fenceSent || flitsFrom s c then s
    else
      let s := setChan c { x with ev := some { e with fenceSent := true } } s
      let ld := payPut (payPut (mkMsg 0x34 e.num (ownId s) e.peer) 1 1 c) 8 2 x.nextRx
      let s := sendDev 2 e.peer ld s
      let ds := (assignedIds s).filter (fun d => d != ownId s && d != e.peer)
      settleEvents (forEach (fun d s => sendFence c d 1 e (sendFence c d 0 e s)) ds s)

/-- The channel of this device whose far end is channel `k` of device `n`. -/
def chanTo (s : State) (n k : Nat) : Option Nat :=
  (upTo 20).find? (fun c => (getChan s c).nbId = n && (getChan s c).nbChan = k)

/-- Channel `c` carries flits: a LINK_DOWN that comes with no event open is then of an event not begun here yet, and else of one
that has closed (R237; DESIGN CHOICE, log 206). -/
def chanIn (s : State) (c : Nat) : Bool := (getChan s c).st == .up || (getChan s c).st == .retraining

/-- LINK_DOWN (R237 step 4). -/
def linkDownRx (p : Payload) (s : State) : State :=
  match chanTo s (msgSrc p) (payN p 1 1) with
  | none => bump Reg.fabBadMsg s
  | some c =>
    let n := payN p 8 2 % 1024
    let x := getChan s c
    match x.ev with
    | none => if chanIn s c then setChan c { x with downEarly := some (n, payN p 2 2) } s else s
    | some e =>
      if e.down.isSome then (if chanIn s c then setChan c { x with downEarly := some (n, payN p 2 2) } s else s)
      else
      let gone (h : HeldFlit) : Bool := match h.from_ with | some (k, q) => k = c && seqBefore q n | none => false
      let s := { s with net := { s.net with held := s.net.held.filter (fun h => !gone h) } }
      settleEvents (setChan c { x with ev := some { e with down := some (n, payN p 2 2) } } s)

/-- FENCE at a destination: FENCE_DONE once both classes are in (R237 step 3). -/
def fenceRx (p : Payload) (s : State) : State :=
  let n := msgSrc p
  let ch := payN p 10 1
  let ev := payN p 2 2
  let cls := payN p 1 1
  let same (f : FenceSeen) : Bool := f.n = n && f.chan = ch && f.num = ev
  if s.net.fences.any (fun f => same f && f.cls != cls) then
    let s := { s with net := { s.net with fences := s.net.fences.filter (fun f => !same f) } }
    let peer := payN p 8 2 % 1024
    sendDev 2 peer (payPut (payPut (mkMsg 0x35 ev (ownId s) peer) 8 2 n) 10 1 ch) s
  else if s.net.fences.any same then s
  else { s with net := { s.net with fences := s.net.fences ++ [⟨n, ch, ev, cls⟩] } }

/-- FENCE_DONE (R237 step 4). -/
def fenceDoneRx (p : Payload) (s : State) : State :=
  match chanTo s (payN p 8 2 % 1024) (payN p 10 1) with
  | none => bump Reg.fabBadMsg s
  | some c =>
    let x := getChan s c
    match x.ev with
    | none => setChan c { x with doneEarly := x.doneEarly ++ [(msgSrc p, payN p 2 2)] } s
    | some e => settleEvents (setChan c { x with ev := some { e with done := e.done ++ [(msgSrc p, payN p 2 2)] } } s)

/-- FAB_FENCE_TO expires while channel `c`'s reroute still holds destinations (R239, R240). -/
def fenceTimeout (c : Nat) (s : State) : State :=
  let x := getChan s c
  match x.ev with
  | none => s
  | some e =>
    if getReg s Reg.fabFenceTo = 0 || e.dests.isEmpty || e.expired then s
    else
      let s := fabCause 8 (setChan c { x with ev := some { e with expired := true } } s)
      let mine (h : HeldFlit) : Bool := !h.noRoute && e.dests.contains (msgDst h.f.pay)
      let late := s.net.held.filter mine
      let s := { s with net := { s.net with held := s.net.held.filter (fun h => !mine h) } }
      let was := s.net.noRoute
      let s := { s with net := { s.net with noRoute := true } }
      let s := if was then s else raiseVec 5 s
      forEach (fun (h : HeldFlit) s =>
        if isRequest h.f then holdNoRoute 8 h.f s else nameFlow 8 h.f s (holdFlit { h with noRoute := true } s)) late s

/-! ### The commands -/

def execHelloRx (chan : Fin 20) (pay : Payload) (s : State) : Res := .next (helloRx chan pay (takeMsg pay s))
def execElectionQuietExpire (s : State) : Res := .next (tryEnum { s with net := { s.net with quiet := true } })
def execFabCmdDiscover (s : State) : Res := .next (mgmt (discoverCmd) s)
/-- A reserved FAB_CTL code is refused (R243). -/
def execFabCmdReserved (_cmd : BitVec 4) (s : State) : Res := .next (mgmt (fun s => fabCause 0x20 (bump Reg.fabRangeCount s)) s)
def execQueryAssignRx (chan : Fin 20) (pay : Payload) (s : State) : Res :=
  .next (queryAssignRx chan pay (takeMsg pay s))
def execQueryCommitRx (chan : Fin 20) (pay : Payload) (s : State) : Res :=
  .next (queryCommitRx chan pay (takeMsg pay s))
def execReplyRx (_chan : Fin 20) (pay : Payload) (s : State) : Res := .next (replyRx pay (takeMsg pay s))
def execRoutesRx (_chan : Fin 20) (pay : Payload) (s : State) : Res := .next (routesRx pay (takeMsg pay s))
def execQueryTimeout (s : State) : Res := .next (queryTimeout s)
def execPendingIdTimeout (s : State) : Res := .next (dropPend s)
def execNoticeRx (chan : Fin 20) (pay : Payload) (s : State) : Res := .next (noticeRx chan pay (takeMsg pay s))
def execFenceSend (chan : Fin 20) (s : State) : Res := .next (fenceSend chan s)
def execLinkDownRx (_chan : Fin 20) (pay : Payload) (s : State) : Res := .next (linkDownRx pay (takeMsg pay s))
def execFenceRx (_chan : Fin 20) (pay : Payload) (s : State) : Res := .next (fenceRx pay (takeMsg pay s))
def execFenceDoneRx (_chan : Fin 20) (pay : Payload) (s : State) : Res := .next (fenceDoneRx pay (takeMsg pay s))
def execFenceTimeout (chan : Fin 20) (s : State) : Res := .next (fenceTimeout chan s)

end Sys2Proof.Machine
end

