-- ==== Sys2Proof/Machine/Flags.lean ====
section
/-! DEFINITION. The FLAGS of an eddy: how each kind of operation sets N, Z, C and V, and the conditions of BC
(R358, R360). -/

namespace Sys2Proof.Machine

/-- FLAGS from a result, C and V: N is bit 63, Z says the result is 0 (R358). -/
def mkFlags (r : BitVec 64) (c v : Bool) : BitVec 4 :=
  BitVec.ofNat 4 (b2n r.msb + 2 * b2n (r == 0) + 4 * b2n c + 8 * b2n v)

def flagN (f : BitVec 4) : Bool := bitAt f 0
def flagZ (f : BitVec 4) : Bool := bitAt f 1
def flagC (f : BitVec 4) : Bool := bitAt f 2
def flagV (f : BitVec 4) : Bool := bitAt f 3

/-- Whether a signed value leaves the 64-bit range. -/
def outOfRange (i : Int) : Bool := decide (i < -(2 ^ 63 : Int)) || decide ((2 ^ 63 : Int) ≤ i)

/-- The sum with a carry in: result, carry out of bit 63, signed overflow (R358). -/
def addc (a b : BitVec 64) (c : Bool) : BitVec 64 × Bool × Bool :=
  let n := a.toNat + b.toNat + b2n c
  (BitVec.ofNat 64 n, decide (2 ^ 64 ≤ n), outOfRange (a.toInt + b.toInt + (b2n c : Nat)))

/-- The difference with a borrow in: result, borrow, signed overflow (R358). -/
def subb (a b : BitVec 64) (c : Bool) : BitVec 64 × Bool × Bool :=
  (a - b - BitVec.ofNat 64 (b2n c), decide (a.toNat < b.toNat + b2n c), outOfRange (a.toInt - b.toInt - (b2n c : Nat)))

/-- FLAGS of an addition or a subtraction. -/
def flags3 (r : BitVec 64 × Bool × Bool) : BitVec 4 := mkFlags r.1 r.2.1 r.2.2

/-- Kinds of shift. -/
inductive Shift where
  | sll | srl | sra
  deriving DecidableEq, Repr

/-- A shift by a count below 64. -/
def shiftRes (k : Shift) (a : BitVec 64) (n : Nat) : BitVec 64 :=
  match k with | .sll => a <<< n | .srl => a >>> n | .sra => a.sshiftRight n

/-- The last bit shifted out, 0 for a count of 0 (R358). -/
def shiftOut (k : Shift) (a : BitVec 64) (n : Nat) : Bool :=
  if n = 0 then false else match k with | .sll => bitAt a (64 - n) | _ => bitAt a (n - 1)

/-- FLAGS of a shift. -/
def flagsShift (k : Shift) (a : BitVec 64) (n : Nat) : BitVec 4 := mkFlags (shiftRes k a n) (shiftOut k a n) false

/-- FLAGS of every other operation. -/
def flagsLogic (r : BitVec 64) : BitVec 4 := mkFlags r false false

/-- The conditions of BC (R360); code 15 is reserved. -/
def condHolds (c : Nat) (f : BitVec 4) : Bool :=
  let n := flagN f
  let z := flagZ f
  let cy := flagC f
  let v := flagV f
  let base := match c / 2 with
    | 0 => z | 1 => n != v | 2 => z || n != v | 3 => cy | 4 => cy || z | 5 => n | 6 => v | _ => true
  if c % 2 = 0 then base else !base

end Sys2Proof.Machine
end

