-- ==== Sys2Proof/Machine/Operands.lean ====
section
/-! DEFINITION. Eddy instruction words: the encoding formats (R355, R356), and which words are assigned (R354). -/

namespace Sys2Proof.Machine

/-! ### Formats (R355) -/

/-- Format R. -/
def encR (op rd ra rb f func : Nat) : Word := w32 (op * 2 ^ 26 + rd * 2 ^ 21 + ra * 2 ^ 16 + rb * 2 ^ 11 + f * 2 ^ 10 + func)
/-- Format I. -/
def encI (op rd ra imm : Nat) : Word := w32 (op * 2 ^ 26 + rd * 2 ^ 21 + ra * 2 ^ 16 + imm)
/-- Format B. -/
def encB (op cond off : Nat) : Word := w32 (op * 2 ^ 26 + cond * 2 ^ 22 + off)
/-- Format J. -/
def encJ (op off : Nat) : Word := w32 (op * 2 ^ 26 + off)
/-- Format Q. -/
def encQ (op rd rs l site : Nat) : Word := w32 (op * 2 ^ 26 + rd * 2 ^ 21 + rs * 2 ^ 16 + l * 2 ^ 8 + site)
/-- Format P. -/
def encP (op rd ra h off : Nat) : Word := w32 (op * 2 ^ 26 + rd * 2 ^ 21 + ra * 2 ^ 16 + h * 2 ^ 13 + off)
/-- Format A. -/
def encA (op rd ra rb h afn : Nat) : Word := w32 (op * 2 ^ 26 + rd * 2 ^ 21 + ra * 2 ^ 16 + rb * 2 ^ 11 + h * 2 ^ 8 + afn)

def opOf (w : Word) : Nat := fld w 26 6
def rdOf (w : Word) : Nat := fld w 21 5
def raOf (w : Word) : Nat := fld w 16 5
def rbOf (w : Word) : Nat := fld w 11 5
def immOf (w : Word) : Nat := fld w 0 16

/-- Whether a word is an assigned encoding: its OP, FUNC, AFN and condition are assigned and every field marked 0 is 0
(R354, R356). -/
def legalWord (w : Word) : Bool :=
  let op := opOf w
  let rd := rdOf w
  let ra := raOf w
  let rb := rbOf w
  let f := fld w 10 1
  let fn := fld w 0 10
  let imm := immOf w
  if op = 0 then decide (fn ≤ 13) || (decide (fn ≤ 15) && rb == 0)
  else if op ≤ 4 then true
  else if op ≤ 7 then decide (imm < 64)
  else if op = 8 then decide (ra < 4)
  else if op ≤ 10 then true
  else if op = 11 then rd == 0
  else if op = 0x10 then decide (fld w 22 4 ≤ 14)
  else if op = 0x11 || op = 0x12 then true
  else if op = 0x13 || op = 0x14 then rd == 0
  else if 0x18 ≤ op && op ≤ 0x1F then true
  else if op = 0x20 || op = 0x21 then fld w 9 7 == 0
  else if op = 0x22 then fld w 8 8 == 0
  else if op = 0x23 || op = 0x24 then fld w 8 8 == 0 && ra == 0
  else if op = 0x28 || op = 0x29 then true
  else if op = 0x2A then fld w 4 4 == 0 && decide (fld w 0 4 ≤ 5)
  else if op = 0x2B then ra == 0 && decide (imm < 32)
  else if op = 0x30 then decide (rd ≤ 29) && ra == 0 && decide (imm < 2)
  else if op = 0x31 then rd == 0 && f == 0 && fn == 0
  else if op = 0x3E then ra == 0 && decide (imm < 4)
  else if op = 0x3F then
    f == 0 &&
    (if fn = 0 || fn = 4 || fn = 5 || fn = 6 then rd == 0 && ra == 0 && rb == 0
     else if fn = 1 then decide (ra < 16) && rb == 0
     else if fn = 2 then decide (rd < 16) && ra == 0
     else if fn = 3 then rd == 0 && ra == 0
     else false)
  else false

end Sys2Proof.Machine
end

