-- ==== Sys2Proof/Machine/Leases.lean ====
section
/-! DEFINITION. Leases of background test: whether a resource is leased, and revoking a lease (R476). -/

namespace Sys2Proof.Machine

/-- Whether background test holds the resource. -/
def leased (s : State) (r : LeaseRes) : Bool := s.bg.leases.any (fun p => p.2 = r)

/-- A service request revokes a lease: the test stops, the resource is restored, TEST_BG_PREEMPT adds 1 and the
latest code is TEST_PREEMPTED (R476, R486). -/
def revoke (r : LeaseRes) (s : State) : State :=
  if leased s r then
    setReg Reg.testResult 1 (bump Reg.testBgPreempt
      { s with bg := { s.bg with leases := s.bg.leases.filter (fun p => p.2 != r) } })
  else s

end Sys2Proof.Machine
end

