-- ==== Sys2Proof/Machine/QueueCmds.lean ====
section
/-! DEFINITION. The commands of weir queues and of their crossings (chapters Weir Queues; Crossing Between
Clockless and Clocked Logic). -/

namespace Sys2Proof.Machine

/-! ### Sides of pool port interfaces (R285–R288, R322) -/

/-- The port's crossing is CONNECTED on both sides. -/
def portLinked (x : Port) : Bool := x.wr.st == .connected && x.rd.st == .connected

/-- A side of a pool port leaves reset (R287). DESIGN CHOICE (log 140): a port marked failed is isolated, as a queue site is. -/
def portRelease (p : Nat) (rd : Bool) (s : State) : State :=
  let x := getPort s p
  let me := if rd then x.rd else x.wr
  if !me.inReset || (rd && x.resetAsked) || !bitAt (getReg s (Reg.ppCfg p)) 0 || !clockedUp s || portFailed s p then s
  else if rd then
    let r := sideRelease x.rd x.wr
    setPort p { x with rd := r.1, wr := r.2 } s
  else
    let r := sideRelease x.wr x.rd
    setPort p { x with wr := r.1, rd := r.2 } s

/-- A message of the epoch exchange reaches a side of a pool port (R287); RESETTING ends at CONNECTED (R322). -/
def portMsg (p : Nat) (rd ack : Bool) (s : State) : State :=
  let x := getPort s p
  let was := if rd then x.rd.st else x.wr.st
  let (ok, stale, me, ot) := if rd then sideTake ack x.rd x.wr else sideTake ack x.wr x.rd
  if !ok then s
  else
    let x := if rd then { x with rd := me, wr := ot } else { x with wr := me, rd := ot }
    let x := if portLinked x && !x.resetAsked then { x with resetting := false } else x
    let s := setPort p x s
    let s := if stale then bump (Reg.xingStale (p / 32)) s else s
    if was != me.st then bump (Reg.xingReconnect (p / 32)) s else s

/-- A reset of one side of a pool port reaches the other, which sets its sticky PEER_RESET (R286). -/
def portPeerReset (p : Nat) (atRead : Bool) (s : State) : State :=
  let x := getPort s p
  if atRead then if x.rd.peerRst then setPort p { x with rd := x.rd.peerSeen, peerRd := true } s else s
  else if x.wr.peerRst then setPort p { x with wr := x.wr.peerSeen, peerWr := true } s else s

/-! ### QCFG at run time (R272) -/

/-- The cause a run-time QCFG write is refused for, 0 where it is taken (R272). -/
def qcfgRefusal (s : State) (q : Nat) (v : Word) : Nat :=
  let w := qCfg s q
  let v := v &&& 0xFFFF1F#32
  if (claimOwner s 4 q).isSome then 0x21
  else if qEn w && v != (w &&& 0xFFFFFFFE#32) then 5
  else if 4 < qSizeCode v then 0x20
  else if fld v 8 2 = 1 || fld v 10 2 = 1 then 6
  else if qEn v && (fld v 8 2 = 0 || fld v 10 2 = 0 || (!qInd v && (fld v 8 2 = 3 || fld v 10 2 = 3))) then 6
  else 0

/-- A queue's pointers as a smaller configuration reads them. -/
def fitPtrs (w : Word) (x : Queue) : Queue :=
  let m := 2 * qN w
  { x with wp := x.wp % m, rp := x.rp % m, pwp := x.pwp % m, rpW := x.rpW % m, pwpR := x.pwpR % m }

/-- Store a QCFG value; clearing EN resets both sides (R272). -/
def setQcfg (q : Nat) (v : Word) (s : State) : State :=
  let w := qCfg s q
  let s := if qEn w && !qEn v then rdReset q (wrReset q s) else s
  let s := setReg (Reg.qcfg q) v s
  setQ q (fitPtrs v (getQ s q)) s

/-- QCFG_WRITE (R272): it revokes a lease of the site (R476). -/
def qcfgWrite (q : Nat) (v : Word) (s : State) : State :=
  let s := revoke (.queue q) s
  let c := qcfgRefusal s q v
  if c = 0 then qResult q 0 (setQcfg q (v &&& 0xFFFF1F#32) s)
  else if c = 0x20 then qResult q c (bump (Reg.qRangeCount q) s)
  else qResult q c s

/-- STALE_TIMEOUT (R267). -/
def staleTimeout (q : Nat) (s : State) : State :=
  let w := qCfg s q
  let x := getQ s q
  if qLarge w || fld (getReg s (Reg.qtimer q)) 0 16 = 0 || !qEn w || !x.itemOpen || !qEmpty w x || x.staleFired then s
  else qEvent q 0x20 (bump (Reg.qStale q) (setQ q { x with staleFired := true } s))

/-- A write of QTIMER: a LEVEL above N − 1 is refused in a large configuration (R268). -/
def qtimerWrite (q : Nat) (v : Word) (s : State) : State :=
  let w := qCfg s q
  if qLarge w && qN w - 1 < fld v 0 16 then qResult q 0x20 (bump (Reg.qRangeCount q) s)
  else qLevel q (qResult q 0 (setReg (Reg.qtimer q) (v &&& 0xFFFF#32) s))

/-- A clocked flag is granted into the clockless side (R281, R282, R284): free-running readers of a GIO ball take its
value; an entry beyond the allowance is counted. -/
def arbiterEntry (sec : Nat) (late : Bool) (ball : Option Nat) (v : Bool) (s : State) : State :=
  let s := if late then bump (Reg.xingLate sec) s else s
  match ball with
  | some g => refreshAcks { s with pins := { s.pins with gioFree := setBit s.pins.gioFree g v } }
  | none => s

/-! ### Commands -/

def execQueuePush (q : Fin 2048) (s : State) : Res := .next (queuePush q s)
def execQueuePop (q : Fin 2048) (s : State) : Res := .next (queuePop q s)
def execPointerSync (q : Fin 2048) (toRead : Bool) (s : State) : Res := .next (pointerSync q toRead s)
def execSpillSeal (q : Fin 2048) (s : State) : Res := .next (spillSeal q s)
def execQctlFlush (q : Fin 2048) (s : State) : Res := .next (mgmt (viaPath (q / 256) (Reg.qctl q) 1 (flushAsk q)) s)
def execFlushAct (q : Fin 2048) (s : State) : Res := .next (flushAct q s)
def execQctlWrReset (q : Fin 2048) (s : State) : Res := .next (mgmt (viaPath (q / 256) (Reg.qctl q) 2 (qctlWrReset q)) s)
def execQctlRdReset (q : Fin 2048) (s : State) : Res := .next (mgmt (viaPath (q / 256) (Reg.qctl q) 4 (qctlRdReset q)) s)
def execSideResetRelease (x : SideXing) (rd : Bool) (s : State) : Res :=
  .next (match x with | .queue q => qRelease q rd s | .port p => portRelease p rd s)
def execEpochConnectRx (x : SideXing) (rd : Bool) (s : State) : Res :=
  .next (match x with | .queue q => qMsg q rd false s | .port p => portMsg p rd false s)
def execEpochAckRx (x : SideXing) (rd : Bool) (s : State) : Res :=
  .next (match x with | .queue q => qMsg q rd true s | .port p => portMsg p rd true s)
def execPeerResetSync (x : SideXing) (atRead : Bool) (s : State) : Res :=
  .next (match x with | .queue q => peerReset q atRead s | .port p => portPeerReset p atRead s)
def execQcfgWrite (q : Fin 2048) (v : Word) (s : State) : Res := .next (mgmt (viaPath (q / 256) (Reg.qcfg q) v (qcfgWrite q v)) s)
def execStaleTimeout (q : Fin 2048) (s : State) : Res := .next (staleTimeout q s)
def execArbiterEntry (sec : Fin 8) (late : Bool) (ball : Option (Fin 480)) (v : Bool) (s : State) : Res :=
  .next (arbiterEntry sec late (ball.map Fin.val) v s)

end Sys2Proof.Machine
end

