-- ==== Sys2Proof/Machine/PoolCmds.lean ====
section
/-! DEFINITION. The commands of pools, pool ports and HBM (chapter Pools and High-Bandwidth Memory). -/

namespace Sys2Proof.Machine

/-! ### The descriptor window (R303) -/

/-- POOL_DESC_STAT bits 7:0. -/
def poolStat (code : Nat) (s : State) : State := setRegFld Reg.poolDescStat 0 8 code s

/-- Whether any port binds pool `n` (R303). -/
def poolBound (s : State) (n : Nat) : Bool := (upTo 8).any (fun u => pinned s u n)

/-- IDLE or HALTED with no tick uncommitted. -/
def engineQuiet (s : State) : Bool :=
  (s.tick.st == .idle || s.tick.st == .halted) && !(s.ra.com < s.tick.nowP1)

/-- A READ of the window: the descriptor is copied to POOL_DESC_DATA. During a WRITE or CLEAR it is refused with POOL_BUSY (R326). -/
def descRead (s : State) : State :=
  if s.pool.busy.isSome then poolStat 4 s
  else
    let r := readDesc (fld (getReg s Reg.poolDescId) 0 20) s
    poolStat 0 (forEach (fun i => setReg (Reg.poolDescData i) (dW r.1 i)) (upTo 8) r.2)

/-- Ask a MODEL pool's model for INIT; the pool waits until it answers (R300). -/
def askInit (n : Nat) (d : Desc) (s : State) : State :=
  let s := { s with pool := { s.pool with initWait := s.pool.initWait ++ [n] } }
  match askModel (.init n) 2 n d 0 0xFF 0 s with
  | some (_, t) => t
  | none => { s with pool := { s.pool with initAsk := s.pool.initAsk ++ [n] } }

/-- Place the INIT requests that wait for room in their model's inbox (R316). -/
def retryInit (s : State) : State :=
  forEach (fun n s =>
    let d := tableDesc s n
    match askModel (.init n) 2 n d 0 0xFF 0 s with
    | some (_, t) =>
      let rest := t.pool.initAsk.filter (· != n)
      { t with pool := { t.pool with initAsk := rest } }
    | none => s) s.pool.initAsk s

/-- Store a checked descriptor and take its granules (R302). -/
def placeDesc (n : Nat) (d : Desc) (s : State) : State :=
  let r := readDesc n s
  let s := useGranules n r.1 false r.2
  let wait := s.pool.initWait.filter (· != n)
  let ask := s.pool.initAsk.filter (· != n)
  let outst := s.pool.outst.map (fun o => if o.who = .init n then { o with who := .stale } else o)
  let s := { s with pool := { s.pool with initWait := wait, initAsk := ask, outst := outst } }
  let s := setDesc n (if dKind d = 0 then [dW d 0, dW d 1, dW d 2, dW d 3, dW d 4, dW d 5, dW d 6, 0] else d) s
  useGranules n (tableDesc s n) true s

/-- What INIT asks for (R300). -/
def initPool (n : Nat) (s : State) : State :=
  let d := tableDesc s n
  if dKind d = 0 then s
  else if dInit d = 1 then poolZero (dCache d) (poolAddr d 0) (dDepth d) s
  else if dInit d = 2 then askInit n d s
  else s

/-- Bring a checked descriptor into force: granules, storage, INIT (R300, R302). -/
def installDesc (n : Nat) (d : Desc) (s : State) : State := initPool n (placeDesc n d s)

/-- What refuses a WRITE or CLEAR before its check: POOL_OWNED, then POOL_BUSY. -/
def descShut (s : State) (n : Nat) : Nat :=
  if (claimOwner s 8 n).isSome then 0x21
  else if s.pool.busy.isSome || (poolBound s n && !engineQuiet s) then 4
  else 0

/-- A WRITE of the window. -/
def descWrite (s : State) : State :=
  let n := fld (getReg s Reg.poolDescId) 0 20
  let c := descShut s n
  if c != 0 then poolStat c s
  else
    let d : Desc := (upTo 8).map fun i => getReg s (Reg.poolDescData i)
    let free := useGranules n (tableDesc s n) false s
    let c := descCheck free n d
    if c = 0x20 then poolStat c (bump Reg.poolRangeCount s)
    else if c != 0 then poolStat c s
    else
      let s := installDesc n d s
      orReg Reg.poolDescStat 0x100 { s with pool := { s.pool with busy := some 0 } }

/-- A CLEAR of the window. -/
def descClear (s : State) : State :=
  let n := fld (getReg s Reg.poolDescId) 0 20
  let c := descShut s n
  if c != 0 then poolStat c s
  else
    let s := installDesc n ((tableDesc s n).set 2 (dW (tableDesc s n) 2 &&& 0xFFFFF8FF#32)) s
    orReg Reg.poolDescStat 0x100 { s with pool := { s.pool with busy := some 0 } }

/-- A WRITE or CLEAR completes: BUSY 0, its code, vector 8 (R303, R392). -/
def descDone (s : State) : State :=
  match s.pool.busy with
  | some c => raiseVec 8 (poolStat c (andNotReg Reg.poolDescStat 0x100 { s with pool := { s.pool with busy := none } }))
  | none => s

/-! ### Pool port channels (R305–R321) -/

/-- Binding `k` of a port (R320). -/
def ppBinding (s : State) (p k : Nat) : Word := getReg s (Reg.ppBind p k)

/-- The violation of a port's request, 0 for none (R320). -/
def portViolation (p : Nat) (b : Word) (d : Desc) (tick we : Bool) : Nat :=
  if !bitAt b 31 then 6
  else if dKind d = 0 then 4
  else if !dRight d (if we then 1 else 0) then 5
  else if we && !bitAt b 30 then 7
  else if we && tick && (!dVersioned d || dOwner d != p) then 8
  else if we && !tick && dVersioned d then 9
  else 0

/-- Enter a request with channel `k`. -/
def putReq (p k : Nat) (r : PReq) (s : State) : State :=
  let x := getPort s p
  setPort p { x with reqs := mput x.reqs k r } s

/-- A new entry of a write by channel `k`. -/
def newEntry (t k pool idx : Nat) (be : BitVec 8) (din : BitVec 64) : WbEntry :=
  let who := (upTo 8).foldl (fun w i => setFld w (2 * i) 2 k) (0#16)
  { tick := t, pool := pool, idx := idx, be := be, data := din, who := who }

/-- A tick-bound write takes or joins a write-buffer entry (R312): whether
it merged, and the entries. -/
def takeEntry (t k pool idx : Nat) (be : BitVec 8) (din : BitVec 64) : List WbEntry → Bool × List WbEntry
  | [] => (false, [newEntry t k pool idx be din])
  | e :: l =>
    if e.tick = t && e.pool = pool && e.idx = idx then
      let wins (i : Nat) : Bool := bitAt be i && (!bitAt e.be i || fld e.who (2 * i) 2 ≤ k)
      let m := (upTo 8).foldl (fun m i => setBit m i (wins i)) (0#8)
      let who := (upTo 8).foldl (fun w i => if wins i then setFld w (2 * i) 2 k else w) e.who
      (true, { e with be := e.be ||| be, data := mergeBytes m e.data din, who := who } :: l)
    else
      let r := takeEntry t k pool idx be din l
      (r.1, e :: r.2)

/-- An accepted tick-bound write (R312, R164). -/
def portTickWrite (p k t : Nat) (r : PReq) (s : State) : State :=
  let x := getPort s p
  let (merged, l) := takeEntry t k r.pool r.idx r.be r.din x.wb
  if l.length ≤ 4096 then
    let s := putReq p k r (setPort p { x with wb := l } s)
    if merged then bump (Reg.ppWwCount p) s else s
  else if x.stall then s
  else bump (Reg.ppWbStall p) (setPort p { x with stall := true } s)

/-- Bytes that forwarding answers for a port's read (R182, R315). -/
def portForward (s : State) (p : Nat) (d : Desc) (n idx : Nat) (tick : Option Nat) : BitVec 8 × BitVec 64 :=
  match tick with
  | some t => if dVersioned d && ownerPort d = p then forwarded (getPort s p) n idx t else forwardOther s n d idx
  | none => forwardOther s n d idx

/-- A taken request reaches memory, or the model's inbox; where the inbox is full it still waits (R316). Of a MODEL pool the write buffer answers
as the request reaches it, and the model the rest (R182). -/
def portReach (p k : Nat) (d : Desc) (r : PReq) (s : State) : State :=
  match r.tick, r.we with
  | some t, true => portTickWrite p k t r s
  | _, _ =>
    let f := portForward s p d r.pool r.idx r.tick
    if dModel d && !r.we && f.1 = 0xFF#8 then putReq p k { r with st := .answered f.2 false } s
    else if dModel d then
      match askModel (.port p k) (b2n r.we) r.pool d r.idx r.be r.din s (if r.we then (0, 0) else f) with
      | some (tag, s) => putReq p k { r with st := .model tag } s
      | none => s
    else putReq p k r s

/-- A waiting request goes on once its pool's INIT is answered (R300) and no free-running request that arrived before it waits (R309). -/
def portAdvance (p k : Nat) (s : State) : State :=
  let x := getPort s p
  match x.reqs.find? (fun r => r.1 = k) with
  | none => s
  | some (_, r) =>
    if r.st != .waiting || s.pool.initWait.contains r.pool ||
        (r.tick.isNone && x.reqs.any (fun q => q.2.tick.isNone && q.2.st == .waiting && q.2.no < r.no)) then s
    else portReach p k (descOf s (p / 32) r.pool) { r with st := .taken } s

/-- The request that stands at the pins of channel `k`, its descriptor and its violation. -/
def portAsks (s : State) (p k : Nat) : PReq × Desc × Nat :=
  let t := poolTile p k
  let free := fFree (frameOf s t)
  let b := ppBinding s p (linesVal s t 2 2)
  let n := fld b 0 20
  let d := descOf s (p / 32) n
  let we := (lineRail s t 1).high
  let no := (getPort s p).reqs.foldl (fun a r => max a (r.2.no + 1)) 0
  let r : PReq := { tick := if free then none else some (s.tick.nowP1 - 1), we := we, pool := n, idx := linesVal s t 12 35,
                    be := BitVec.ofNat 8 (linesVal s t 4 8), din := BitVec.ofNat 64 (linesVal s t 64 64), no := no, st := .waiting }
  (r, d, portViolation p b d (!free) we)

/-- Tick-bound channels of other ports whose valid request would be a violation now (R454). -/
def cycleViolations (s : State) (p : Nat) : List (Nat × Nat × Nat × Nat × Nat) :=
  (upTo 1024).foldr (fun i l =>
    let (q, k) := (i / 4, i % 4)
    let t := poolTile q k
    if q = p || hostOf s t != .pool q k || fFree (frameOf s t) || portQuiet s t || (getTile s t).portOut.isSome ||
        isFrozen s 3 q || !linesValid s t (hostLines s t) || (getPort s q).reqs.any (fun r => r.1 = k) then l
    else
      let a := portAsks s q k
      if a.2.2 = 0 then l else (q, k, a.2.2, a.1.pool, a.1.idx) :: l) []

/-- A port's violation: it is frozen, and a port that serves tick-bound tiles stops the engine (R321). Requests that stand in the wave it
ends may still be violations of the same confluence cycle. -/
def portViolates (p v n idx : Nat) (s : State) : State :=
  let s := if waveOn s && portTickBound s p then
      let cyc := cycleViolations s p
      { s with pool := { s.pool with cyc := cyc } }
    else s
  let s := poolViolation 3 p v n idx s
  if portTickBound s p then tickFault 0x17 s else s

/-- A tick-bound request that stood when another port's violation ended the wave violates in the same confluence cycle (R454; DESIGN
CHOICE, log 192: commands of one cycle come in the order of CLASS, then INDEX). -/
def cycleViolates (p k : Nat) (s : State) : State :=
  match (if s.tick.st == .fault && s.tick.cycle then s.pool.cyc else []).find? (fun c => c.1 = p && c.2.1 = k) with
  | none => s
  | some (_, _, v, n, idx) =>
    let cyc := s.pool.cyc.filter (fun c => c.1 != p)
    poolViolation 3 p v n idx { s with pool := { s.pool with cyc := cyc } }

/-- POOL_PORT_REQUEST: a channel takes a valid request (R307–R309, R320), or one that waits goes on. -/
def poolPortRequest (p k : Nat) (s : State) : State :=
  let t := poolTile p k
  let free := fFree (frameOf s t)
  let x := getPort s p
  if hostOf s t != .pool p k then s
  else if !free && portQuiet s t then quietPort t s
  else if (x.reqs.any (fun r => r.1 = k)) then portAdvance p k s
  else if free && (!portTakes s t) then s
  else if !free && !waveOn s then cycleViolates p k s
  else if !free && ((getTile s t).portOut.isSome || !linesValid s t (hostLines s t)) then s
  else if free && lineRail s t 0 == .v0 then portStage t 0 s
  else if isFrozen s 3 p || x.resetting || !portLinked x || bitAt x.ack k then s
  else
    let x := { x with ack := x.ack ||| (x.req &&& (1#4 <<< k)), req := setBit x.req k false }
    let (r, d, v) := portAsks s p k
    let s := putReq p k r (descTouch (p / 32) r.pool (setPort p x s))
    if v != 0 then portViolates p v r.pool r.idx (putReq p k { r with st := .refused } s)
    else if dDepth d ≤ r.idx then
      bump Reg.poolRangeCount (bump (Reg.ppRange p) (putReq p k { r with st := .refused } s))
    else portAdvance p k s

/-- Drive a channel's outputs: DOUT, ERR, REFUSED (R306). -/
def portDrive (t : Nat) (free : Bool) (data : BitVec 64) (err refused : Bool) (s : State) : State :=
  let v := BitVec.ofNat 128 (data.toNat + b2n err * 2 ^ 64 + b2n refused * 2 ^ 65)
  if free then portStage t v s else portAnswer t v s

/-- A read's answer; an uncorrectable error stops a tick-bound reader's engine (R323). -/
def portReadAnswer (t : Nat) (r : PReq) (data : BitVec 64) (err : Bool) (s : State) : State :=
  let s := portDrive t r.tick.isNone data err false s
  if err && r.tick.isSome then tickFault 0x16 s else s

/-- Write data of a port's section on its way to the controller: the FIFOs of its request, its substrate link and the controller check
it in turn (R275, R283). -/
def portData (p wa : Nat) (d : BitVec 64) (err : BitVec 72) (s : State) : BitVec 64 × Bool × State :=
  let a := fifoCheck wa d err s
  let b := fifoPass (fifoNo (.subUp (Fin.ofNat 8 (p / 32)))) wa a.1 a.2.2
  let c := fifoPass (fifoNo (.hbmIn (Fin.ofNat 4 (hbmStack wa)))) wa b.1 b.2.2
  (c.1, a.2.1 || b.2.1 || c.2.1, c.2.2)

/-- A port's write reaches committed memory and the cached lines (R309, R310, R313). -/
def portStore (p : Nat) (d : Desc) (idx : Nat) (be : BitVec 8) (v : BitVec 64) (err : BitVec 72) (s : State) : State :=
  let wa := poolAddr d idx
  let (v, bad, s) := portData p wa v err s
  let s := if !dCache d then s else if bad then invalidate wa none s else updateLine p wa be v (invalidate wa (some p) s)
  hbmStore wa be v bad s

/-- A read of committed contents for a port: the word, over the substrate link of its section (R275). -/
def portFetch (p : Nat) (d : Desc) (wa : Nat) (s : State) : BitVec 64 × Bool × State :=
  let a := portMemRead p d wa s
  let b := fifoPass (fifoNo (.subDown (Fin.ofNat 8 (p / 32)))) wa a.1 a.2.2
  (b.1, a.2.1 || b.2.1, b.2.2)

/-- POOL_PORT_ANSWER: the answer reaches the host tile; free-running requests are served in order of arrival (R309). Where the stage that
asked was put under GSR a write is still performed, and no answer is driven (R57). -/
def poolPortAnswer (p k : Nat) (s : State) : State :=
  let t := poolTile p k
  let x := getPort s p
  match x.reqs.find? (fun r => r.1 = k) with
  | none => s
  | some (_, r) =>
    let d := descOf s (p / 32) r.pool
    let free := r.tick.isNone
    let left := setPort p { x with reqs := merase x.reqs k } s
    let drive (refused : Bool) (s : State) : State := if r.gone then s else portDrive t free 0 false refused s
    match r.st with
    | .waiting => s
    | .refused => drive true left
    | .model _ => s
    | .answered data err =>
      if r.we then drive false left else if r.gone then left else portReadAnswer t r data err left
    | .taken =>
      if free && x.reqs.any (fun q => q.2.tick.isNone && q.2.st == .taken && q.2.no < r.no) then s
      else if r.we then
        drive false (if free then portStore p d r.idx r.be r.din r.err left else left)
      else if r.gone then left
      else
        let f := portForward left p d r.pool r.idx r.tick
        if f.1 = 0xFF#8 then portReadAnswer t r f.2 false left
        else
          let (m, bad, s) := portFetch p d (poolAddr d r.idx) left
          portReadAnswer t r (mergeBytes f.1 m f.2) bad s

/-- The agent's drain of a port completes. -/
def endDrain (e p : Nat) (s : State) : State :=
  let x := getEddy s e
  setEddy e { x with ops := x.ops.eraseIdx (x.ops.findIdx (fun o => o.kind == .drain p)) } s

/-- An operation that eddy `e` issued before its oldest drain of port `p`, on the same word, is not done with (R364, R367). -/
def drainBehind (s : State) (e p : Nat) (w : WbEntry) : Bool :=
  let ops := (getEddy s e).ops
  (ops.take (ops.findIdx (fun o => o.kind == .drain p))).any (fun o => o.pool = w.pool && o.idx = w.idx && (o.ask || !dModel (descOf s (p / 32) w.pool)))

/-- The drain of an entry completes (R313): HBM and cached lines are written, and the entry is free. A record that found
the model's inbox full, or waits for INIT, is placed again. -/
def drainDone (p : Nat) (s : State) : State :=
  let x := getPort s p
  match oldestEntry (fun e => e.draining.isSome) x.wb with
  | none => s
  | some w =>
    let e := w.draining.getD 0
    let d := descOf s (p / 32) w.pool
    let behind := drainBehind s e p w
    let s := descTouch (p / 32) w.pool s
    if behind then s
    else if dModel d then
      if w.answered then endDrain e p (setPort p { x with wb := x.wb.erase w } s)
      else if w.mtag.isSome || s.pool.initWait.contains w.pool then s
      else match askModel (.agent p) 1 w.pool d w.idx w.be w.data s with
        | some (t, s) => setPort p { x with wb := x.wb.map (fun v => if v = w then { w with mtag := some t } else v) } s
        | none => s
    else
      endDrain e p (portStore p d w.idx w.be w.data w.err (setPort p { x with wb := x.wb.erase w } s))

/-! ### Port reset (R322) -/

/-- PP_CTL RESET: taken, or refused with POOL_BUSY while a tick-bound channel could be in use. The port side is in reset from here
on, and the reset is on its way to the fabric side (R286). -/
def portReset (p : Nat) (s : State) : State :=
  if portTickBound s p && !engineQuiet s then s
  else
    let x := getPort s p
    setPort p { x with resetAsked := true, resetting := true, rd := x.rd.reset, wr := { x.wr with peerRst := true, msgs := [] } } s

/-- A pending request of a channel is discarded, a free-running one completing its handshake with REFUSED 1 (R322 step 2). -/
def dropReq (p : Nat) (k : Nat) (s : State) : State :=
  let x := getPort s p
  match x.reqs.find? (fun r => r.1 = k) with
  | none =>
    if bitAt x.req k then
      let s := xingDiscard (p / 32) 3 1 (p % 32) (setPort p { x with req := setBit x.req k false } s)
      if fFree (frameOf s (poolTile p k)) then portDrive (poolTile p k) true 0 false true s else s
    else s
  | some (_, r) =>
    let s := xingDiscard (p / 32) 3 1 (p % 32) (setPort p { x with reqs := merase x.reqs k } s)
    if r.tick.isNone && !r.gone then portDrive (poolTile p k) true 0 false true s else s

/-- Committed entries have drained: pending requests are discarded, the cache is invalidated, and the port side leaves
its reset with a new epoch (R322 steps 1 to 4). -/
def portResetDone (p : Nat) (s : State) : State :=
  let x := getPort s p
  if !x.resetAsked || x.wb.any (fun e => e.tick < s.ra.com) then s
  else
    let s := forEach (dropReq p) (upTo 4) s
    let x := getPort s p
    let r := sideRelease x.rd x.wr
    setPort p { x with cache := [], resetAsked := false, req := 0, ack := 0, rd := r.1, wr := r.2 } s

/-! ### Remote requests (R319–R321) -/

/-- POOL_ANS to a requester (R319). -/
def sendAns (dst tag code : Nat) (data : BitVec 64) (s : State) : State :=
  sendDev 1 dst (payPut (payPut (mkMsg 0x42 tag (ownId s) dst) 1 1 code) 24 8 data.toNat) s

/-- The violation of a remote request, 0 for none (R320), in the order of R319. -/
def remoteViolation (d : Desc) (src : Nat) (we : Bool) : Nat :=
  if !dRight d (if we then 7 else 6) then 5
  else if dRemote d != 0x3FF && dRemote d != src then 0x0A
  else if dKind d = 0 then 4
  else 0

/-- A remote request is checked, performed and answered (R319). `q` is the state once the message is taken. -/
def remoteServe (we : Bool) (pay : Payload) (s : State) : State :=
  let q := takeMsg pay s
  let src := msgSrc pay
  let tag := payN pay 2 2
  let n := payN pay 8 4 % 2 ^ 20
  let idx := payN pay 16 8 % 2 ^ 35
  let d := descOf s 8 n
  let q := descTouch 8 n q
  let v := remoteViolation d src we
  if v != 0 then sendAns src tag 2 0 (poolViolation 4 src v n idx q)
  else if we && versionedShut s d then sendAns src tag 4 0 q
  else if dDepth d ≤ idx then sendAns src tag 0x20 0 (bump Reg.poolRangeCount q)
  else if s.pool.initWait.contains n then descTouch 8 n s
  else
    let ben := BitVec.ofNat 8 (payN pay 1 1)
    let data := BitVec.ofNat 64 (payN pay 24 8)
    let f := forwardOther s n d idx
    if dModel d && (we || f.1 != 0xFF#8) then
      match askModel (.remote src tag 0) (b2n we) n d idx ben data q (if we then (0, 0) else f) with
      | some (_, t) => t
      | none => descTouch 8 n s
    else if we then sendAns src tag 0 0 (otherWrite d idx ben data q)
    else
      let (m, bad, q) := otherRead n d idx q
      sendAns src tag (if bad then 3 else 0) m q

/-- A remote request arrives: a frozen requester's waits, up to 16 (R321). -/
def remoteRx (we : Bool) (pay : Payload) (s : State) : State :=
  let src := msgSrc pay
  if isFrozen s 4 src then
    let q := takeMsg pay s
    if (q.pool.remHeld.filter (fun h => h.1 = src)).length < 16 then
      { q with pool := { q.pool with remHeld := q.pool.remHeld ++ [(src, pay)] } }
    else sendAns src (payN pay 2 2) 6 0 q
  else remoteServe we pay s

/-- POOL_ANS completes a request of this device (R319). -/
def poolAnsRx (pay : Payload) (s : State) : State :=
  let s := takeMsg pay s
  { s with pool := { s.pool with remAns := mput s.pool.remAns (payN pay 2 2) (payN pay 1 1, BitVec.ofNat 64 (payN pay 24 8)) } }

/-! ### HBM events (R292–R295, R324) -/

/-- The patrol reads a word (R295). -/
def patrolRead (wa : Nat) (s : State) : State := (hbmFetch wa 1 s).2.2

/-- A read of HBM_UE_LOC latches the high word bits and clears (R324). -/
def ueLocRead (k : Nat) (s : State) : State :=
  let v := getReg s (Reg.hbmUeLoc k)
  let hi := mget (fun _ => 0) s.pool.ueWord k / 2 ^ 30
  setReg (Reg.hbmUeLoc k) 0 (setReg (Reg.hbmUeLocHi k) (w32 hi)
    { s with rdata := v, pool := { s.pool with ueWord := merase s.pool.ueWord k } })

/-! ### Commands -/

def execPoolDescRead (s : State) : Res := .next (mgmt descRead s)
def execPoolDescWrite (s : State) : Res := .next (mgmt descWrite s)
def execPoolDescClear (s : State) : Res := .next (mgmt descClear s)
def execPoolDescDone (s : State) : Res := .next (descDone s)
def execPoolPortRequest (p : Fin 256) (k : Fin 4) (s : State) : Res := .next (poolPortRequest p k s)
def execPoolPortAnswer (p : Fin 256) (k : Fin 4) (s : State) : Res := .next (poolPortAnswer p k s)
def execDrainDone (p : Fin 256) (s : State) : Res := .next (drainDone p s)
def execHbmEccWriteback (wa : BitVec 35) (s : State) : Res := .next (hbmWriteBack wa.toNat s)
def execHbmPatrolRead (wa : BitVec 35) (s : State) : Res := .next (patrolRead wa.toNat s)
/-- RFM of a stack (R292). -/
def execHbmRfm (k : Fin 4) (s : State) : Res := .next (bump (Reg.hbmRfm k) s)
def execHbmUeLocRead (k : Fin 4) (s : State) : Res := .next (mgmtRd (ueLocRead k) s)
def execPoolPortReset (p : Fin 256) (s : State) : Res := .next (mgmt (viaPath (p / 32) (Reg.ppCtl p) 1 (portReset p)) s)
def execPoolPortResetDone (p : Fin 256) (s : State) : Res := .next (portResetDone p s)
def execPoolRdRx (pay : Payload) (s : State) : Res := .next (remoteRx false pay s)
def execPoolWrRx (pay : Payload) (s : State) : Res := .next (remoteRx true pay s)
def execPoolAnsRx (pay : Payload) (s : State) : Res := .next (poolAnsRx pay s)

end Sys2Proof.Machine
end

