-- ==== Sys2Proof/Machine/Eddy.lean ====
section
/-! DEFINITION. The eddy: registers, exceptions and interrupts, the scratchpad, its windows and local registers,
instruction fetch with the loop buffer, and eddy DMA (chapters Eddy Engines; Eddy Instruction Set). -/

namespace Sys2Proof.Machine

/-! ### Registers (R352, R353) -/

def dG (_ : Nat) : BitVec 64 := 0
/-- g[r]; g0 reads 0. -/
def getG (x : Eddy) (r : Nat) : BitVec 64 := if r = 0 then 0 else mget dG x.g r
/-- Write g[r]; a write of g0 is discarded. -/
def setG (r : Nat) (v : BitVec 64) (x : Eddy) : Eddy := if r = 0 then x else { x with g := mset dG x.g r v }
/-- A pool load or atomic that writes g[r] is outstanding. -/
def pendingReg (x : Eddy) (r : Nat) : Bool := x.ops.any (fun o => o.rd == some r && !o.dead)
/-- c9: pool operations outstanding. -/
def outstanding (x : Eddy) : Nat := (x.ops.filter (fun o => !o.dead)).length
/-- STATUS bits 2:0. -/
def statusOf (x : Eddy) : Nat := b2n x.ie + 2 * b2n x.exc + 4 * b2n x.secure
def eddySec (e : Nat) : Nat := e / 64

/-- c[n] as MFC reads it (R353). -/
def getC (e : Nat) (x : Eddy) (n : Nat) : Word :=
  match n with
  | 0 => w32 (statusOf x) | 1 => x.flags.setWidth 32 | 2 => x.epc | 3 => x.estatus | 4 => x.cause | 5 => x.eaddr
  | 6 => x.vbase | 7 => x.scratch | 8 => w32 (e + eddySec e * 2 ^ 24) | 9 => w32 (outstanding x) | 10 => w32 (b2n x.perr)
  | _ => 0

/-- c[n] written by MTC (R353). -/
def setC (n : Nat) (v : Word) (x : Eddy) : Eddy :=
  match n with
  | 0 => { x with ie := bitAt v 0, exc := bitAt v 1 }
  | 1 => { x with flags := v.setWidth 4 }
  | 2 => { x with epc := v }
  | 3 => { x with estatus := v &&& 0xF07#32 }
  | 6 => { x with vbase := v &&& 0xFC00#32 }
  | 7 => { x with scratch := v }
  | 10 => { x with perr := x.perr && !bitAt v 0 }
  | _ => x

/-- Change one eddy. -/
def modEddy (e : Nat) (f : Eddy → Eddy) (s : State) : State := setEddy e (f (getEddy s e)) s

/-! ### Exceptions, interrupts and violations (R345, R346, R372, R373, R375) -/

/-- Enter a handler: one operation (R373). -/
def eddyEnter (code pool trap : Nat) (epc : Word) (vec : Nat) (x : Eddy) : Eddy :=
  { x with epc := epc, estatus := w32 (statusOf x + x.flags.toNat * 2 ^ 8),
           cause := w32 (code + pool * 2 ^ 8 + trap * 2 ^ 16), ie := false, exc := true,
           pc := x.vbase + w32 vec, loop := none, wfi := false }

/-- An exception: entry, or the double fault that halts the eddy (R373, R375). -/
def eddyRaise (code pool trap : Nat) (addr : Option Word) (epc : Word) (x : Eddy) : Eddy :=
  let x := match addr with | some a => { x with eaddr := a } | none => x
  if x.exc then
    { x with cause := w32 (code + pool * 2 ^ 8 + trap * 2 ^ 16 + 2 ^ 31), st := .halted, loop := none, wfi := false }
  else eddyEnter code pool trap epc 0 x

/-- An exception of the instruction at PC. -/
def eddyExc (e code pool : Nat) (addr : Option Word) (s : State) : State :=
  modEddy e (fun x => eddyRaise code pool 0 addr x.pc x) s

/-- The lowest enabled pending line, while IE is 1 (R339). -/
def irqDue (x : Eddy) : Option Nat :=
  if x.ie then (upTo 14).find? (fun n => bitAt x.irqPend n && bitAt x.irqEn n) else none

/-- Whether some line is pending and enabled. -/
def irqAny (x : Eddy) : Bool := x.irqPend &&& x.irqEn != 0

/-- A violation: the eddy is frozen at once, EDDY_PC as it stands, its loop buffer emptied (R346, R334). -/
def eddyFrozen (e : Nat) (s : State) : State :=
  raiseVec (1536 + e) (modEddy e (fun x => { x with st := .frozen, loop := none, haltReq := false, wfi := false }) s)

/-- A violation at an eddy address (R345): causes 1 to 3. -/
def eddyViolation (e cause : Nat) (a : Nat) (s : State) : State := freezeMaster 2 e cause 4 0 a (eddyFrozen e s)

/-- A violation at a pool (R320). -/
def eddyPoolViolation (e cause pool idx : Nat) (s : State) : State := poolViolation 2 e cause pool idx (eddyFrozen e s)

/-! ### The scratchpad (R331–R335, R344) -/

/-- A requester touches a block: a lease of it is revoked (R344); an interrupt handler runs while EXC is 1 with an interrupt's CAUSE.
The added latency of a delayed handler access is a
free value within its 1.2 µs bound. -/
def spTouch (e b : Nat) (proc : Bool) (s : State) : State :=
  if leased s (.spad e b) then
    let s := bump (Reg.eddyLeasePreempt e) (revoke (.spad e b) s)
    if proc && (getEddy s e).exc && 0x10 ≤ fld (getEddy s e).cause 0 8 then
      drawFree (bumpBy (Reg.eddyIrqDelayNs e) ((Config.free 11 s.free).toNat % 1201) (bump (Reg.eddyIrqDelayed e) s))
    else modEddy e (fun x => { x with preempted := true }) s
  else s

/-- One port access reads and checks word `i`: its data, whether uncorrectable, and what it leaves (R333). -/
def spWord (e i : Nat) (proc : Bool) (s : State) : BitVec 64 × Bool × State :=
  let s := spTouch e (i / 128) proc s
  let x := getEddy s e
  let w := mget dHbm x.spad i
  let n := popc 72 w.err.toNat
  let v := eccVerdict n s.free
  let d := eccData n s.free w.data (w.err.setWidth 64)
  let s := if 2 < n then drawFree s else s
  match v with
  | .ok => (d, false, s)
  | .ce => (d, false, bump (Reg.eddySpCe e) (setEddy e { x with spad := mset dHbm x.spad i { data := d } } s))
  | .ue => (d, true, raiseVec (1536 + e) (bump (Reg.eddySpUe e) s))

/-- A store into the captured range empties the loop buffer (R334). -/
def loopHit (a n : Nat) (x : Eddy) : Eddy :=
  match x.loop with
  | some l => if a < l.hi + 4 && l.lo < a + n then { x with loop := none } else x
  | none => x

/-- Load `n` bytes at scratchpad address `a`. -/
def spLoad (e a n : Nat) (proc : Bool) (s : State) : BitVec 64 × Bool × State :=
  let (lo, b0, s) := spWord e (a / 8) proc s
  if a % 8 + n ≤ 8 then (BitVec.ofNat 64 (fld lo (8 * (a % 8)) (8 * n)), b0, s)
  else
    let (hi, b1, s) := spWord e (a / 8 + 1) proc s
    let both := lo.toNat + hi.toNat * 2 ^ 64
    (BitVec.ofNat 64 (both / 2 ^ (8 * (a % 8)) % 2 ^ (8 * n)), b0 || b1, bump (Reg.eddyUnaligned e) s)

/-- Store the bytes of one word that `be` enables; a full store needs no read. -/
def spPut (e i : Nat) (be : BitVec 8) (v : BitVec 64) (proc : Bool) (s : State) : State :=
  if be = 0xFF#8 then
    let s := spTouch e (i / 128) proc s
    modEddy e (fun x => { x with spad := mset dHbm x.spad i { data := v } }) s
  else
    let (old, _, s) := spWord e i proc s
    modEddy e (fun x => { x with spad := mset dHbm x.spad i { data := mergeBytes be old v } }) s

/-- Store the low `n` bytes of `v` at scratchpad address `a` (R332). -/
def spStore (e a n : Nat) (v : BitVec 64) (proc : Bool) (s : State) : State :=
  let k := a % 8
  let m := (2 ^ n - 1) * 2 ^ k
  let d := v.toNat % 2 ^ (8 * n) * 2 ^ (8 * k)
  let s := spPut e (a / 8) (BitVec.ofNat 8 m) (BitVec.ofNat 64 d) proc s
  let s := if k + n ≤ 8 then s
    else bump (Reg.eddyUnaligned e) (spPut e (a / 8 + 1) (BitVec.ofNat 8 (m / 2 ^ 8)) (BitVec.ofNat 64 (d / 2 ^ 64)) proc s)
  modEddy e (loopHit a n) s

/-! ### Queue sites of an eddy (R330) -/

/-- Queue of site `i` of the eddy's section. -/
def siteQ (e i : Nat) : Nat := 256 * eddySec e + i
/-- The site names this eddy as its reader, or as its writer. -/
def siteReads (s : State) (e i : Nat) : Bool :=
  let w := qCfg s (siteQ e i); fld w 10 2 = 2 && qRdEddy w = e % 64
def siteWrites (s : State) (e i : Nat) : Bool :=
  let w := qCfg s (siteQ e i); fld w 8 2 = 2 && qWrEddy w = e % 64

def dInfo (_ : Nat) : Word := 0
/-- QINFO of a site (R330). -/
def qinfo (s : State) (e i : Nat) : Word :=
  let q := siteQ e i
  let w := qCfg s q
  let x := getQ s q
  let ev := getReg s (Reg.qevent q)
  let peer := if siteReads s e i then bitAt ev 3 else bitAt ev 4
  mget dInfo (getEddy s e).qinfo i &&& 0x10F#32 ||| w32 (16 * b2n (qEmpty w x) + 32 * b2n (qFull w x) + 64 * b2n peer)

/-- Push by the eddy: the site records ACCEPT. -/
def eddyPush (e i : Nat) (v : BitVec 64) (last : Bool) (s : State) : State :=
  let (acc, s) := pushWord (siteQ e i) v last s
  modEddy e (fun x => { x with qinfo := mset dInfo x.qinfo i (setBit (mget dInfo x.qinfo i) 8 acc) }) s

/-- Pop by the eddy: the payload, and the site records TAG, UNDERRUN and POISON. -/
def eddyPop (e i : Nat) (s : State) : BitVec 64 × State :=
  let (r, s) := popWord (siteQ e i) s
  let v := r.tag % 4 + 4 * b2n r.underrun + 8 * b2n r.poison
  (r.pay, modEddy e (fun x => { x with qinfo := mset dInfo x.qinfo i (setFld (mget dInfo x.qinfo i) 0 4 v) }) s)

/-! ### Eddy DMA (R337, R338) -/

/-- The front descriptor of the queue starts (R338). -/
def startFront (x : Eddy) : Eddy :=
  match x.dmaQ with | d :: l => { x with dmaQ := { d with started := true } :: l } | [] => x

/-- Place a completion; line 0 is raised. Nothing new starts while the eddy is FROZEN (R346). -/
def dmaComplete (e : Nat) (d : EDma) (code pool : Nat) (s : State) : State :=
  let x := getEddy s e
  let full := 8 ≤ x.dmaQ.length
  let y := { x with dmaQ := x.dmaQ.drop 1 }
  let y := if x.st == .frozen then y else startFront y
  let s := if d.dead then setEddy e y s
    else latchIrq e 0 (setEddy e { y with dmaDone := x.dmaDone ++ [(d.tag, code, pool)] } s)
  if full then latchIrq e 1 s else s

/-- What the checks of a descriptor decide (R337 steps 2 to 7): codes to complete with, and a violation's cause. -/
def dmaCheck (s : State) (e : Nat) (d : EDma) (lo : Nat) : Option (Nat × Nat) × Nat :=
  let p := descOf s (eddySec e) d.pool
  if d.len = 0 then (some (0x22, 0), 0)
  else if d.len % 8 != 0 || d.sp % 8 != 0 || lo % 8 != 0 then (some (2, 0), 0)
  else if 0x10000 < d.sp + d.len then (some (0x20, 0), 0)
  else if dDepth p < d.idx + d.len / 8 then (some (0x20, 0), 0)
  else if 0xF000 < d.sp + d.len && !(getEddy s e).secure then (none, 2)
  else if dKind p = 0 then (some (7, 1), 4)
  else if !dRight p (if d.toPool then 3 else 2) then (some (7, 2), 5)
  else if d.toPool && versionedShut s p then (some (7, 4), 0)
  else (none, 0)

/-- DMA_GO (R337). -/
def dmaGo (e : Nat) (v : Word) (s : State) : State :=
  let x := getEddy s e
  if 8 ≤ x.dmaQ.length then setEddy e { x with dmaResult := 1 } s
  else
    let off := x.dmaIdxLo.toNat + fld x.dmaIdxHi 0 6 * 2 ^ 32
    let d : EDma := { toPool := bitAt v 0, tag := BitVec.ofNat 8 (fld v 8 8), sp := fld x.dmaSp 0 16, pool := fld x.dmaPool 0 20,
                      idx := off / 8, len := fld x.dmaLen 0 17 }
    let s := descTouch (eddySec e) d.pool s
    let (fail, cause) := dmaCheck s e d x.dmaIdxLo.toNat
    let code := match fail with | some c => c.1 | none => 0
    let s := if code = 0x20 then bump (Reg.eddyRangeCount e) s else s
    if cause = 2 then eddyViolation e 2 d.sp s
    else
      let d := { d with fail := fail, started := x.dmaQ.isEmpty }
      let s := setEddy e { x with dmaQ := x.dmaQ ++ [d], dmaResult := code } s
      if cause = 0 then s else eddyPoolViolation e cause d.pool d.idx s

/-- Words of a transfer toward the pool, from the scratchpad, until one is uncorrectable: EDDY_ code. -/
def dmaOut (e : Nat) (d : EDma) : List Nat → State → Nat × State
  | [], s => (0, s)
  | i :: l, s =>
    let (v, bad, s) := spWord e (d.sp / 8 + i) false s
    if bad then (3, s) else dmaOut e d l (otherWrite (descOf s (eddySec e) d.pool) (d.idx + i) 0xFF v s)

/-- Words of a transfer toward the scratchpad: POOL_ code. -/
def dmaIn (e : Nat) (d : EDma) : List Nat → Nat → State → Nat × State
  | [], c, s => (c, s)
  | i :: l, c, s =>
    let (v, bad, s) := otherRead d.pool (descOf s (eddySec e) d.pool) (d.idx + i) s
    dmaIn e d l (if bad then 3 else c) (spStore e (d.sp + 8 * i) 8 v false s)

/-- Bring a transfer with a MODEL pool on: take the answer of the word asked for, ask for the next. -/
def dmaModelGo (e : Nat) (d : EDma) (s : State) : EDma × State :=
  let (d, s) := match d.ans with
    | some (v, bad) =>
      ({ d with ans := none, asked := none, pos := d.pos + 1, bad := d.bad || (bad && !d.toPool) },
        if d.toPool then s else spStore e (d.sp + 8 * d.pos) 8 v false s)
    | none => (d, s)
  if d.asked.isSome || d.len / 8 ≤ d.pos || s.pool.initWait.contains d.pool then (d, s)
  else
    let (v, bad, s) := if d.toPool then spWord e (d.sp / 8 + d.pos) false s else (0, false, s)
    let p := descOf s (eddySec e) d.pool
    let f := if d.toPool then (0, 0) else forwardOther s d.pool p (d.idx + d.pos)
    if bad then ({ d with fail := some (3, 0) }, s)
    else if f.1 = 0xFF#8 then ({ d with ans := some (f.2, false) }, s)
    else match askModel (.edma e) (b2n d.toPool) d.pool p (d.idx + d.pos) 0xFF v s f with
      | some (t, s) => ({ d with asked := some t }, s)
      | none => (d, s)

/-- Store a changed front descriptor. -/
def setFront (e : Nat) (d : EDma) (s : State) : State := modEddy e (fun x => { x with dmaQ := d :: x.dmaQ.drop 1 }) s

/-- Of the `n` words just moved, `starved` waited more than 1,024 cycles for the port (R331). -/
def countStarve (e starved n : Nat) (s : State) : State := bumpBy (Reg.eddyDmaStarve e) (min starved n) s

/-- DMA_TRANSFER_DONE: the descriptor at the front of the queue finishes, if a completion has a place (R338); `starved` of the
words it moved waited more than 1,024 cycles (R331). A VERSIONED pool that has shut since is refused (R300). -/
def dmaTransferDone (e starved : Nat) (s : State) : State :=
  let x := getEddy s e
  match x.dmaQ with
  | [] => s
  | d :: _ =>
    if !d.started || 8 ≤ x.dmaDone.length || s.dev.st == .shuttingDown then s
    else match d.fail with
      | some (c, p) => dmaComplete e d c p s
      | none =>
        let s := descTouch (eddySec e) d.pool s
        if d.toPool && versionedShut s (descOf s (eddySec e) d.pool) then dmaComplete e d 7 4 s
        else if dModel (descOf s (eddySec e) d.pool) then
          let was := d.pos
          let (d, s) := dmaModelGo e d s
          let s := countStarve e starved (d.pos - was) (setFront e d s)
          if d.fail.isSome then dmaComplete e d 3 0 s
          else if d.len / 8 ≤ d.pos then dmaComplete e d 0 (if d.bad then 3 else 0) s else s
        else if s.pool.initWait.contains d.pool then s
        else if d.toPool then
          let (c, s) := dmaOut e d (upTo (d.len / 8)) s
          dmaComplete e d c 0 (countStarve e starved (d.len / 8) s)
        else
          let (c, s) := dmaIn e d (upTo (d.len / 8)) 0 s
          dmaComplete e d 0 c (countStarve e starved (d.len / 8) s)

/-! ### Local registers (R350) -/

/-- Lines whose source condition still holds latch again (R373). -/
def relatch (e : Nat) (s : State) : State :=
  let x := getEddy s e
  let s := if x.dmaDone.isEmpty then s else latchIrq e 0 s
  let s := if (mget dInbox s.pool.inbox e).isEmpty then s else latchIrq e 2 s
  if (upTo 256).any (fun i => siteReads s e i && !qEmpty (qCfg s (siteQ e i)) (getQ s (siteQ e i))) then latchIrq e 12 s else s

/-- LEASE_STAT. -/
def leaseStat (s : State) (e : Nat) : Word :=
  let b := (upTo 64).find? (fun b => leased s (.spad e b))
  w32 ((match b with | some b => 2 ^ 31 + b | none => 0) + 2 ^ 30 * b2n (getEddy s e).preempted)

/-- A 4-byte load of the local register at offset `o`: what it returns and what the read does. -/
def localRead (e o : Nat) (s : State) : Word × State :=
  let x := getEddy s e
  if o = 0 then (x.dmaSp, s) else if o = 4 then (x.dmaPool, s) else if o = 8 then (x.dmaIdxLo, s)
  else if o = 0xC then (x.dmaIdxHi, s) else if o = 0x10 then (x.dmaLen, s)
  else if o = 0x18 then (w32 (x.dmaQ.length + x.dmaResult * 2 ^ 8), s)
  else if o = 0x1C then
    match x.dmaDone with
    | [] => (0, s)
    | (t, c, p) :: l => (w32 (c + t.toNat * 2 ^ 8 + p * 2 ^ 16 + 2 ^ 31), setEddy e { x with dmaDone := l } s)
  else if 0x40 ≤ o && o < 0x60 then (mget (fun _ => 0) x.ph ((o - 0x40) / 4), s)
  else if o = 0x80 then (x.irqPend.setWidth 32, s) else if o = 0x84 then (x.irqEn.setWidth 32, s)
  else if 0x90 ≤ o && o < 0xB0 then
    let j := (o - 0x90) / 4
    ((upTo 32).foldl (fun w k =>
      let i := 32 * j + k
      setBit w k (siteReads s e i && !qEmpty (qCfg s (siteQ e i)) (getQ s (siteQ e i)))) 0, s)
  else if o = 0xC0 then (x.timer.setWidth 32, setEddy e { x with timerHi := w32 (x.timer.toNat / 2 ^ 32) } s)
  else if o = 0xC4 then (x.timerHi, s) else if o = 0xC8 then (x.timerCmp, s)
  else if o = 0x100 then (leaseStat s e, setEddy e { x with preempted := false } s)
  else (0, s)

/-- A 4-byte store to the local register at offset `o`. -/
def localWrite (e o : Nat) (v : Word) (s : State) : State :=
  let x := getEddy s e
  if o = 0 then setEddy e { x with dmaSp := v &&& 0xFFFF#32 } s
  else if o = 4 then setEddy e { x with dmaPool := v &&& 0xFFFFF#32 } s
  else if o = 8 then setEddy e { x with dmaIdxLo := v } s
  else if o = 0xC then setEddy e { x with dmaIdxHi := v &&& 0x3F#32 } s
  else if o = 0x10 then setEddy e { x with dmaLen := v &&& 0x1FFFF#32 } s
  else if o = 0x14 then dmaGo e v s
  else if 0x40 ≤ o && o < 0x60 then
    setEddy e { x with ph := mset (fun _ => 0) x.ph ((o - 0x40) / 4) (v &&& 0x800FFFFF#32) } s
  else if o = 0x80 then relatch e (setEddy e { x with irqPend := x.irqPend &&& ~~~(v.setWidth 16) } s)
  else if o = 0x84 then setEddy e { x with irqEn := v.setWidth 16 } s
  else if o = 0xC8 then setEddy e { x with timerCmp := v } s
  else s

/-! ### Fetch and the loop buffer (R332, R334, R354) -/

/-- Fetch the instruction at PC: its word, or none where the fetch raised an exception or was a violation. -/
def fetch (e : Nat) (s : State) : Option Word × State :=
  let x := getEddy s e
  let a := x.pc.toNat
  if 0x10000 ≤ a then (none, eddyViolation e 1 a s)
  else if 0xF000 ≤ a && !x.secure then (none, eddyViolation e 2 a s)
  else if a % 4 != 0 then (none, eddyExc e 2 0 (some x.pc) s)
  else
    let kept := match x.loop with | some l => if l.live then l.words.find? (fun (p : Nat × Word) => p.1 = a) else none | none => none
    match kept with
    | some (_, w) => (some w, s)
    | none =>
      let (d, bad, s) := spWord e (a / 8) true s
      if bad then (none, eddyExc e 4 0 (some x.pc) s)
      else (some (w32 (fld d (32 * (a / 4 % 2)) 32)), s)

/-- Capture an instruction of the loop's pass (R334). -/
def loopCapture (a : Nat) (w : Word) (x : Eddy) : Eddy :=
  match x.loop with
  | some l =>
    if !l.live && l.lo ≤ a && a ≤ l.hi && !l.words.any (fun p => p.1 = a) then
      { x with loop := some { l with words := l.words ++ [(a, w)] } }
    else x
  | none => x

/-- A transfer of control from `b` to `t`: a near backward branch starts the capture, or the runs from the buffer; a
transfer out of the range empties it (R334). -/
def loopBranch (isBranch : Bool) (b t : Nat) (x : Eddy) : Eddy :=
  match x.loop with
  | some l =>
    if isBranch && t = l.lo && b = l.hi then { x with loop := some { l with live := true } }
    else if t < l.lo || l.hi < t then
      { x with loop := if isBranch && t ≤ b && b - t ≤ 252 then some { lo := t, hi := b } else none }
    else if isBranch && t ≤ b && b - t ≤ 252 then { x with loop := some { lo := t, hi := b } }
    else x
  | none => if isBranch && t ≤ b && b - t ≤ 252 then { x with loop := some { lo := t, hi := b } } else x

/-- Whether the eddy may issue an instruction now: RUNNING, no HALT waiting, no interrupt due, the clocked parts acting (R423,
R425). -/
def mayIssueE (s : State) (x : Eddy) : Bool :=
  x.st == .running && !x.haltReq && (irqDue x).isNone && clockedUp s && !s.dev.inReset

/-- Issue the instruction whose word is `w` under `mask`: the word fetched at PC must be it, and the registers it
reads or writes must not be pending. `f` answers none where the instruction waits. -/
def issue (e : Nat) (w mask : Word) (regs : List Nat) (f : Eddy → State → Option State) (s : State) : State :=
  let x := getEddy s e
  if !mayIssueE s x then s
  else match fetch e s with
    | (none, t) => t
    | (some v, t) =>
      if v &&& mask != w then s
      else if regs.any (pendingReg x) then s
      else
        let t := modEddy e (loopCapture x.pc.toNat v) t
        match f (getEddy t e) t with
        | some t => t
        | none => s

/-- Go on with the next instruction. -/
def nextPc (x : Eddy) : Eddy := { x with pc := x.pc + 4#32 }

end Sys2Proof.Machine
end

