-- ==== Sys2Proof/Machine/Host.lean ====
section
/-! DEFINITION. The host port: contexts and the pool window, held accesses, host data registers of queues, the
scratchpad aperture, DMA engines and the resets of the port (chapter Host Port). -/

namespace Sys2Proof.Machine

/-! ### Access in each device state (R385) -/

/-- Why host masters are refused now: 0 served, 3 HOST_NOT_READY, 4 HOST_NOT_AVAILABLE. `stage` for the staging area. -/
def hostShut (s : State) (stage : Bool) : Nat :=
  if s.dev.st == .shuttingDown then 4
  else if s.dev.inReset then 3
  else if stage then (if s.ldr.pow == .over then 0 else 3)
  else if clockedUp s then 0 else 3

/-- Count a refusal by its HOST_ code (R390). -/
def countHost (code : Nat) (s : State) : State :=
  match code with
  | 2 => bump Reg.hostLockedCount s
  | 3 => bump Reg.hostNotReadyCount s
  | 4 => bump Reg.hostNaCount s
  | 0x20 => bump Reg.hostRangeCount s
  | _ => s

/-- A host read completes with data. -/
def hostData (v : BitVec 64) (bad : Bool) (s : State) : State :=
  let s := { s with host := { s.host with data := v, cpl := if bad then .poisoned else .ok }, rdata := v.setWidth 32 }
  if bad then bump Reg.hostUe s else s

/-- A host read completes with Completer Abort, which AER records (R378; PRESUMED, log 196). -/
def hostAbort (s : State) : State :=
  { s with host := { s.host with data := 0, cpl := .abort, aer := s.host.aer ||| 0x8000#32 }, rdata := 0 }

/-- A refused access: a read is aborted, a write discarded. -/
def hostRefuse (read : Bool) (code : Nat) (s : State) : State :=
  let s := countHost code s
  if read then hostAbort s else s

/-! ### Contexts and slices (R381, R382) -/

def ctxCfg (s : State) (c : Nat) : Word := getReg s (Reg.ctxCfg c)
def ctxStage (s : State) (c : Nat) : Bool := bitAt (ctxCfg s c) 30
def ctxBase (s : State) (c : Nat) : Nat := (getReg s (Reg.ctxBaseLo c)).toNat + fld (getReg s (Reg.ctxBaseHi c)) 0 3 * 2 ^ 32

/-- The first word of the image staging area (R296). -/
def stageWord : Nat := 0x40000000 / 8

/-- The wait of a BAR2 access for a model. -/
def askHost (c : Nat) (tag : Option Nat) (a : HostAcc) (s : State) : State :=
  { s with host := { s.host with ask := s.host.ask ++ [(c, tag, a)] } }

/-- A word passes entry queue `k` of the host port's crossing: its check corrects one bit and reports two (R283, R532). -/
def hostPass (k : Nat) (d : BitVec 64) (s : State) : BitVec 64 × Bool × State :=
  let err := mget dFifo s.pool.fifo k
  if err = 0 then (d, false, s)
  else
    let n := popc 72 err.toNat
    let fifo := merase s.pool.fifo k
    let t : State := { s with pool := { s.pool with fifo := fifo } }
    (eccData n s.free (d ^^^ err.setWidth 64) (err.setWidth 64), eccVerdict n s.free == .ue, if 2 < n then drawFree t else t)

/-- A word read for the host leaves through its crossing. -/
def hostOutWord (r : BitVec 64 × Bool × State) : BitVec 64 × Bool × State :=
  let f := hostPass (fifoNo .hostOut) r.1 r.2.2
  (f.1, r.2.1 || f.2.1, f.2.2)

/-- A word from the host is stored at `wa` by `store`; one that its crossing lost is stored as uncorrectable (log 152). -/
def hostInWord (wa : Nat) (v : BitVec 64) (store : BitVec 64 → State → State) (s : State) : State :=
  let f := hostPass (fifoNo .hostIn) v s
  let s := store f.1 f.2.2
  if f.2.1 then setHbm wa { data := (hbmAt s wa).data, err := 3#72 <<< 64 } s else s

/-- Words in a slice of BAR2 (R381). -/
def bar2Words (s : State) : Nat := 2 ^ (s.host.bar2 + 21)

/-- An access through BAR2 by a context that is enabled and not frozen: steps 3 to 7 of R381. -/
def bar2Serve (c x : Nat) (wr : Option (BitVec 8 × BitVec 64)) (s : State) : State :=
  let a : HostAcc := match wr with | some (be, v) => .bar2Write x be v | none => .bar2Read x
  let rd := wr.isNone
  if ctxStage s c then
    if 2 ^ 28 ≤ ctxBase s c + x then hostRefuse rd 0x20 s
    else
      let wa := stageWord + ctxBase s c + x
      match wr with
      | some (be, v) => if stageLocked s then hostRefuse rd 2 s else hostInWord wa v (hbmWrite wa be) s
      | none => let (v, bad, s) := hostOutWord (hbmRead wa s); hostData v bad s
  else
    let n := fld (ctxCfg s c) 0 20
    let d := descOf s 8 n
    let s := descTouch 8 n s
    let idx := ctxBase s c + x
    if dDepth d ≤ idx then hostRefuse rd 0x20 s
    else if dKind d = 0 then hostRefuse rd 5 (poolViolation 0 c 4 n idx s)
    else if !dRight d (if rd then 4 else 5) then hostRefuse rd 5 (poolViolation 0 c 5 n idx s)
    else if !rd && versionedShut s d then s
    else if s.pool.initWait.contains n then askHost c none a s
    else
      let f := forwardOther s n d idx
      if dModel d && (!rd || f.1 != 0xFF#8) then
        let q := match wr with | some (be, v) => (be, v) | none => (0xFF#8, 0#64)
        match askModel (.host c) (b2n (!rd)) n d idx q.1 q.2 s (if rd then f else (0, 0)) with
        | some (t, s) => askHost c (some t) a s
        | none => askHost c none a s
      else match wr with
        | some (be, v) => hostInWord (poolAddr d idx) v (otherWrite d idx be) s
        | none => let (v, bad, s) := hostOutWord (otherRead n d idx s); hostData v bad s

/-! ### Host-master regions of BAR0 -/

/-- A doorbell rings lines of an eddy; a FAILED eddy discards it (R382). -/
def ringDoorbell (e lines : Nat) (s : State) : State :=
  modEddy e (fun x => { x with irqPend := x.irqPend ||| BitVec.ofNat 16 (lines % 256 * 16) }) s
def ctxDoorbell (v : Word) (s : State) : State :=
  let e := fld v 0 9
  if (getEddy s e).st == .failed then bump Reg.hostUnmapped s else ringDoorbell e (fld v 16 8) s

/-- A word of the scratchpad aperture (R349). -/
def aperture (e : Nat) (we : Bool) (off : Nat) (v : Word) (s : State) : State :=
  let ap := fld (getReg s (Reg.eddyAperture e)) 0 2
  let a := 0x4000 * ap + 4 * off
  if 0xF000 ≤ a || (claimOwner s 5 e).isSome then
    let s := bump (Reg.eddyRefused e) s
    if we then s else hostData 0 false s
  else if we then spStore e a 4 (v.setWidth 64) false s
  else let (d, bad, s) := spLoad e a 4 false s; hostData d bad s

/-- A host push (R274); `hold` leaves it in the write crossing until its REQ arrives. -/
def qhPush (hold : Bool) (q : Nat) (v : Word) (s : State) : State :=
  let s := revoke (.queue q) s
  if fld (qCfg s q) 8 2 != 3 then qResult q 6 s
  else
    let d := (getReg s (Reg.qhDataLo q)).toNat + (getReg s (Reg.qhDataHi q)).toNat * 2 ^ 32
    if hold then hostPushHold q (BitVec.ofNat 64 d) (bitAt v 0) s else hostPushNow q (BitVec.ofNat 64 d) (bitAt v 0) s

/-- A host pop (R274): payload latched, TAG, UNDERRUN and POISON returned. -/
def qhPop (q : Nat) (s : State) : State :=
  let s := revoke (.queue q) s
  if fld (qCfg s q) 10 2 != 3 then hostData 0 false (qResult q 6 s)
  else
    let (r, s) := popWord q s
    let s := setReg (Reg.qhPopHi q) (w32 (r.pay.toNat / 2 ^ 32)) (setReg (Reg.qhPopLo q) (r.pay.setWidth 32) s)
    hostData (BitVec.ofNat 64 (r.tag % 4 + 4 * b2n r.underrun + 8 * b2n r.poison)) r.poison s

/-- Perform an access of a context, once it is neither refused nor held. -/
def hostPerform (c : Nat) (a : HostAcc) (s : State) : State :=
  match a with
  | .bar2Read x => if bitAt (ctxCfg s c) 31 then bar2Serve c x none s else hostRefuse true 1 (bump Reg.hostUnmapped s)
  | .bar2Write x be v => if bitAt (ctxCfg s c) 31 then bar2Serve c x (some (be, v)) s else bump Reg.hostUnmapped s
  | .doorbell v => ctxDoorbell v s
  | .aperture e we off v => aperture e we off v s
  | .qPush q v => qhPush false q v s
  | .qHold q v => qhPush true q v s
  | .qPop q => qhPop q s
  | .regWrite o v => setReg o v (revoke (.queue ((o - 0x400000) / 256)) s)
  | .regRead o => hostData ((getReg s o).setWidth 64) false (revoke (.queue ((o - 0x400000) / 256)) s)

/-- The same access, a push staying in the write crossing (R278). -/
def HostAcc.held (a : HostAcc) : HostAcc := match a with | .qPush q v => .qHold q v | a => a

def HostAcc.isRead (a : HostAcc) : Bool :=
  match a with
  | .bar2Read _ | .qPop _ | .regRead _ => true
  | .aperture _ we _ _ => !we
  | _ => false

/-- Whether the access goes to the staging area. -/
def accStage (s : State) (c : Nat) (a : HostAcc) : Bool :=
  match a with | .bar2Read _ | .bar2Write _ _ _ => ctxStage s c | _ => false

/-- In SHUTTING_DOWN an aperture access shows EDDY_NOT_AVAILABLE at its eddy too (R344, R351, R385). -/
def noteShut (code : Nat) (a : HostAcc) (s : State) : State :=
  match a with
  | .aperture e _ _ _ => if code = 4 then modEddy e (fun x => { x with result := 5 }) s else s
  | _ => s

/-- Perform an access of a context that is not held, unless the device state refuses it (R385). -/
def hostServe (c : Nat) (a : HostAcc) (s : State) : State :=
  let code := hostShut s (accStage s c a)
  if code != 0 then hostRefuse a.isRead code (noteShut code a s) else hostPerform c a s

/-- An access of a host context (R381 steps 1 and 2, R384, R385). -/
def hostAccess (c : Nat) (a : HostAcc) (s : State) : State :=
  let unmapped := match a with | .bar2Read _ | .bar2Write _ _ _ => !bitAt (ctxCfg s c) 31 | _ => false
  if hostShut s (accStage s c a) = 0 && !unmapped && isFrozen s 0 c then
    if a.isRead then { s with host := { s.host with held := s.host.held ++ [(c, a)] } }
    else if (s.host.held.filter (fun h => h.1 = c && !h.2.isRead)).length < 64 then
      { s with host := { s.host with held := s.host.held ++ [(c, a)] } }
    else bump Reg.hostFrozenDrop s
  else hostServe c a s

/-- After UNFREEZE, held accesses are performed in order (R384); a new freeze holds what is left. -/
def releaseHeld' (c : Nat) : List (Nat × HostAcc) → State → State
  | [], s => s
  | h :: l, s =>
    if h.1 = c && !isFrozen s 0 c then releaseHeld' c l (hostServe c h.2 s)
    else releaseHeld' c l { s with host := { s.host with held := s.host.held ++ [h] } }

def hostUnfreeze (c : Nat) (s : State) : State :=
  releaseHeld' c s.host.held { s with host := { s.host with held := [] } }

/-- A read held for 10 ms is aborted (R384). -/
def frozenReadTimeout (c : Nat) (s : State) : State :=
  match s.host.held.find? (fun h => h.1 = c && h.2.isRead) with
  | some h => bump Reg.hostFrozenAbort (hostAbort { s with host := { s.host with held := s.host.held.erase h } })
  | none => s

/-- A write of CTX_CFG, CTX_BASE_LO or CTX_BASE_HI: refused for a claimed context (R382). -/
def ctxCfgWrite (c reg : Nat) (v : Word) (s : State) : State :=
  if (claimOwner s 6 c).isSome then s
  else if reg = 0 then setReg (Reg.ctxCfg c) (v &&& 0xC00FFFFF#32) s
  else if reg = 1 then setReg (Reg.ctxBaseLo c) v s
  else setReg (Reg.ctxBaseHi c) (v &&& 7#32) s

/-- An aperture access has waited 16,384 cycles: refused with HOST_NOT_READY (R348, R385). -/
def apertureStarved (e : Nat) (we : Bool) (s : State) : State :=
  hostRefuse (!we) 3 (bump (Reg.eddyHostStarved e) s)

/-! ### DMA engines (R387–R389) -/

/-- The engine has nothing to do. -/
def dmaIdle (s : State) (e : Nat) : Bool := getReg s (Reg.dmaHead e) == getReg s (Reg.dmaTail e)

/-- DMA_STAT bits 15:8. -/
def dmaRefuse (e code : Nat) (s : State) : State :=
  setRegFld (Reg.hostDmaStat e) 8 8 code (if code = 0x20 then bump Reg.hostRangeCount s else s)

def dmaTailWrite (e : Nat) (v : Word) (s : State) : State :=
  let t := fld v 0 12
  if fld (getReg s (Reg.dmaRingSize e)) 0 13 ≤ t then dmaRefuse e 0x20 s else setReg (Reg.dmaTail e) (w32 t) s

def dmaRingWrite (e reg : Nat) (v : Word) (s : State) : State :=
  if !dmaIdle s e then dmaRefuse e 8 s
  else if reg = 0 then setReg (Reg.dmaRingLo e) (v &&& 0xFFFFFFE0#32) s
  else if reg = 1 then setReg (Reg.dmaRingHi e) v s
  else if fld v 0 13 = 0 || 4096 < fld v 0 13 then dmaRefuse e 0x20 s
  else setReg (Reg.dmaRingSize e) (v &&& 0x1FFF#32) s

/-- What the checks of a descriptor decide (R388), after the device state (R385): codes, and a violation's cause. -/
def hdmaCheck (s : State) (d : HDma) (bad : Bool) : Option (Nat × Nat) × Nat :=
  let shut := hostShut s d.stage
  let p := descOf s 8 d.pool
  if shut != 0 then (some (shut, 0), 0)
  else if d.len = 0 then (some (0x22, 0), 0)
  else if d.len % 8 != 0 || d.addr % 8 != 0 || d.off % 8 != 0 || bad then (some (1, 0), 0)
  else if d.stage then
    if 2 ^ 31 < d.off + d.len then (some (0x20, 0), 0)
    else if !d.toHost && stageLocked s then (some (2, 0), 0)
    else (none, 0)
  else if dDepth p * 8 < d.off + d.len then (some (0x20, 0), 0)
  else if dKind p = 0 then (some (5, 1), 4)
  else if !dRight p (if d.toHost then 4 else 5) then (some (5, 2), 5)
  else if !d.toHost && versionedShut s p then (some (5, 4), 0)
  else (none, 0)

/-- DMA_DESCRIPTOR_START: the engine takes the descriptor `w` at DMA_HEAD and checks it. -/
def dmaDescStart (e : Nat) (w : BitVec 256) (s : State) : State :=
  if dmaIdle s e || isFrozen s 1 e || s.host.cur.any (fun p => p.1 = e) || s.dev.inReset then s
  else
    let ctl := fld w 160 32
    let d : HDma := { addr := fld w 0 64, off := fld w 64 38, len := fld w 128 32, pool := ctl % 2 ^ 20,
                      toHost := ctl / 2 ^ 24 % 2 = 1, stage := ctl / 2 ^ 25 % 2 = 1, irq := ctl / 2 ^ 26 % 2 = 1 }
    let bad := fld w 102 26 != 0 || ctl / 2 ^ 20 % 16 != 0 || ctl / 2 ^ 27 != 0
    let s := if d.stage then s else descTouch 8 d.pool s
    let (fail, cause) := hdmaCheck s d bad
    let code := match fail with | some c => c.1 | none => 0
    let s := countHost code s
    let s := { s with host := { s.host with cur := mput s.host.cur e { d with fail := fail } } }
    if cause = 0 then s else poolViolation 1 e cause d.pool (d.off / 8) s

/-- Words toward the host: whether one was uncorrectable. -/
def hdmaOut (d : HDma) : List Nat → Bool → State → Bool × State
  | [], b, s => (b, s)
  | i :: l, b, s =>
    let (v, bad, s) := hostOutWord (if d.stage then hbmRead (stageWord + d.off / 8 + i) s
      else otherRead d.pool (descOf s 8 d.pool) (d.off / 8 + i) s)
    hdmaOut d l (b || bad) { s with host := { s.host with out := s.host.out ++ [(d.addr + 8 * i, v)] } }

/-- Words from the host. -/
def hdmaIn (d : HDma) (data : List (BitVec 64)) : List Nat → State → State
  | [], s => s
  | i :: l, s =>
    let v := data.getD i 0
    let p := descOf s 8 d.pool
    hdmaIn d data l (if d.stage then hostInWord (stageWord + d.off / 8 + i) v (hbmWrite (stageWord + d.off / 8 + i) 0xFF) s
      else hostInWord (poolAddr p (d.off / 8 + i)) v (otherWrite p (d.off / 8 + i) 0xFF) s)

/-- Bring a transfer with a MODEL pool on by one word. -/
def hdmaModelGo (e : Nat) (d : HDma) (data : List (BitVec 64)) (s : State) : HDma × State :=
  let (d, s) := match d.ans with
    | some (v, bad) =>
      let s := if d.toHost then { s with host := { s.host with out := s.host.out ++ [(d.addr + 8 * d.pos, v)] } } else s
      ({ d with ans := none, asked := none, pos := d.pos + 1, bad := d.bad || (bad && d.toHost) }, s)
    | none => (d, s)
  if d.asked.isSome || d.len / 8 ≤ d.pos || s.pool.initWait.contains d.pool then (d, s)
  else
    let p := descOf s 8 d.pool
    let f := if d.toHost then forwardOther s d.pool p (d.off / 8 + d.pos) else (0, 0)
    if f.1 = 0xFF#8 then ({ d with ans := some (f.2, false) }, s)
    else match askModel (.dma e) (b2n (!d.toHost)) d.pool p (d.off / 8 + d.pos) 0xFF (data.getD d.pos 0) s f with
      | some (t, s) => ({ d with asked := some t }, s)
      | none => (d, s)

/-- The engine writes STATUS, advances DMA_HEAD and raises its vector (R388). -/
def hdmaComplete (e : Nat) (d : HDma) (code pool : Nat) (s : State) : State :=
  let ring := (getReg s (Reg.dmaRingLo e)).toNat + (getReg s (Reg.dmaRingHi e)).toNat * 2 ^ 32
  let hd := (getReg s (Reg.dmaHead e)).toNat
  let st := BitVec.ofNat 64 (code + pool * 2 ^ 16 + 2 ^ 31)
  let cur := merase s.host.cur e
  let s := { s with host := { s.host with cur := cur, out := s.host.out ++ [(ring + 32 * hd + 28, st)] } }
  let s := setReg (Reg.dmaHead e) (w32 ((hd + 1) % fld (getReg s (Reg.dmaRingSize e)) 0 13)) s
  let s := bump (Reg.dmaDoneCount e) s
  let s := if code = 0 || code = 0x22 then s else bump (Reg.dmaErrCount e) s
  if d.irq then raiseVec (128 + e) s else s

/-- DMA_DESCRIPTOR_DONE: the transfer in progress is carried out and completes (R386, R388); `data` is what host memory
holds at HOST_ADDR for a transfer to the device. The staging area's lock and a VERSIONED pool's are tested again as the
words land (R300, R416). -/
def dmaDescDone (e : Nat) (data : List (BitVec 64)) (s : State) : State :=
  match s.host.cur.find? (fun p => p.1 = e) with
  | none => s
  | some (_, d) =>
    let words := upTo (d.len / 8)
    match d.fail with
    | some (c, p) => hdmaComplete e d c p s
    | none =>
      let s := if d.stage then s else descTouch 8 d.pool s
      if d.stage && !d.toHost && stageLocked s then hdmaComplete e d 2 0 (countHost 2 s)
      else if !d.stage && !d.toHost && versionedShut s (descOf s 8 d.pool) then hdmaComplete e d 5 4 s
      else if !d.stage && dModel (descOf s 8 d.pool) then
        let (d, s) := hdmaModelGo e d data s
        if d.len / 8 ≤ d.pos then hdmaComplete e d (if d.bad then 6 else 0) (if d.bad then 3 else 0) s
        else { s with host := { s.host with cur := mput s.host.cur e d } }
      else if !d.stage && s.pool.initWait.contains d.pool then s
      else if d.toHost then
        let (bad, s) := hdmaOut d words false s
        hdmaComplete e d (if bad then 6 else 0) (if bad then 3 else 0) s
      else hdmaComplete e d 0 0 (hdmaIn d data words s)

/-! ### Resets of the port (R383) -/

/-- Registers of the engines, the context pages and the MSI-X table. -/
def portReg (o : Nat) : Bool :=
  (decide (0x800000 ≤ o) && decide (o < 0x840000)) || (decide (0x841000 ≤ o) && decide (o < 0x842000)) ||
  (decide (0x880000 ≤ o) && decide (o < 0x890000))

/-- HOST_PORT_RESET: a Function Level Reset, a hot reset or a loss of the link. -/
def hostPortReset (s : State) : State :=
  { s with regs := s.regs.filter (fun p => !portReg p.1), msix := { s.msix with pend := 0 },
           host := { s.host with held := [], ask := [], cur := [] } }

/-- HOST_LINK_UP (R390, R515); a width, rate or mode that R378 does not support is no such event. -/
def hostLinkUp (rate width flit : Nat) (s : State) : State :=
  if 3 < rate || !([1, 2, 4, 8, 16].contains width) || flit != b2n (rate == 3) then s
  else setReg Reg.hostLink (w32 (rate + width * 2 ^ 4 + flit * 2 ^ 10)) { s with host := { s.host with training := false } }

/-! ### Commands -/

/-- An access `x` words past the start of slice `c`: the slice it lies in decides its context (R381), and past BAR2's end
nothing answers. -/
def bar2Access (c x : Nat) (acc : Nat → HostAcc) (s : State) : State :=
  let n := bar2Words s
  if 64 ≤ c + x / n then s else hostAccess (c + x / n) (acc (x % n)) s

def execBar2Read (c : Fin 64) (x : BitVec 29) (s : State) : Res := .next (bar2Access c x.toNat .bar2Read s)
def execBar2Write (c : Fin 64) (x : BitVec 29) (be : BitVec 8) (v : BitVec 64) (s : State) : Res :=
  .next (bar2Access c x.toNat (fun x => .bar2Write x be v) s)
def execCtxCfgWrite (c : Fin 64) (reg : Fin 3) (v : Word) (s : State) : Res := .next (mgmt (ctxCfgWrite c reg v) s)
def execCtxDoorbellWrite (c : Fin 64) (v : Word) (s : State) : Res := .next (hostAccess c (.doorbell v) s)
def execApertureAccess (e : Fin 512) (we : Bool) (off : BitVec 12) (v : Word) (s : State) : Res :=
  .next (hostAccess 0 (.aperture e we off.toNat v) s)
def execApertureStarved (a : StarvedAccess) (s : State) : Res := .next (apertureStarved a.eddy a.write s)
def execQhPushWrite (q : Fin 2048) (v : Word) (s : State) : Res := .next (hostAccess 0 (.qPush q v) s)
def execQhPopRead (q : Fin 2048) (s : State) : Res := .next (hostAccess 0 (.qPop q) s)
def execFrozenReadTimeout (c : Fin 64) (s : State) : Res := .next (frozenReadTimeout c s)
def execDmaTailWrite (e : Fin 16) (v : Word) (s : State) : Res := .next (mgmt (dmaTailWrite e v) s)
def execDmaRingWrite (e : Fin 16) (reg : Fin 3) (v : Word) (s : State) : Res := .next (mgmt (dmaRingWrite e reg v) s)
def execDmaDescriptorStart (e : Fin 16) (d : BitVec 256) (s : State) : Res := .next (dmaDescStart e d s)
def execDmaDescriptorDone (e : Fin 16) (data : List (BitVec 64)) (s : State) : Res := .next (dmaDescDone e data s)
def execHostPortReset (s : State) : Res := .next (hostPortReset s)
/-- PCIE_PERST_N is released: the link trains once PORST_N is released too (R515). -/
def execPciePerstNRelease (s : State) : Res :=
  .next { s with host := { s.host with perstHigh := true, training := s.host.training || !s.dev.inReset } }
def execHostLinkUp (rate : BitVec 4) (width : BitVec 6) (flit : Bool) (s : State) : Res :=
  .next (hostLinkUp rate.toNat width.toNat (b2n flit) s)

end Sys2Proof.Machine
end

