-- ==== Sys2Proof/Machine/EddyIsa.lean ====
section
/-! DEFINITION. The eddy instructions, and the commands of eddies (chapters Eddy Engines; Eddy Instruction Set). -/

namespace Sys2Proof.Machine

/-- Every bit of an instruction word. -/
def allBits : Word := 0xFFFFFFFF#32

/-! ### Arithmetic and logic (R357–R359) -/

/-- An operation that writes g[rd] and, where `fl` gives them, FLAGS. -/
def aluDone (e rd : Nat) (r : BitVec 64) (fl : Option (BitVec 4)) (s : State) : State :=
  modEddy e (fun x =>
    let x := nextPc (setG rd r x)
    match fl with | some f => { x with flags := f } | none => x) s

/-- A register operation of OP 0x00: `op` gives the result and the FLAGS (R357). -/
def regOp (e func rd ra rb : Nat) (f : Bool) (op : BitVec 64 → BitVec 64 → Bool → BitVec 64 × BitVec 4) (s : State) : State :=
  issue e (encR 0 rd ra rb (b2n f) func) allBits [rd, ra, rb] (fun x s =>
    let r := op (getG x ra) (getG x rb) (flagC x.flags)
    some (aluDone e rd r.1 (if f then some r.2 else none) s)) s

/-- A result with the FLAGS of an operation other than a sum, a difference or a shift. -/
def logic (r : BitVec 64) : BitVec 64 × BitVec 4 := (r, flagsLogic r)
/-- A sum or difference with its FLAGS. -/
def arith (r : BitVec 64 × Bool × Bool) : BitVec 64 × BitVec 4 := (r.1, flags3 r)
/-- A shift by the low 6 bits of the count, with its FLAGS. -/
def shifted (k : Shift) (a b : BitVec 64) : BitVec 64 × BitVec 4 :=
  let n := b.toNat % 64
  (shiftRes k a n, flagsShift k a n)

/-- An immediate operation that leaves FLAGS. -/
def immOp (e op rd ra imm : Nat) (f : BitVec 64 → BitVec 64) (s : State) : State :=
  issue e (encI op rd ra imm) allBits [rd, ra] (fun x s => some (aluDone e rd (f (getG x ra)) none s)) s

/-- sext(imm16) and zext(imm16). -/
def sx16 (imm : BitVec 16) : BitVec 64 := imm.signExtend 64
def zx16 (imm : BitVec 16) : BitVec 64 := imm.setWidth 64

/-- Leading zeros of a 64-bit word. -/
def clz (a : BitVec 64) : BitVec 64 := BitVec.ofNat 64 (clzN 64 a.toNat)
/-- 1 bits of a 64-bit word. -/
def popcount (a : BitVec 64) : BitVec 64 := BitVec.ofNat 64 (popc 64 a.toNat)
/-- 1 or 0 as a register value. -/
def bit64 (b : Bool) : BitVec 64 := BitVec.ofNat 64 (b2n b)

/-! ### Control transfer (R360) -/

/-- Go to `t` from the instruction at PC. -/
def jump (isBranch : Bool) (t : Word) (x : Eddy) : Eddy :=
  let x := loopBranch isBranch x.pc.toNat t.toNat x
  { x with pc := t }

/-- A branch by a word offset: taken, or on to the next instruction. -/
def branch (e : Nat) (taken : Bool) (off : Word) (s : State) : State :=
  modEddy e (fun x => if taken then jump true (x.pc + 4#32 * off) x else nextPc x) s

/-! ### Loads and stores (R361, R329, R330) -/

/-- Where an access of `n` bytes goes. -/
inductive Region where
  | spad | secure | loc | queue (site off : Nat) | inbox | access | unmapped
  deriving DecidableEq, Repr

/-- The region of an access at `a` (R329, R361), `sec` in secure mode. An access that runs past the end of its region is no access
of that region: where any byte of it is closed to the eddy or unmapped it is the violation, which R377 puts before an exception
(R335, R345); else it raises ACCESS. -/
def regionOf (sec : Bool) (a n : Nat) : Region :=
  if a < 0x10000 then
    if 0xF000 < a + n && !sec then .secure else if 0x10000 < a + n then .access else .spad
  else if a < 0x11000 then if 0x11000 < a + n then .unmapped else if n = 4 && a % 4 = 0 then .loc else .access
  else if 0x20000 ≤ a && a < 0x22000 then if 0x22000 < a + n then .unmapped else .queue ((a - 0x20000) / 32) (a % 32)
  else if 0x30000 ≤ a && a < 0x30100 then if 0x30100 < a + n then .unmapped else if n = 4 && a = 0x30000 then .inbox else .access
  else .unmapped

/-- ACCESS at an address. -/
def excAccess (e : Nat) (a : Word) (s : State) : State := eddyExc e 3 0 (some a) s

/-- A loaded value reaches g[rd]. -/
def loaded (e rd : Nat) (v : BitVec 64) (s : State) : State := modEddy e (fun x => nextPc (setG rd v x)) s

/-- A load of `n` bytes at `a` into g[rd]. -/
def doLoad (e rd : Nat) (a : Word) (n : Nat) (s : State) : State :=
  match regionOf (getEddy s e).secure a.toNat n with
  | .spad =>
    let (v, bad, s) := spLoad e a.toNat n true s
    if bad then eddyExc e 4 0 (some a) s else loaded e rd v s
  | .secure => eddyViolation e 2 a.toNat s
  | .loc => let (v, s) := localRead e (a.toNat - 0x10000) s; loaded e rd (v.setWidth 64) s
  | .queue i o =>
    if n = 8 && o = 0x10 then
      if siteReads s e i then let (v, s) := eddyPop e i s; loaded e rd v s else eddyViolation e 3 a.toNat s
    else if n = 4 && o = 0x18 then
      if siteReads s e i || siteWrites s e i then loaded e rd ((qinfo s e i).setWidth 64) s else eddyViolation e 3 a.toNat s
    else excAccess e a s
  | .inbox => loaded e rd (BitVec.ofNat 64 (mget dInbox s.pool.inbox e).length) s
  | .access => excAccess e a s
  | .unmapped => eddyViolation e 1 a.toNat s

/-- The store is done; a DMA violation leaves EDDY_PC at the next instruction too (R346). -/
def goOn (e : Nat) (s : State) : State := modEddy e nextPc s

/-- A store of the low `n` bytes of `v` at `a`. -/
def doStore (e : Nat) (a : Word) (n : Nat) (v : BitVec 64) (s : State) : State :=
  match regionOf (getEddy s e).secure a.toNat n with
  | .spad => goOn e (spStore e a.toNat n v true s)
  | .secure => eddyViolation e 2 a.toNat s
  | .loc => goOn e (localWrite e (a.toNat - 0x10000) (v.setWidth 32) s)
  | .queue i o =>
    if n = 8 && (o = 0 || o = 8) then
      if siteWrites s e i then goOn e (eddyPush e i v (o = 8) s) else eddyViolation e 3 a.toNat s
    else excAccess e a s
  | .inbox => excAccess e a s
  | .access => excAccess e a s
  | .unmapped => eddyViolation e 1 a.toNat s

/-- The address of a load or store: bits 31:0 of g[ra] + sext(imm16). -/
def effAddr (x : Eddy) (ra : Nat) (imm : BitVec 16) : Word := (getG x ra + sx16 imm).setWidth 32

/-- A load instruction. -/
def loadOp (e op rd ra : Nat) (imm : BitVec 16) (n : Nat) (s : State) : State :=
  issue e (encI op rd ra imm.toNat) allBits [rd, ra] (fun x s => some (doLoad e rd (effAddr x ra imm) n s)) s

/-- A store instruction. -/
def storeOp (e op rd ra : Nat) (imm : BitVec 16) (n : Nat) (s : State) : State :=
  issue e (encI op rd ra imm.toNat) allBits [rd, ra] (fun x s => some (doStore e (effAddr x ra imm) n (getG x rd) s)) s

/-- The load (OP 0x1A) or store (OP 0x1E) of 4 bytes at PC, if its address is the local register at `o`: the word, or
none. -/
def localAt (s : State) (e op o : Nat) : Option Word :=
  let x := getEddy s e
  let (d, _, _) := spWord e (x.pc.toNat / 8) true s
  let w := w32 (fld d (32 * (x.pc.toNat / 4 % 2)) 32)
  if opOf w = op && effAddr x (raOf w) (BitVec.ofNat 16 (immOf w)) == w32 (0x10000 + o) then some w else none

/-- Run the 4-byte load or store at PC whose address is the local register at `o`. -/
def runLocal (e op o : Nat) (s : State) : State :=
  match localAt s e op o with
  | some w =>
    let imm := BitVec.ofNat 16 (immOf w)
    if op = 0x1A then loadOp e op (rdOf w) (raOf w) imm 4 s else storeOp e op (rdOf w) (raOf w) imm 4 s
  | none => s

/-! ### Queue instructions (R362) -/

/-- The violation of a queue instruction names the site's place in the queue window. -/
def siteViolation (e i : Nat) (s : State) : State := eddyViolation e 3 (0x20000 + 32 * i) s

/-- Write g[rs], then g[rd], and go on. -/
def popped (e rd rs i : Nat) (s : State) : State :=
  let (v, s) := eddyPop e i s
  let q := (qinfo s e i).setWidth 64
  modEddy e (fun x => nextPc (setG rd v (setG rs q x))) s

/-- QFLUSH: Q_OK, or Q_DISCONNECTED where the flush is refused (R260). -/
def qFlushOp (e rd i : Nat) (s : State) : State :=
  let linked := qLinked (getQ s (siteQ e i))
  loaded e rd (BitVec.ofNat 64 (if linked then 0 else 4)) (flushAsk (siteQ e i) s)

/-- QSTAT's value. -/
def qStatVal (s : State) (e i : Nat) : BitVec 64 :=
  let q := siteQ e i
  let w := qCfg s q
  let depth := if siteReads s e i then qDr w (getQ s q) else qDw w (getQ s q)
  BitVec.ofNat 64 ((qinfo s e i).toNat % 512 + depth % 2 ^ 14 * 2 ^ 16)

/-! ### Pool instructions (R363–R367) -/

/-- What the checks of R363 decide. -/
inductive PoolVerdict where
  | handle | range | violation (cause : Nat) | busy | kind | ok
  deriving DecidableEq, Repr

/-- The checks of R363, in order. -/
def poolChecks (s : State) (e h idx : Nat) (rd wr atom : Bool) : PoolVerdict :=
  let p := mget (fun _ => 0) (getEddy s e).ph h
  let d := descOf s (eddySec e) (fld p 0 20)
  if !bitAt p 31 then .handle
  else if dDepth d ≤ idx then .range
  else if dKind d = 0 then .violation 4
  else if (rd && !dRight d 2) || (wr && !dRight d 3) then .violation 5
  else if wr && versionedShut s d then .busy
  else if atom && dKind d != 1 then .kind
  else .ok

/-- The record of an operation of eddy `e`, a drain among them, has not been placed yet. -/
def unplaced (s : State) (e : Nat) (o : EOp) : Bool :=
  match o.kind with
  | .drain p => (getPort s p).wb.any (fun w => w.draining = some e && w.pool = o.pool && w.idx = o.idx && w.mtag.isNone)
  | _ => o.ask

/-- An operation of `before` on the same word has no record yet: a later one's waits for it (R364). -/
def opBlocked (s : State) (e : Nat) (before : List EOp) (pool idx : Nat) : Bool :=
  before.any (fun p => p.pool = pool && p.idx = idx && unplaced s e p)

/-- Ask the model for an operation on a MODEL pool issued after `before`, where forwarding does not answer it whole. -/
def opAsk (e : Nat) (before : List EOp) (o : EOp) (s : State) : EOp × State :=
  let d := descOf s (eddySec e) o.pool
  if !dModel d || o.tag.isSome then (o, s)
  else
    let f := forwardOther s o.pool d o.idx
    let (we, v) := match o.kind with | .store v => (true, v) | _ => (false, 0)
    if !we && f.1 = 0xFF#8 then ({ o with ans := some (f.2, false), ask := false }, s)
    else if s.pool.initWait.contains o.pool || opBlocked s e before o.pool o.idx then ({ o with ask := true }, s)
    else match askModel (.eddy e 0) (b2n we) o.pool d o.idx 0xFF v s (if we then (0, 0) else f) with
      | some (t, s) => ({ o with tag := some t, ask := false }, s)
      | none => ({ o with ask := true }, s)

/-- Place again the records of an eddy's operations that wait for room. -/
def retryOps (e : Nat) (s : State) : State :=
  let (l, s) := (getEddy s e).ops.foldl (fun (a : List EOp × State) o =>
    if o.ask then let r := opAsk e a.1 o a.2; (a.1 ++ [r.1], r.2) else (a.1 ++ [o], a.2)) ([], s)
  modEddy e (fun x => { x with ops := l }) s

/-- A pool instruction: its checks, then the operation joins those outstanding; none where it waits for a place. -/
def poolOp (e h idx : Nat) (rd wr atom : Bool) (o : EOp) (s : State) : Option State :=
  let n := fld (mget (fun _ => 0) (getEddy s e).ph h) 0 20
  let a := some (w32 idx)
  let s := if bitAt (mget (fun _ => 0) (getEddy s e).ph h) 31 then descTouch (eddySec e) n s else s
  match poolChecks s e h idx rd wr atom with
  | .handle => some (eddyExc e 8 0 a s)
  | .range => some (eddyExc e 6 0x20 a (bump (Reg.eddyRangeCount e) s))
  | .violation c => some (eddyPoolViolation e c n idx s)
  | .busy => some (eddyExc e 6 4 a s)
  | .kind => some (eddyExc e 7 0 a s)
  | .ok =>
    if 8 ≤ outstanding (getEddy s e) then none
    else
      let (o, s) := opAsk e (getEddy s e).ops { o with pool := n, idx := idx } s
      some (modEddy e (fun x => nextPc { x with ops := x.ops ++ [o] }) s)

/-- The word an atomic writes, none where CAS does not match (R365). -/
def atomNew (afn : Nat) (old b cas : BitVec 64) : Option (BitVec 64) :=
  match afn with
  | 0 => some b | 1 => some (old + b) | 2 => some (old &&& b) | 3 => some (old ||| b) | 4 => some (old ^^^ b)
  | _ => if old = cas then some b else none

/-- A PATOM instruction. -/
def atomOp (e afn rd ra rb h : Nat) (s : State) : State :=
  issue e (encA 0x2A rd ra rb h afn) allBits [rd, ra, rb] (fun x s =>
    poolOp e h (getG x ra).toNat true true true
      { kind := .atomic afn (getG x rb) (getG x rd), pool := 0, idx := 0, rd := if rd = 0 then none else some rd } s) s

/-- A HALT that waited takes effect once no pool load or atomic is in progress (R347, R377). -/
def haltNow (x : Eddy) : Eddy :=
  if x.haltReq && !x.ops.any (fun o => !o.dead && (match o.kind with | .load => true | .atomic _ _ _ => true | _ => false)) then
    { x with st := .halted, haltReq := false, loop := none, wfi := false }
  else x

/-- Operation `i` of an eddy, if it may complete: none issued earlier touches the same word, no INIT is awaited, and a write of a
VERSIONED pool finds it open, for writes take effect at no other time (R300; DESIGN CHOICE, log 200: it waits). -/
def opReady (s : State) (e i : Nat) : Option EOp :=
  let l := (getEddy s e).ops
  match l[i]? with
  | some o =>
    let drain := match o.kind with | .drain _ => true | _ => false
    let writes := match o.kind with | .store _ | .atomic _ _ _ => true | _ => false
    if drain || (writes && versionedShut s (descOf s (eddySec e) o.pool)) || (l.take i).any (fun p => p.pool = o.pool && p.idx = o.idx) || s.pool.initWait.contains o.pool then none
    else some o
  | none => none

/-- The operation is complete: its result reaches its register unless RESET discarded it. -/
def opDone (e i : Nat) (o : EOp) (v : BitVec 64) (bad : Bool) (s : State) : State :=
  modEddy e (fun x =>
    let x := { x with ops := x.ops.eraseIdx i }
    let x := if o.dead then x else
      let x := { x with perr := x.perr || bad }
      match o.rd with | some r => setG r v x | none => x
    haltNow x) s

/-- PLD_ANSWER: the word read now, or the model's answer (R364, R315). -/
def pldAnswer (e i : Nat) (s : State) : State :=
  match opReady s e i with
  | some o =>
    match o.kind with
    | .load =>
      let d := descOf s (eddySec e) o.pool
      let s := descTouch (eddySec e) o.pool s
      if dModel d then
        match o.ans with
        | some (v, bad) => opDone e i o v bad s
        | none => retryOps e s
      else
        let (v, bad, s) := otherRead o.pool d o.idx s
        opDone e i o v bad s
    | _ => s
  | none => s

/-- PST_COMPLETE: the store reaches the pool (R364). -/
def pstComplete (e i : Nat) (s : State) : State :=
  match opReady s e i with
  | some o =>
    match o.kind with
    | .store v =>
      let d := descOf s (eddySec e) o.pool
      let s := descTouch (eddySec e) o.pool s
      if dModel d then
        match o.ans with
        | some _ => opDone e i o 0 false s
        | none => retryOps e s
      else opDone e i o 0 false (otherWrite d o.idx 0xFF v s)
    | _ => s
  | none => s

/-- PATOM_ANSWER: one read-modify-write of the word (R365). -/
def patomAnswer (e i : Nat) (s : State) : State :=
  match opReady s e i with
  | some o =>
    match o.kind with
    | .atomic afn b cas =>
      let d := descOf s (eddySec e) o.pool
      let s := descTouch (eddySec e) o.pool s
      let (old, bad, s) := otherRead o.pool d o.idx s
      let s := match atomNew afn old b cas with | some v => otherWrite d o.idx 0xFF v s | none => s
      opDone e i o old bad s
    | _ => s
  | none => s

/-- CMT of port `p`: the oldest committed, undrained entry is issued (R367, R313); its record keeps the order of the port's drains
and of the eddy's operations on that word (R364). -/
def cmtOp (e rd p : Nat) (s : State) : Option State :=
  let x := getPort s p
  match oldestEntry (fun w => decide (w.tick < s.ra.com) && w.draining.isNone) x.wb with
  | none => some (loaded e rd 0 s)
  | some w =>
    if 8 ≤ outstanding (getEddy s e) then none
    else
      let d := descOf s (eddySec e) w.pool
      let s := descTouch (eddySec e) w.pool s
      let before := x.wb.any (fun v => v.draining.isSome && v.mtag.isNone && dModel (descOf s (eddySec e) v.pool))
      let waits := s.pool.initWait.contains w.pool || before || opBlocked s e (getEddy s e).ops w.pool w.idx
      let (tag, s) := if dModel d && !waits then
          match askModel (.agent p) 1 w.pool d w.idx w.be w.data s with
          | some (t, s) => (some t, s)
          | none => (none, s)
        else (none, s)
      let x := getPort s p
      let s := setPort p { x with wb := x.wb.map (fun v => if v = w then { w with draining := some e, mtag := tag } else v) } s
      some (modEddy e (fun x => nextPc (setG rd 1 { x with ops := x.ops ++ [{ kind := .drain p, pool := w.pool, idx := w.idx }] })) s)

/-! ### Model inbox (R317, R318, R368) -/

/-- The three words of a record. -/
def recWords (r : ModelRec) : BitVec 64 × BitVec 64 × BitVec 64 :=
  (BitVec.ofNat 64 (r.idx + r.be.toNat * 2 ^ 35 + r.op * 2 ^ 43 + r.tag * 2 ^ 48),
   BitVec.ofNat 64 (r.pool + r.cls * 2 ^ 20 + r.mtag * 2 ^ 32), r.data)

/-- The uncorrectable word that a model reports by ERR 1 counts as one of the HBM word behind it (R318, R323; DEDUCED, log 153). -/
def countModelErr (o : ModelOut) (err : Bool) (s : State) : State := if err && o.op = 0 then hbmUe o.wa 0 s else s

/-- An answer reaches whoever asked (R318). -/
def deliverAnswer (o : ModelOut) (err : Bool) (v : BitVec 64) (s : State) : State :=
  match o.who with
  | .port p k =>
    let x := getPort s p
    let f (r : PReq) : PReq := if r.st = .model o.tag then { r with st := .answered v err } else r
    setPort p { x with reqs := x.reqs.map (fun r => if r.1 = k then (r.1, f r.2) else r) } s
  | .agent p =>
    let x := getPort s p
    setPort p { x with wb := x.wb.map (fun w => if w.mtag = some o.tag then { w with answered := true } else w) } s
  | .eddy e _ =>
    modEddy e (fun x => { x with ops := x.ops.map (fun p => if p.tag = some o.tag then { p with ans := some (v, err) } else p) }) s
  | .edma e =>
    modEddy e (fun x => { x with dmaQ := x.dmaQ.map (fun d => if d.asked = some o.tag then { d with ans := some (v, err) } else d) }) s
  | .dma e =>
    let f (d : HDma) : HDma := if d.asked = some o.tag then { d with ans := some (v, err) } else d
    { s with host := { s.host with cur := s.host.cur.map (fun p => if p.1 = e then (p.1, f p.2) else p) } }
  | .host _ =>
    let waits := s.host.ask.any (fun a => a.2.1 == some o.tag)
    let s := { s with host := { s.host with ask := s.host.ask.filter (fun a => a.2.1 != some o.tag) } }
    if o.op = 0 && waits then hostData v err s else s
  | .remote src tag _ => sendAns src tag (if err && o.op = 0 then 3 else 0) (if o.op = 0 then v else 0) s
  | .stale => s
  | .init n =>
    let l := s.pool.initWait.filter (· != n)
    { s with pool := { s.pool with initWait := l } }

/-- A bus answer for the host whose record could not be placed before is asked for again (R316). -/
def retryHost (s : State) : State :=
  let l := s.host.ask
  forEach (fun (a : Nat × Option Nat × HostAcc) s =>
    if a.2.1.isNone then hostPerform a.1 a.2.2 { s with host := { s.host with ask := s.host.ask.erase a } } else s) l s

/-- MANS: an answer is placed (R368). -/
def modelAnswer (w0 w1 : BitVec 64) (s : State) : State :=
  let t := fld w0 0 16
  match s.pool.outst.find? (fun o => o.tag = t) with
  | none => bump Reg.poolModelBad s
  | some o =>
    let s := countModelErr o (bitAt w0 16) { s with pool := { s.pool with outst := s.pool.outst.erase o } }
    deliverAnswer o (bitAt w0 16) (if o.op = 0 then mergeBytes o.fwdBe w1 o.fwd else w1) s

/-- MTAKE of the oldest record. -/
def takeRecord (e rd : Nat) (r : ModelRec) (rest : List ModelRec) (s : State) : State :=
  let (a, b, c) := recWords r
  let s := { s with pool := { s.pool with inbox := mset dInbox s.pool.inbox e rest } }
  let s := modEddy e (fun x => nextPc { setG (rd + 2) c (setG (rd + 1) b (setG rd a x)) with
    flags := setBit x.flags 1 false }) s
  retryHost (retryInit s)

/-! ### System instructions (R369) -/

/-- An instruction of OP 0x3F. -/
def sysOp (e rd ra rb func : Nat) (regs : List Nat) (f : Eddy → State → Option State) (s : State) : State :=
  issue e (encR 0x3F rd ra rb 0 func) allBits regs f s

/-- BREAK and HALT: the eddy is HALTED once pool loads complete, EDDY_PC as given. -/
def stopHere (pc : Word) (x : Eddy) : Eddy := haltNow { x with pc := pc, haltReq := true }

/-! ### Commands of the host and events (R336, R339, R347–R350) -/

/-- Queue sides attached to an eddy reset (R348). -/
def resetSides (e : Nat) (s : State) : State :=
  forEach (fun i s =>
    let s := if siteReads s e i then rdReset (siteQ e i) s else s
    if siteWrites s e i then wrReset (siteQ e i) s else s) (upTo 256) s

/-- Registers after RESET (R348, R376). -/
def resetRegs (x : Eddy) : Eddy :=
  { x with g := [], pc := 0, ie := false, exc := false, flags := 0, epc := 0, estatus := 0, cause := 0, eaddr := 0, vbase := 0,
           scratch := 0, perr := false, loop := none, wfi := false, haltReq := false, irqPend := 0, ph := [],
           dmaQ := (x.dmaQ.filter EDma.started).map (fun d => { d with dead := true }), dmaDone := [],
           ops := x.ops.filterMap (fun o => match o.kind with | .load => none | _ => some { o with dead := true }) }

/-- A command to an eddy: EDDY_OWNED for a claimed one, EDDY_STATE where its state does not take it (R347). -/
def eddyCmd (e : Nat) (ok : Eddy → Bool) (f : Eddy → Eddy) (s : State) : State :=
  let x := getEddy s e
  if (claimOwner s 5 e).isSome then setEddy e { x with result := 0x21 } s
  else if !ok x then setEddy e { x with result := 6 } s
  else setEddy e (f { x with result := 0 }) s

/-- A wipe of the eddy's secure part is due or in progress (R336). -/
def wipeDue (s : State) (e : Nat) : Bool :=
  let x := getEddy s e
  x.wipe && (!s.dev.porstWiped || x.st == .wiping)

/-- START, by a command or at start-up (R347, R376): a wipe comes first where one is due or where a user program follows firmware
(R336). -/
def startEddy (due : Bool) (entry : Word) (x : Eddy) : Eddy :=
  let x := { x with kind := if x.kind = 0 then 1 else x.kind, pc := entry, ie := false, exc := false }
  if due || (x.prevFw && x.kind = 1) then { x with st := .wiping, wipe := true, afterWipe := .running, prevFw := false }
  else { x with st := .running }

/-- RESET (R348): firmware's secure part is wiped before HALTED (R336). -/
def resetEddy (x : Eddy) : Eddy :=
  let x := resetRegs x
  if x.kind = 2 then { x with st := .wiping, wipe := true, afterWipe := .halted } else { x with st := .halted }

/-- The block that contains the vector base is pinned (R343): a lease of it is revoked. -/
def pinVbase (e : Nat) (s : State) : State :=
  let b := (getEddy s e).vbase.toNat / 1024
  if leased s (.spad e b) then bump (Reg.eddyLeasePreempt e) (revoke (.spad e b) s) else s

/-- RESET of eddy `e`: VBASE 0 pins block 0 (R343, R344), and lines whose source holds latch again (R373). -/
def eddyReset (e : Nat) (s : State) : State :=
  let x := getEddy s e
  let ok := (claimOwner s 5 e).isNone && (x.st == .halted || x.st == .running)
  let s := eddyCmd e (fun x => x.st == .halted || x.st == .running) resetEddy s
  if ok then relatch e (resetSides e (pinVbase e s)) else s

/-- START of eddy `e` by the host. -/
def eddyStart (e : Nat) (s : State) : State :=
  eddyCmd e (fun x => (x.st == .off || x.st == .halted) && clockedUp s) (startEddy (wipeDue s e) (getReg s (Reg.eddyEntry e))) s

/-- An EDDY_CTL command in SHUTTING_DOWN, where the eddy is UNAVAILABLE (R347, R351). -/
def eddyShut (e : Nat) (s : State) : State := modEddy e (fun x => { x with result := 5 }) s

/-- The secure part reads 0 (R336). -/
def wiped (x : Eddy) : Eddy :=
  { x with spad := x.spad.filter (fun p => p.1 < 7680), wipe := false, st := if x.st == .wiping then x.afterWipe else x.st }

/-- The secure part of one eddy is wiped, and the wipe counted. -/
def wipeSecure (e : Nat) (s : State) : State := bump (Reg.eddyWipes e) (modEddy e wiped s)

/-- SECURE_WIPE_DONE. -/
def secureWipeDone (e : Nat) (s : State) : State := if wipeDue s e then wipeSecure e s else s

/-- Every wipe due or in progress completes, as a load finds it (R348). -/
def finishWipes (s : State) : State :=
  let t := forEach (fun e t => if wipeDue s e then bump (Reg.eddyWipes e) t else t) (upTo 512) s
  { t with dev := { s.dev with porstWiped := true }, eddies := mmap dEddy (fun e x => if wipeDue s e then wiped x else x) s.eddies }

/-- IRQ_ENTRY: the lowest enabled pending line is taken (R373); after a WFI, EPC is the next instruction (R369). -/
def irqEntry (e : Nat) (s : State) : State :=
  let x := getEddy s e
  match irqDue x with
  | some n =>
    if x.st == .running && !x.haltReq && clockedUp s then
      setEddy e (eddyEnter (0x10 + n) 0 0 (if x.wfi then x.pc + 4#32 else x.pc) (0x40 + 0x10 * n) x) s
    else s
  | none => s

/-- EDDY_TIMER_MATCH: TIMER bits 31:0 reach TIMER_CMP (R339, R350). -/
def timerMatch (e : Nat) (s : State) : State :=
  let x := getEddy s e
  if x.timerCmp = 0 || !(x.st == .running || x.st == .wiping) then s
  else
    let lo := x.timer.toNat % 2 ^ 32
    let hi := x.timer.toNat / 2 ^ 32 + (if x.timerCmp.toNat < lo then 1 else 0)
    latchIrq e 3 (setEddy e { x with timer := BitVec.ofNat 64 (hi * 2 ^ 32 + x.timerCmp.toNat) } s)

/-- EDDY_TIMER_LO_READ: the counter stands at `now`, and the load of TIMER_LO at PC runs (R350). -/
def timerLoRead (e : Nat) (now : BitVec 64) (s : State) : State :=
  if mayIssueE s (getEddy s e) then runLocal e 0x1A 0xC0 (modEddy e (fun x => { x with timer := now }) s) else s

/-- DMA_GO: the store to DMA_GO at PC runs; an eddy that is FROZEN shows EDDY_FROZEN (R337, R348). -/
def dmaGoCmd (e : Nat) (s : State) : State :=
  if (getEddy s e).st == .frozen then modEddy e (fun x => { x with dmaResult := 4 }) s else runLocal e 0x1E 0x14 s

/-- EDDY_PIN_WRITE: a lease of a block now pinned is revoked (R343, R344). -/
def eddyPinWrite (e : Nat) (hi : Bool) (v : Word) (s : State) : State :=
  let v := if hi then v ||| 0xF0000000#32 else v
  let s := setReg (if hi then Reg.eddyPinHi e else Reg.eddyPinLo e) v s
  forEach (fun b s =>
    if bitAt v b && leased s (.spad e (b + 32 * b2n hi)) then
      bump (Reg.eddyLeasePreempt e) (revoke (.spad e (b + 32 * b2n hi)) s)
    else s) (upTo 32) s

/-- HALT of a RUNNING eddy. -/
def haltEddy (x : Eddy) : Eddy := haltNow { x with haltReq := true }

end Sys2Proof.Machine
end

