-- ==== Sys2Proof/Machine/EddyCmds.lean ====
section
/-! DEFINITION. The meaning of each eddy instruction and of each command and event of an eddy. -/

namespace Sys2Proof.Machine

/-! ### Register operations (R357) -/

def execEAdd (e : Fin 512) (rd ra rb : Fin 32) (f : Bool) (s : State) : Res :=
  .next (regOp e 0 rd ra rb f (fun a b _ => arith (addc a b false)) s)
def execESub (e : Fin 512) (rd ra rb : Fin 32) (f : Bool) (s : State) : Res :=
  .next (regOp e 1 rd ra rb f (fun a b _ => arith (subb a b false)) s)
def execEAnd (e : Fin 512) (rd ra rb : Fin 32) (f : Bool) (s : State) : Res :=
  .next (regOp e 2 rd ra rb f (fun a b _ => logic (a &&& b)) s)
def execEOr (e : Fin 512) (rd ra rb : Fin 32) (f : Bool) (s : State) : Res :=
  .next (regOp e 3 rd ra rb f (fun a b _ => logic (a ||| b)) s)
def execEXor (e : Fin 512) (rd ra rb : Fin 32) (f : Bool) (s : State) : Res :=
  .next (regOp e 4 rd ra rb f (fun a b _ => logic (a ^^^ b)) s)
def execESll (e : Fin 512) (rd ra rb : Fin 32) (f : Bool) (s : State) : Res :=
  .next (regOp e 5 rd ra rb f (fun a b _ => shifted .sll a b) s)
def execESrl (e : Fin 512) (rd ra rb : Fin 32) (f : Bool) (s : State) : Res :=
  .next (regOp e 6 rd ra rb f (fun a b _ => shifted .srl a b) s)
def execESra (e : Fin 512) (rd ra rb : Fin 32) (f : Bool) (s : State) : Res :=
  .next (regOp e 7 rd ra rb f (fun a b _ => shifted .sra a b) s)
def execEMul (e : Fin 512) (rd ra rb : Fin 32) (f : Bool) (s : State) : Res :=
  .next (regOp e 8 rd ra rb f (fun a b _ => logic (a * b)) s)
def execEMulhu (e : Fin 512) (rd ra rb : Fin 32) (f : Bool) (s : State) : Res :=
  .next (regOp e 9 rd ra rb f (fun a b _ => logic (BitVec.ofNat 64 (a.toNat * b.toNat / 2 ^ 64))) s)
def execESlt (e : Fin 512) (rd ra rb : Fin 32) (f : Bool) (s : State) : Res :=
  .next (regOp e 10 rd ra rb f (fun a b _ => logic (bit64 (BitVec.slt a b))) s)
def execESltu (e : Fin 512) (rd ra rb : Fin 32) (f : Bool) (s : State) : Res :=
  .next (regOp e 11 rd ra rb f (fun a b _ => logic (bit64 (BitVec.ult a b))) s)
def execEAddc (e : Fin 512) (rd ra rb : Fin 32) (f : Bool) (s : State) : Res :=
  .next (regOp e 12 rd ra rb f (fun a b c => arith (addc a b c)) s)
def execESubb (e : Fin 512) (rd ra rb : Fin 32) (f : Bool) (s : State) : Res :=
  .next (regOp e 13 rd ra rb f (fun a b c => arith (subb a b c)) s)
def execEPopc (e : Fin 512) (rd ra : Fin 32) (f : Bool) (s : State) : Res :=
  .next (regOp e 14 rd ra 0 f (fun a _ _ => logic (popcount a)) s)
def execEClz (e : Fin 512) (rd ra : Fin 32) (f : Bool) (s : State) : Res :=
  .next (regOp e 15 rd ra 0 f (fun a _ _ => logic (clz a)) s)

/-! ### Immediate operations (R359) -/

def execEAddi (e : Fin 512) (rd ra : Fin 32) (imm : BitVec 16) (s : State) : Res :=
  .next (immOp e 1 rd ra imm.toNat (fun a => a + sx16 imm) s)
def execEAndi (e : Fin 512) (rd ra : Fin 32) (imm : BitVec 16) (s : State) : Res :=
  .next (immOp e 2 rd ra imm.toNat (fun a => a &&& zx16 imm) s)
def execEOri (e : Fin 512) (rd ra : Fin 32) (imm : BitVec 16) (s : State) : Res :=
  .next (immOp e 3 rd ra imm.toNat (fun a => a ||| zx16 imm) s)
def execEXori (e : Fin 512) (rd ra : Fin 32) (imm : BitVec 16) (s : State) : Res :=
  .next (immOp e 4 rd ra imm.toNat (fun a => a ^^^ zx16 imm) s)
def execESlli (e : Fin 512) (rd ra : Fin 32) (sh : Fin 64) (s : State) : Res :=
  .next (immOp e 5 rd ra sh (fun a => shiftRes .sll a sh) s)
def execESrli (e : Fin 512) (rd ra : Fin 32) (sh : Fin 64) (s : State) : Res :=
  .next (immOp e 6 rd ra sh (fun a => shiftRes .srl a sh) s)
def execESrai (e : Fin 512) (rd ra : Fin 32) (sh : Fin 64) (s : State) : Res :=
  .next (immOp e 7 rd ra sh (fun a => shiftRes .sra a sh) s)
/-- INSH: halfword `k` of g[rd] (R359). -/
def execEInsh (e : Fin 512) (rd : Fin 32) (imm : BitVec 16) (k : Fin 4) (s : State) : Res :=
  .next (issue e (encI 8 rd k imm.toNat) allBits [rd] (fun x s =>
    some (aluDone e rd (setFld (getG x rd) (16 * k) 16 imm.toNat) none s)) s)
def execESlti (e : Fin 512) (rd ra : Fin 32) (imm : BitVec 16) (s : State) : Res :=
  .next (immOp e 9 rd ra imm.toNat (fun a => bit64 (BitVec.slt a (sx16 imm))) s)
def execESltiu (e : Fin 512) (rd ra : Fin 32) (imm : BitVec 16) (s : State) : Res :=
  .next (immOp e 10 rd ra imm.toNat (fun a => bit64 (BitVec.ult a (sx16 imm))) s)
/-- CMPI: FLAGS from the difference (R359). -/
def execECmpi (e : Fin 512) (ra : Fin 32) (imm : BitVec 16) (s : State) : Res :=
  .next (issue e (encI 11 0 ra imm.toNat) allBits [ra] (fun x s =>
    some (aluDone e 0 0 (some (flags3 (subb (getG x ra) (sx16 imm) false))) s)) s)

/-! ### Control transfer (R360) -/

/-- BC; condition 15 is reserved and raises ILLEGAL. -/
def execEBc (e : Fin 512) (cond : Fin 16) (off : BitVec 22) (s : State) : Res :=
  .next (issue e (encB 0x10 cond off.toNat) allBits [] (fun x s =>
    some (if cond.val = 15 then eddyExc e 1 0 none s else branch e (condHolds cond x.flags) (off.signExtend 32) s)) s)
def execEBz (e : Fin 512) (ra : Fin 32) (imm : BitVec 16) (s : State) : Res :=
  .next (issue e (encI 0x13 0 ra imm.toNat) allBits [ra] (fun x s =>
    some (branch e (getG x ra == 0) (imm.signExtend 32) s)) s)
def execEBnz (e : Fin 512) (ra : Fin 32) (imm : BitVec 16) (s : State) : Res :=
  .next (issue e (encI 0x14 0 ra imm.toNat) allBits [ra] (fun x s =>
    some (branch e (getG x ra != 0) (imm.signExtend 32) s)) s)
/-- CALL: link in g31. -/
def execECall (e : Fin 512) (off : BitVec 26) (s : State) : Res :=
  .next (issue e (encJ 0x11 off.toNat) allBits [31] (fun _ s =>
    some (modEddy e (fun x =>
      jump false (x.pc + 4#32 * off.signExtend 32) (setG 31 ((x.pc + 4#32).setWidth 64) x)) s)) s)
/-- JR: the target is computed before rd is written. -/
def execEJr (e : Fin 512) (rd ra : Fin 32) (imm : BitVec 16) (s : State) : Res :=
  .next (issue e (encI 0x12 rd ra imm.toNat) allBits [rd, ra] (fun x s =>
    let t := effAddr x ra imm
    some (modEddy e (fun x => jump false t (setG rd ((x.pc + 4#32).setWidth 64) x)) s)) s)

/-! ### Loads and stores (R361) -/

def execELdb (e : Fin 512) (rd ra : Fin 32) (imm : BitVec 16) (s : State) : Res := .next (loadOp e 0x18 rd ra imm 1 s)
def execELdh (e : Fin 512) (rd ra : Fin 32) (imm : BitVec 16) (s : State) : Res := .next (loadOp e 0x19 rd ra imm 2 s)
def execELdw (e : Fin 512) (rd ra : Fin 32) (imm : BitVec 16) (s : State) : Res := .next (loadOp e 0x1A rd ra imm 4 s)
def execELdd (e : Fin 512) (rd ra : Fin 32) (imm : BitVec 16) (s : State) : Res := .next (loadOp e 0x1B rd ra imm 8 s)
def execEStb (e : Fin 512) (rd ra : Fin 32) (imm : BitVec 16) (s : State) : Res := .next (storeOp e 0x1C rd ra imm 1 s)
def execESth (e : Fin 512) (rd ra : Fin 32) (imm : BitVec 16) (s : State) : Res := .next (storeOp e 0x1D rd ra imm 2 s)
def execEStw (e : Fin 512) (rd ra : Fin 32) (imm : BitVec 16) (s : State) : Res := .next (storeOp e 0x1E rd ra imm 4 s)
def execEStd (e : Fin 512) (rd ra : Fin 32) (imm : BitVec 16) (s : State) : Res := .next (storeOp e 0x1F rd ra imm 8 s)

/-! ### Queue instructions (R362) -/

def execEQpush (e : Fin 512) (rd rs : Fin 32) (site : Fin 256) (l : Bool) (s : State) : Res :=
  .next (issue e (encQ 0x20 rd rs (b2n l) site) allBits [rd, rs] (fun x s =>
    some (if siteWrites s e site then
        let s := eddyPush e site (getG x rs) l s
        loaded e rd ((qinfo s e site).setWidth 64) s
      else siteViolation e site s)) s)
/-- QPOP; bit 8 of the word is not marked 0 and is ignored (R355). -/
def execEQpop (e : Fin 512) (rd rs : Fin 32) (site : Fin 256) (s : State) : Res :=
  .next (issue e (encQ 0x21 rd rs 0 site) 0xFFFFFEFF#32 [rd, rs] (fun _ s =>
    some (if siteReads s e site then popped e rd rs site s else siteViolation e site s)) s)
/-- QPOPW waits while EMPTY is 1. -/
def execEQpopw (e : Fin 512) (rd rs : Fin 32) (site : Fin 256) (s : State) : Res :=
  .next (issue e (encQ 0x22 rd rs 0 site) allBits [rd, rs] (fun _ s =>
    if !siteReads s e site then some (siteViolation e site s)
    else if qEmpty (qCfg s (siteQ e site)) (getQ s (siteQ e site)) then none
    else some (popped e rd rs site s)) s)
def execEQflush (e : Fin 512) (rd : Fin 32) (site : Fin 256) (s : State) : Res :=
  .next (issue e (encQ 0x23 rd 0 0 site) allBits [rd] (fun _ s =>
    some (if siteReads s e site then qFlushOp e rd site s else siteViolation e site s)) s)
def execEQstat (e : Fin 512) (rd : Fin 32) (site : Fin 256) (s : State) : Res :=
  .next (issue e (encQ 0x24 rd 0 0 site) allBits [rd] (fun _ s =>
    some (if siteReads s e site || siteWrites s e site then loaded e rd (qStatVal s e site) s else siteViolation e site s)) s)

/-! ### Pool instructions (R364–R367) -/

def execEPld (e : Fin 512) (rd ra : Fin 32) (h : Fin 8) (off : BitVec 13) (s : State) : Res :=
  .next (issue e (encP 0x28 rd ra h off.toNat) allBits [rd, ra] (fun x s =>
    poolOp e h ((getG x ra).toNat + off.toNat) true false false
      { kind := .load, pool := 0, idx := 0, rd := if rd.val = 0 then none else some rd } s) s)
def execEPldAnswer (e : Fin 512) (i : Nat) (s : State) : Res := .next (pldAnswer e i s)
def execEPst (e : Fin 512) (rd ra : Fin 32) (h : Fin 8) (off : BitVec 13) (s : State) : Res :=
  .next (issue e (encP 0x29 rd ra h off.toNat) allBits [rd, ra] (fun x s =>
    poolOp e h ((getG x ra).toNat + off.toNat) false true false { kind := .store (getG x rd), pool := 0, idx := 0 } s) s)
def execPstComplete (e : Fin 512) (i : Nat) (s : State) : Res := .next (pstComplete e i s)
def execEPatomSwap (e : Fin 512) (rd ra rb : Fin 32) (h : Fin 8) (s : State) : Res := .next (atomOp e 0 rd ra rb h s)
def execEPatomAdd (e : Fin 512) (rd ra rb : Fin 32) (h : Fin 8) (s : State) : Res := .next (atomOp e 1 rd ra rb h s)
def execEPatomAnd (e : Fin 512) (rd ra rb : Fin 32) (h : Fin 8) (s : State) : Res := .next (atomOp e 2 rd ra rb h s)
def execEPatomOr (e : Fin 512) (rd ra rb : Fin 32) (h : Fin 8) (s : State) : Res := .next (atomOp e 3 rd ra rb h s)
def execEPatomXor (e : Fin 512) (rd ra rb : Fin 32) (h : Fin 8) (s : State) : Res := .next (atomOp e 4 rd ra rb h s)
def execEPatomCas (e : Fin 512) (rd ra rb : Fin 32) (h : Fin 8) (s : State) : Res := .next (atomOp e 5 rd ra rb h s)
def execEPatomAnswer (e : Fin 512) (i : Nat) (s : State) : Res := .next (patomAnswer e i s)
/-- CMT; PRIVILEGED outside secure mode (R367). -/
def execECmt (e : Fin 512) (rd p : Fin 32) (s : State) : Res :=
  .next (issue e (encI 0x2B rd 0 p) allBits [rd] (fun x s =>
    if x.secure then cmtOp e rd (32 * eddySec e + p) s else some (eddyExc e 5 0 none s)) s)
/-- FENCE (R366); bits 25:21 of the word are not marked 0 and are ignored. -/
def execEFence (e : Fin 512) (waitP waitD : Bool) (s : State) : Res :=
  .next (issue e (encI 0x3E 0 0 (b2n waitP + 2 * b2n waitD)) 0xFC1FFFFF#32 [] (fun x s =>
    if (waitP && outstanding x != 0) || (waitD && !x.dmaQ.isEmpty) then none else some (modEddy e nextPc s)) s)

/-! ### Model inbox (R368) -/

/-- MTAKE; a register number above 29 raises ILLEGAL. -/
def execEMtake (e : Fin 512) (rd : Fin 32) (w : Bool) (s : State) : Res :=
  .next (issue e (encI 0x30 rd 0 (b2n w)) allBits [rd, rd + 1, rd + 2] (fun _ s =>
    if 29 < rd.val then some (eddyExc e 1 0 none s)
    else match mget dInbox s.pool.inbox e with
      | [] => if w then none else some (modEddy e (fun x => nextPc { x with flags := setBit x.flags 1 true }) s)
      | r :: l => some (takeRecord e rd r l s)) s)
def execEMans (e : Fin 512) (ra rb : Fin 32) (s : State) : Res :=
  .next (issue e (encR 0x31 0 ra rb 0 0) allBits [ra, rb] (fun x s =>
    some (modEddy e nextPc (modelAnswer (getG x ra) (getG x rb) s))) s)

/-! ### System instructions (R369) -/

/-- ERET; ILLEGAL while EXC is 0. -/
def execEEret (e : Fin 512) (s : State) : Res :=
  .next (sysOp e 0 0 0 0 [] (fun x s =>
    some (if !x.exc then eddyExc e 1 0 none s
      else modEddy e (fun x => { x with pc := x.epc, ie := bitAt x.estatus 0, exc := bitAt x.estatus 1, loop := none,
                                        flags := BitVec.ofNat 4 (fld x.estatus 8 4) }) s)) s)
def execEMfc (e : Fin 512) (rd : Fin 32) (n : Fin 16) (s : State) : Res :=
  .next (sysOp e rd n 0 1 [rd] (fun x s => some (loaded e rd ((getC e x n).setWidth 64) s)) s)
def execEMtc (e : Fin 512) (n : Fin 16) (rb : Fin 32) (s : State) : Res :=
  .next (sysOp e n 0 rb 2 [rb] (fun x s =>
    some (pinVbase e (modEddy e (fun y => nextPc (setC n ((getG x rb).setWidth 32) y)) s))) s)
/-- TRAP n: EPC is the next instruction (R372). -/
def execETrap (e : Fin 512) (n : Fin 32) (s : State) : Res :=
  .next (sysOp e 0 0 n 3 [] (fun _ s => some (modEddy e (fun x => eddyRaise 9 0 n none (x.pc + 4#32) x) s)) s)
def execEBreak (e : Fin 512) (s : State) : Res :=
  .next (sysOp e 0 0 0 4 [] (fun x s => some (modEddy e (stopHere x.pc) s)) s)
/-- WFI waits until some line is pending and enabled. -/
def execEWfi (e : Fin 512) (s : State) : Res :=
  .next (sysOp e 0 0 0 5 [] (fun x s =>
    some (modEddy e (fun y => if irqAny x then { nextPc y with wfi := false } else { y with wfi := true }) s)) s)
def execEHalt (e : Fin 512) (s : State) : Res :=
  .next (sysOp e 0 0 0 6 [] (fun x s => some (modEddy e (stopHere (x.pc + 4#32)) s)) s)

/-- An unassigned encoding at PC raises ILLEGAL (R354, R372). -/
def execEIllegalInstruction (e : Fin 512) (s : State) : Res :=
  .next (let x := getEddy s e
    if !mayIssueE s x then s
    else match fetch e s with
      | (none, t) => t
      | (some w, t) => if legalWord w then s else eddyExc e 1 0 none t)

/-! ### Commands and events -/

/-- A write of EDDY_CTL, through the section's register path (R279, R349); in SHUTTING_DOWN only its code shows (R351). -/
def eddyCtl (e cmd : Nat) (act : State → State) (s : State) : State :=
  if mgmtOpen s then viaPath (eddySec e) (Reg.eddyCtl e) (w32 cmd) act s else awake (eddyShut e) s

def execEddyCmdStart (e : Fin 512) (s : State) : Res :=
  .next (eddyCtl e 1 (eddyStart e) s)
def execEddyCmdHalt (e : Fin 512) (s : State) : Res :=
  .next (eddyCtl e 2 (eddyCmd e (fun x => x.st == .running) haltEddy) s)
def execEddyCmdReset (e : Fin 512) (s : State) : Res := .next (eddyCtl e 3 (eddyReset e) s)
/-- A reserved EDDY_CTL value is refused with EDDY_STATE (R349). -/
def execEddyCmdReserved (e : Fin 512) (cmd : BitVec 4) (s : State) : Res :=
  .next (eddyCtl e cmd.toNat (eddyCmd e (fun _ => false) id) s)
def execEddyDoorbellWrite (e : Fin 512) (lines : BitVec 8) (s : State) : Res :=
  .next (mgmt (viaPath (eddySec e) (Reg.eddyDoorbell e) (lines.setWidth 32) (ringDoorbell e lines.toNat)) s)
def execEddyPinWrite (e : Fin 512) (hi : Bool) (v : Word) (s : State) : Res :=
  .next (mgmt (viaPath (eddySec e) (if hi then Reg.eddyPinHi e else Reg.eddyPinLo e) v (eddyPinWrite e hi v)) s)
def execDmaGo (e : Fin 512) (s : State) : Res := .next (dmaGoCmd e s)
def execDmaTransferDone (d : DmaEnd) (s : State) : Res := .next (dmaTransferDone d.eddy d.starved s)
/-- A read of DMA_DONE: the load of it at PC runs (R338). -/
def execDmaDoneRead (e : Fin 512) (s : State) : Res := .next (runLocal e 0x1A 0x1C s)
def execIrqEntry (e : Fin 512) (s : State) : Res := .next (irqEntry e s)
def execEddyTimerMatch (e : Fin 512) (s : State) : Res := .next (timerMatch e s)
def execEddyTimerLoRead (e : Fin 512) (now : BitVec 64) (s : State) : Res := .next (timerLoRead e now s)
def execSecureWipeDone (e : Fin 512) (s : State) : Res := .next (secureWipeDone e s)

end Sys2Proof.Machine
end

