-- ==== Sys2Proof/Machine/Fec.lean ====
section
/-! DEFINITION. The forward error correction of the serial channels: RS(544,514) of IEEE 802.3 over 10-bit symbols (R193). PRESUMED
(log 193): the field, the generator and the order of the symbols come from the standard that the rule names. -/

namespace Sys2Proof.Machine

/-- Twice `a` in GF(2^10) modulo x^10 + x^3 + 1. -/
def rsTwice (a : Nat) : Nat := if 1024 ≤ 2 * a then Nat.xor (2 * a) 0x409 else 2 * a

/-- `a` times the low `n` bits of `b`. -/
def rsTimes : Nat → Nat → Nat → Nat
  | 0, _, _ => 0
  | n + 1, a, b => Nat.xor (if b % 2 = 1 then a else 0) (rsTimes n (rsTwice a) (b / 2))

/-- The product of two field elements. -/
def rsMul (a b : Nat) : Nat := rsTimes 10 a b

/-- The product of (x - α^j) for j below `n`, highest power first and without the leading 1. -/
def rsGen : Nat → Nat × List Nat
  | 0 => (1, [])
  | n + 1 =>
    let (a, g) := rsGen n
    (rsTwice a, ((g ++ [0]).zip (1 :: g)).map (fun (p : Nat × Nat) => Nat.xor p.1 (rsMul a p.2)))

/-- The 30 check symbols of a message, its first symbol the highest power. -/
def rsCheck (msg : List Nat) : List Nat :=
  let g := (rsGen 30).2
  msg.foldl (fun r m =>
    let f := Nat.xor m (r.headD 0)
    ((r.drop 1 ++ [0]).zip g).map (fun (p : Nat × Nat) => Nat.xor p.1 (rsMul f p.2))) (List.replicate 30 0)

/-- A codeword: 514 message symbols and 30 check symbols. -/
def rsWord (msg : List Nat) : List Nat := msg ++ rsCheck msg

/-- What decoding makes of a codeword with `n` symbols in error: symbols corrected and codewords not corrected (R193). -/
def rsVerdict (n : Nat) : Nat × Nat := if n ≤ 15 then (n, 0) else (0, 1)

/-- The symbols of a codeword on each of `n` lanes, in round-robin order (R193, R212). -/
def rsLanes (n : Nat) (word : List Nat) : List (List Nat) :=
  (List.range n).map (fun l => (word.zipIdx.filter (fun p => p.2 % n = l)).map Prod.fst)

end Sys2Proof.Machine
end

