-- ==== Sys2Proof/Machine/Links.lean ====
section
/-! DEFINITION. The Gyide link layer of serial channels and ford ports: commands, training, flits, retry, credits,
the output arbiter, cut-through, and losses (chapter Serial Channels and Ford Ports). -/

namespace Sys2Proof.Machine

/-! ### Configuration fields (R218) -/

def isFord (c : Nat) : Bool := 16 ≤ c
def lnkFec (s : State) (c : Nat) : Bool := !isFord c && bitAt (getReg s (Reg.lnkCfg c)) 4
def lnkRate (s : State) (c : Nat) : Nat := if isFord c then 0 else fld (getReg s (Reg.lnkCfg c)) 0 2
def lnkLanes (s : State) (c : Nat) : Nat := if isFord c then 0 else fld (getReg s (Reg.lnkCfg c)) 2 2
def degradeOk (s : State) (c : Nat) : Bool := bitAt (getReg s (Reg.lnkCfg c)) 5

/-- The configured lanes of a serial channel. -/
def cfgLanes (s : State) (c : Nat) : BitVec 4 :=
  if isFord c then 0 else if lnkLanes s c = 0 then 1 else if lnkLanes s c = 1 then 3 else 0xF

/-- LNK_CAUSE: the latest link status code (R219). -/
def lnkCause (c code : Nat) (s : State) : State := setReg (Reg.lnkCause c) (w32 code) s

/-- LNK_STAT WRESULT. -/
def lnkResult (c r : Nat) (s : State) : State := setChan c { getChan s c with wresult := r } s

/-! ### State changes (R212, R213, R216) -/

/-- Whether the channel is in one of the two training states, no RESET being in progress. -/
def inTraining (s : State) (c : Nat) : Bool :=
  ((getChan s c).st == .training || (getChan s c).st == .retraining) && !(getChan s c).resetting

/-- Whether the channel carries flits. -/
def linkUp (s : State) (c : Nat) : Bool := (getChan s c).st == .up && !(getChan s c).resetting

/-- A retrain begins from UP (R212): the retry buffer is kept. -/
def startRetrain (c : Nat) (cause : Option Nat) (s : State) : State :=
  if !linkUp s c then s
  else
    let s := setChan c { getChan s c with st := .retraining, attempts := 0, firstTrain := false, partner := none,
                                          replay := none } s
    let s := bump (Reg.retrains c) s
    match cause with | some k => lnkCause c k s | none => s

/-- The channel enters FAILED (R213, R216), raising its vector (R392); one that leaves UP or RETRAINING begins a reroute.
While trace export holds it, TRC_EVENT EXPORT_FAIL is set (R500). -/
def enterFailed (c code : Nat) (s : State) : State :=
  let was := (getChan s c).st
  let s := if was == .up || was == .retraining then beginReroute c false (code = 7) s else s
  let s := setChan c { getChan s c with st := .failed } s
  let s := if (getChan s c).owned then trcEvent 16 s else s
  raiseVec (32 + c) (lnkCause c code (bump (Reg.linkFails c) s))

/-- One training attempt fails (R212): tried again twice, then FAILED with the reason of the third failure. -/
def trainFail (c code : Nat) (s : State) : State :=
  if !inTraining s c then s
  else
    let x := getChan s c
    let s := lnkCause c code (setChan c { x with attempts := x.attempts + 1, partner := none } s)
    if 3 ≤ x.attempts + 1 then enterFailed c code s else s

/-! ### Commands (R217, R218) -/

/-- A command or LNK_CFG write to a port that a run-time feature holds (R219). -/
def lnkOwned (c : Nat) (s : State) : State := lnkCause c 0x21 (lnkResult c 4 s)

/-- ENABLE. DESIGN CHOICE (log 140): a channel marked failed is isolated (R31); it stays down, and ENABLE is refused. -/
def lnkGo (c : Nat) (s : State) : State :=
  let x := getChan s c
  if x.owned then lnkOwned c s
  else if chanFailed s c then lnkResult c 2 s
  else if x.st == .disabled || x.st == .failed then
    lnkCause c 2 (setChan c { x with st := .waiting, wresult := 1, attempts := 0, firstTrain := true, partner := none,
                                     resetting := false } s)
  else lnkResult c 2 s

/-- LNK_CTL ENABLE (R218): it does not apply while the device state keeps every channel DISABLED (R421, R425). -/
def lnkEnable (c : Nat) (s : State) : State :=
  if chansOpen s || (getChan s c).owned then lnkGo c s else lnkResult c 2 s

/-- Leave the fabric of channels by command: hand over, and discard VL2 (R217). DESIGN CHOICE (log 211): VL2_DROPPED counts what DISABLE
and EXPORT_OFF discard as it counts RESET's. -/
def handOver (c : Nat) (s : State) : State :=
  let st := (getChan s c).st
  if (st == .up || st == .retraining) && !(getChan s c).resetting then beginReroute c true false s else s

/-- Stop a channel at once; its FIFOs are reset (R283). -/
def stopChan (c : Nat) (s : State) : State :=
  setChan c { getChan s c with st := .disabled, resetting := false, partner := none, nakDue := none, creditDue := false, sent := none,
                               sentErr := 0 } s

def lnkDisable (c : Nat) (s : State) : State :=
  if (getChan s c).owned then lnkOwned c s
  else lnkCause c 1 (lnkResult c 1 (stopChan c (handOver c s)))

def lnkReset (c : Nat) (s : State) : State :=
  if (getChan s c).owned then lnkOwned c s
  else
    let s := handOver c s
    lnkCause c 0x0A (setChan c { getChan s c with resetting := true, seqReset := true, wresult := 1, partner := none,
                                                  nakDue := none, creditDue := false } s)

def lnkRetrain (c : Nat) (s : State) : State :=
  if (getChan s c).owned then lnkOwned c s
  else if linkUp s c then lnkResult c 1 (startRetrain c none s)
  else lnkResult c 2 s

/-- A reserved LNK_CTL code is refused (R218). -/
def lnkReserved (c : Nat) (s : State) : State :=
  if (getChan s c).owned then lnkOwned c s else lnkResult c 7 s

/-- A write of LNK_CFG (R218). -/
def lnkCfgWrite (c : Nat) (v : Word) (s : State) : State :=
  let x := getChan s c
  if x.owned then lnkOwned c s
  else if !(x.st == .disabled || x.st == .failed) then lnkResult c 2 s
  else if !isFord c && (fld v 0 2 = 3 || fld v 2 2 = 3) then
    lnkCause c 0x20 (lnkResult c 3 (bump (Reg.lnkRangeCount c) s))
  else lnkResult c 1 (setReg (Reg.lnkCfg c) (v &&& 0x3F3F#32) s)

/-- A RESET completes once the receive buffers have drained, or the output that their flits wait for has failed for want of
credit (R215, R217). -/
def resetDone (c : Nat) (s : State) : State :=
  let mine (f : Flit) : Bool := f.slot && f.arr == some c
  let busy := s.chans.any (fun p => p.2.outq.any (fun o => mine o.f)) || s.net.held.any (fun h => mine h.f && !h.stalled)
  if (getChan s c).resetting && !busy then stopChan c s else s

/-! ### Training (R212) -/

/-- The partner's signal is seen: first training begins. -/
def signalDetect (c : Nat) (s : State) : State :=
  let x := getChan s c
  if x.st == .waiting then
    setChan c { x with st := .training, attempts := 0, firstTrain := true, degrading := false, partner := none,
                       lanesOk := if isFord c then 0 else cfgLanes s c } s
  else s

/-- A lane loss reduces the width (R212, R216): LANE_DEGRADE, LINK_LANE_FAIL and the vector of R392. -/
def degrade (c : Nat) (s : State) : State :=
  raiseVec (32 + c) (lnkCause c 6 (bump (Reg.laneDegrade c) (setChan c { getChan s c with degrading := true } s)))

/-- The partner's LANES_OK in a retrain lacks a lane in use, which this end did not see lost (R212). -/
def partnerLost (s : State) (c : Nat) (p : Payload) : Bool :=
  let x := getChan s c
  let ok : BitVec 4 := BitVec.ofNat 4 (payN p 20 1)
  !isFord c && x.st == .retraining && !x.degrading && degradeOk s c && 1 < popc 4 x.lanesUp.toNat &&
    x.lanesUp &&& ok != x.lanesUp

/-- A TRAIN flit arrives: a mismatch fails the attempt; at a channel that is UP the partner has begun a retrain (R216). -/
def trainRx (c : Nat) (p : Payload) (s : State) : State :=
  let s := startRetrain c none s
  if !inTraining s c then s
  else if payN p 2 1 != lnkRate s c || payN p 3 1 != lnkLanes s c || payN p 4 1 != b2n (lnkFec s c) then trainFail c 4 s
  else
    let s := if partnerLost s c p then degrade c s else s
    setChan c { getChan s c with partner := some p } s

/-- LANE_MAP after a lane loss: `w` is the configured LANES code, `g` the lanes good at both ends (R212). -/
def laneMap (w : Nat) (g : BitVec 4) : BitVec 4 :=
  if w = 2 && bitAt g 0 && bitAt g 1 then 3
  else if w = 2 && bitAt g 2 && bitAt g 3 then 0xC
  else if bitAt g 0 then 1 else if bitAt g 1 then 2
  else if w = 2 && bitAt g 2 then 4 else if w = 2 && bitAt g 3 then 8 else 0

/-- The lanes in use after the training in progress. -/
def nextLanes (s : State) (c : Nat) : BitVec 4 :=
  let x := getChan s c
  let other : BitVec 4 := match x.partner with | some p => BitVec.ofNat 4 (payN p 20 1) | none => x.lanesOk
  if isFord c then 0
  else if x.firstTrain then cfgLanes s c
  else if x.degrading then laneMap (lnkLanes s c) (x.lanesOk &&& other) else x.lanesUp

/-- Unacknowledged flits of a class. -/
def retained (r : List RetryFlit) (k : Nat) : Nat := (r.filter (fun e => flitClass e.f.vl e.dl = k)).length

/-- Give retained flits new sequence numbers from 0. -/
def renumber : Nat → List RetryFlit → List RetryFlit
  | _, [] => []
  | n, e :: l => { e with seq := n } :: renumber (n + 1) l

/-- Receive buffer places of a class (R209). -/
def bufSize (k : Nat) : Nat := if k < 2 then 96 else if k < 4 then 64 else 16

/-- Places of a channel's receive buffer in use for a class. -/
def bufUsed (s : State) (c k : Nat) : Nat :=
  let mine (f : Flit) : Bool := f.slot && f.arr == some c && flitClass f.vl f.dl = k
  (s.chans.foldl (fun a p => a + (p.2.outq.filter (fun o => mine o.f)).length) 0) +
    (s.net.held.filter (fun h => mine h.f)).length

/-- Training completes: the channel is UP, replays from the partner's NEXT_RX, and sends HELLO (R212, R223). Places freed since
this end's last TRAIN flit are owed as credits (R209; DEDUCED, log 148). -/
def trainingDone (c : Nat) (pol : BitVec 4) (rev : Bool) (s : State) : State :=
  let x := getChan s c
  match x.partner with
  | none => s
  | some p =>
    let lanes := nextLanes s c
    if !inTraining s c || (!isFord c && lanes = 0) then s
    else
      let far := payN p 6 2 % 1024
      let zero := x.seqReset || bitAt p 40
      let keep := x.retry.filter (fun e => !seqBefore e.seq far)
      let keep := if zero then renumber 0 keep else keep
      let credits := (upTo 6).map (fun k => payN p (8 + 2 * k) 2 - retained keep k)
      let owed := (upTo 6).map (fun k => bufSize k - bufUsed s c k - x.adv.getD k (bufSize k))
      let s := setChan c { x with
        st := .up, attempts := 0, degrading := false, partner := none, seqReset := false
        polInv := if isFord c then 0 else pol, reversed := !isFord c && rev, lanesUp := lanes, lanesOk := x.lanesOk ||| lanes
        nextTx := if zero then keep.length else x.nextTx, nextRx := if zero then 0 else x.nextRx
        rxAny := x.rxAny && !zero, retry := keep, replay := keep.head?.map RetryFlit.seq, replays := 0, fecFill := []
        downEarly := if x.st == .training then none else x.downEarly
        retryWait := false, nakDue := none, nakLast := none, credits := credits
        unret := owed, creditDue := owed.any (8 ≤ ·), adv := [] } s
      let s := if keep.isEmpty then s else bump (Reg.replays c) s
      sendHello c (electing (lnkCause c 0 s))

/-! ### Sending (R203–R210) -/

/-- Bytes a CRC covers: header, then payload (R205). -/
def flitBytes (h : BitVec 24) (p : Payload) : List Nat :=
  ((upTo 3).map (fun i => fld h (8 * i) 8)) ++ ((upTo 128).map (fun i => payN p i 1))

/-- The CRC of a flit (R205). -/
def flitCrc (h : BitVec 24) (p : Payload) : BitVec 32 := BitVec.ofNat 32 (crc32 (flitBytes h p))

/-- The header of a flit sent now (R204). -/
def flitHdr (x : Chan) (vl dl seq : Nat) : BitVec 24 :=
  BitVec.ofNat 24 (vl + 4 * dl + 8 * b2n x.rxAny + 16 * seq + 2 ^ 14 * ((x.nextRx + 1023) % 1024))

/-- A beat with its check (R197). -/
def mkBeat (d : BitVec 64) (k : BitVec 4) (frm vld : Bool) : Beat :=
  { d := d, k := k, frm := frm, vld := vld,
    c := Config.beatCheck (BitVec.ofNat 70 (d.toNat + k.toNat * 2 ^ 64 + b2n frm * 2 ^ 68 + b2n vld * 2 ^ 69)) }

/-- The 17 beats of a flit on a ford port (R203). -/
def fordBeats (w : WireFlit) : List Beat :=
  (upTo 16).map (fun b => mkBeat (BitVec.ofNat 64 (payN w.pay (8 * b) 8)) (BitVec.ofNat 4 (fld w.hdr (4 * b) 4)) (b = 0) true) ++
    [mkBeat (w.crc.setWidth 64) 0 false true]

/-- The 135 bytes of a flit on a serial channel (R203). -/
def serialBytes (w : WireFlit) : List Nat := flitBytes w.hdr w.pay ++ (upTo 4).map (fun i => fld w.crc (8 * i) 8)

/-- A filler beat (R200). -/
def fillerBeat (c n : Nat) : Beat :=
  mkBeat ((Config.filler c n).setWidth 64) (BitVec.ofNat 4 (fld (Config.filler c n) 64 4)) false false

/-- The bits of a flit: header, payload and CRC. -/
def flitBits (w : WireFlit) : BitVec 1080 := w.crc ++ w.pay ++ w.hdr

/-- The 108 symbols of a flit, its low bits first. -/
def flitSyms (w : WireFlit) : List Nat := (upTo 108).map (fun i => fld (flitBits w) (10 * i) 10)

/-- A flit fills the FEC's message; at 514 symbols a codeword goes out, its symbols in turn over the lanes in use (R193). -/
def fecOut (w : WireFlit) (x : Chan) : Chan :=
  let m := x.fecFill ++ flitSyms w
  if m.length < 514 then { x with fecFill := m }
  else { x with fecFill := m.drop 514, fecLanes := rsLanes (popc 4 x.lanesUp.toNat) (rsWord (m.take 514)) }

/-- A flit goes out on the wire: through the FEC of a serial channel where it is on (R193); a ford port sends its beats, after a filler beat
where 256 beats would go without one (R200). -/
def goesOut (c : Nat) (fec : Bool) (w : WireFlit) (x : Chan) : Chan :=
  if !isFord c then (if fec then fecOut w { x with wire := some w } else { x with wire := some w })
  else if x.fill + 17 < 256 then { x with wire := some w, beats := fordBeats w, fill := x.fill + 17 }
  else { x with wire := some w, beats := fillerBeat c x.fillers :: fordBeats w, fill := 17, fillers := x.fillers + 1 }

/-- A flit leaves an asynchronous FIFO of channel `c` with `err` of its bits in error: the flit, and whether it is uncorrectable (R283,
R532). DESIGN CHOICE (log 152): a correction counts with those of the FEC or of the beats, an uncorrectable flit in CRC_ERR. -/
def flitCheck (c : Nat) (w : WireFlit) (err : BitVec 1088) (s : State) : WireFlit × Bool × State :=
  if err = 0 then (w, false, s)
  else
    let n := popc 1088 err.toNat
    let v := eccVerdict n s.free
    let b := eccData n s.free (flitBits w) (err.setWidth 1080)
    let w : WireFlit := ⟨b.setWidth 24, BitVec.ofNat 1024 (b.toNat / 2 ^ 24), BitVec.ofNat 32 (b.toNat / 2 ^ 1048)⟩
    let s := if 2 < n then drawFree s else s
    match v with
    | .ok => (w, false, s)
    | .ce => (w, false, bump (if isFord c then Reg.beatCorr c else Reg.fecSymCorr c) s)
    | .ue => (w, true, bump (Reg.crcErr c) s)

/-- The flit in the transmit FIFO leaves, as its check gives it (R283). An uncorrectable one goes out as it stands, and the far end's
CRC-32 discards it. -/
def fifoLeave (c : Nat) (s : State) : State :=
  let x := getChan s c
  match x.sent with
  | none => s
  | some w =>
    let (w, _, s) := flitCheck c w x.sentErr s
    setChan c (goesOut c (lnkFec s c) w { x with sent := none, sentErr := 0 }) s

/-- Put a flit into the transmit FIFO of a channel; the one before it leaves. -/
def onWire (c vl dl seq : Nat) (p : Payload) (s : State) : State :=
  let s := fifoLeave c s
  let x := getChan s c
  let h := flitHdr x vl dl seq
  setChan c { x with sent := some ⟨h, p, flitCrc h p⟩, sentErr := 0 } s

/-- Put a control flit on the wire. -/
def sendCtl (c : Nat) (p : Payload) (s : State) : State := onWire c 3 0 0 p s

/-- The TRAIN flit of this end (R212). -/
def trainMsg (s : State) (c : Nat) : Payload :=
  let x := getChan s c
  let m := payPut (payPut (payPut (payPut 0 0 1 4) 1 1 1) 2 1 (lnkRate s c)) 3 1 (lnkLanes s c)
  let m := payPut (payPut (payPut m 4 1 (b2n (lnkFec s c))) 5 1 (b2n x.seqReset)) 6 2 x.nextRx
  let m := (upTo 6).foldl (fun m k => payPut m (8 + 2 * k) 2 (bufSize k - bufUsed s c k)) m
  if isFord c then m else payPut (payPut m 20 1 x.lanesOk.toNat) 21 1 (nextLanes s c).toNat

/-- The first queued flit of a class, if the class holds a credit. -/
def ready (x : Chan) (k : Nat) : Option OutFlit :=
  if x.credits.getD k 0 = 0 then none else x.outq.find? (fun o => flitClass o.f.vl o.dl = k)

/-- The class of a VL to send from: the two classes alternate (R210). -/
def pickClass (x : Chan) (vl : Nat) : Option Nat :=
  let last := b2n (bitAt x.lastDl vl)
  if (ready x (2 * vl + (1 - last))).isSome then some (2 * vl + (1 - last))
  else if (ready x (2 * vl + last)).isSome then some (2 * vl + last) else none

/-- The arbiter's choice among queued flits (R210). -/
def arbiter (x : Chan) : Option Nat :=
  let has (vl : Nat) : Option Nat := pickClass x vl
  if (has 2).isSome && 31 ≤ x.slot2 then has 2
  else if (has 1).isSome && 7 ≤ x.slot1 then has 1
  else if (has 0).isSome then has 0
  else if (has 2).isSome then has 2 else has 1

/-- Advance the slot counters: `vl` is what went, 3 a control flit, `idle` whether it was an IDLE (R210). -/
def countSlot (c vl : Nat) (idle : Bool) (s : State) : State :=
  let x := getChan s c
  setChan c { x with slot2 := if vl = 2 then 0 else min 31 (x.slot2 + 1), slot1 := if vl = 1 then 0 else min 7 (x.slot1 + 1),
                     slotIdle := if idle then 0 else min 4095 (x.slotIdle + 1) } s

/-- Send a queued flit of class `k`: numbered, kept in the retry buffer, its credit used, its receive buffer left (R206, R209). -/
def sendClass (c k : Nat) (s : State) : State :=
  let x := getChan s c
  match ready x k with
  | none => s
  | some o =>
    let s := onWire c o.f.vl o.dl x.nextTx o.f.pay s
    let x := getChan s c
    let i := x.outq.findIdx (fun q => flitClass q.f.vl q.dl = k)
    let s := setChan c { x with
      outq := x.outq.eraseIdx i, nextTx := (x.nextTx + 1) % 1024
      retry := x.retry ++ [⟨x.nextTx, o.dl, { o.f with slot := false }⟩]
      credits := x.credits.set k (x.credits.getD k 0 - 1), lastDl := setBit x.lastDl o.f.vl (o.dl = 1) } s
    countSlot c o.f.vl false (freeSlot o.f (bump (Reg.flitsTx c) s))

/-- Send IDLE. -/
def sendIdle (c : Nat) (s : State) : State := countSlot c 3 true (sendCtl c (payPut 0 0 1 1) s)

/-- The flit after `q` in the retry buffer. -/
def replayAfter (r : List RetryFlit) (q : Nat) : Option Nat :=
  ((r.dropWhile (fun e => e.seq != q)).drop 1).head?.map RetryFlit.seq

/-- The output arbiter fills one slot of a channel that is UP (R210). -/
def sendSlot (c : Nat) (s : State) : State :=
  let x := getChan s c
  match x.replay.bind (fun q => x.retry.find? (fun e => e.seq = q)) with
  | some e =>
    let s := onWire c e.f.vl e.dl e.seq e.f.pay s
    countSlot c e.f.vl false (setChan c { getChan s c with replay := replayAfter x.retry e.seq } s)
  | none =>
    match x.nakDue with
    | some n => countSlot c 3 false (sendCtl c (payPut (payPut 0 0 1 2) 1 2 n) (setChan c { x with nakDue := none } s))
    | none =>
      if x.creditDue then
        let m := (upTo 6).foldl (fun m j => payPut m (2 * j + 1) 2 (x.unret.getD j 0)) (payPut 0 0 1 3)
        countSlot c 3 false (sendCtl c m (setChan c { x with creditDue := false, unret := [0, 0, 0, 0, 0, 0] } s))
      else if !isFord c && 4095 ≤ x.slotIdle then sendIdle c s
      else
        match arbiter x with
        | none => sendIdle c s
        | some k =>
          if 512 ≤ x.retry.length then
            let s := if x.retryWait then s else bump (Reg.retryFull c) s
            sendIdle c (setChan c { getChan s c with retryWait := true } s)
          else sendClass c k s

/-- FLIT_TRANSMIT: the next flit slot of a channel (R210, R213). -/
def flitTransmit (c : Nat) (s : State) : State :=
  if inTraining s c then
    let s' := sendCtl c (trainMsg s c) s
    setChan c { getChan s' c with adv := (upTo 6).map (fun k => bufSize k - bufUsed s c k) } s'
  else if linkUp s c then sendSlot c s else s

/-! ### Receiving (R206–R209) -/

/-- Take the ACK of an arriving header: retry entries up to it are freed (R206). -/
def takeAck (c : Nat) (h : BitVec 24) (s : State) : State :=
  if !bitAt h 3 then s
  else
    let x := getChan s c
    let a := fld h 14 10
    let keep := x.retry.filter (fun e => 512 ≤ (a + 1024 - e.seq) % 1024)
    let moved := keep.length != x.retry.length
    let rp := match x.replay with
      | some q => if keep.any (fun e => e.seq = q) then some q else keep.head?.map RetryFlit.seq
      | none => none
    setChan c { x with retry := keep, replay := rp, replays := if moved then 0 else x.replays,
                       retryWait := x.retryWait && !moved } s

/-- Start a replay from SEQ `q` (R207); past 16 replays of the oldest flit the channel retrains instead. -/
def startReplay (c q : Nat) (s : State) : State :=
  let x := getChan s c
  match x.retry with
  | [] => s
  | o :: _ =>
    if !x.retry.any (fun e => e.seq = q) then s
    else if o.seq = q && 16 ≤ x.replays then startRetrain c (some 5) s
    else bump (Reg.replays c)
      (setChan c { x with replay := some q, replays := if o.seq = q then x.replays + 1 else x.replays } s)

/-- Send a NAK for NEXT_RX, at most once per 200 ns for any one (R207); `apart` says that 200 ns have passed. -/
def sendNak (c : Nat) (apart : Bool) (s : State) : State :=
  let x := getChan s c
  if x.nakLast = some x.nextRx && !apart then s
  else bump (Reg.naksSent c) (setChan c { x with nakDue := some x.nextRx, nakLast := some x.nextRx } s)

/-- A boundary frame for this device passes CRC-32: groups that cut-through delivered and that its replay, or its re-sending by
another route, changed act as recalls (R202). Where the tick only waited for it, a boundary input settled last. -/
def cutThroughPass (c : Nat) (p : Payload) (s : State) : State :=
  let t := tagTick s (payN p 2 2)
  let f := payN p 8 2 % 4096
  let one (i : Nat) (s : State) : State :=
    let g := f + i
    let v : BitVec 64 := BitVec.ofNat 64 (payN p (16 + 8 * i) 8)
    let is (k : CtGroup) : Bool := k.tick = t && k.g = g && !k.passed
    match s.net.ct.find? is with
    | none => s
    | some k =>
      let s := { s with net := { s.net with ct := s.net.ct.map (fun q => if is q then { q with val := v, passed := true } else q) } }
      if k.val = v then s else recallEntry t g v c (bump (Reg.ctCorrections k.chan) s)
  if msgType p = 0x20 && bitAt (routeEntry s (some c) (msgDst p)) 28 then
    let q := forEach one (upTo (min 14 (payN p 1 1))) s
    if s.tick.inTick && s.tick.spacer && ctPending s && tilesReported Tile.spacerDone s && !ctPending q then groupSettled q else q
  else s

/-- A flit in sequence is accepted and forwarded (R206, R228). -/
def acceptFlit (c : Nat) (h : BitVec 24) (p : Payload) (s : State) : State :=
  let x := getChan s c
  let s := setChan c { x with nextRx := (x.nextRx + 1) % 1024, rxAny := true, nakLast := none } s
  let s := cutThroughPass c p (bump (Reg.flitsRx c) s)
  forward { vl := fld h 0 2, dl := fld h 2 1, arr := some c, slot := true, pay := p } s

/-- A CREDIT flit (R208, R209). -/
def creditRx (c : Nat) (p : Payload) (s : State) : State :=
  let x := getChan s c
  setChan c { x with credits := (upTo 6).map (fun j => x.credits.getD j 0 + payN p (2 * j + 1) 2) } s

/-- A control flit whose CRC is good (R208). -/
def ctlRx (c : Nat) (h : BitVec 24) (p : Payload) (s : State) : State :=
  let s := if linkUp s c then takeAck c h s else s
  if payN p 0 1 = 4 then trainRx c p s
  else if payN p 0 1 = 0 || 5 < payN p 0 1 then bump (Reg.badCtl c) s
  else if !linkUp s c then s
  else if payN p 0 1 = 2 then startReplay c (payN p 1 2 % 1024) s
  else if payN p 0 1 = 3 then creditRx c p s
  else if payN p 0 1 = 5 then startRetrain c none s
  else s

/-- What the FEC or the beat check makes of a flit that comes in: on a serial channel `corr` symbols of the codeword that ends with it are
in error, and `unc` further codewords that it overlaps could not be corrected; on a ford port so many beats each way. A bypassed FEC has no
codewords (R193). -/
def rxCheck (c corr unc : Nat) (s : State) : Nat × Nat :=
  if isFord c then (corr, unc)
  else if lnkFec s c then ((rsVerdict corr).1, (rsVerdict corr).2 + unc)
  else (0, 0)

/-- Count what the FEC or the beat check corrected and could not correct (R193, R216): symbols of a codeword or beats. -/
def countCheck (c corr unc : Nat) (s : State) : State :=
  if isFord c then bumpBy (Reg.beatUncorr c) unc (bumpBy (Reg.beatCorr c) corr s)
  else bumpBy (Reg.fecUncorr c) unc (bumpBy (Reg.fecSymCorr c) corr s)

/-- FLIT_RX (R206): a flit arrives, with the errors of its FEC codewords or beats, and passes the receive FIFO (R283); an uncorrectable
one is discarded as one that fails its CRC. -/
def flitRx (c : Nat) (h : BitVec 24) (p : Payload) (crc : BitVec 32) (corr unc : Nat) (apart : Bool) (s : State) : State :=
  if !(linkUp s c || (inTraining s c && fld h 0 2 = 3)) then s
  else
    let (corr, unc) := rxCheck c corr unc s
    let x := getChan s c
    let (w, lost, s) := flitCheck c ⟨h, p, crc⟩ x.rxErr (countCheck c corr unc s)
    let (h, p, crc) := (w.hdr, w.pay, w.crc)
    let s := if x.rxErr = 0 then s else setChan c { x with rxErr := 0 } s
    if 0 < unc || lost || crc != flitCrc h p then
      let s := if lost || (isFord c && 0 < unc) then s else bump (Reg.crcErr c) s
      if fld h 0 2 = 3 then s else sendNak c apart s
    else if fld h 0 2 = 3 then ctlRx c h p s
    else
      let s := takeAck c h s
      let q := fld h 4 10
      let n := (getChan s c).nextRx
      if q = n then acceptFlit c h p s
      else if seqBefore q n then s
      else sendNak c apart s

/-- A ford beat passes its check and completes group `i` of a boundary frame for this device (R202 step 1). -/
def fordCutThrough (c : Nat) (p : Payload) (i : Nat) (s : State) : State :=
  let n := payN p 1 1
  let t := tagTick s (payN p 2 2)
  let g := payN p 8 2 % 4096 + i
  let isHeld := match findVal s t g with | some b => b.real.isSome | none => false
  if !linkUp s c || msgType p != 0x20 || n = 0 || 14 < n || n ≤ i || 4095 < g || !tagHeld s t ||
      !bitAt (routeEntry s (some c) (msgDst p)) 28 || !(inGroups s).contains g || groupSrc s g != msgSrc p || isHeld then s
  else
    let v : BitVec 64 := BitVec.ofNat 64 (payN p (16 + 8 * i) 8)
    takeReal t g v false c { s with net := { s.net with ct := s.net.ct ++ [⟨c, t, g, v, false⟩] } }

/-! ### Losses and timers -/

/-- A lane is lost, in UP or in a retrain (R212, R216). -/
def laneLoss (c lane : Nat) (s : State) : State :=
  let x := getChan s c
  let re := x.st == .retraining && !x.resetting
  if !(linkUp s c || re) || isFord c || !bitAt x.lanesUp lane || !bitAt x.lanesOk lane then s
  else
    let deg := degradeOk s c && 1 < popc 4 x.lanesUp.toNat
    let s := setChan c { x with lanesOk := setBit x.lanesOk lane false, degrading := deg || (re && x.degrading) } s
    let s := startRetrain c none s
    if deg then degrade c s else s

/-- An output whose flits wait for credit gets none for LNK_STALL_TO (R215). -/
def stallTimeout (c : Nat) (s : State) : State :=
  let x := getChan s c
  let waits := x.outq.any (fun o => x.credits.getD (flitClass o.f.vl o.dl) 0 = 0)
  if linkUp s c && getReg s (Reg.lnkStallTo c) &&& 0xFFFF#32 != 0 && waits then enterFailed c 7 s else s

/-! ### The commands -/

def execLnkCmdEnable (chan : Fin 20) (s : State) : Res := .next (mgmt (lnkEnable chan) s)
def execLnkCmdDisable (chan : Fin 20) (s : State) : Res := .next (mgmt (lnkDisable chan) s)
def execLnkCmdReset (chan : Fin 20) (s : State) : Res := .next (mgmt (lnkReset chan) s)
def execLnkCmdRetrain (chan : Fin 20) (s : State) : Res := .next (mgmt (lnkRetrain chan) s)
def execLnkCmdReserved (chan : Fin 20) (_cmd : BitVec 4) (s : State) : Res := .next (mgmt (lnkReserved chan) s)
def execLnkCfgWrite (chan : Fin 20) (v : Word) (s : State) : Res := .next (mgmt (lnkCfgWrite chan v) s)
def execLinkSignalDetect (chan : Fin 20) (s : State) : Res := .next (signalDetect chan s)
def execTrainRx (chan : Fin 20) (pay : Payload) (s : State) : Res := .next (trainRx chan pay s)
def execTrainingDone (chan : Fin 20) (pol : BitVec 4) (rev : Bool) (s : State) : Res :=
  .next (trainingDone chan pol rev s)
/-- Reasons of R212: 0 LINK_NO_SIGNAL, 1 LINK_MISMATCH, 2 LINK_SKEW, 3 any other. -/
def execTrainingFail (chan : Fin 20) (why : Fin 4) (s : State) : Res :=
  .next (trainFail chan (if why = 0 then 2 else if why = 1 then 4 else if why = 2 then 9 else 3) s)
def execFlitRx (chan : Fin 20) (hdr : BitVec 24) (pay : Payload) (crc : BitVec 32) (corr unc : BitVec 16) (apart : Bool)
    (s : State) : Res := .next (flitRx chan hdr pay crc corr.toNat unc.toNat apart s)
def execFlitTransmit (chan : Fin 20) (s : State) : Res := .next (flitTransmit chan s)
def execNakRx (chan : Fin 20) (hdr : BitVec 24) (nextRx : Fin 1024) (s : State) : Res :=
  .next (if linkUp s chan then startReplay chan nextRx (takeAck chan hdr s) else s)
def execCreditRx (chan : Fin 20) (hdr : BitVec 24) (pay : Payload) (s : State) : Res :=
  .next (if linkUp s chan then creditRx chan pay (takeAck chan hdr s) else s)
def execIdleRx (chan : Fin 20) (hdr : BitVec 24) (s : State) : Res :=
  .next (if linkUp s chan then takeAck chan hdr s else s)
def execRetrainReqRx (chan : Fin 20) (hdr : BitVec 24) (s : State) : Res :=
  .next (if linkUp s chan then startRetrain chan none (takeAck chan hdr s) else s)
def execReplayTimeout (chan : Fin 20) (s : State) : Res :=
  .next (if linkUp s chan then
    (match (getChan s chan).retry with | e :: _ => startReplay chan e.seq s | [] => s) else s)
def execCreditReturnTimer (chan : Fin 20) (s : State) : Res :=
  .next (if (getChan s chan).unret.any (fun n => 0 < n) then setChan chan { getChan s chan with creditDue := true } s else s)
def execLinkStallTimeout (chan : Fin 20) (s : State) : Res := .next (stallTimeout chan s)
def execFordCutThrough (port : Fin 4) (pay : Payload) (i : Fin 14) (s : State) : Res :=
  .next (fordCutThrough (16 + port) pay i s)
def execLaneLoss (chan : Fin 16) (lane : Fin 4) (s : State) : Res := .next (laneLoss chan lane s)
def execStrobeLoss (port : Fin 4) (s : State) : Res := .next (startRetrain (16 + port) (some 8) s)
def execLinkSignalLoss (chan : Fin 20) (s : State) : Res := .next (startRetrain chan none s)
/-- REFCLK_SER_Qq is lost: each channel it feeds handles a lost signal (R30, R191). -/
def execRefclkSerLoss (q : Fin 4) (s : State) : Res :=
  .next (forEach (fun i s => startRetrain (4 * q + i) none s) (upTo 4) s)
def execLinkResetDone (chan : Fin 20) (s : State) : Res := .next (resetDone chan s)

end Sys2Proof.Machine
end

