-- ==== Sys2Proof/Machine/Crypto.lean ====
section
/-! DEFINITION. The published standards the loader and the security island follow: HMAC-SHA-256 (FIPS 180-4,
FIPS 198-1), AES-256 (FIPS 197), GCM (SP 800-38D) and AES Key Wrap (SP 800-38F), on lists of bytes (R398, R434,
R441, R446). PRESUMED: their contents come from the standards the spec names. -/

namespace Sys2Proof.Machine

/-- Bytes, each below 256, as a big-endian number. -/
def beNat (l : List Nat) : Nat := l.foldl (fun a b => 256 * a + b) 0

/-- The `n` bytes of a number, big-endian. -/
def beBytes : Nat → Nat → List Nat
  | 0, _ => []
  | n + 1, x => x / 256 ^ n % 256 :: beBytes n x

/-- The `n` bytes of a number, little-endian. -/
def leBytes : Nat → Nat → List Nat
  | 0, _ => []
  | n + 1, x => x % 256 :: leBytes n (x / 256)

/-- Bytes as a little-endian number. -/
def leNat (l : List Nat) : Nat := l.foldr (fun b a => b + 256 * a) 0

/-- A list cut into pieces of `k`, with fuel for the number of pieces. -/
def cut {α : Type} (k : Nat) : Nat → List α → List (List α)
  | 0, _ => []
  | n + 1, l => if l.isEmpty then [] else l.take k :: cut k n (l.drop k)

/-- Pieces of 16 bytes. -/
def blocks16 (l : List Nat) : List (List Nat) := cut 16 (l.length / 16 + 1) l

/-! ### SHA-256 and HMAC -/

/-- The 64 constants of SHA-256, constant i at bits 32i. -/
def shaK : Nat :=
  0xc67178f2bef9a3f7a4506ceb90befffa8cc7020884c8781478a5636f748f82ee682e6ff35b9cca4f4ed8aa4a391c0cb334b0bcb52748774c1e376c0819a4c116106aa070f40e3585d6990624d192e819c76c51a3c24b8b70a81a664ba2bfe8a192722c8581c2c92e766a0abb650a735453380d134d2c6dfc2e1b213827b70a851429296706ca6351d5a79147c6e00bf3bf597fc7b00327c8a831c66d983e515276f988da5cb0a9dc4a7484aa2de92c6f240ca1cc0fc19dc6efbe4786e49b69c1c19bf1749bdc06a780deb1fe72be5d74550c7dc3243185be12835b01d807aa98ab1c5ed5923f82a459f111f13956c25be9b5dba5b5c0fbcf71374491428a2f98

/-- The initial hash value, word i at bits 32i. -/
def shaH : Nat := 0x5be0cd191f83d9ab9b05688c510e527fa54ff53a3c6ef372bb67ae856a09e667

def rotr (x : Word) (n : Nat) : Word := (x >>> n) ||| (x <<< (32 - n))

/-- The message schedule, newest word first. -/
def shaSched : Nat → List Word → List Word
  | 0, w => w
  | n + 1, w =>
    let x := w.getD 14 0
    let y := w.getD 1 0
    let s0 := rotr x 7 ^^^ rotr x 18 ^^^ (x >>> 3)
    let s1 := rotr y 17 ^^^ rotr y 19 ^^^ (y >>> 10)
    shaSched n ((w.getD 15 0 + s0 + w.getD 6 0 + s1) :: w)

/-- One round of SHA-256 on the eight working words. -/
def shaRound (v : List Word) (kw : Word) : List Word :=
  match v with
  | [a, b, c, d, e, f, g, h] =>
    let s1 := rotr e 6 ^^^ rotr e 11 ^^^ rotr e 25
    let ch := (e &&& f) ^^^ (~~~e &&& g)
    let t1 := h + s1 + ch + kw
    let s0 := rotr a 2 ^^^ rotr a 13 ^^^ rotr a 22
    let mj := (a &&& b) ^^^ (a &&& c) ^^^ (b &&& c)
    [t1 + (s0 + mj), a, b, c, d + t1, e, f, g]
  | _ => v

/-- One 64-byte block. -/
def shaBlock (h : List Word) (blk : List Nat) : List Word :=
  let w0 := ((cut 4 16 blk).map (fun l => w32 (beNat l))).reverse
  let w := (shaSched 48 w0).reverse
  let kw := w.mapIdx (fun i x => x + w32 (shaK / 2 ^ (32 * i)))
  List.zipWith (· + ·) h (kw.foldl shaRound h)

/-- SHA-256 of a message, as 32 bytes. -/
def sha256 (m : List Nat) : List Nat :=
  let pad := m ++ [0x80] ++ List.replicate ((119 - m.length % 64) % 64) 0 ++ beBytes 8 (8 * m.length)
  let h0 := (List.range 8).map (fun i => w32 (shaH / 2 ^ (32 * i)))
  ((cut 64 (pad.length / 64) pad).foldl shaBlock h0).flatMap (fun w => beBytes 4 w.toNat)

/-- HMAC-SHA-256 with a key of at most 64 bytes. -/
def hmac (key m : List Nat) : List Nat :=
  let k := key ++ List.replicate (64 - key.length) 0
  sha256 (k.map (Nat.xor 0x5C) ++ sha256 (k.map (Nat.xor 0x36) ++ m))

/-! ### AES-256 -/

/-- The S-box, and its inverse: entry i at bits 8i. -/
def aesS : Nat :=
  0x16bb54b00f2d99416842e6bf0d89a18cdf2855cee9871e9b948ed9691198f8e19e1dc186b95735610ef6034866b53e708a8bbd4b1f74dde8c6b4a61c2e2578ba08ae7a65eaf4566ca94ed58d6d37c8e779e4959162acd3c25c2406490a3a32e0db0b5ede14b8ee4688902a22dc4f816073195d643d7ea7c41744975fec130ccdd2f3ff1021dab6bcf5389d928f40a351a89f3c507f02f94585334d43fbaaefd0cf584c4a39becb6a5bb1fc20ed00d153842fe329b3d63b52a05a6e1b1a2c830975b227ebe28012079a059618c323c7041531d871f1e5a534ccf73f362693fdb7c072a49cafa2d4adf04759fa7dc982ca76abd7fe2b670130c56f6bf27b777c63
def aesI : Nat :=
  0x7d0c2155631469e126d677ba7e042b17619953833cbbebc8b0f52aae4d3be0a0ef9cc9939f7ae52d0d4ab519a97f51605fec8027591012b131c7078833a8dd1ff45acd78fec0db9a2079d2c64b3e56fc1bbe18aa0e62b76f89c5291d711af1476edf751ce837f9e28535ade72274ac9673e6b4f0cecff297eadc674f4111913a6b8a130103bdafc1020f3fca8f1e2cd00645b3b80558e4f70ad3bc8c00abd890849d8da75746155edab9edfd5048706c92b6655dcc5ca4d41698688664f6f87225d18b6d49a25b76b224d92866a12e084ec3fa420b954cee3d23c2a632947b54cbe9dec444438e3487ff2f9b8239e37cfbd7f3819ea340bf38a53630d56a0952

def subByte (x : Nat) : Nat := aesS / 2 ^ (8 * x) % 256
def invByte (x : Nat) : Nat := aesI / 2 ^ (8 * x) % 256

def xtime (a : Nat) : Nat := if a < 128 then 2 * a else Nat.xor (2 * a - 256) 0x1B

/-- Multiplication in GF(2⁸). -/
def gmul : Nat → Nat → Nat → Nat
  | 0, _, _ => 0
  | n + 1, a, b => Nat.xor (if b % 2 = 1 then a else 0) (gmul n (xtime a) (b / 2))

/-- The key schedule, newest word of four bytes first; `i` is the number of the next word. -/
def aesSched : Nat → Nat → List (List Nat) → List (List Nat)
  | 0, _, w => w
  | n + 1, i, w =>
    let t := w.getD 0 []
    let t :=
      if i % 8 = 0 then
        let r := (t.drop 1 ++ t.take 1).map subByte
        match r with | a :: l => Nat.xor a (2 ^ (i / 8 - 1)) :: l | [] => []
      else if i % 8 = 4 then t.map subByte else t
    aesSched n (i + 1) (List.zipWith Nat.xor (w.getD 7 []) t :: w)

/-- The 15 round keys of a 32-byte key. -/
def aesKeys (key : List Nat) : List (List Nat) :=
  cut 16 15 (aesSched 52 8 (cut 4 8 key).reverse).reverse.flatten

def shiftRows (s : List Nat) (inv : Bool) : List Nat :=
  (List.range 16).map fun i =>
    let r := i % 4
    let c := i / 4
    s.getD (4 * ((if inv then c + 4 - r else c + r) % 4) + r) 0

/-- MixColumns with the first row of its matrix. -/
def mixColumns (m : List Nat) (s : List Nat) : List Nat :=
  (List.range 16).map fun i =>
    ((List.range 4).map fun j => gmul 8 (s.getD (4 * (i / 4) + j) 0) (m.getD ((j + 4 - i % 4) % 4) 0)).foldl Nat.xor 0

def addKey (k s : List Nat) : List Nat := List.zipWith Nat.xor s k

/-- AES-256 of one block under its round keys. -/
def aesEnc (ks : List (List Nat)) (b : List Nat) : List Nat :=
  let mid := (ks.drop 1).take 13
  let s := mid.foldl (fun s k => addKey k (mixColumns [2, 3, 1, 1] (shiftRows (s.map subByte) false)))
    (addKey (ks.getD 0 []) b)
  addKey (ks.getD 14 []) (shiftRows (s.map subByte) false)

/-- The inverse cipher. -/
def aesDec (ks : List (List Nat)) (b : List Nat) : List Nat :=
  let mid := ((ks.drop 1).take 13).reverse
  let s := mid.foldl (fun s k => mixColumns [14, 11, 13, 9] (addKey k ((shiftRows s true).map invByte)))
    (addKey (ks.getD 14 []) b)
  addKey (ks.getD 0 []) ((shiftRows s true).map invByte)

/-! ### GCM -/

/-- Multiplication in GF(2¹²⁸) of SP 800-38D: bit 127 of the number is bit 0 of the block. -/
def gfMul : Nat → Nat → Nat → Nat → Nat
  | 0, _, _, z => z
  | n + 1, x, v, z =>
    gfMul n x (if v % 2 = 1 then Nat.xor (v / 2) (0xE1 * 2 ^ 120) else v / 2)
      (if x / 2 ^ n % 2 = 1 then Nat.xor z v else z)

/-- GHASH over whole blocks. -/
def ghash (h : Nat) (l : List (List Nat)) : Nat :=
  l.foldl (fun y b => gfMul 128 (Nat.xor y (beNat (b ++ List.replicate (16 - b.length) 0))) h 0) 0

/-- The counter mode of GCM with a 96-bit IV: encryption and decryption alike. -/
def gcmCrypt (ks : List (List Nat)) (iv data : List Nat) : List Nat :=
  ((blocks16 data).mapIdx fun i b => List.zipWith Nat.xor b (aesEnc ks (iv ++ beBytes 4 (i + 2)))).flatten

/-- The 16-byte tag over additional data and ciphertext. -/
def gcmTag (ks : List (List Nat)) (iv aad ct : List Nat) : List Nat :=
  let h := beNat (aesEnc ks (List.replicate 16 0))
  let g := ghash h (blocks16 aad ++ blocks16 ct ++ [beBytes 8 (8 * aad.length) ++ beBytes 8 (8 * ct.length)])
  beBytes 16 (Nat.xor g (beNat (aesEnc ks (iv ++ [0, 0, 0, 1]))))

/-! ### Key wrap -/

/-- The steps of KW unwrapping from step `t` down: the check word and the semiblocks. -/
def kwSteps (ks : List (List Nat)) : Nat → List Nat → List (List Nat) → List Nat × List (List Nat)
  | 0, a, r => (a, r)
  | t + 1, a, r =>
    let i := t % r.length
    let b := aesDec ks (beBytes 8 (Nat.xor (beNat a) (t + 1)) ++ r.getD i [])
    kwSteps ks t (b.take 8) (r.set i (b.drop 8))

/-- Unwrap a key wrapped under KW; none if the check word is wrong. -/
def kwUnwrap (kek wrapped : List Nat) : Option (List Nat) :=
  let r := cut 8 (wrapped.length / 8) wrapped
  match r with
  | [] => none
  | a :: l =>
    let o := kwSteps (aesKeys kek) (6 * l.length) a l
    if o.1 = List.replicate 8 0xA6 then some o.2.flatten else none

/-! ### Keys of the device (R434) -/

/-- The bytes of a 256-bit key, first byte in the lowest bits. -/
def keyBytes (k : BitVec 256) : List Nat := leBytes 32 k.toNat
def keyOf (l : List Nat) : BitVec 256 := BitVec.ofNat 256 (leNat l)

/-- "ETIOR-" and the rest of a label. -/
def label (l : List Nat) : List Nat := [0x45, 0x54, 0x49, 0x4F, 0x52, 0x2D] ++ l
def labelCmd : List Nat := label [0x43, 0x4D, 0x44]
def labelWrap : List Nat := label [0x57, 0x52, 0x41, 0x50]
def labelImg : List Nat := label [0x49, 0x4D, 0x47]
def labelKcv : List Nat := label [0x4B, 0x43, 0x56]

/-- A secret in a derivation: 32 bytes of 0 stand in for an absent one. -/
def derive (secret : Option (BitVec 256)) (lab : List Nat) : List Nat := hmac (keyBytes (secret.getD 0)) lab

end Sys2Proof.Machine
end

