-- ==== Sys2Proof/Machine/Marks.lean ====
section
/-! DEFINITION. Marking a resource unusable at run time, and whether the running image uses it (R33–R36,
R478, R479). -/

namespace Sys2Proof.Machine

/-- The frame last written to a tile: what the stored frame would be without upsets. -/
def goodFrame (x : Tile) : Frame := x.frame ^^^ x.upset.setWidth 4096

/-- The frame last written is the idle frame (R403, R476). -/
def tileIdle (x : Tile) : Bool := goodFrame x == idleFrame

/-- A descriptor is in use, a port is enabled, or firmware runs: the image needs HBM (R419). -/
def needsHbm (s : State) : Bool :=
  s.pool.hbm.any (fun p => p.1 < 4 * 1048576 && p.1 % 4 = 1 && fld p.2.data 8 3 != 0) ||
  (upTo 256).any (fun p => bitAt (getReg s (Reg.ppCfg p)) 0) || s.claims.any (fun c => c.kind = 5 && 1 ≤ c.owner && c.owner ≤ 4)

/-- An image is in force: from the loader's checks on, so also in the start-up steps (R419, R430), until a load, a
shutdown or a reset. -/
def imageRuns (s : State) : Bool := !s.dev.inReset && s.dev.st != .shuttingDown && s.ldr.image.isSome

/-- Whether the running image uses the resource of a mark (R36). -/
def imageUses (s : State) (m : Mark) : Bool :=
  imageRuns s &&
    (if m.kind = 1 then
      match logCol s m.sec m.idx with
      | some c => s.fab.tiles.any (fun p => tSec p.1 = m.sec && tCol p.1 = c && !tileIdle p.2)
      | none => false
    else if m.kind = 2 then
      match logBlock s m.sec m.idx with
      | some k => bmUse (getBlock s (4096 * m.sec + k)).cfg
      | none => false
    else if m.kind = 3 then
      match logEddy s m.sec m.idx with
      | some e => (claimOwner s 5 e).isSome
      | none => false
    else if m.kind = 4 then qEn (getReg s (Reg.qcfg (256 * m.sec + m.idx)))
    else if m.kind = 5 then bitAt (getReg s (Reg.ppCfg (32 * m.sec + m.idx))) 0
    else if m.kind = 6 then bitAt s.ldr.chanEn m.sec
    else if m.kind = 7 then needsHbm s
    else m.kind = 9)

/-- The device loses a resource at run time: DEV_EVENT RES_LOST, DEGRADED from OPERATIONAL, and FAULT with
TICK_RESOURCE_LOST where the running image uses it (R33, R36, R39). -/
def lossAt (used : Bool) (s : State) : State :=
  let s := devEvent 0x20 s
  let s := if s.dev.st == .operational then devEvent 8 (devGo .degraded 5 s) else s
  if used then tickFault 0x14 s else s

/-- Add a mark to TEST_FAIL_LOG, newest first (R485). -/
def logMark (m : Mark) (s : State) : State := { s with rep := { s.rep with log := (m :: s.rep.log).take 16 } }

/-- Keep a mark in the field repair map; a mark is never removed (R478). -/
def fieldMark (m : Mark) (s : State) : State :=
  if s.nv.marks.contains m then s else { s with nv := { s.nv with marks := s.nv.marks ++ [m] } }

/-- A run-time mark is made, and its resource is out of use: a failed eddy stops, failed HBM is not READY (R36, R479);
`keep` where the mark goes into the field repair map. -/
def addMark (keep : Bool) (m : Mark) (s : State) : State :=
  let s := logMark m (if keep then fieldMark m s else s)
  let s := { s with rep := { s.rep with run := s.rep.run ++ [m] } }
  if m.kind = 3 then
    match logEddy s m.sec m.idx with
    | some e => let x := getEddy s e; setEddy e { x with st := .failed } s
    | none => s
  else if m.kind = 7 then andNotReg (Reg.hbmStat m.sec) 1 s
  else s

/-- Resources are marked unusable at run time in one event: those already marked stay so, and the device loses the others
once (R36). -/
def markAll (keep : Bool) (ms : List Mark) (s : State) : State :=
  let new := ms.filter fun m => !(allMarks s).contains m
  if new.isEmpty then s else lossAt (new.any (imageUses s)) (forEach (addMark keep) new s)

/-- A resource is marked unusable at run time (R36, R479). -/
def markRun (keep : Bool) (m : Mark) (s : State) : State := markAll keep [m] s

/-- A frame is lost in a tile of the image: the tile is unusable until PORST_N (R465). -/
def markTile (t : Nat) (s : State) : State :=
  if s.rep.lost.contains t then s
  else lossAt (imageRuns s) { s with rep := { s.rep with lost := s.rep.lost ++ [t] } }

/-- End every lease at once, without restore (R476). -/
def endLeases (s : State) : State := { s with bg := { s.bg with leases := [] } }

end Sys2Proof.Machine
end

