-- ==== Sys2Proof/Machine/Image.lean ====
section
/-! DEFINITION. The Adhavex image: where its bytes come from, the header and its checks, the opcode stream, the
device tables it carries and its claims (chapter The Adhavex Image). -/

namespace Sys2Proof.Machine

/-! ### The source (R413) -/

/-- An unlisted slot of the configuration store: empty. -/
def dSlotStore (_ : Nat) : Slot := {}
def getSlot (s : State) (n : Nat) : Slot := mget dSlotStore s.nv.slots n
def setSlot (n : Nat) (x : Slot) (s : State) : State := { s with nv := { s.nv with slots := mset dSlotStore s.nv.slots n x } }

/-- A place an image is read from: a slot, or bytes of the staging area. -/
structure Source where
  slot : Option Nat
  off : Nat
  len : Nat

/-- The source of the present attempt. -/
def ldrSource (s : State) : Source :=
  if s.ldr.src < 4 then ⟨some s.ldr.src, 0, (getSlot s s.ldr.src).len⟩ else ⟨none, s.ldr.off, s.ldr.len⟩

/-- Byte `i` of a source. Single-bit errors of the staging area are corrected (R294). -/
def srcByte (s : State) (c : Source) (i : Nat) : Nat :=
  match c.slot with
  | some n => fld (mget (fun _ => (0 : BitVec 64)) (getSlot s n).words (i / 8)) (8 * (i % 8)) 8
  | none =>
    let w := hbmAt s (stageWord + (c.off + i) / 8)
    fld (if popc 72 w.err.toNat = 1 then w.data ^^^ w.err.setWidth 64 else w.data) (8 * (i % 8)) 8

/-- `n` bytes of a source from byte `a`. -/
def srcBytes (s : State) (c : Source) (a n : Nat) : List Nat := (List.range n).map fun i => srcByte s c (a + i)

/-- Reading the staging area checks its words: errors are counted and recorded as any read's (R294). -/
def srcRead (c : Source) (s : State) : State :=
  match c.slot with
  | some _ => s
  | none =>
    let lo := stageWord + c.off / 8
    let hi := stageWord + (c.off + c.len + 7) / 8
    let bad := s.pool.hbm.filter fun p => lo ≤ p.1 && p.1 < hi && p.2.err != 0
    forEach (fun p s => (hbmFetch p.1 0 s).2.2) bad s

/-! ### The header (R395–R397) -/

/-- `n` bytes of a header from byte `i`, as a number. -/
def hdr (h : List Nat) (i n : Nat) : Nat := leNat ((h.drop i).take n)

/-- STARTUP names each step once (R396). -/
def startupOk (v : Nat) : Bool := (upTo 4).all fun c => (upTo 4).any fun k => v / 4 ^ k % 4 = c

/-- The image keys that the present life-cycle state accepts (R436). -/
def keyAllowed (s : State) (k : Nat) : Bool :=
  let fuse := s.nv.kFuse.isSome
  let bbk := s.nv.kBbk.isSome
  match s.nv.lc with
  | .blank | .manufacture | .service => k = 0
  | .provisioned => k = 0 || (k = 1 && fuse) || (k = 2 && bbk)
  | .deployed => (k = 1 && fuse) || (k = 2 && bbk && bitAt s.nv.policy 1) || (k = 0 && bitAt s.nv.policy 0)
  | .retired => false

/-- The key of an image (R398, R434). -/
def imageKey (s : State) (k : Nat) : List Nat :=
  if k = 0 then List.replicate 32 0 else if k = 1 then derive s.nv.kFuse labelImg else derive s.nv.kBbk labelImg

/-- The counter floor kept for a key selector (R437). -/
def floorOf (s : State) (k : Nat) : Nat := if k = 1 then s.nv.floor1 else if k = 2 then s.nv.floor2 else 0

/-- The checks of R397 in order: the condition that refuses, the LOAD_ code, and the offset of the field. -/
def headerChecks (s : State) (h : List Nat) : List (Bool × Nat × Nat) :=
  let grade := if Config.gradeE then 2 else 1
  [ (hdr h 0 4 != 0x56584441, 1, 0), (hdr h 4 2 != 1, 1, 4), (hdr h 6 2 != 0x80, 1, 6), (4 ≤ hdr h 13 1, 1, 13),
    (hdr h 14 2 != 0, 1, 14), (2 < hdr h 40 1, 1, 40), (hdr h 41 1 != 0, 1, 41), (!startupOk (hdr h 42 1), 1, 42),
    (hdr h 43 1 != 0, 1, 43), (hdr h 56 8 != 0, 1, 56), (hdr h 96 32 != 0, 1, 96),
    (hdr h 8 2 != 0x1F3C, 2, 8), (hdr h 10 2 != 0xE732, 2, 10), (hdr h 12 1 != 0xB1, 2, 12),
    (hdr h 13 1 / grade % 2 = 0, 2, 13), (hdr h 16 8 != 0 && hdr h 16 8 != Config.serial.toNat, 2, 16),
    (hdr h 24 8 = 0 || 0x7FFFFF70 < hdr h 24 8, 0x20, 24), (!keyAllowed s (hdr h 40 1), 3, 40),
    (hdr h 32 8 < floorOf s (hdr h 40 1), 4, 32) ]

/-- What refuses a header: LOAD_ code and offset. -/
def headerRefusal (s : State) (h : List Nat) : Option (Nat × Nat) :=
  ((headerChecks s h).find? (fun c => c.1)).map (fun c => c.2)

/-! ### Frame addresses and tables (R399–R407) -/

/-- Frames of each device table (R404). -/
def tableFrames (t : Nat) : Nat := [1, 64, 32, 32, 32, 16, 65536, 32, 65536, 10].getD t 0

/-- A frame address is assigned and in range (R399). -/
def addrOk (a : Nat) : Bool :=
  let cls := a / 2 ^ 28
  if cls = 0 then a < 2 ^ 20
  else if cls = 1 then a % 2 ^ 28 < 256
  else if cls = 2 then a % 2 ^ 20 < tableFrames (a / 2 ^ 20 % 256) && (a / 2 ^ 20 % 256 != 8 || a % 128 < 120)
  else false

/-- Every address of a run lies in the class, table and index range of the first (R409). -/
def runOk (a n : Nat) : Bool :=
  addrOk a && addrOk (a + n - 1) && a / 2 ^ 20 = (a + n - 1) / 2 ^ 20 &&
    (a / 2 ^ 20 != 0x208 || a / 128 = (a + n - 1) / 128)

/-- Byte `i` and 32-bit word at byte `i` of a frame. -/
def fByte (f : BitVec 4096) (i : Nat) : Nat := fld f (8 * i) 8
def fWord (f : BitVec 4096) (i : Nat) : Word := w32 (fld f (8 * i) 32)

/-- A LNK_CFG value of channel `c` without a reserved code or bit (R218). -/
def lnkCfgOk (c : Nat) (w : Word) : Bool :=
  w &&& ~~~0x3F3F#32 = 0 && (16 ≤ c || (fld w 0 2 != 3 && fld w 2 2 != 3))

/-- The control frame (R405). -/
def controlOk (f : BitVec 4096) : Bool :=
  let n := fld f 0 16
  1 ≤ n && n ≤ 4096 && (upTo 8).all (fun s => fByte f (2 + s) ≤ 12 && fByte f (10 + s) ≤ 2) &&
    fld f 144 16 = 0 && fld (fWord f 20) 20 12 = 0 &&
    (upTo 20).all (fun c => lnkCfgOk c (fWord f (24 + 4 * c))) &&
    (upTo 8).all (fun s => !bitAt f (8 * (104 + s) + 6)) && fld f 896 3200 = 0

/-- An eddy record, 32 bytes (R407). -/
def eddyRecOk (r : BitVec 256) : Bool :=
  let kind := fld r 0 8
  kind ≤ 2 && fld r 9 7 = 0 && (if kind = 2 then 1 ≤ fld r 16 8 && fld r 16 8 ≤ 4 else fld r 16 8 = 0) &&
    fld r 24 8 = 0 && fld r 32 2 = 0 && (kind != 1 || fld r 128 32 = 0) && fld r 160 96 = 0

/-- A GIO bank configuration frame (R521). Every assigned standard is listed at every assigned VOLT (R519). -/
def gioFrameOk (f : BitVec 4096) : Bool :=
  let ball (j : Nat) : Word := fWord f (8 + 4 * j)
  let std (j : Nat) : Nat := fld (ball j) 2 2
  fld f 0 32 < 3 && fld f 32 32 = 0 && fld f 1600 2496 = 0 &&
    (upTo 48).all fun j =>
      fld (ball j) 14 18 = 0 && fld (ball j) 12 2 != 3 && std j != 3 &&
        ((std j = 2) == (std (if j % 2 = 0 then j + 1 else j - 1) = 2))

/-- What pass A checks in the contents of a table frame (R404). -/
def tableOk (t : Nat) (f : BitVec 4096) : Bool :=
  if t = 0 then controlOk f
  else if t = 4 then (upTo 64).all fun j => (fWord f (8 * j + 4)).toNat ≤ 65535
  else if t = 5 then (upTo 16).all fun j =>
    fld (fWord f (32 * j)) 5 27 = 0 && (upTo 4).all (fun k => fld (fWord f (32 * j + 4 + 4 * k)) 20 10 = 0) &&
      fld f (8 * (32 * j + 20)) 96 = 0
  else if t = 6 then (upTo 16).all fun j => (fWord f (32 * j + 28)).toNat ≤ 1
  else if t = 7 then (upTo 16).all fun j => eddyRecOk (BitVec.ofNat 256 (fld f (256 * j) 256))
  else if t = 9 then gioFrameOk f
  else true

/-! ### The claim table (R411) -/

/-- Resources of each KIND (R411). -/
def claimLimit (k : Nat) : Nat := [0, 480, 2, 20, 2048, 512, 64, 16, 1048576, 256, 8, 16].getD k 0

/-- A CLAIM entry of eight bytes, unless it is refused. -/
def claimEntry (e : List Nat) : Option Claim :=
  let c : Claim := ⟨hdr e 0 1, hdr e 1 1, hdr e 4 4, hdr e 2 2⟩
  if c.count = 0 || 6 < c.owner || claimLimit c.kind < c.first + c.count then none else some c

/-- Two claims name one resource for two owners (R412). -/
def claimClash (a b : Claim) : Bool :=
  a.kind = b.kind && a.owner != b.owner && a.first < b.first + b.count && b.first < a.first + a.count

/-! ### The opcode stream (R408–R410) -/

/-- What a stream comes to. -/
structure Stream where
  /-- Dictionary (R410). -/
  dict : SMap (BitVec 4096) := []
  writes : Nat := 0
  claims : List Claim := []
  /-- The stream offset of the CLAIM of each of these. -/
  claimAt : List Nat := []
  /-- Tiles that the image leaves other than idle, and runs of tiles that it has written with the idle frame. -/
  tiles : SMap Frame := []
  idles : List (Nat × Nat) := []
  /-- Frames of CLASS 1 and 2, by frame address. -/
  frames : SMap (BitVec 4096) := []
  /-- Rows of block memory by 512·(4,096·SEC + BLOCK) + row. -/
  rows : SMap (BitVec 72) := []
  /-- Table 0x08 frames: stream offset and eddy. -/
  spadAt : List (Nat × Nat) := []
  /-- The first error: LOAD_ code and stream offset. -/
  err : Option (Nat × Nat) := none

def dIdle (_ : Nat) : Frame := idleFrame

/-- Write `n` addresses from `a` with one value. -/
def mfill {α : Type} (put : SMap α → Nat → α → SMap α) (a n : Nat) (v : α) (m : SMap α) : SMap α :=
  (upTo n).foldl (fun m i => put m (a + i) v) m

/-- Write frames `a` to `a + n − 1` (R399, R410), or refuse them. -/
def putFrames (pos a n : Nat) (f : BitVec 4096) (p : Stream) : Stream :=
  if !runOk a n then { p with err := some (0x20, pos) }
  else if a / 2 ^ 28 = 2 && !tableOk (a / 2 ^ 20 % 256) f then { p with err := some (0x20, pos) }
  else
    let p := { p with writes := p.writes + n }
    if a / 2 ^ 28 = 0 then
      if f = idleFrame then { p with tiles := p.tiles.filter (fun q => q.1 < a || a + n ≤ q.1), idles := (a, n) :: p.idles }
      else { p with tiles := mfill (mset dIdle) a n f p.tiles }
    else
      { p with frames := mfill mput a n f p.frames,
               spadAt := if a / 2 ^ 20 = 0x208 then p.spadAt ++ [(pos, a % 2 ^ 20 / 128)] else p.spadAt }

/-- The dictionary entry of a slot that an earlier DEF defined. -/
def dictAt (p : Stream) (k : Nat) : Option (BitVec 4096) := p.dict.lookup k

/-- Add the entries of one CLAIM (R411, R412). -/
def addClaims (pos : Nat) : List (List Nat) → Stream → Stream
  | [], p => p
  | e :: l, p =>
    match claimEntry e with
    | none => { p with err := some (0x20, pos) }
    | some c =>
      if 4096 ≤ p.claims.length then { p with err := some (0x20, pos) }
      else if p.claims.any (claimClash c) then { p with err := some (8, pos) }
      else addClaims pos l { p with claims := p.claims ++ [c], claimAt := p.claimAt ++ [pos] }

/-- The operand of `n` bytes at byte `i` of an opcode. -/
def opd (l : List Nat) (i n : Nat) : Nat := leNat ((l.drop i).take n)

/-- The length of the opcode at the front of `l`, and its length before any DATA whose length an operand gives. -/
def opLen (l : List Nat) : Nat × Nat :=
  match l.head? with
  | some 1 => (515, 515)
  | some 2 => (7, 7)
  | some 3 => (11, 11)
  | some 4 => (517, 517)
  | some 5 => (13, 13)
  | some 6 => (8, 8 + 9 * opd l 6 2)
  | some 7 => (3, 3 + 8 * opd l 1 2)
  | _ => (5, 5)

/-- Carry out or refuse one opcode that stands whole at stream offset `pos`. -/
def opRun (l : List Nat) (pos : Nat) (p : Stream) : Stream :=
  let bad (c : Nat) : Stream := { p with err := some (c, pos) }
  match l.head? with
  | some 1 =>
    if 16383 < opd l 1 2 then bad 0x20 else { p with dict := mput p.dict (opd l 1 2) (BitVec.ofNat 4096 (opd l 3 512)) }
  | some 2 =>
    if 16383 < opd l 1 2 then bad 0x20
    else match dictAt p (opd l 1 2) with
      | none => bad 7
      | some f => putFrames pos (opd l 3 4) 1 f p
  | some 3 =>
    if 16383 < opd l 1 2 then bad 0x20
    else match dictAt p (opd l 1 2) with
      | none => bad 7
      | some f => if opd l 7 4 = 0 then bad 0x20 else putFrames pos (opd l 3 4) (opd l 7 4) f p
  | some 4 => putFrames pos (opd l 1 4) 1 (BitVec.ofNat 4096 (opd l 5 512)) p
  | some 5 =>
    if opd l 5 4 = 0 then bad 0x20
    else putFrames pos (opd l 1 4) (opd l 5 4) (BitVec.ofNat 4096 (opd l 9 4 * ((2 ^ 4096 - 1) / (2 ^ 32 - 1)))) p
  | some 6 =>
    let base := 512 * (4096 * opd l 1 1 + opd l 2 2) + opd l 4 2
    let row (i : Nat) : BitVec 72 := BitVec.ofNat 72 (opd l (8 + 9 * i) 9)
    { p with rows := (upTo (opd l 6 2)).foldl (fun m i => mput m (base + i) (row i)) p.rows }
  | some 7 => addClaims pos (cut 8 (opd l 1 2) (l.drop 3)) p
  | _ => p

/-- A BMW or CLAIM whose fixed operands refuse it (R409). -/
def opRefused (l : List Nat) : Bool :=
  match l.head? with
  | some 6 => 7 < opd l 1 1 || 4095 < opd l 2 2 || opd l 6 2 = 0 || 512 < opd l 4 2 + opd l 6 2
  | some 7 => opd l 1 2 = 0
  | _ => false

/-- The eddy record of eddy `e` that stands at the end of the stream (R407). -/
def eddyRec (frames : SMap (BitVec 4096)) (e : Nat) : BitVec 256 :=
  BitVec.ofNat 256 (fld (mget (fun _ => (0 : BitVec 4096)) frames (0x20700000 + e / 16)) (256 * (e % 16)) 256)

/-- A word of a table frame that the stream wrote, at byte `i` of frame `f`. -/
def tblWord (frames : SMap (BitVec 4096)) (t f i : Nat) : Word :=
  fWord (mget (fun _ => (0 : BitVec 4096)) frames (0x20000000 + t * 2 ^ 20 + f)) i

/-- The implicit claims (R412). -/
def implicitClaims (frames : SMap (BitVec 4096)) : List Claim :=
  let ed (e : Nat) : Option Claim :=
    let r := eddyRec frames e
    if fld r 0 8 = 2 then some ⟨5, fld r 16 8, e, 1⟩ else if fld r 0 8 = 1 then some ⟨5, 5, e, 1⟩ else none
  let q (n : Nat) : Option Claim := if bitAt (tblWord frames 4 (n / 64) (8 * (n % 64))) 0 then some ⟨4, 0, n, 1⟩ else none
  let po (n : Nat) : Option Claim := if bitAt (tblWord frames 5 (n / 16) (32 * (n % 16))) 0 then some ⟨9, 0, n, 1⟩ else none
  let ch (c : Nat) : Option Claim := if bitAt (tblWord frames 0 0 20) c then some ⟨3, 0, c, 1⟩ else none
  (upTo 512).filterMap ed ++ (upTo 2048).filterMap q ++ (upTo 256).filterMap po ++ (upTo 20).filterMap ch

/-- What END finds once the whole stream is taken: table 0x08 frames of eddies that are not USER (R407), WRITES,
bytes after END, no control frame, then the first CLAIM that clashes with an implicit claim (R405, R409, R412). -/
def endChecks (l : List Nat) (pos : Nat) (p : Stream) : Stream :=
  match p.spadAt.find? (fun q => fld (eddyRec p.frames q.2) 0 8 != 1) with
  | some q => { p with err := some (7, q.1) }
  | none =>
    if 5 < l.length || opd l 1 4 != p.writes || (p.frames.lookup 0x20000000).isNone then { p with err := some (7, pos) }
    else match (p.claims.zip p.claimAt).find? (fun q => (implicitClaims p.frames).any (claimClash q.1)) with
      | some q => { p with err := some (8, q.2) }
      | none => p

/-- The stream from offset `pos` on; `fuel` bounds the opcodes. An opcode is refused by its fixed operands first,
then for bytes that are missing, then by what it names. -/
def runStream : Nat → List Nat → Nat → Stream → Stream
  | 0, _, pos, p => { p with err := some (6, pos) }
  | n + 1, l, pos, p =>
    match l.head? with
    | none => { p with err := some (6, pos) }
    | some op =>
      if op = 0 || 8 < op then { p with err := some (7, pos) }
      else if l.length < (opLen l).1 then { p with err := some (6, pos) }
      else if opRefused l then { p with err := some (0x20, pos) }
      else if l.length < (opLen l).2 then { p with err := some (6, pos) }
      else if op = 8 then endChecks l pos p
      else
        let p := opRun l pos p
        if p.err.isSome then p else runStream n (l.drop (opLen l).2) (pos + (opLen l).2) p

/-- What the plaintext of a body comes to. -/
def stream (l : List Nat) : Stream := runStream (l.length + 1) l 0 {}

/-- Every claim of an image, the implicit ones included. -/
def allClaims (p : Stream) : List Claim := p.claims ++ implicitClaims p.frames

/-! ### Pass A (R417) -/

/-- The body of a source whose header is `h`: whether its tag matches, and what its stream comes to (R398). -/
def readBody (s : State) (c : Source) (h : List Nat) : Bool × Stream :=
  let n := hdr h 24 8
  let ks := aesKeys (imageKey s (hdr h 40 1))
  let iv := (h.drop 44).take 12
  let body := srcBytes s c 128 n
  (gcmTag ks iv h body == srcBytes s c (128 + n) 16, stream (gcmCrypt ks iv body))

/-- What pass A finds in a source whose header is `h`: the stream, or LOAD_ code and offset. -/
def passA (s : State) (c : Source) (h : List Nat) : Except (Nat × Nat) Stream :=
  let n := hdr h 24 8
  if c.len < 144 + n then .error (6, c.len)
  else
    let r := readBody s c h
    if !r.1 then .error (5, 128 + n)
    else match r.2.err with
      | some (code, at_) => .error (code, 128 + at_)
      | none => .ok r.2

/-- What pass B carries out (R410, R418), and whether the tag matches again. DESIGN CHOICE (log 156): a source that has changed
is carried out as far as the first opcode that pass A would refuse. -/
def passB (s : State) (c : Source) (h : List Nat) : Bool × Stream :=
  if c.len < 144 + hdr h 24 8 then (false, {})
  else
    let r := readBody s c h
    (r.1 && r.2.err.isNone, r.2)

end Sys2Proof.Machine
end

