-- ==== Sys2Proof/Machine/Census.lean ====
section
/-! DEFINITION. The checks that the loader runs after pass B: failed resources, the driver census, block memory,
queues, pool ports and GIO host tiles (R91, R105, R106, R271, R325, R419, R533). -/

namespace Sys2Proof.Machine

/-! ### Host tiles in service (R102) -/

/-- A tile has an LC or storage element in use. -/
def cellsInUse (f : Frame) : Bool := (upTo 32).any (fun n => fMode f n != 0) || (upTo 64).any (fun e => fSrc f e != 3)

/-- A tick-bound host tile without PORT_WAIT[0] (R271, R325). -/
def noPortWait (f : Frame) : Bool := !fFree f && !fWait f 0

/-! ### The driver census (R91, R533) -/

/-- A violation: the frame bit it stands at, CAUSE, and for CAUSE 0b01 the long line. -/
structure Violation where
  tile : Nat
  bit : Nat
  cause : Nat
  line : Option LongLine := none

/-- Every select of a tile that has an effect and can name a wire: its lowest frame bit and its source. DESIGN CHOICE (log 141):
as in R91's list, a carry chain (CIN_SEL 0b10) and an acknowledge of ACK_SEL 0b01 between tiles of different regions are no
selects, and pass. -/
def tileSelects (t : Nat) (f : Frame) : List (Nat × Src) :=
  (upTo 128).map (fun l => (3360 + 4 * l, lineSrc f t l)) ++
  (upTo 32).map (fun i => (3872 + 3 * i, l1Src f t (i / 8) (i % 8))) ++
  (upTo 16).map (fun i => (3968 + 3 * i, l4Src f t (i / 4) (i % 4))) ++
  (upTo 8).map (fun i => (4016 + 4 * i, l12Src f t (i / 2) (i % 2))) ++
  (upTo 4).map (fun d => (4048 + 4 * d, l48Src f t d))

/-- ACK_RT selects that have an effect (R91). -/
def ackSelects (t : Nat) (f : Frame) : List (Nat × Src) :=
  if fFree f then
    ((upTo 4).filter (fun c => 2 ≤ fAck f c)).map fun c => (4076 + 5 * c, ackRtSrc f t c)
  else []

/-- Tiles of a line whose tap enable is configured. -/
def lineTaps (s : State) (l : LongLine) : List Nat := (tapTiles l).filter fun t => fTapEn (frameOf s t) l.vert

/-- Tiles that drive a source. -/
def drivers (s : State) : Src → List Nat
  | .zero _ => []
  | .line t _ | .out t _ | .ack t _ => [t]
  | .l1 o _ _ | .l4 o _ _ | .l12 o _ _ | .l48 o _ => [o]
  | .long l => lineTaps s l

/-- The violation of one select, if any. -/
def selectViolation (s : State) (t : Nat) (f : Frame) (x : Nat × Src) : Option Violation :=
  let ds := drivers s x.2
  match x.2 with
  | .long _ =>
    if ds.isEmpty then some { tile := t, bit := x.1, cause := 2 }
    else if ds.any (fun o => fFree (frameOf s o) != fFree f) then some { tile := t, bit := x.1, cause := 3 } else none
  | _ => if ds.any (fun o => fFree (frameOf s o) != fFree f) then some { tile := t, bit := x.1, cause := 3 } else none

/-- The tap of a tile is the second enabled one of its line in census order. -/
def tapViolation (s : State) (t : Nat) (vert : Bool) : Option Violation :=
  let l : LongLine := if vert then ⟨tSec t, true, tCol t, tRow t % 32⟩ else ⟨tSec t, false, tRow t, tCol t % 64⟩
  if (lineTaps s l)[1]? = some t then some { tile := t, bit := if vert then 4070 else 4064, cause := 1, line := some l } else none

/-- The violations of one tile, in order of frame bit. -/
def tileViolations (s : State) (t : Nat) : List Violation :=
  let f := frameOf s t
  (tileSelects t f).filterMap (selectViolation s t f) ++ [false, true].filterMap (tapViolation s t) ++
    (ackSelects t f).filterMap (selectViolation s t f)

/-- The violations of a section, in order of column, row and frame bit: an idle tile has none. -/
def secViolations (s : State) (sec : Nat) : List Violation :=
  ((s.fab.tiles.filter (fun p => tSec p.1 = sec)).map (fun p => tileViolations s p.1)).flatten

/-- RT_CENSUS_LOC of a violation (R100). -/
def censusLoc (v : Violation) : Word :=
  match v.line with
  | some l => w32 (2 ^ 31 + b2n l.vert * 2 ^ 29 + (if l.vert then l.idx * 2 ^ 20 else l.idx * 2 ^ 12) + l.line)
  | none => w32 (2 ^ 31 + 2 ^ 30 + tCol v.tile * 2 ^ 20 + tRow v.tile * 2 ^ 12 + v.bit)

/-- The census: it records each section's result, and gives the load status, 0 where it passes. -/
def census (s : State) : Nat × State :=
  (upTo 8).foldl (fun (a : Nat × State) sec =>
    let vs := secViolations a.2 sec
    match vs with
    | [] => (a.1, setReg (Reg.rtCensus sec) 1 (setReg (Reg.rtCensusLoc sec) 0 (setReg (Reg.rtCensusCount sec) 0 a.2)))
    | v :: _ =>
      (if a.1 != 0 then a.1 else if v.cause = 3 then 0x0A else 9,
       setReg (Reg.rtCensus sec) (w32 (4 * v.cause + 2)) (setReg (Reg.rtCensusLoc sec) (censusLoc v)
         (setReg (Reg.rtCensusCount sec) (w32 (min 0xFFFFFFFF vs.length)) a.2)))) (0, s)

/-! ### Block memories (R105, R106) -/

/-- BM_CFG_LOC CAUSE of a block in use, 0 where it passes. DESIGN CHOICES: a block that meets several causes records the lowest
(log 145), and a single-port block, whose H1 is an ordinary tile, is held to causes 0b100 and 0b101 in H0 alone (log 91). -/
def bmCause (s : State) (m : Nat) : Nat :=
  let w := (getBlock s m).cfg
  let a := frameOf s (bmTile m false)
  let b := frameOf s (bmTile m true)
  if bmAspect w = 7 then 1
  else if bmPorts w = 3 then 2
  else if bmAspect w = 6 && bmPorts w = 2 then 3
  else if cellsInUse a || (bmPorts w != 0 && cellsInUse b) then 4
  else if bmPorts w != 0 && fFree a != fFree b then 5
  else 0

/-- Count one refused block, and record the first (R105). -/
def bmRefuse (m cause : Nat) (s : State) : State :=
  latchFirst (Reg.bmCfgLoc (m / 4096)) (w32 (2 ^ 31 + cause * 2 ^ 28 + m % 4096)) (bump (Reg.bmCfgCount (m / 4096)) s)

/-- Check every block in use for causes that the configuration word or its tiles give (R105). -/
def bmChecks (s : State) : Bool × State :=
  (s.bm.filter (fun p => bmUse p.2.cfg)).foldl (fun (a : Bool × State) p =>
    let c := bmCause a.2 p.1
    if c = 0 then a else (true, bmRefuse p.1 c a.2)) (false, s)

/-! ### Queues (R271) -/

/-- QCFG_LOC CAUSE of a queue with EN 1, 0 where it passes. -/
def queueCause (s : State) (q : Nat) (w : Word) : Nat :=
  let wt := frameOf s (tileAddr (q / 256) (32 * (q % 256 / 16) + 29) (16 * (q % 16)))
  let rt := frameOf s (tileAddr (q / 256) (32 * (q % 256 / 16) + 29) (16 * (q % 16) + 8))
  let fw := qWrSide w = 1
  let fr := qRdSide w = 1
  if 4 < fld w 1 3 then 1
  else if qWrSide w = 0 || qRdSide w = 0 then 2
  else if !bitAt w 4 && (qWrSide w = 3 || qRdSide w = 3) then 3
  else if (fw && (cellsInUse wt || noPortWait wt)) || (fr && (cellsInUse rt || noPortWait rt)) then 4
  else if fw && fr && !fFree wt && !fFree rt then 5
  else 0

/-- Check every queue that the image enables. -/
def queueChecks (fr : SMap (BitVec 4096)) (s : State) : Bool × State :=
  (upTo 2048).foldl (fun (a : Bool × State) q =>
    let w := tblWord fr 4 (q / 64) (8 * (q % 64))
    let c := if qEn w then queueCause a.2 q w else 0
    if c = 0 then a
    else (true, latchFirst (Reg.qcfgLoc (q / 256)) (w32 (2 ^ 31 + c * 2 ^ 28 + q % 256)) (bump (Reg.qcfgCount (q / 256)) a.2)))
    (false, s)

/-! ### Pool ports (R325) -/

/-- The descriptors an image names, in the order of their pool IDs (R406). -/
def imageDescs (fr : SMap (BitVec 4096)) : List (Nat × Desc) :=
  let named := (fr.filter (fun p => p.1 / 2 ^ 20 = 0x206)).map fun p =>
    (upTo 16).filterMap fun j =>
      if bitAt (fWord p.2 (32 * j + 28)) 0 then
        some (16 * (p.1 % 2 ^ 20) + j, (upTo 7).map (fun w => fWord p.2 (32 * j + 4 * w)) ++ [0])
      else none
  named.flatten

/-- The loader's checks of the descriptors (R301): those that pass, the pools refused, and the refusals counted. -/
def takeDescs : List (Nat × Desc) → List Nat → (State → Nat × Desc → State) → State → List Nat × State
  | [], bad, _, t => (bad, t)
  | (n, d) :: l, bad, put, t =>
    let c := descCheck (useGranules n (tableDesc t n) false t) n d
    if c = 0 then takeDescs l bad put (put t (n, d))
    else takeDescs l (bad ++ [n]) put (if c = 0x20 then bump Reg.poolRangeCount t else t)

/-- Whether port `P` of the image is enabled, and with a tick-bound channel. -/
def imagePort (fr : SMap (BitVec 4096)) (p : Nat) : Word := tblWord fr 5 (p / 16) (32 * (p % 16))
def imageTickPort (s : State) (fr : SMap (BitVec 4096)) (p : Nat) : Bool :=
  bitAt (imagePort fr p) 0 && (upTo 4).any (fun k => bitAt (imagePort fr p) (1 + k) && !fFree (frameOf s (poolTile p k)))

/-- The control frame of an image (R405). -/
def controlFrame (fr : SMap (BitVec 4096)) : BitVec 4096 := mget (fun _ => (0 : BitVec 4096)) fr 0x20000000

/-- AGENT of a section: bit 7 AGENT, bits 5:0 COMMIT_EDDY (R314, R405). -/
def imageAgent (fr : SMap (BitVec 4096)) (sec : Nat) : Nat := fByte (controlFrame fr) (104 + sec)

/-- A binding under which every request is a violation (R320): no read passes and no write does. -/
def deadBinding (p : Nat) (tickBound : Bool) (b : Word) (d : Desc) : Bool :=
  let rd := dRight d 0
  let wr := bitAt b 30 && dRight d 1 && (if tickBound then dVersioned d && dOwner d = p else !dVersioned d)
  !rd && !wr

/-- POOL_CFG_LOC CAUSE of port `p`, 0 where it passes; `t` holds the descriptors as the load leaves them. -/
def portCause (s t : State) (fr : SMap (BitVec 4096)) (bad : List Nat) (p : Nat) : Nat :=
  let w := imagePort fr p
  let ks := (upTo 4).filter fun k => bitAt w (1 + k)
  let fs := ks.map fun k => frameOf s (poolTile p k)
  let bs := ((upTo 4).map fun k => tblWord fr 5 (p / 16) (32 * (p % 16) + 4 + 4 * k)).filter (fun b => bitAt b 31)
  let ds := bs.map fun b => (b, fld b 0 20, tableDesc t (fld b 0 20))
  if ks.isEmpty then 1
  else if fs.any (fun f => cellsInUse f || noPortWait f) then 2
  else if fs.any fFree && fs.any (fun f => !fFree f) then 3
  else if ds.any (fun x => dKind x.2.2 = 0 || bad.contains x.2.1) then 4
  else if ds.any (fun x => dVersioned x.2.2 &&
      !(imageTickPort s fr (dOwner x.2.2) && 128 ≤ imageAgent fr (dOwner x.2.2 / 32))) then 5
  else if ds.any (fun x => deadBinding p (fs.any (fun f => !fFree f)) x.1 x.2.2) then 6
  else 0

/-- Check every port that the image enables. -/
def portChecks (fr : SMap (BitVec 4096)) (bad : List Nat) (t s : State) : Bool × State :=
  (upTo 256).foldl (fun (a : Bool × State) p =>
    let c := if bitAt (imagePort fr p) 0 then portCause a.2 t fr bad p else 0
    if c = 0 then a
    else (true, latchFirst Reg.poolCfgLoc (w32 (2 ^ 31 + c * 2 ^ 28 + p)) (bump Reg.poolCfgCount a.2))) (false, s)

/-! ### GIO host tiles (R419, R520) -/

/-- The host tile of ball 48·bank + ball (R520). -/
def gioTile (g : Nat) : Nat :=
  let b := g / 48
  tileAddr (b % 8) (32 * (g % 48 / 4) + 27) (8 + 128 * (b / 8))

/-- The word of a ball in the image. -/
def imageBall (fr : SMap (BitVec 4096)) (g : Nat) : Word := tblWord fr 9 (g / 48) (8 + 4 * (g % 48))

/-- The first ball in use whose host tile has a cell in use. -/
def gioCheck (fr : SMap (BitVec 4096)) (s : State) : Option Nat :=
  (upTo 480).find? fun g => fld (imageBall fr g) 0 2 != 0 && cellsInUse (frameOf s (gioTile g))

/-! ### Failed resources (R419 row 2) -/

/-- A tile that stands on a failed resource with no spare. -/
def tileFailed (s : State) (t : Nat) : Bool :=
  (unrepairedCols s (tSec t)).contains (tCol t) || s.rep.lost.contains t ||
    (match colOf s (tSec t) (tCol t) with
      | some p => s.rep.run.contains ⟨1, tSec t, p⟩
      | none => true)

/-- Blocks in use that are failed and not repaired are counted and recorded (R106). -/
def blockFailures (s : State) : Bool × State :=
  (s.bm.filter (fun p => bmUse p.2.cfg)).foldl (fun (a : Bool × State) p =>
    if (unrepairedBlocks a.2 (p.1 / 4096)).contains (p.1 % 4096) then (true, bmRefuse p.1 6 a.2) else a) (false, s)

/-- The image uses a failed resource that has no spare (R419 row 2). -/
def usesFailed (fr : SMap (BitVec 4096)) (s : State) : Bool :=
  hubFailed s || s.fab.tiles.any (fun p => !tileIdle p.2 && tileFailed s p.1) ||
  (upTo 512).any (fun e => fld (eddyRec fr e) 0 8 != 0 && (getEddy s e).st == .failed) ||
  (upTo 2048).any (fun q => bitAt (tblWord fr 4 (q / 64) (8 * (q % 64))) 0 && siteFailed s q) ||
  (upTo 256).any (fun p => bitAt (imagePort fr p) 0 && portFailed s p) ||
  (upTo 20).any (fun c => bitAt (tblWord fr 0 0 20) c && chanFailed s c) ||
  (hbmFailed s && ((imageDescs fr).any (fun x => dKind x.2 != 0) || (upTo 256).any (fun p => bitAt (imagePort fr p) 0) ||
    (upTo 512).any (fun e => fld (eddyRec fr e) 0 8 = 2)))

end Sys2Proof.Machine
end

