-- ==== Sys2Proof/Machine/Loader.lean ====
section
/-! DEFINITION. The configuration loader: the start of a load, its passes and checks, fallback, and the start-up
order (chapter Loading and Start-Up). -/

namespace Sys2Proof.Machine

/-! ### What a load resets (R415) -/

/-- Registers whose offset `p` names return to their reset values. -/
def clearRegs (p : Nat → Bool) (s : State) : State := { s with regs := s.regs.filter (fun q => !p q.1) }

/-- Registers and tables that the start of a load writes to their reset values (R152, R415, R429). -/
def loadClears (o : Nat) : Bool :=
  o = Reg.cadLen || o = Reg.tickCfg || o = Reg.raCfg || (0x90000 ≤ o && o < 0x98000) ||
  (Reg.raPred 0 ≤ o && o < Reg.raPred 4096) || (Reg.bndOutMap 0 ≤ o && o < Reg.bndInMap 4096) ||
  (Reg.fabRoute 0 ≤ o && o < Reg.fabRoute 1024) ||
  (0x100000 ≤ o && o < 0x240000 && (o % 0x10000 = 0 || (0x8000 ≤ o % 0x10000 && o % 0x10000 < 0x9000))) ||
  (0x400000 ≤ o && o < 0x480000 && (o % 256 = 0 || o % 256 = 0x10)) ||
  (Reg.poolSecCfg 0 ≤ o && o < Reg.poolSecCfg 8) ||
  (0x510000 ≤ o && o < 0x520000 && (o % 256 = 0 || (0x10 ≤ o % 256 && o % 256 < 0x20))) ||
  (0x200 ≤ o && o < 0x300 && (o % 16 = 0 || o % 16 = 4)) ||
  (Reg.tickVf 0 ≤ o && o < Reg.tickVf 9) || (Reg.trcSecCfg 0 ≤ o && o < Reg.trcSecCfg 8)

/-- Records cleared when a load starts (R127, R144, R274, R324). -/
def startClears (o : Nat) : Bool :=
  o = Reg.poolCfgLoc || o = Reg.poolCfgCount || o = Reg.ldrLoc || o = Reg.ldrProgress ||
  o = Reg.ldrAttempt 0 || o = Reg.ldrAttempt 1 || o = Reg.tickToLoc || o = Reg.tickToCount ||
  (0xB0000 ≤ o && o < 0xB0800 && (o % 256 = 0x60 || o % 256 = 0x64 || o % 256 = 0x68 || o % 256 = 0x6C))

/-- The tick engine returns to IDLE with nothing kept (R129, R145, R189, R534), and no tick of before counts in a voltage
bin (R152). An armed stop tick stays armed: only a write of TICK_STOP_HI disarms it (R153). -/
def resetTick (s : State) : State :=
  let s := freshRun s
  let t := s.tick
  let ra := { s.ra with grpChan := [], gioHold := false, depthMismatch := false, alone := true, gate := .clear, jStall := 0,
                        rbHigh := 0, wave := {} }
  setCause 0 false { s with
    tick := { t with st := .idle, stepping := false, inTick := false, spacer := false, pend := none, pendMulti := false,
                     stopReq := false, heldStart := none, ivBinN := [], ivBinSum := [], due := 0, onTime := false, cadNext := 0, lastPos := 0,
                     localOk := false, toLoc := none, winCounted := false }
    ra := ra }

/-- Both sides of a queue reset together: each has PEER_RESET, the unread words are counted, the queue is empty and its epochs
continue (R263, R288). -/
def loadQueue (q : Nat) (s : State) : State :=
  let was := getQ s q
  let n := qDepth (qCfg s q) was
  let s := if was.wr.inReset && was.rd.inReset then s else qEvent q 0x18 (bumpBy (Reg.qPeerDiscard q) n s)
  let s := rdReset q (wrReset q s)
  let x := getQ s q
  let w := { x.wr with msgs := [], peerRst := false }
  let r := { x.rd with msgs := [], peerRst := false }
  { s with queues := mset dQueue s.queues q { wr := w, rd := r } }

/-- Both sides of a pool port's crossing reset together; write buffer, cache and requests are dropped, each pending request being
counted and recorded (R286, R288, R323). -/
def loadPort (p : Nat) (s : State) : State :=
  let x := getPort s p
  let out := !(x.wr.inReset && x.rd.inReset)
  let s := forEach (fun _ => xingDiscard (p / 32) 2 0 (p % 32)) (upTo (popc 4 x.req.toNat + x.reqs.length)) s
  let w := { x.wr.reset with msgs := [], peerRst := false }
  let r := { x.rd.reset with msgs := [], peerRst := false }
  setPort p { wr := w, rd := r, peerWr := x.peerWr || out, peerRd := x.peerRd || out } s

/-- An eddy stops and enters OFF, its scratchpad 0 (R341); a failed one stays failed. Whether firmware ran is remembered (R336). -/
def loadEddy (x : Eddy) : Eddy := { st := if x.st == .failed then .failed else .off, prevFw := x.prevFw }

/-- The answer that a held request gets when a load starts: POOL_FROZEN (R451). -/
def frozenAns (o : OutFlit) : Bool := msgType o.f.pay = 0x42 && payN o.f.pay 1 1 = 6

/-- A channel goes to DISABLED with no hand-over and no count (R415); its next training resets its sequence. DESIGN CHOICE (log
199): the answers of R451 stay queued, to leave when the channel is UP again. -/
def loadChan (x : Chan) : Chan := { events := x.events, seqReset := true, outq := x.outq.filter frozenAns }

/-- Every channel goes to DISABLED; LNK_CAUSE of those that were not says so (R219, R415). -/
def loadChans (s : State) : State :=
  let s := forEach (fun (p : Nat × Chan) s => if p.2.st == .disabled then s else setReg (Reg.lnkCause p.1) 1 s) s.chans s
  { s with chans := mmap dChan (fun _ x => loadChan x) s.chans }

/-- Requests held from frozen remote requesters are answered with POOL_FROZEN (R451; that the answers outlast the emptied channels is a
DESIGN CHOICE, log 199). -/
def answerHeld (s : State) : State :=
  let s := forEach (fun (h : Nat × Payload) s => sendAns (msgSrc h.2) (payN h.2 2 2) 6 0 s) s.pool.remHeld s
  { s with pool := { s.pool with remHeld := [] } }

/-- Accesses of host contexts that wait for a model are refused: the model stops (R341, R385). -/
def dropAsks (s : State) : State :=
  forEach (fun (a : Nat × Option Nat × HostAcc) s => hostRefuse a.2.2.isRead 3 s) s.host.ask
    { s with host := { s.host with ask := [] } }

/-- Trace stops, its FIFOs and holds are dropped, export releases FW; a snapshot is abandoned (R499). -/
def loadTrace (s : State) : State :=
  let t := s.trc
  snapAbort { s with trc := { t with running := false, stopping := false, held := [], ring := [], exp := [], result := 0,
                                     exporting := false, words := [] } }

/-- A set-reset pulse in progress is abandoned (R62). -/
def dropPulse (s : State) : State :=
  if s.fab.gsrBusy then { s with fab := { s.fab with gsrBusy := false, gsrResult := 6 } } else s

/-- The state that R415 puts the device in, before a source is read. -/
def loadReset (s : State) : State :=
  let s := answerHeld s
  let s := dropAsks (loadTrace (dropPulse s))
  let s := gsrAssert { s with dev := { s.dev with cfgDone := false },
                              fab := { s.fab with tapsOn := false, writesOn := false, censusRunning := false } }
  let s := resetTick s
  let s := forEach loadQueue (s.queues.map Prod.fst) s
  let s := forEach loadPort (s.pool.ports.map Prod.fst) s
  let s := loadChans s
  let s := { s with
    eddies := mmap dEddy (fun _ x => loadEddy x) s.eddies
    net := { epoch := s.net.epoch, commitEpoch := s.net.commitEpoch }
    pool := { s.pool with inbox := [], outst := [], initWait := [], initAsk := [], remAns := [], dcache := [] }
    pins := { s.pins with gioBank := [], gioBall := [], gioOut := 0, gioOe := 0, gioFirst := 0 }
    frz := { s.frz with eddy := 0, port := 0, remote := 0 }
    bg := {}, claims := []
    rep := { s.rep with susp := true, raw := false, sweep := false } }
  clearRegs loadClears s

/-- Every eddy's scratchpad is written to 0 with its secure part, which counts as a wipe (R336, R341). -/
def wipeAll (s : State) : State := forEach (fun e => bump (Reg.eddyWipes e)) (upTo 512) s

/-- A load starts, as by LOAD_IMAGE, or the power-up load comes to its source: what R415 asks of a load that starts at
PORST_N release, the reset has done (R33, R39, R415). DESIGN CHOICE (log 87): a load that LOAD_IMAGE starts while the device
is already STARTING writes DEV_CAUSE 2 although STATE does not change. -/
def loadStart (byCmd : Bool) (src off len : Nat) (s : State) : State :=
  let s := finishWipes s
  let s := wipeAll (if byCmd then clearRegs startClears (loadReset (devEvent 2 (devGo .starting 2 s))) else s)
  let l := s.ldr
  { s with ldr := { l with phase := .header, pow := .over, busy := true, powerUp := !byCmd, src := src, off := off, len := len,
                           locked := true, attempt := 0, work := {}, steps := 0, due := [], starts := [], chanEn := 0,
                           tagOk := false, image := none }
           rep := { s.rep with susp := true } }

/-! ### Failure and fallback (R420, R421) -/

/-- Code of LDR_STAT PHASE (R431). -/
def phaseCode (p : LdPhase) : Nat :=
  match p with
  | .idle => 0 | .header => 1 | .passA => 2 | .idleFill => 3 | .passB => 4 | .checks => 5 | .startup => 6 | .done => 7
  | .failed => 8 | .aborted => 9

/-- LDR_ATTEMPT of the present attempt (R431). -/
def setAttempt (phase code : Nat) (s : State) : State :=
  setReg (Reg.ldrAttempt s.ldr.attempt) (w32 (2 ^ 31 + s.ldr.src * 2 ^ 16 + phase * 2 ^ 8 + code)) s

/-- Count a refusal with LOAD_RANGE (R13, R431). -/
def countLoad (code : Nat) (s : State) : State := if code = 0x20 then bump Reg.ldrRangeCount s else s

/-- LDR_TIME of a load that has ended: how long it took is for the device to say (R431; DESIGN CHOICE, log 198). -/
def loadTook (s : State) : State := setReg Reg.ldrTime (Config.free 32 s.free) (drawFree s)

/-- An attempt fails with a LOAD_ code and a location (R420, R421). -/
def attemptFail (code : Nat) (loc : Option Nat) (s : State) : State :=
  let s := setAttempt (phaseCode s.ldr.phase) code (countLoad code (bump Reg.ldrFails s))
  let s := setReg Reg.ldrLoc (match loc with | some n => w32 (2 ^ 31 + n) | none => 0) s
  let again := s.ldr.attempt = 0 && s.ldr.src != 0
  let s := loadReset s
  let l := { s.ldr with work := {}, steps := 0, due := [], starts := [], chanEn := 0, tagOk := false, locked := false,
                        image := none }
  if again then
    bump Reg.ldrFallbacks { s with ldr := { l with phase := .header, src := 0, attempt := 1, locked := true } }
  else
    let s := { s with ldr := { l with phase := .failed, busy := false }, dev := { s.dev with cfgErr := true } }
    let s := setReg Reg.ldrResult (w32 (code + 256 * l.attempt + 512)) s
    raiseVec 11 (devEvent 0x10 (setReg Reg.devCause 4 (loadTook s)))

/-! ### Completion of a keyed command (R441, R442) -/

/-- The command code in MBX_BUF. -/
def mbxCmd (s : State) : Nat := fld (getReg s (Reg.mbxBuf 0)) 0 16

/-- A keyed command completes: MBX_STAT, the counters, MBX_BUF cleared, vector 15 (R441, R442). -/
def mbxDone (result block : Nat) (s : State) : State :=
  let s := setReg Reg.mbxStat (w32 (block * 2 ^ 16 + mbxCmd s % 256 * 2 ^ 8 + result)) s
  let s := if result = 0 then s else bump Reg.mbxRefused s
  let s := if result = 0x20 then bump Reg.mbxRangeCount s else s
  let s := clearRegs (fun o => 0x10800 ≤ o && o < 0x11000) s
  raiseVec 15 { s with mbx := { s.mbx with phase := .idle } }

/-- Byte `i` of MBX_BUF, and `n` bytes from it as a number. -/
def bufByte (s : State) (i : Nat) : Nat := fld (getReg s (Reg.mbxBuf (i / 4))) (8 * (i % 4)) 8
def bufN (s : State) (i n : Nat) : Nat := leNat ((List.range n).map fun k => bufByte s (i + k))

/-- A command past step 4 uses up its counter, whatever follows (R442). -/
def useCounter (s : State) : State :=
  if s.mbx.phase == .storing then
    bump Reg.mbxAccepted { s with nv := { s.nv with counter := max s.nv.counter (bufN s 12 8) } }
  else s

/-! ### Wipes before pass A (R439, R440, R450) -/

/-- Zero the descriptor table, the staging area and pool space; every granule is free (R438). -/
def wipeHbm (s : State) : State :=
  { s with pool := { s.pool with hbm := s.pool.hbm.filter (fun p => 0x400000 ≤ p.1 && p.1 < stageWord), gran := [], wb := [] } }

/-- Erase a slot of the store. -/
def eraseSlot (n : Nat) (s : State) : State := setSlot n { getSlot s n with len := 0, words := [] } s

/-- Erase the slots that a mask names. -/
def eraseSlots (m : Nat) (s : State) : State := forEach eraseSlot (bitList 4 0 m) s

/-- What a transition to a state wipes beyond secure parts and HBM (R438): K_BBK and every slot. -/
def wipesKeys (t : LifeCycle) : Bool := t == .provisioned || t == .retired

/-- Step 3 of R439: the keys that the target state names are cleared. -/
def wipeKeys (t : LifeCycle) (s : State) : State := if wipesKeys t then { s with nv := { s.nv with kBbk := none } } else s

/-- Steps 5 and 6 of R439: HBM is zeroed, the named slots are erased, WIPE_PENDING clears. -/
def wipeStore (t : LifeCycle) (s : State) : State :=
  let s := wipeHbm s
  let s := if wipesKeys t then eraseSlots 15 s else s
  { s with nv := { s.nv with wipe := none } }

/-- What the loader wipes before pass A. -/
def loadWipes (s : State) : State :=
  let s := if s.ldr.zeroise then eraseSlots s.ldr.erase.toNat (wipeHbm s) else s
  let s := { s with ldr := { s.ldr with zeroise := false, erase := 0 } }
  match s.nv.wipe with
  | some t => wipeStore t (wipeKeys t s)
  | none => s

/-- ZEROISE completes with step 2 of R450 (R445). -/
def zeroised (s : State) : State := if s.mbx.phase == .zeroise then mbxDone 0 0 s else s

/-! ### The passes (R416–R418) -/

/-- LDR_PROGRESS after `n` bytes (R431). -/
def progress (n : Nat) (s : State) : State := setReg Reg.ldrProgress (w32 (n / 65536)) s

/-- LOAD_HEADER_READ (R394, R397, R413). While a life-cycle transition runs, the loader has not come to its source. -/
def headerRead (storeUe : Bool) (s : State) : State :=
  if s.ldr.phase != .header || s.mbx.phase == .transition then s
  else
    let s := zeroised (loadWipes s)
    let c := ldrSource s
    let s := srcRead { c with len := min c.len 128 } s
    if c.slot.isSome && c.len = 0 then attemptFail 0x10 none s
    else if storeUe && c.slot.isSome then attemptFail 0x15 none s
    else if c.len < 128 then attemptFail 6 (some c.len) s
    else
      let h := srcBytes s c 0 128
      match headerRefusal s h with
      | some (code, at_) => attemptFail code (some at_) s
      | none =>
        let w : LoadWork := { bodyLen := hdr h 24 8, counter := hdr h 32 8, keySel := hdr h 40 1, startup := hdr h 42 1,
                              imageId := (h.drop 64).take 32 }
        progress 0 { s with ldr := { s.ldr with phase := .passA, work := w } }

/-- LOAD_PASS_A_END (R417). -/
def passAEnd (storeUe : Bool) (s : State) : State :=
  if s.ldr.phase != .passA then s
  else
    let c := ldrSource s
    let s := srcRead c s
    if storeUe && c.slot.isSome then attemptFail 0x15 none s
    else
      match passA s c (srcBytes s c 0 128) with
      | .error (code, at_) =>
        attemptFail code (some at_) (if c.len < 144 + s.ldr.work.bodyLen then s else progress (144 + s.ldr.work.bodyLen) s)
      | .ok _ => progress (144 + s.ldr.work.bodyLen) { s with ldr := { s.ldr with phase := .idleFill } }

/-- LOAD_IDLE_FILL_END: every tile is idle, spare columns included, every configuration word and row 0, and holds of lines are
dropped (R94, R121, R403, R418). -/
def idleFillEnd (s : State) : State :=
  if s.ldr.phase != .idleFill then s
  else
    let scr := mmap dScr (fun _ x => { x with spare := [], bmc := [] }) s.scr
    progress 0 { s with fab := { s.fab with tiles := [], heldLines := [] }, bm := [], scr := scr, ldr := { s.ldr with phase := .passB } }

/-- Write the tile frames (R400, R418): elements hold their INIT under GSR (R58). -/
def writeTiles (m : SMap Frame) (s : State) : State :=
  forEach (fun (p : Nat × Frame) s => setTile p.1 { frame := p.2, q := initQ p.2 } s) m s

/-- Tiles whose last write in the stream is the idle frame (R403, R410). -/
def writeIdle (l : List (Nat × Nat)) (s : State) : State :=
  { s with fab := { s.fab with tiles := s.fab.tiles.filter (fun t => !l.any (fun r => r.1 ≤ t.1 && t.1 < r.1 + r.2)) } }

/-- Write the configuration words of a block-memory frame, check bits and all (R401, R460). -/
def writeBmFrame (a : Nat) (f : BitVec 4096) (s : State) : State :=
  let x := getScr s (a / 32)
  let s := setScr (a / 32) { x with bmc := merase x.bmc (a % 32) } s
  forEach (fun j s =>
    let m := 4096 * (a / 32) + 128 * (a % 32) + j
    setBlock m { getBlock s m with cfg := fWord f (4 * j) } s) (upTo 128) s

/-- Write a row of block memory with check bits computed from it (R121). -/
def writeRow (x : Nat) (v : BitVec 72) (s : State) : State :=
  let b := getBlock s (x / 512)
  setBlock (x / 512) { b with rows := mset (fun _ => 0) b.rows (x % 512) v, errs := merase b.errs (x % 512) } s

/-- Place 512 bytes of a USER program (R341, R404). -/
def writeSpad (i : Nat) (f : BitVec 4096) (s : State) : State :=
  modEddy (i / 128) (fun x =>
    { x with spad := (upTo 64).foldl (fun m w => mset dHbm m (64 * (i % 128) + w) { data := BitVec.ofNat 64 (fld f (64 * w) 64) }) x.spad }) s

/-- Everything that pass B writes: tiles, configuration frames, rows and programs (R410); the shadow of every frame
is written with them, unless HBM has failed (R464). -/
def passBWrites (p : Stream) (s : State) : State :=
  let s := writeTiles p.tiles (writeIdle p.idles s)
  let s := forEach (fun (q : Nat × BitVec 4096) s =>
    if q.1 / 2 ^ 28 = 1 then writeBmFrame (q.1 % 2 ^ 28) q.2 s
    else if q.1 / 2 ^ 20 = 0x208 then writeSpad (q.1 % 2 ^ 20) q.2 s else s) p.frames s
  let s := forEach (fun (q : Nat × BitVec 72) s => writeRow q.1 q.2 s) p.rows s
  { s with rep := { s.rep with shadowOk := !hbmFailed s }
           scr := mmap dScr (fun _ x => { x with shadow := [], shadowMis := [], lost := false, prio := [], rewrites := [] }) s.scr }

/-- LOAD_PASS_B_END: the stream is carried out again and the tag recomputed; the source is unlocked (R416, R418). -/
def passBEnd (storeUe : Bool) (s : State) : State :=
  if s.ldr.phase != .passB then s
  else
    let c := ldrSource s
    let s := srcRead c s
    let (ok, p) := passB s c (srcBytes s c 0 128)
    let s := passBWrites p s
    let w := { s.ldr.work with frames := p.frames, claims := allClaims p }
    let s := progress (144 + w.bodyLen) { s with ldr := { s.ldr with locked := false, tagOk := ok, work := w } }
    if storeUe && c.slot.isSome then attemptFail 0x15 none s
    else { s with ldr := { s.ldr with phase := .checks }, fab := { s.fab with censusRunning := true } }

/-! ### The checks (R419) -/

/-- Firmware modules that the image names (R342, R407). -/
def imageModules (fr : SMap (BitVec 4096)) : List Nat :=
  (upTo 512).filterMap fun e => if fld (eddyRec fr e) 0 8 = 2 then some (fld (eddyRec fr e) 16 8) else none

/-- The checks of R419: the code of the first failing row with its location, and the state that they leave. DESIGN CHOICE
(log 145): blocks of CAUSE 0b110 are counted and recorded before those of any other cause, in either group by block. DESIGN CHOICE (log 208): a
block of CAUSE 0b110 that meets another cause too counts twice in BM_CFG_COUNT, one that meets two other causes once. -/
def runChecks (s : State) : Option (Nat × Option Nat) × State :=
  let fr := s.ldr.work.frames
  let tagRow := if s.ldr.tagOk then [] else [(5, some (128 + s.ldr.work.bodyLen))]
  let failed := usesFailed fr s
  let (blk, s) := blockFailures s
  let (cen, s) := census s
  let (bad, s) := bmChecks s
  let (que, s) := queueChecks fr s
  let (refused, t) := takeDescs (imageDescs fr) [] (fun t x => placeDesc x.1 x.2 t) s
  let s := setReg Reg.poolRangeCount (getReg t Reg.poolRangeCount) s
  let (por, s) := portChecks fr refused t s
  let gio := gioCheck fr s
  let fw := (imageModules fr).all Config.fwSigned
  let rows : List (Nat × Option Nat) :=
    tagRow ++ (if failed || blk then [(0x0E, none)] else []) ++ (if cen != 0 then [(cen, none)] else []) ++
    (if bad then [(0x0B, none)] else []) ++ (if que then [(0x0C, none)] else []) ++ (if por then [(0x0D, none)] else []) ++
    (match gio with | some g => [(0x16, some g)] | none => []) ++ (if fw then [] else [(0x0F, none)])
  (rows.head?, { s with fab := { s.fab with censusRunning := false } })

/-! ### The device tables in force (R404, R419) -/

/-- Write one table frame to its registers. -/
def writeTable (t f : Nat) (d : BitVec 4096) (s : State) : State :=
  if t = 1 then forEach (fun j s => setReg (Reg.cadMaskLo (64 * f + j)) (fWord d (8 * j))
    (setReg (Reg.cadMaskHi (64 * f + j)) (fWord d (8 * j + 4)) s)) (upTo 64) s
  else if t = 2 then forEach (fun j => setReg (Reg.bndOutMap (128 * f + j)) (fWord d (4 * j) &&& 0x803FFFFF#32)) (upTo 128) s
  else if t = 3 then forEach (fun j => setReg (Reg.bndInMap (128 * f + j)) (fWord d (4 * j) &&& 0x800003FF#32)) (upTo 128) s
  else if t = 4 then forEach (fun j s => setReg (Reg.qcfg (64 * f + j)) (fWord d (8 * j) &&& 0xFFFF1F#32)
    (setReg (Reg.qtimer (64 * f + j)) (fWord d (8 * j + 4)) s)) (upTo 64) s
  else if t = 5 then forEach (fun j s => setReg (Reg.ppCfg (16 * f + j)) (fWord d (32 * j))
    (forEach (fun k => setReg (Reg.ppBind (16 * f + j) k) (fWord d (32 * j + 4 + 4 * k))) (upTo 4) s)) (upTo 16) s
  else if t = 9 then
    let p := s.pins
    { s with pins := { p with
      gioBank := mset (fun _ => 0) p.gioBank f (fWord d 0)
      gioBall := (upTo 48).foldl (fun m j => mset (fun _ => 0) m (48 * f + j) (fWord d (8 + 4 * j))) p.gioBall } }
  else s

/-- Write the control frame (R405): QCLK and spread of each section, LNK_CFG, agents, CAD_LEN. -/
def writeControl (d : BitVec 4096) (s : State) : State :=
  let s := setReg Reg.cadLen (w32 (fld d 0 16)) s
  let s := forEach (fun c => setReg (Reg.lnkCfg c) (fWord d (24 + 4 * c))) (upTo 20) s
  let s := forEach (fun i => setReg (Reg.poolSecCfg i)
    (w32 (fByte d (104 + i) / 128 * 2 ^ 31 + fByte d (104 + i) % 64))) (upTo 8) s
  { s with ldr := { s.ldr with qclk := BitVec.ofNat 64 (fld d 16 64), qspread := BitVec.ofNat 64 (fld d 80 64),
                               chanEn := BitVec.ofNat 20 (fld d 160 20) } }

/-- The scratchpad of a firmware module, its secure part included (R341). -/
def fwSpad (m : Nat) : SMap HWord :=
  (upTo 8192).foldl (fun a i => mset dHbm a i { data := Config.fwWord m i }) []

/-- Place the program of one eddy record (R341, R342, R407). -/
def placeEddy (fr : SMap (BitVec 4096)) (e : Nat) (s : State) : State :=
  let r := eddyRec fr e
  let kind := fld r 0 8
  if kind = 0 then s
  else
    let s := setReg (Reg.eddyEntry e) (w32 (fld r 32 32)) s
    let s := setReg (Reg.eddyPinLo e) (w32 (fld r 64 32)) s
    let s := setReg (Reg.eddyPinHi e) (w32 (fld r 96 32) ||| 0xF0000000#32) s
    let go := kind = 2 || fld r 8 1 = 1
    let s := { s with ldr := { s.ldr with starts := if go then s.ldr.starts ++ [(e, w32 (fld r 32 32))] else s.ldr.starts } }
    if kind = 2 then
      modEddy e (fun x => { x with st := .halted, kind := 2, fwId := fld r 16 8, secure := true, fwParam := w32 (fld r 128 32),
                                   prevFw := true, spad := fwSpad (fld r 16 8) }) s
    else modEddy e (fun x => { x with st := .halted, kind := 1 }) s

/-- The first eddy of a section with the trace compressor (TRC_SEC_CFG). -/
def traceEddy (fr : SMap (BitVec 4096)) (sec : Nat) : Word :=
  match (upTo 64).find? (fun n => fld (eddyRec fr (64 * sec + n)) 0 8 = 2 && fld (eddyRec fr (64 * sec + n)) 16 8 = 3) with
  | some n => w32 (2 ^ 31 + n)
  | none => 0

/-- LOCAL_OK of an image (R137): at run-ahead depth 0, which every load sets. -/
def localImage (fr : SMap (BitVec 4096)) (s : State) : Bool :=
  let secs := (s.fab.tiles.filter (fun p => !tileIdle p.2 && !fFree p.2.frame)).map (fun p => tSec p.1)
  secs.all (fun x => secs.head? == some x) && !(upTo 256).any (fun p => bitAt (imagePort fr p) 0) && (inGroups s).isEmpty

/-- Every descriptor that a port binding names is pinned in its section's cache (R304). -/
def pinBindings (s : State) : State :=
  forEach (fun i s =>
    let b := getReg s (Reg.ppBind (i / 4) (i % 4))
    if bitAt b 31 then descTouch (i / 128) (fld b 0 20) s else s) (upTo 1024) s

/-- Bring the image into force once every check has passed (R404, R419). -/
def applyImage (s : State) : State :=
  let w := s.ldr.work
  let fr := w.frames
  let s := writeControl (controlFrame fr) s
  let s := forEach (fun (p : Nat × BitVec 4096) s =>
    if p.1 / 2 ^ 28 = 2 then writeTable (p.1 / 2 ^ 20 % 256) (p.1 % 2 ^ 20) p.2 s else s) fr s
  let s := pinBindings (takeDescs (imageDescs fr) [] (fun t x => placeDesc x.1 x.2 t) s).2
  let s := forEach (placeEddy fr) (upTo 512) s
  let s := forEach (fun i => setReg (Reg.trcSecCfg i) (traceEddy fr i)) (upTo 8) s
  let s := forEach (fun i => setReg (Reg.ldrImageId i) (w32 (leNat ((w.imageId.drop (4 * i)).take 4)))) (upTo 8) s
  let s := setReg Reg.ldrStartup (w32 w.startup) s
  let alone := (inGroups s).isEmpty && (outGroups s).isEmpty
  { s with claims := w.claims, ra := { s.ra with alone := alone }, tick := { s.tick with localOk := localImage fr s },
           ldr := { s.ldr with image := some w.keySel, phase := .startup }, fab := { s.fab with tapsOn := true },
           rep := { s.rep with susp := false } }

/-- LOAD_CHECKS_END (R419): the attempt fails with the first failing row, or the image comes into force. -/
def checksEnd (s : State) : State :=
  if s.ldr.phase != .checks then s
  else
    let (bad, s) := runChecks s
    match bad with
    | some (code, loc) => attemptFail code loc s
    | none =>
      let n := getReg s Reg.poolRangeCount
      setReg Reg.poolRangeCount n (applyImage s)

/-! ### The start-up order (R422–R424) -/

/-- The step that STARTUP names next. -/
def nextStep (s : State) : Nat := s.ldr.work.startup / 4 ^ s.ldr.steps % 4

/-- A start-up step of a kind is next. -/
def stepDue (s : State) (c : Nat) : Bool := s.ldr.phase == .startup && s.ldr.steps < 4 && nextStep s = c

/-- Entries of the descriptor table with something stored at their KIND word; `initPool` reads the corrected KIND and
leaves KIND NONE alone. -/
def listedPools (s : State) : List Nat :=
  (s.pool.hbm.filter (fun p => p.1 < 0x400000 && p.1 % 4 = 1)).map (fun p => p.1 / 4)

/-- Write enable in the clocked parts: pools take their INIT, eddies start (R300, R341, R422). Queue and port sides
leave reset from here on. -/
def enableClocked (s : State) : State :=
  let s := forEach initPool (listedPools s) s
  forEach (fun (p : Nat × Word) s => modEddy p.1 (startEddy (wipeDue s p.1) p.2) s) s.ldr.starts s

/-- Output release in the clocked parts: every channel of CHAN_EN receives ENABLE (R422). -/
def enableChans (s : State) : State := forEach lnkGo (bitList 20 0 s.ldr.chanEn.toNat) s

/-- The effect of a step on the clocked parts. -/
def clockedStep (c : Nat) (s : State) : State := if c = 2 then enableClocked s else if c = 3 then enableChans s else s

/-- A step acts on the clocked parts now, or at the end of lock wait (R423). -/
def stepClocked (c : Nat) (s : State) : State :=
  if stepDone s 0 then clockedStep c s else { s with ldr := { s.ldr with due := s.ldr.due ++ [c] } }

/-- CFG_DONE (R424, R33): the image runs, DEGRADED while a resource is unrepaired or a run-time mark remains (R34).
LDR_TIME holds how long the load took. -/
def cfgDone (s : State) : State :=
  let code := if unrepaired s = 0 && s.rep.run.isEmpty then DevState.operational else DevState.degraded
  let s := setAttempt 7 0 s
  let s := setReg Reg.ldrResult (w32 (256 * s.ldr.attempt)) s
  let s := loadTook s
  let s := bump Reg.ldrLoads { s with
    dev := { s.dev with cfgDone := true, cfgErr := false }
    fab := { s.fab with retLost := 0 }
    ldr := { s.ldr with phase := .done, busy := false } }
  raiseVec 11 (devEvent (if code == .operational then 4 else 8) (devGo code 3 s))

/-- A start-up step has completed; the last one leads to CFG_DONE. -/
def stepOver (s : State) : State :=
  let s := { s with ldr := { s.ldr with steps := s.ldr.steps + 1 } }
  if s.ldr.steps = 4 then cfgDone s else s

/-- LOCK_WAIT_END: PLLs and HBM are ready, and the steps taken before act on the clocked parts (R422, R423, R526). -/
def lockWaitEnd (s : State) : State :=
  if !stepDue s 0 then s
  else
    let s := forEach (fun k s => if stackFailed s k then s else orReg (Reg.hbmStat k) 1 s) (upTo 4) s
    let due := s.ldr.due
    let s := { s with ldr := { s.ldr with clkSpread := getReg s Reg.clkSpread, due := [] } }
    stepOver (forEach clockedStep due s)

/-- LOCK_WAIT_TIMEOUT (R422). -/
def lockWaitTimeout (s : State) : State := if stepDue s 0 then attemptFail 0x11 none s else s

/-- SET_RESET_RELEASE_DONE: GSR deasserts in every section (R60). -/
def setResetDone (s : State) : State :=
  if !stepDue s 1 then s else stepOver (gsrRelease s)

/-- WRITE_ENABLE_DONE (R118, R422). -/
def writeEnableDone (s : State) : State :=
  if !stepDue s 2 then s else stepOver (stepClocked 2 { s with fab := { s.fab with writesOn := true } })

/-- The levels that output release drives, which a keeper goes on to hold (R512, R521). -/
def releaseKept (s : State) : BitVec 480 :=
  s.pins.gioBall.foldl (fun k p =>
    if !bitAt p.2 1 then k else match fld p.2 12 2 with | 0 => setBit k p.1 false | 1 => setBit k p.1 true | _ => k) s.pins.kept

/-- OUTPUT_RELEASE_DONE: balls drive their release levels until a first value (R422, R521). -/
def outputReleaseDone (s : State) : State :=
  if !stepDue s 3 then s
  else stepOver (stepClocked 3 { s with pins := { s.pins with gioFirst := 0, gioOut := 0, gioOe := 0, kept := releaseKept s } })

/-! ### Device timers and claims (R428–R431) -/

/-- A timer is held by background test (R476). -/
def timerHeld (s : State) (d : Nat) : Bool := s.bg.on && s.bg.timer = d

/-- DTMR_CFG_WRITE: host writes to a held timer have no effect (R429). -/
def dtmrWrite (d : Nat) (v : Word) (s : State) : State :=
  if timerHeld s d then s
  else
    let s := setReg (Reg.dtmrCfg d) (v &&& 0xFFFFFFFF#32) s
    setReg (Reg.dtmrCount d) (if bitAt v 31 then w32 (fld v 0 20) else 0) s

/-- DEVICE_TIMER_EXPIRE of a running timer (R429). -/
def dtmrExpire (d : Nat) (s : State) : State :=
  let v := getReg s (Reg.dtmrCfg d)
  if !bitAt v 31 || fld v 0 20 = 0 then s
  else
    let s := orReg (Reg.dtmrEvent d) (if bitAt (getReg s (Reg.dtmrEvent d)) 0 then 2 else 1) s
    let s := setReg (Reg.dtmrCount d) (w32 (fld v 0 20)) (bump (Reg.dtmrExpiries d) s)
    let s := if bitAt v 30 then raiseVec (144 + d) s else s
    if bitAt v 29 then latchIrq (fld v 20 9) 13 s else s

/-- LDR_CLAIM_Q_WRITE (R431): the answer in LDR_CLAIM_OWNER shows the claims as they stand when it is read. -/
def claimQWrite (v : Word) (s : State) : State :=
  if claimLimit (fld v 24 8) ≤ fld v 0 20 then bump Reg.ldrRangeCount s else setReg Reg.ldrClaimQ (v &&& 0xFF0FFFFF#32) s

/-- LDR_CLAIM_OWNER (R431): the image's owner, or the run-time feature that holds the resource. -/
def claimAnswer (s : State) : Word :=
  let v := getReg s Reg.ldrClaimQ
  let k := fld v 24 8
  let i := fld v 0 20
  match claimOwner s k i with
  | some o => w32 (2 ^ 31 + o)
  | none =>
    if k = 3 && i = 19 && s.trc.exporting then w32 (2 ^ 30 + 0x81)
    else if k = 11 && timerHeld s i then w32 (2 ^ 30 + 0x82) else 0

/-! ### The commands -/

def execLoadHeaderRead (storeUe : Bool) (s : State) : Res := .next (headerRead storeUe s)
def execLoadPassAEnd (storeUe : Bool) (s : State) : Res := .next (passAEnd storeUe s)
def execLoadIdleFillEnd (s : State) : Res := .next (idleFillEnd s)
def execLoadPassBEnd (storeUe : Bool) (s : State) : Res := .next (passBEnd storeUe s)
def execLoadChecksEnd (s : State) : Res := .next (checksEnd s)
def execLockWaitEnd (s : State) : Res := .next (lockWaitEnd s)
def execLockWaitTimeout (s : State) : Res := .next (lockWaitTimeout s)
def execSetResetReleaseDone (s : State) : Res := .next (setResetDone s)
def execWriteEnableDone (s : State) : Res := .next (writeEnableDone s)
def execOutputReleaseDone (s : State) : Res := .next (outputReleaseDone s)
def execDeviceTimerExpire (d : Fin 16) (s : State) : Res := .next (dtmrExpire d s)
def execDtmrCfgWrite (d : Fin 16) (v : Word) (s : State) : Res := .next (awake (dtmrWrite d v) s)
def execLdrClaimQWrite (v : Word) (s : State) : Res := .next (mgmt (claimQWrite v) s)

end Sys2Proof.Machine
end

