-- ==== Sys2Proof/Machine/Package.lean ====
section
/-! DEFINITION. The package: where each signal and each rail has its balls, the ranges of the rails, and the cells of the
boundary register in order (R503–R509, R513, R527, R528), and the host port's configuration header (R379). -/

namespace Sys2Proof.Machine

/-! ### Signals and rails -/

/-- The four ford ports (R505). -/
inductive FordPort where
  | fn | fe | fs | fw
  deriving DecidableEq, Repr

/-- A signal ball. `n` of a ford signal is its number 0–81 in its direction (R505). -/
inductive Pin where
  | serTx (c lane : Nat) (neg : Bool)
  | serRx (c lane : Nat) (neg : Bool)
  | refSer (q : Nat) (neg : Bool)
  | fordTx (p : FordPort) (n : Nat)
  | fordRx (p : FordPort) (n : Nat)
  | gio (b j : Nat)
  | gioVref (b : Nat)
  | pcieTx (k : Nat) (neg : Bool)
  | pcieRx (k : Nat) (neg : Bool)
  | refPcie (neg : Bool)
  | porstN | cfgDone | cfgErrN | cfgPull (i : Nat) | pwrOffReqN | shdnDone | tamperN
  | tickIn | tickOut | alertN | tck | tms | tdi | tdo | trstN
  | smbClk | smbDat | smbAddr (i : Nat) | pciePerstN | avsClk | avsMdata | avsSdata
  | refSys (neg : Bool)
  | vsns (s : Nat) (neg : Bool)
  deriving DecidableEq, Repr

/-- A supply rail (R509, R513). -/
inductive Supply where
  | fab (s : Nat) | eddy | hub | vddHbm | vddqHbm | vppHbm | ser09 | ser12 | ford | gio (b : Nat) | mgt | vbat
  deriving DecidableEq, Repr

/-- A ball: its row index from 0 at AA, and its column from 1. -/
structure Ball where
  row : Nat
  col : Nat
  deriving DecidableEq, Repr

/-- The two letters of a row, as places in the sequence A B C D E F G H J K L M N P T U V W Y. -/
def Ball.letters (b : Ball) : Nat × Nat := (b.row / 19, b.row % 19)

/-! ### Where the signals lie (R504–R508) -/

/-- Ball of corner block `q` at offsets `a`, `b` (R504). -/
def cornerBall (q a b : Nat) : Ball :=
  ⟨if q < 2 then a else 87 - a, (if q % 2 = 0 then 1 else 73) + b⟩

/-- Ball of a ford port at offset `o`, position `p` (R505). -/
def fordBall : FordPort → Nat → Nat → Ball
  | .fn, o, p => ⟨o, p⟩
  | .fs, o, p => ⟨87 - o, p⟩
  | .fw, o, p => ⟨p, 1 + o⟩
  | .fe, o, p => ⟨p, 88 - o⟩

/-- First column of a GIO bank, and its banks' place among five (R506). -/
def gioCol (b : Nat) : Nat := if b < 5 then 20 else 46

/-- The ball of a signal (R504 to R508). -/
def ballOf : Pin → Ball
  | .serTx c l n => cornerBall (c / 4) (4 * (c % 4)) (4 * l + n.toNat)
  | .serRx c l n => cornerBall (c / 4) (4 * (c % 4) + 2) (4 * l + n.toNat)
  | .refSer q n => cornerBall q 16 n.toNat
  | .fordTx p n => fordBall p (2 * (n / 41)) (24 + n % 41)
  | .fordRx p n => fordBall p (4 + 2 * (n / 41)) (24 + n % 41)
  | .gio b j => ⟨10 + 4 * (b % 5) + 2 * (j / 24), gioCol b + j % 24⟩
  | .gioVref b => ⟨10 + 4 * (b % 5), gioCol b + 24⟩
  | .pcieTx k n => ⟨72 + 2 * (k / 8), 26 + 4 * (k % 8) + n.toNat⟩
  | .pcieRx k n => ⟨76 + 2 * (k / 8), 26 + 4 * (k % 8) + n.toNat⟩
  | .refPcie n => ⟨70, 26 + n.toNat⟩
  | .porstN => ⟨66, 20⟩
  | .cfgDone => ⟨66, 22⟩
  | .cfgErrN => ⟨66, 24⟩
  | .cfgPull i => ⟨66, 26 + 2 * i⟩
  | .pwrOffReqN => ⟨66, 30⟩
  | .shdnDone => ⟨66, 32⟩
  | .tamperN => ⟨66, 34⟩
  | .tickIn => ⟨66, 36⟩
  | .tickOut => ⟨66, 38⟩
  | .alertN => ⟨66, 40⟩
  | .tck => ⟨66, 42⟩
  | .tms => ⟨66, 44⟩
  | .tdi => ⟨66, 46⟩
  | .tdo => ⟨66, 48⟩
  | .trstN => ⟨66, 50⟩
  | .smbClk => ⟨66, 52⟩
  | .smbDat => ⟨66, 54⟩
  | .smbAddr i => ⟨66, 56 + 2 * i⟩
  | .pciePerstN => ⟨66, 60⟩
  | .avsClk => ⟨68, 20⟩
  | .avsMdata => ⟨68, 22⟩
  | .avsSdata => ⟨68, 24⟩
  | .refSys n => ⟨68, 26 + n.toNat⟩
  | .vsns s n => ⟨68, 30 + 4 * s + n.toNat⟩

/-- The number of the ford data, check, K or strobe signal of a direction (R505): D[i], C[i], K[i], STB[i], FRM, VLD. -/
def fordD (i : Nat) : Nat := 20 * (i / 16) + i % 16
def fordC (i : Nat) : Nat := 20 * (i / 2) + 16 + i % 2
def fordK (i : Nat) : Nat := 20 * i + 18
def fordStb (i : Nat) : Nat := 20 * i + 19
def fordFrm : Nat := 80
def fordVld : Nat := 81

/-! ### Where the rails lie (R504–R507, R509) -/

/-- The section whose rail's region holds row `r`, column `c`. -/
def fabRegion (r c : Nat) : Option Nat :=
  if 30 ≤ r && r ≤ 63 && 9 ≤ c && c ≤ 80 then some (4 * ((r - 30) / 17) + (c - 9) / 18) else none

/-- The GIO bank whose supply row is `r`, at an even column `c` (R506). -/
def gioRail (r c : Nat) : Option Nat :=
  if r % 4 = 3 && 11 ≤ r && r ≤ 27 && c % 2 = 0 then
    if 20 ≤ c && c ≤ 42 then some ((r - 11) / 4)
    else if 46 ≤ c && c ≤ 68 then some ((r - 11) / 4 + 5) else none
  else none

/-- The serial supply at an odd row offset and column offset `b` of a corner block (R504). -/
def cornerRail (a b : Nat) : Option Supply :=
  if a % 2 = 1 && a < 17 then
    if b = 2 || b = 6 || b = 10 || b = 14 then some .ser09
    else if b = 3 || b = 11 then some .ser12 else none
  else none

/-- A ball of the corner blocks' columns: its column offset. -/
def cornerCol (c : Nat) : Option Nat :=
  if 1 ≤ c && c ≤ 16 then some (c - 1) else if 73 ≤ c && c ≤ 88 then some (c - 73) else none

/-- The ford supply: offset 7 of each port's block (R505). -/
def fordSupply (r c : Nat) : Bool :=
  (24 ≤ c && c ≤ 64 && (r = 7 || r = 80)) || (24 ≤ r && r ≤ 64 && (c = 8 || c = 81))

/-- The rail of a ball, if it is a supply ball (R509). -/
def railAt (b : Ball) : Option Supply :=
  let (r, c) := (b.row, b.col)
  let corner : Option Supply := (cornerCol c).bind (cornerRail (if r < 17 then r else 87 - r))
  if (r < 17 || 70 < r) && corner.isSome then corner
  else if fordSupply r c then some .ford
  else match fabRegion r c, gioRail r c with
    | some s, _ => if (r + c) % 2 = 0 then some (.fab s) else none
    | none, some b => some (.gio b)
    | none, none =>
      if (r = 29 && 9 ≤ c && c ≤ 80) || (r = 9 && 17 ≤ c && c ≤ 72) then some .eddy
      else if (r = 65 && 9 ≤ c && c ≤ 80) || (r = 67 && 20 ≤ c && c ≤ 87) then some .hub
      else if 17 ≤ r && r ≤ 23 && ((1 ≤ c && c ≤ 18) || (71 ≤ c && c ≤ 88)) then
        some (if (r + c) % 2 = 0 then .vddHbm else .vddqHbm)
      else if r = 8 && 17 ≤ c && c ≤ 24 then some .vppHbm
      else if (r = 71 || r = 73 || r = 75 || r = 77) && 28 ≤ c && c ≤ 52 && c % 4 = 0 then some .ser09
      else if r = 69 && 20 ≤ c && c ≤ 27 then some .mgt
      else if r = 68 && c = 62 then some .vbat
      else none

/-- A ball that must be left unconnected (R508). -/
def ballNc (b : Ball) : Bool := b.row = 68 && 64 ≤ b.col && b.col ≤ 87

/-- Recommended range of a rail, in millivolts (R513); a GIO bank's follows the voltage its image names, ±5 %. -/
def railRange : Supply → Nat → Nat × Nat
  | .fab _, _ => (500, 900)
  | .hub, _ | .eddy, _ => (720, 780)
  | .vddHbm, _ => (1067, 1133)
  | .vddqHbm, _ => (380, 420)
  | .vppHbm, _ | .mgt, _ => (1710, 1890)
  | .ser09, _ => (873, 927)
  | .ser12, _ => (1164, 1236)
  | .ford, _ => (970, 1030)
  | .gio _, v => (v * 95 / 100, v * 105 / 100)
  | .vbat, _ => (1200, 3600)

/-- The power-up group of a rail (R515). -/
def railGroup : Supply → Nat
  | .vbat => 0
  | .mgt | .vppHbm => 1
  | .hub | .eddy | .vddHbm | .ser09 | .fab _ => 2
  | .vddqHbm | .ser12 | .ford | .gio _ => 3

/-! ### The host port's configuration header (R379) -/

/-- Vendor and device ID, revision, class code, subsystem vendor and subsystem ID. -/
def configHeader : List (String × Nat) :=
  [("Vendor ID", 0x1F3C), ("Device ID", 0xE732), ("Revision ID", 0xB1), ("Class code", 0x120000),
   ("Subsystem vendor ID", 0x1F3C), ("Subsystem ID", 0x32)]

/-! ### The test access port's registers (R527, R528) -/

/-- The IDCODE register: version, part number, manufacturer and the fixed 1. -/
def tapIdcode : Word := 0x3E320B4D#32

/-- What the instruction register captures. -/
def tapIrCapture : BitVec 8 := 0x01#8

/-- What a boundary cell does for its ball. -/
inductive CellKind where
  | input | output | enable | ac
  deriving DecidableEq, Repr

/-- The ford ports in the order of the boundary register. -/
def fordOrder (i : Nat) : FordPort := match i with | 0 => .fn | 1 => .fe | 2 => .fs | _ => .fw

/-- Cell `i` of the boundary register, counted from TDI (R528); the 82 transmit cells of a ford port share
one enable cell, which follows them. -/
def boundaryCell (i : Nat) : Option (Pin × CellKind) :=
  if i < 1440 then
    some (.gio (i / 144) (i / 3 % 48), match i % 3 with | 0 => .input | 1 => .output | _ => .enable)
  else if i < 1440 + 660 then
    let k := (i - 1440) % 165
    let p := fordOrder ((i - 1440) / 165)
    if k < 82 then some (.fordTx p k, .output)
    else if k = 82 then some (.fordTx p 0, .enable)
    else some (.fordRx p (k - 83), .input)
  else if i < 2100 + 128 then
    let k := i - 2100
    some (if k % 2 = 0 then .serTx (k / 8) (k / 2 % 4) false else .serRx (k / 8) (k / 2 % 4) false, .ac)
  else if i < 2228 + 10 then
    let p := match (i - 2228) / 2 with | 0 => Pin.cfgDone | 1 => .cfgErrN | 2 => .shdnDone | 3 => .tickOut | _ => .alertN
    some (p, if i % 2 = 0 then .output else .enable)
  else
    match i - 2238 with
    | 0 => some (.cfgPull 0, .input)
    | 1 => some (.cfgPull 1, .input)
    | 2 => some (.pwrOffReqN, .input)
    | 3 => some (.tamperN, .input)
    | 4 => some (.tickIn, .input)
    | 5 => some (.smbAddr 0, .input)
    | 6 => some (.smbAddr 1, .input)
    | 7 => some (.pciePerstN, .input)
    | _ => none

end Sys2Proof.Machine
end

