-- ==== Sys2Proof/Machine/Shutdown.lean ====
section
/-! DEFINITION. Power-up before the load, PORST_N, the shutdown and its self-test, and how a keyed command completes
(R31–R39, R440, R470–R475, R517). -/

namespace Sys2Proof.Machine

/-! ### The health record (R472, R473) -/

/-- The valid copy with the higher SEQ. -/
def newestRec (s : State) : Option HealthRec :=
  match s.nv.healthA, s.nv.healthB with
  | some a, some b => some (if a.seq < b.seq then b else a)
  | some a, none => some a
  | none, b => b

/-- Write a record, to the copies in turn, each time raising SEQ. -/
def writeRec (r : HealthRec) (s : State) : State :=
  let seq := match newestRec s with | some o => o.seq + 1 | none => 1
  let r := { r with seq := seq % 2 ^ 32, fails := r.fails.take 256, overflow := 256 < r.fails.length }
  let n := s.nv
  { s with nv := if n.healthTurn then { n with healthB := some r, healthTurn := false }
    else { n with healthA := some r, healthTurn := true } }

/-- The bytes of a record as the store holds them: the fields of R472, FAIL entries, then the CRC-32. -/
def recBytes (r : HealthRec) : List Nat :=
  let n := min 256 r.fails.length
  let body := leBytes 4 0x48544C48 ++ leBytes 4 r.seq ++ [r.kind, b2n r.fail] ++ leBytes 2 r.segDone.toNat ++ leBytes 2 r.segFail.toNat ++
    leBytes 2 n ++ leBytes 4 r.total ++ leBytes 4 r.reached ++ leBytes 4 (if r.complete then 0x5AA50001 else 0) ++
    leBytes 4 (b2n r.overflow) ++ leBytes 8 r.sigOk.toNat ++ leBytes 8 0 ++
    ((r.fails.take n).map (fun m => [m.kind, m.sec] ++ leBytes 2 m.idx ++ leBytes 4 0)).flatten
  body ++ leBytes 4 (crc32 body)

/-- Outcome of a record: 0 PASS, 1 FAIL, 2 INCOMPLETE (R473; DEDUCED: a complete record with OUTCOME 1 is FAIL also where its count of
patterns is short, log 217). -/
def recOutcome (r : HealthRec) : Nat :=
  if r.complete && r.reached = r.total && r.segDone = 0xFFFF#16 && !r.fail then 0
  else if r.complete && r.fail then 1 else 2

/-- The record of the shutdown test as far as it has come (R470, R471). -/
def shutRec (s : State) (complete : Bool) : HealthRec :=
  let n := s.rep.seg
  let done := BitVec.ofNat 16 (2 ^ n - 1)
  { seq := 0, kind := 1, fail := complete && !s.rep.found.isEmpty, segDone := done, segFail := s.rep.segFail,
    fails := s.rep.found, total := 0x100000, reached := 65536 * n, complete := complete, overflow := false,
    sigOk := done &&& ~~~s.rep.segFail }

/-! ### Entering SHUTTING_DOWN (R37, R38) -/

/-- A load in progress is abandoned with LOAD_ABORTED; the power-up test only stops (R38, R430). -/
def abandonLoad (s : State) : State :=
  if !s.ldr.busy then s
  else
    let s := if s.mbx.phase == .zeroise then mbxDone 0 0 s else s
    let l := s.ldr
    if l.pow != .over then { s with ldr := { l with busy := false, pow := .over, phase := .idle } }
    else
      let s := setAttempt (phaseCode l.phase) 0x12 s
      let s := setReg Reg.ldrResult (w32 (0x12 + 256 * l.attempt + 512 * b2n s.dev.cfgErr)) (setReg Reg.ldrLoc 0 s)
      loadTook { s with ldr := { l with phase := .aborted, busy := false, locked := false, due := [], starts := [], zeroise := false, erase := 0 } }

/-- The tick engine is HALTED with TICK_SHUTDOWN; uncommitted work and held effects are discarded, words in sluice holds and
held trace samples with them (R129, R189). -/
def shutTick (s : State) : State :=
  let s := qDiscardFrom 0 (discardFrom s.ra.com (abandonTick s))
  let ra := { s.ra with gioOut := [], toggles := [], vals := [], outHist := [], outPend := [], outReg := [], rb := none, rolling := false,
                        restored := false, reeval := none, journal := [], ring := [], gioIn := [] }
  enterHalt 6 false { s with ra := ra, tick := { s.tick with stopAt := none, heldStart := none, redo := false, pend := none, pendMulti := false } }

/-- A WRITE_SLOT in progress ends with SEC_ABORTED; its slot keeps length 0 (R454). -/
def abortSlot (s : State) : State :=
  match s.mbx.phase with
  | .slotWrite n _ _ _ _ => mbxDone 0x0A 0 (eraseSlot n s)
  | .slotErase n _ => mbxDone 0x0A 0 (eraseSlot n s)
  | _ => s

/-- SHUTTING_DOWN is entered, by a cause, with its events; the self-test starts (R33, R37, R38, R470, R471). -/
def enterShutdown (cause events : Nat) (s : State) : State :=
  let s := abandonLoad s
  let s := loadChans (gsrAssert (shutTick (snapAbort (dropPulse s))))
  let s := { s with
    fab := { s.fab with tapsOn := false, writesOn := false }
    bg := { s.bg with leases := [] }
    trc := { s.trc with exporting := false, words := [], held := [] }
    pins := { s.pins with gioOut := 0, gioOe := 0, gioFirst := 0 }
    rep := { s.rep with seg := 0, found := [], segFail := 0, sweep := false } }
  let s := devEvent events (devGo .shuttingDown cause s)
  writeRec (shutRec s false) s

/-- PWR_OFF_REQ_N is taken as asserted (R37, R38): the event bit is set also where a SHUTDOWN came first (R39). -/
def pwrOff (s : State) : State :=
  if s.dev.inReset || s.dev.pwrOff then s
  else
    let s := { s with dev := { s.dev with pwrOff := true } }
    let s := abortSlot s
    if s.dev.st == .shuttingDown then devEvent 0x80 s else enterShutdown 6 0x80 s

/-- Segment `k` of a self-test leaves free values in what it tests, as far as it holds contents (R470, R475: destroyed; DESIGN CHOICE,
log 218). -/
def destroy (k : Nat) (s : State) : State :=
  let n := s.free
  let t : State := { s with free := n + 2 ^ 30 }
  if k < 8 then loseSection k s
  else if k = 8 then { t with queues := mmap dQueue (fun q x => lostQueue (n + 2 ^ 14 * q) x) s.queues }
  else if k = 9 then
    let line (p : Nat) (l : CLine) : CLine :=
      { l with words := l.words.zipIdx.map (fun w => { w.1 with data := Config.free 64 (n + 2 ^ 16 * p + 8 * l.line + w.2) }) }
    { t with pool := { s.pool with ports := mmap dPort (fun p x => { x with cache := x.cache.map (fun q => (q.1, q.2.map (line p))) }) s.pool.ports } }
  else if k = 10 then
    forEach (fun e => modEddy e (fun x =>
      { x with spad := mtab dHbm (fun i => { data := Config.free 64 (n + 2 ^ 13 * e + i) }) 0 8192 })) (upTo 512) t
  else if k = 11 then
    let journal := mmap dJournal (fun q j => lostJournal (n + 2 ^ 17 * q) j) s.ra.journal
    let ring := (upTo 8).foldl (fun r sec => r.map (lostRing sec (n + 2 ^ 27))) s.ra.ring
    { t with ra := { s.ra with journal := journal, ring := ring } }
  else s

/-- A segment of the shutdown test ends, with the failures it found (R471). -/
def segmentDone (fails : List Mark) (s : State) : State :=
  if s.dev.inReset || s.dev.st != .shuttingDown || 16 ≤ s.rep.seg then s
  else
    let r := s.rep
    let bad := if fails.isEmpty then r.segFail else setBit r.segFail r.seg true
    let s := { s with rep := { r with seg := r.seg + 1, found := r.found ++ fails, segFail := bad } }
    writeRec (shutRec s false) (destroy r.seg s)

/-- The secure part of every eddy is wiped at once (R336). -/
def wipeSecrets (s : State) : State := forEach wipeSecure (upTo 512) s

/-! ### The zeroise response (R449, R450) -/

/-- The zeroise response: K_BBK and secure parts go at once; a keyed command in progress ends, but not the ZEROISE
that asked; unless the device is SHUTTING_DOWN, a load of slot 0 starts that first zeroes HBM and erases the slots of `mask`
(R450). In reset that load falls due at the next power-up (DESIGN CHOICE, log 197). -/
def zeroise (own : Bool) (mask : BitVec 4) (s : State) : State :=
  let s := wipeSecrets (useCounter { s with nv := { s.nv with kBbk := none } })
  let s := if own || s.mbx.phase == .idle then s
    else match s.mbx.phase with
      | .slotWrite _ _ _ _ _ | .slotErase _ _ => abortSlot s
      | _ => mbxDone 0x0A 0 s
  let mask := mask ||| s.nv.zeroDue.getD 0
  if s.dev.inReset then { s with nv := { s.nv with zeroDue := some mask } }
  else if s.dev.st == .shuttingDown then s
  else
    let s := loadStart true 0 0 0 { s with nv := { s.nv with zeroDue := none } }
    { s with ldr := { s.ldr with zeroise := true, erase := mask ||| s.ldr.erase } }

/-- A tamper source is armed (R450): TAMPER_N always is in DEPLOYED and SERVICE. -/
def armed (s : State) (src : Nat) : Bool :=
  (s.nv.lc == .deployed || s.nv.lc == .service) && (src = 0 || bitAt s.nv.policy (8 + src))

/-- A tamper event: recorded and counted in every state; an armed one causes the zeroise response (R449, R450). -/
def tamper (src : Nat) (s : State) : State :=
  let s := bump Reg.tamperCount { s with nv := { s.nv with tamper := setBit s.nv.tamper src true }
                                         dev := { s.dev with cond := setBit s.dev.cond src true } }
  if armed s src then zeroise false 0 s else s

/-- A VBAT loss that power-up finds is recorded then (R435, R456), and a response that was due goes on (R450). -/
def vbatFoundAt (s : State) : State :=
  let s := if s.nv.vbatFound then tamper 1 { s with nv := { s.nv with vbatFound := false } } else s
  if s.nv.zeroDue.isSome then zeroise false 0 s else s

/-! ### The shutdown test and PORST_N -/

/-- The shutdown test ends: secure parts wiped, final record, SHDN_DONE (R471, R37). -/
def shutdownDone (s : State) : State :=
  if s.dev.inReset || s.dev.st != .shuttingDown || s.rep.seg < 16 || s.dev.shdnDone then s
  else
    let s := wipeSecrets s
    let s := writeRec (shutRec s true) s
    { s with dev := { s.dev with shdnDone := true } }

/-! ### PORST_N (R33, R38, R512, R517) -/

/-- Everything that reset leaves, with what outlives it: the non-volatile record, the test access port, the count of R443, the
conditions outside the device and the command queue. The registers whose reset value is stored show it (R455, R456), and the host
port trains where PCIE_PERST_N has been released (R515). -/
def deviceReset (inReset high : Bool) (straps : BitVec 4) (s : State) : State :=
  let t : State := { State.reset with pending := s.pending, nv := s.nv, free := s.free, jtag := s.jtag,
                                      mbx := { tagRun := s.mbx.tagRun },
                                      pins := { absent := s.pins.absent },
                                      host := { bar2 := s.host.bar2, perstHigh := s.host.perstHigh, training := !inReset && s.host.perstHigh },
                                      dev := { inReset := inReset, porstHigh := high, straps := straps, cond := s.dev.cond } }
  setReg Reg.mbxCtrHi (w32 (s.nv.counter / 2 ^ 32)) (setReg Reg.lcFloor1Hi (w32 (s.nv.floor1 / 2 ^ 32))
    (setReg Reg.lcFloor2Hi (w32 (s.nv.floor2 / 2 ^ 32)) t))

/-- A zeroise response whose load has not begun its wipe falls due at the next power-up (DESIGN CHOICE, log 197). -/
def keepZero (s : State) : State :=
  if s.ldr.zeroise then { s with nv := { s.nv with zeroDue := some (s.ldr.erase ||| s.nv.zeroDue.getD 0) } } else s

/-- PORST_N falls. A slot that was being written keeps length 0, and a counter that step 4 has passed is used up (R442). -/
def porstAssert (s : State) : State :=
  let s := keepZero (useCounter s)
  let s := match s.mbx.phase with
    | .slotWrite n _ _ _ _ | .slotErase n _ => eraseSlot n s
    | _ => s
  deviceReset true false s.dev.straps s

/-- PORST_N rises: straps are sampled, and the device starts once every rail is in range (R512, R517). -/
def porstRelease (straps : BitVec 4) (rails : Bool) (s : State) : State :=
  if s.dev.porstHigh then s else deviceReset (!rails) true straps s

/-- Every rail is in range: the device acts on the release (R517). -/
def railsInRange (s : State) : State :=
  if s.dev.inReset && s.dev.porstHigh then
    let t := deviceReset false true s.dev.straps s
    { t with dev := { t.dev with watch := s.dev.watch } }
  else s

/-! ### Power-up before the load (R440, R474, R475) -/

/-- A stage of power-up may end. -/
def powering (s : State) : Bool := !s.dev.inReset && s.dev.st == .starting && s.ldr.busy

/-- Fuses, identity and repair map are read; a pending wipe is repeated (R440, R474), and a lost VBAT is found (R435). -/
def fuseRead (s : State) : State :=
  if !powering s || s.ldr.pow != .fuses then s
  else
    let s := { s with ldr := { s.ldr with pow := .health, slot0 := s.nv.wipe.isSome } }
    let s := match s.nv.wipe with
      | some t => wipeStore t (wipeSecrets (wipeKeys t s))
      | none => s
    vbatFoundAt { s with rep := { s.rep with marks := s.nv.marks } }

/-- Add failures to the field repair map and to those in force (R474, R478). -/
def takeFails (fs : List Mark) (s : State) : State :=
  let s := if fs.all s.nv.marks.contains then s else setReg Reg.testResult 2 s
  let s := forEach (fun m s => if s.nv.marks.contains m then s else logMark m (fieldMark m s)) fs s
  { s with rep := { s.rep with marks := s.nv.marks } }

/-- Repair is applied, and the load of BOOT_SLOT starts (R413, R474, R479). -/
def bootLoad (s : State) : State :=
  let bad := ((upTo 8).map (unrepairedEddies s)).flatten
  let s := forEach (fun e => modEddy e (fun x => { x with st := .failed })) bad s
  loadStart false (if s.ldr.slot0 then 0 else s.nv.boot) 0 0 { s with ldr := { s.ldr with slot0 := false } }

/-- Segments whose bit is clear. -/
def segsLeft (d : BitVec 16) : List Nat := (upTo 16).filter fun k => !bitAt d k

/-- The record that the abbreviated test writes: it merges what it read with its own (R475). -/
def abbrevRec (s : State) : HealthRec :=
  let old := newestRec s
  let fs := (match old with | some r => r.fails | none => []) ++ s.rep.found
  let bad := s.rep.segFail ||| (match old with | some r => r.segFail | none => 0)
  { seq := 0, kind := 2, fail := !fs.isEmpty, segDone := 0xFFFF, segFail := bad, fails := fs, total := 0x100000,
    reached := 0x100000, complete := true, overflow := false, sigOk := ~~~bad }

/-- The abbreviated test has no segment left: its record is written, its failures are marked, and the load starts. -/
def abbrevEnd (s : State) : State := bootLoad (takeFails s.rep.found (writeRec (abbrevRec s) s))

/-- The abbreviated test starts on the segments given: on none it ends at once (R474, R475). -/
def abbrevGo (segs : List Nat) (s : State) : State :=
  let s := { s with ldr := { s.ldr with pow := .abbrev segs }, rep := { s.rep with abbrevRun := true } }
  if segs.isEmpty then abbrevEnd s else s

/-- The health record decides: a load, or the abbreviated test first (R474). -/
def healthRead (s : State) : State :=
  if !powering s || s.ldr.pow != .health then s
  else
    match newestRec s with
    | none => abbrevGo (upTo 16) { s with rep := { s.rep with outcome := 3 } }
    | some r =>
      let o := recOutcome r
      let s := { s with rep := { s.rep with outcome := o, segDone := r.segDone } }
      let s := if o = 0 then s else takeFails r.fails s
      if o = 2 then abbrevGo (segsLeft r.segDone) (setReg Reg.testResult 3 s) else bootLoad s

/-- A segment of the abbreviated test completes, with the failures it found (R475). -/
def abbrevDone (fails : List Mark) (s : State) : State :=
  if !powering s then s
  else
    match s.ldr.pow with
    | .abbrev (k :: l) =>
      let r := s.rep
      let bad := if fails.isEmpty then r.segFail else setBit r.segFail k true
      let s := destroy k { s with rep := { r with found := r.found ++ fails, segFail := bad }, ldr := { s.ldr with pow := .abbrev l } }
      if l.isEmpty then abbrevEnd s else s
    | _ => s

/-! ### The commands -/

def execPorstNRelease (straps : BitVec 4) (rails : Bool) (s : State) : Res := .next (porstRelease straps rails s)
def execPorstNAssert (s : State) : Res := .next (porstAssert s)
def execPwrOffReqNAssert (s : State) : Res := .next (pwrOff s)
def execPwrOffReqNRelease (s : State) : Res := .next { s with dev := { s.dev with pwrOff := false } }
def execShutdownSegmentDone (fails : List Mark) (s : State) : Res := .next (segmentDone fails s)
def execShutdownTestDone (s : State) : Res := .next (shutdownDone s)
def execFuseReadDone (s : State) : Res := .next (fuseRead s)
def execHealthRecordRead (s : State) : Res := .next (healthRead s)
def execAbbreviatedSegmentDone (fails : List Mark) (s : State) : Res := .next (abbrevDone fails s)
def execRailsInRange (s : State) : Res := .next (railsInRange s)

end Sys2Proof.Machine
end

