-- ==== Sys2Proof/Machine/Security.lean ====
section
/-! DEFINITION. The security island: the keyed command mailbox and its commands, the life cycle and its wipes,
tamper and the zeroise response, UNFREEZE (chapter Life Cycle, Keyed Commands and Freezing). -/

namespace Sys2Proof.Machine

/-! ### The command in MBX_BUF (R441, R446) -/

/-- OPLEN, and `n` bytes of OPERANDS from byte `i`. -/
def opLenOf (s : State) : Nat := bufN s 2 2
def opN (s : State) (i n : Nat) : Nat := bufN s (20 + i) n

/-- The kinds of keyed command that have a row of their own. -/
inductive KClass where
  | load | slotData | slotErase | slotBoot | lifecycle | unfreeze | root | routes | apply | key
  | bgOn | bgOff | sweep | rawMode | bist | zeroise | shutdown | unassigned
  deriving DecidableEq, Repr

/-- The kind of the command in MBX_BUF. -/
def kcClass (s : State) : KClass :=
  let f := opN s 1 1
  match mbxCmd s with
  | 1 => .load
  | 2 => if bitAt (w32 f) 0 then .slotData else if bitAt (w32 f) 2 then .slotErase else .slotBoot
  | 3 => .lifecycle
  | 4 => .unfreeze
  | 5 => .root
  | 6 => if opN s 0 1 % 2 = 1 then .apply else .routes
  | 7 => .key
  | 8 =>
    if f % 2 = 1 then .rawMode
    else if opN s 0 1 = 1 then .bgOn else if opN s 0 1 = 2 then .bgOff else if opN s 0 1 = 3 then .sweep else .bist
  | 9 => .zeroise
  | 10 => .shutdown
  | _ => .unassigned

/-! ### Steps 6 to 8 (R442, R445–R448) -/

/-- SEC_FORMAT (R442 step 6): CMD unassigned, a wrong OPLEN, a reserved bit set, or a field that must be 0. -/
def kcFormatBad (s : State) : Bool :=
  let n := opLenOf s
  match mbxCmd s with
  | 1 => n != 12 || opN s 1 3 != 0
  | 2 => n != 12 || 8 ≤ opN s 1 1 || opN s 2 2 != 0 || (opN s 1 1 % 2 = 0 && opN s 4 8 != 0)
  | 3 => n != 8 || opN s 1 3 != 0 || w32 (opN s 4 4) &&& ~~~0x1F03#32 != 0 || (opN s 0 1 != 3 && opN s 4 4 != 0)
  | 4 => n != 4 || 2 ≤ opN s 1 1 || (opN s 1 1 = 1 && opN s 2 2 != 0)
  | 5 => n != 4 || opN s 1 3 != 0
  | 6 =>
    let a := opN s 0 1 = 1
    (!a && (upTo (opN s 4 2)).any (fun i => opN s (16 + 4 * i) 4 &&& 0xEF000000 != 0)) || 2 ≤ opN s 0 1 || opN s 1 1 != 0 || opN s 6 2 != 0 || n != (if a then 16 else 16 + 4 * opN s 4 2) ||
      (if a then opN s 2 4 != 0 || 2 ^ 20 ≤ opN s 8 4 || 2 ^ 20 ≤ opN s 12 4 else opN s 8 8 != 0)
  | 7 => n != 48 || opN s 1 7 != 0
  | 8 => n != 4 || 2 ≤ opN s 1 1 || opN s 2 2 != 0
  | 9 => n != 4 || 4 ≤ opN s 0 1 || opN s 1 3 != 0
  | 10 => n != 0
  | _ => true

/-- The state that a code of R436 names. -/
def lcOf (n : Nat) : Option LifeCycle :=
  [LifeCycle.blank, .manufacture, .provisioned, .deployed, .service, .retired][n]?

/-- The code of a state (R436). -/
def lcCode (l : LifeCycle) : Nat :=
  match l with | .blank => 0 | .manufacture => 1 | .provisioned => 2 | .deployed => 3 | .service => 4 | .retired => 5

/-- Why a transition is refused: SEC_STATE, SEC_EXHAUSTED, or 0 (R438). -/
def transRefusal (s : State) (t : LifeCycle) : Nat :=
  match s.nv.lc, t with
  | .blank, .manufacture => 0
  | .manufacture, .provisioned => if s.nv.fused then 0 else 5
  | .provisioned, .deployed => if s.nv.kFuse.isSome then 0 else 5
  | .deployed, .service => if s.nv.trips < 32 then 0 else 8
  | .service, .deployed => 0
  | .manufacture, .retired | .provisioned, .retired | .deployed, .retired | .service, .retired => 0
  | _, _ => 5

/-- A command is allowed in the present life-cycle state (R445). -/
def lcAllows (s : State) (cmd : Nat) : Bool :=
  let l := s.nv.lc
  if cmd = 9 || cmd = 10 then true
  else if cmd = 3 then l != .retired
  else if cmd = 7 then l == .provisioned || (l == .deployed && opN s 0 1 = 2)
  else if l == .blank || l == .retired then false
  else !(cmd = 2 && l == .service && opN s 0 1 = 0)

/-- Step 7 of R442: 0, SEC_STATE or SEC_EXHAUSTED. -/
def kcState (s : State) : Nat :=
  let c := mbxCmd s
  if !lcAllows s c || (s.dev.st == .shuttingDown && c != 9 && c != 10) then 5
  else if c = 3 then (match lcOf (opN s 0 1) with | some t => transRefusal s t | none => 5)
  else if c = 7 && opN s 0 1 = 1 && s.nv.kFuse.isSome then 5
  else 0

/-! ### Tamper sources and transitions (R435, R439, R449) -/

/-- VBAT falls below 1.1 V: K_BBK is lost, at once where the device runs, and found at the next power-up where it does not
(R435). -/
def vbatLoss (s : State) : State :=
  let n := { s.nv with kBbk := none, bbkLost := true }
  if s.dev.inReset then
    { s with nv := { n with tamper := setBit n.tamper 1 true, vbatFound := true }, dev := { s.dev with cond := setBit s.dev.cond 1 true } }
  else tamper 1 { s with nv := n }

/-- The device is powered and running, for sources 3 and 4 (R449). -/
def watched (s : State) : Bool := s.dev.watch == .on && !s.dev.shdnDone

/-- VCC_HUB leaves its range: below it, the device resets as if PORST_N were asserted (R449, R517). -/
def hubExcursion (low : Bool) (s : State) : State :=
  if !low then tamper 3 s
  else
    let t := porstAssert (if watched s then tamper 3 s else s)
    let w := if s.dev.shdnDone then .over else s.dev.watch
    { t with dev := { t.dev with porstHigh := s.dev.porstHigh, watch := w, cond := setBit s.dev.cond 3 true } }

/-- Steps 1 to 5 of R439: the target is recorded and fused, keys are cleared, secure parts wiped, a load of slot 0
starts. -/
def transition (t : LifeCycle) (policy : Word) (s : State) : State :=
  let n := s.nv
  let n := { n with wipe := some t, lc := t,
                    trips := if t == .service then n.trips + 1 else n.trips,
                    policy := if t == .deployed && n.lc == .provisioned then policy else n.policy,
                    kFuse := if t == .retired then none else n.kFuse }
  let s := wipeSecrets (wipeKeys t { s with nv := n })
  let s := loadStart true 0 0 0 s
  { s with mbx := { s.mbx with phase := .transition } }

/-! ### The commands' operands and effects (steps 8 to 10 of R442) -/

/-- A command refused by the owning block (SEC_BLOCK). -/
def secBlock (code : Nat) (s : State) : State := mbxDone 6 code s

/-- LOAD_IMAGE (R414). -/
def kcLoad (s : State) : State :=
  let src := opN s 0 1
  let off := opN s 4 4
  let len := opN s 8 4
  if 5 ≤ src || (src = 4 && (len = 0 || off % 4096 != 0 || 0x80000000 < off + len)) then
    secBlock 0x20 (bump Reg.ldrRangeCount s)
  else if s.ldr.busy then secBlock 0x13 s
  else mbxDone 0 0 (loadStart true src off len s)

/-- WRITE_SLOT (R447): refusals, then the write, the erase or BOOT alone. -/
def kcSlot (s : State) : State :=
  let n := opN s 0 1
  let fl := w32 (opN s 1 1)
  let off := opN s 4 4
  let len := opN s 8 4
  let data := bitAt fl 0
  let boot := bitAt fl 1
  let erase := bitAt fl 2
  if 3 < n || fl = 0 || (data && erase) || (erase && n = 0) ||
      (data && (len = 0 || off % 4096 != 0 || 0x80000000 < off + len)) then mbxDone 0x20 0 s
  else if s.ldr.locked && s.ldr.src = n then secBlock 0x14 s
  else if data then
    let c : Source := ⟨none, off, len⟩
    let s := if n = 0 then srcRead c s else s
    let h := srcBytes s c 0 128
    let bad : Option Nat :=
      if n != 0 then none
      else if len < 128 then some 6
      else match headerRefusal s h with
        | some e => some e.1
        | none => match passA s c h with | .error e => some e.1 | .ok _ => none
    match bad with
    | some code => secBlock code (countLoad code s)
    | none =>
      let key := hdr h 40 1
      let fl := if n = 0 && (key = 1 || key = 2) then some (key, hdr h 32 8) else none
      let x := getSlot s n
      setSlot n { x with len := 0 } { s with mbx := { s.mbx with phase := .slotWrite n off len boot fl } }
  else if erase then
    let x := getSlot s n
    setSlot n { x with len := 0 } { s with mbx := { s.mbx with phase := .slotErase n boot } }
  else mbxDone 0 0 { s with nv := { s.nv with boot := n } }

/-- BOOT_SLOT after a write or erase. -/
def setBoot (boot : Bool) (n : Nat) (s : State) : State := if boot then { s with nv := { s.nv with boot := n } } else s

/-- SLOT_WRITE_DONE: the copy, the length, the wear, and the floor of a slot 0 image (R437, R447). -/
def slotWriteDone (s : State) : State :=
  match s.mbx.phase with
  | .slotWrite n off len boot fl =>
    let c : Source := ⟨none, off, len⟩
    let s := srcRead c s
    let word (i : Nat) : BitVec 64 := BitVec.ofNat 64 (leNat (srcBytes s c (8 * i) (min 8 (len - 8 * i))))
    let ws := (upTo ((len + 7) / 8)).foldl (fun m i => mset (fun _ => 0) m i (word i)) []
    let x := getSlot s n
    let s := setBoot boot n (setSlot n { len := len, words := ws, wear := x.wear + 1 } s)
    let v := s.nv
    let s := match fl with
      | some (1, k) => { s with nv := { v with floor1 := max v.floor1 k } }
      | some (2, k) => { s with nv := { v with floor2 := max v.floor2 k } }
      | _ => s
    mbxDone 0 0 s
  | _ => s

/-- SLOT_ERASE_DONE (R447). -/
def slotEraseDone (s : State) : State :=
  match s.mbx.phase with
  | .slotErase n boot => mbxDone 0 0 (setBoot boot n (eraseSlot n s))
  | _ => s

/-- LIFECYCLE_TRANSITION_DONE: HBM and the named slots are wiped, WIPE_PENDING clears (R439). -/
def transitionDone (s : State) : State :=
  if s.mbx.phase == .transition then
    mbxDone 0 0 (match s.nv.wipe with | some t => wipeStore t s | none => s)
  else s

/-- Masters of each class (R451). -/
def classSize (c : Nat) : Nat := [64, 16, 512, 256, 1022].getD c 0

/-- One master is released, as its class says (R321, R346, R384). -/
def release (c i : Nat) (s : State) : State :=
  let s := setFrozen c i false s
  if c = 0 then hostUnfreeze i s
  else if c = 2 then modEddy i (fun x => if x.st == .frozen then startFront { x with st := .halted } else x) s
  else if c = 4 then
    let mine := s.pool.remHeld.filter (fun h => h.1 = i)
    let rest := s.pool.remHeld.filter (fun h => h.1 != i)
    let back := mine.map (fun h => (⟨none, 1, h.2⟩ : Delivered)) ++ s.net.inbox
    forEach (fun (h : Nat × Payload) s => remoteRx (msgType h.2 = 0x41) h.2 s) mine
      { s with pool := { s.pool with remHeld := rest }, net := { s.net with inbox := back } }
  else s

/-- UNFREEZE (R453). -/
def kcUnfreeze (s : State) : State :=
  let c := opN s 0 1
  let all := opN s 1 1 = 1
  let i := opN s 2 2
  if 4 < c || (!all && classSize c ≤ i) then mbxDone 0x20 0 s
  else
    let who := if all then (upTo (classSize c)).filter (isFrozen s c) else if isFrozen s c i then [i] else []
    if who.isEmpty then mbxDone 9 0 s else mbxDone 0 0 (forEach (release c) who s)

/-- ROOT_ROLE of this device has changed (R221, R223): its key is compared again with the candidate it keeps, and a change of its
best candidate is told by HELLO. -/
def roleChanged (s : State) : State :=
  match s.net.cand with
  | none => helloAll { s with net := { s.net with quiet := false } }
  | some c =>
    let s := if c.1 && rootRole s then bump Reg.fabRootConflict s else s
    if candBetter (ownCand s) c then helloAll { s with net := { s.net with cand := none, quiet := false } } else s

/-- SET_ROOT (R446, R221, R223). -/
def kcRoot (s : State) : State :=
  let r := opN s 0 1
  if 1 < r then mbxDone 0x20 0 s
  else
    let old := rootRole s
    let s := setRegFld Reg.fabCfg 9 1 r s
    mbxDone 0 0 (if old = (r = 1) then s else roleChanged s)

/-- A forwarding entry with a valid channel field of a reserved code (R233). -/
def entryBad (v : Word) : Bool := (upTo 4).any fun k => bitAt v (6 * k + 5) && 20 ≤ fld v (6 * k) 5

/-- ROUTE_SRC is 1 until PORST_N (R233). -/
def routeSrc (s : State) : State := setRegFld Reg.fabCfg 8 1 1 s

/-- WRITE_ROUTES with entries (R233). -/
def kcRoutes (s : State) : State :=
  let f := opN s 2 2
  let n := opN s 4 2
  let e (i : Nat) : Word := w32 (opN s (16 + 4 * i) 4)
  if n = 0 || 256 < n || 1024 < f + n || (upTo n).any (fun i => entryBad (e i) || (0x3FE ≤ f + i && e i != 0)) then
    secBlock 0x20 (fabCause 0x20 (bump Reg.fabRangeCount s))
  else
    let sh := (upTo n).foldl (fun m i => mset (fun _ => 0) m (f + i) (e i)) s.net.shadow
    mbxDone 0 0 (fabCause 0 (routeSrc { s with net := { s.net with shadow := sh } }))

/-- VL0 and VL1 flits buffered in the device. DEDUCED (log 97): flits held for want of a route wait for the very tables that
APPLY installs (R239), so they do not hold it up. -/
def flitsBuffered (s : State) : Bool :=
  s.chans.any (fun p => p.2.outq.any (fun o => o.f.vl < 2)) || s.net.held.any (fun h => h.f.vl < 2 && !h.noRoute)

/-- APPLY takes effect: the shadow goes into FAB_ROUTE and every copy, with the masks (R233). -/
def applyRoutes (s : State) : State :=
  let sh := s.net.shadow
  let up := BitVec.ofNat 20 (opN s 8 4)
  let ch := BitVec.ofNat 20 (opN s 12 4)
  let s := installTable (mget (fun _ => 0) sh) s
  mbxDone 0 0 (fabCause 0 (newTables (routeSrc { s with net := { s.net with upMask := up, children := ch } })))

/-- WRITE_ROUTES APPLY: at once if no flit is buffered, otherwise it waits. -/
def kcApply (s : State) : State :=
  if flitsBuffered s then { s with mbx := { s.mbx with phase := .apply } } else applyRoutes s

/-- ROUTES_APPLY_DRAINED: the buffers have drained, or 1 ms has passed with FAB_BUSY (R233). -/
def applyDrained (s : State) : State :=
  if s.mbx.phase != .apply then s
  else if flitsBuffered s then secBlock 4 (fabCause 4 s) else applyRoutes s

/-- KEY_LOAD (R448). -/
def kcKey (s : State) : State :=
  let t := opN s 0 1
  if t = 0 || 2 < t then mbxDone 0x20 0 s
  else
    match kwUnwrap (derive s.nv.kFuse labelWrap) ((List.range 40).map fun i => bufByte s (28 + i)) with
    | none => mbxDone 7 0 s
    | some k => { s with mbx := { s.mbx with phase := .key (t = 2) (keyOf k) } }

/-- KEY_STORED (R448). -/
def keyStored (s : State) : State :=
  match s.mbx.phase with
  | .key bbk k =>
    let n := s.nv
    mbxDone 0 0 { s with nv := if bbk then { n with kBbk := some k, bbkLost := false, floor2 := 0 } else { n with kFuse := some k } }
  | _ => s

/-! ### BIST_ENTER (R476, R480, R481) -/

/-- The latest TEST_ code; TEST_RANGE is counted (R485). -/
def testResult (code : Nat) (s : State) : State :=
  setReg Reg.testResult (w32 code) (if code = 0x20 then bump Reg.testRangeCount s else s)

/-- BIST_ENTER in SHUTTING_DOWN shows TEST_NOT_AVAILABLE (R486). -/
def testShut (s : State) : State := if s.dev.st == .shuttingDown && mbxCmd s = 8 then testResult 5 s else s

/-- BIST_ENTER ends with a TEST_ code: 0 is SEC_OK. -/
def bistDone (code : Nat) (s : State) : State :=
  let s := testResult code s
  if code = 0 then mbxDone 0 0 s else secBlock code s

/-- Background test takes its lease timer and starts (R476). -/
def bgOn (s : State) : State :=
  let rate := fld (getReg s Reg.testBgCfg) 8 8
  let d := fld (getReg s Reg.testBgCfg) 0 4
  if s.bg.on then bistDone 0 s
  else if rate = 0 then bistDone 0x20 s
  else if (claimOwner s 11 d).isSome then bistDone 0x21 s
  else
    let s := setReg (Reg.dtmrCfg d) (w32 (2 ^ 31 + 100 * rate)) (setReg (Reg.dtmrCount d) (w32 (100 * rate)) s)
    bistDone 0 { s with bg := { s.bg with on := true, timer := d } }

/-- Background test stops: no further lease begins and the timer is released (R476, R480). DESIGN CHOICE (log 191): a lease in
progress goes on to its LEASE_DONE, which restores the resource. -/
def bgOff (s : State) : State :=
  if !s.bg.on then bistDone 0 s
  else
    let d := s.bg.timer
    bistDone 0 (setReg (Reg.dtmrCfg d) 0 (setReg (Reg.dtmrCount d) 0 { s with bg := { s.bg with on := false, timer := 0 } }))

/-- BIST_ENTER (R480, R481). -/
def kcBist (s : State) : State :=
  let p := opN s 0 1
  let raw := opN s 1 1 = 1
  if raw then
    if p != 0 then bistDone 0x20 s
    else if (s.nv.lc == .manufacture || s.nv.lc == .service) && s.dev.st == .starting && !s.ldr.busy then
      bistDone 0 { s with rep := { s.rep with raw := true } }
    else bistDone 4 s
  else if p = 0 || 3 < p then bistDone 0x20 s
  else if p != 2 && !deviceUp s then bistDone 4 s
  else if !Config.testSigned p then bistDone 6 s
  else if p = 1 then bgOn s
  else if p = 2 then bgOff s
  else bistDone 0 { s with rep := { s.rep with sweep := true } }

/-- HBM_SWEEP_DONE: every word of pool space has been read, corrected and counted (R294, R480). -/
def sweepDone (s : State) : State :=
  if !s.rep.sweep then s
  else
    let bad := s.pool.hbm.filter fun p => 0xC0000000 / 8 ≤ p.1 && p.2.err != 0
    let s := forEach (fun (p : Nat × HWord) s => hbmWriteBack p.1 (hbmFetch p.1 1 s).2.2) bad s
    { s with rep := { s.rep with sweep := false } }

/-! ### The mailbox (R441–R444) -/

/-- ZEROISE completes once steps 1 and 2 of R450 are done: step 2 is the loader's, and is left out in SHUTTING_DOWN. -/
def kcZeroise (s : State) : State :=
  let f := opN s 0 1
  let mask := BitVec.ofNat 4 ((if f % 2 = 1 then 14 else 0) + (if f / 2 % 2 = 1 then 1 else 0))
  let s := zeroise true mask s
  if s.dev.inReset || s.dev.st == .shuttingDown then mbxDone 0 0 s else { s with mbx := { s.mbx with phase := .zeroise } }

/-- SHUTDOWN accepted in SHUTTING_DOWN: the first sets SHUT_CMD, a later one is no event; the pin sets SHUT_PIN (R38, R39). -/
def shutAgain (pin : Bool) (s : State) : State :=
  let s := if s.dev.shutCmd then s else devEvent 0x40 s
  if pin && !s.dev.pwrOff then devEvent 0x80 s else s

/-- SHUTDOWN (R37, R38); `pin` where PWR_OFF_REQ_N is asserted in the same device-manager cycle. -/
def kcShut (pin : Bool) (s : State) : State :=
  let s := if s.dev.st == .shuttingDown then shutAgain pin s
    else if pin then enterShutdown 7 0xC0 s else enterShutdown 8 0x40 s
  let dev := { s.dev with pwrOff := s.dev.pwrOff || pin, shutCmd := true }
  mbxDone 0 0 { s with dev := dev }

/-- Steps 6 to 10 (R442). -/
def kcRun (pin : Bool) (s : State) : State :=
  if kcFormatBad s then mbxDone 1 0 s
  else if kcState s != 0 then mbxDone (kcState s) 0 (testShut s)
  else match mbxCmd s with
    | 1 => kcLoad s
    | 2 => kcSlot s
    | 3 => (match lcOf (opN s 0 1) with | some t => transition t (w32 (opN s 4 4)) s | none => mbxDone 5 0 s)
    | 4 => kcUnfreeze s
    | 5 => kcRoot s
    | 6 => if opN s 0 1 = 1 then kcApply s else kcRoutes s
    | 7 => kcKey s
    | 8 => kcBist s
    | 9 => kcZeroise s
    | _ => kcShut pin s

/-- MBX_COUNTER_STORED: step 5 (COUNTER is above the stored counter by step 4), then steps 6 to 10. -/
def counterStored (pin : Bool) (s : State) : State :=
  if s.mbx.phase != .storing then s
  else
    let s := useCounter s
    kcRun pin { s with mbx := { s.mbx with phase := .idle } }

/-- The TAG of the command matches (R441). -/
def tagMatches (s : State) : Bool :=
  let n := 20 + opLenOf s
  (hmac (derive s.nv.kFuse labelCmd) ((List.range n).map (bufByte s))).take 16 = (List.range 16).map fun i => bufByte s (n + i)

/-- Steps 1 to 4; a command that passes them has its counter stored. -/
def mbxChecks (s : State) : State :=
  if 1040 < opLenOf s || bufN s 12 8 = 2 ^ 64 - 1 then mbxDone 0x20 0 s
  else if bufN s 4 8 != Config.serial.toNat then mbxDone 2 0 s
  else if !tagMatches s then
    mbxDone 3 0 (bump Reg.mbxTagFails { s with mbx := { s.mbx with tagRun := s.mbx.tagRun + 1 } })
  else
    let s := { s with mbx := { s.mbx with tagRun := 0 } }
    if bufN s 12 8 ≤ s.nv.counter then mbxDone 4 0 s
    else { s with mbx := { s.mbx with phase := .storing } }

/-- The mailbox has a command in progress: MBX_STAT BUSY. -/
def mbxBusy (s : State) : Bool := bitAt (getReg s Reg.mbxStat) 31

/-- A write of MBX_CTL GO: no effect while BUSY; after 8 wrong tags the command waits first (R441, R443). -/
def mbxGo (s : State) : State :=
  if s.dev.inReset || mbxBusy s then s
  else
    let s := orReg Reg.mbxStat 0x80000000 s
    if 8 ≤ s.mbx.tagRun then orReg Reg.mbxStat 0x40000000 { s with mbx := { s.mbx with phase := .lockout } }
    else mbxChecks s

/-- MBX_LOCKOUT_END (R443). -/
def lockoutEnd (s : State) : State :=
  if s.mbx.phase == .lockout then
    mbxChecks (andNotReg Reg.mbxStat 0x40000000 { s with mbx := { s.mbx with phase := .idle } })
  else s

/-- GO with a command of a kind in MBX_BUF. -/
def kcGo (k : KClass) (s : State) : State := if kcClass s = k then mbxGo s else s

/-- A read of the low half of a 64-bit value latches the high half (R455, R456). -/
def readHalves (hi : Nat) (v : Nat) (s : State) : State := setReg hi (w32 (v / 2 ^ 32)) { s with rdata := w32 (v % 2 ^ 32) }

/-- FRZ_POP (R453). -/
def frzPop (v : Word) (s : State) : State :=
  if bitAt v 0 then { s with frz := { s.frz with recs := s.frz.recs.drop 1 } } else s

/-! ### The commands -/

def execKcLoadImage (s : State) : Res := .next (kcGo .load s)
def execKcWriteSlotData (s : State) : Res := .next (kcGo .slotData s)
def execKcWriteSlotErase (s : State) : Res := .next (kcGo .slotErase s)
def execKcWriteSlotBoot (s : State) : Res := .next (kcGo .slotBoot s)
def execSlotWriteDone (s : State) : Res := .next (slotWriteDone s)
def execSlotEraseDone (s : State) : Res := .next (slotEraseDone s)
def execKcSetLifecycle (s : State) : Res := .next (kcGo .lifecycle s)
def execLifecycleTransitionDone (s : State) : Res := .next (transitionDone s)
def execKcUnfreeze (s : State) : Res := .next (kcGo .unfreeze s)
def execKcSetRoot (s : State) : Res := .next (kcGo .root s)
def execKcWriteRoutesEntries (s : State) : Res := .next (kcGo .routes s)
def execKcWriteRoutesApply (s : State) : Res := .next (kcGo .apply s)
def execRoutesApplyDrained (s : State) : Res := .next (applyDrained s)
def execKcKeyLoad (s : State) : Res := .next (kcGo .key s)
def execKeyStored (s : State) : Res := .next (keyStored s)
def execKcBgTestOn (s : State) : Res := .next (kcGo .bgOn s)
def execKcBgTestOff (s : State) : Res := .next (kcGo .bgOff s)
def execKcHbmSweep (s : State) : Res := .next (kcGo .sweep s)
def execHbmSweepDone (s : State) : Res := .next (sweepDone s)
def execKcRawModeEnter (s : State) : Res := .next (kcGo .rawMode s)
def execKcZeroise (s : State) : Res := .next (kcGo .zeroise s)
def execKcShutdown (s : State) : Res := .next (kcGo .shutdown s)
def execKcUnassigned (s : State) : Res := .next (kcGo .unassigned s)
def execMbxLockoutEnd (s : State) : Res := .next (lockoutEnd s)
def execMbxCounterStored (pin : Bool) (s : State) : Res := .next (counterStored pin s)
def execMbxCtrLoRead (s : State) : Res := .next (if s.dev.inReset then s else readHalves Reg.mbxCtrHi s.nv.counter s)
def execLcFloorLoRead (two : Bool) (s : State) : Res :=
  .next (if s.dev.inReset then s
    else if two then readHalves Reg.lcFloor2Hi s.nv.floor2 s else readHalves Reg.lcFloor1Hi s.nv.floor1 s)
def execTamperNAssert (s : State) : Res := .next (tamper 0 s)
def execVbatLoss (s : State) : Res := .next (vbatLoss s)
def execTamperTemperature (s : State) : Res := .next (tamper 2 s)
def execVccHubExcursion (low : Bool) (s : State) : Res := .next (hubExcursion low s)
/-- REFCLK_SYS is lost: a tamper event where it is watched (R449), and each ford port, whose PLL it feeds, handles a lost
signal (R30). -/
def refclkSysLoss (s : State) : State :=
  forEach (fun i s => startRetrain (16 + i) none s) (upTo 4) (if watched s then tamper 4 s else { s with dev := { s.dev with cond := setBit s.dev.cond 4 true } })
def execRefclkSysLoss (s : State) : Res := .next (refclkSysLoss s)
def execFrzPopWrite (v : Word) (s : State) : Res := .next (mgmt (frzPop v) s)

end Sys2Proof.Machine
end

