-- ==== Sys2Proof/Machine/Scrub.lean ====
section
/-! DEFINITION. Scrubbers, readback, background test, the repair query and raw test access (chapter Scrubbing,
Self-Test and Repair). A stored frame is its codeword and the bits in error; the code of R459 is linear, so what a
check finds follows from the bits in error alone. -/

namespace Sys2Proof.Machine

/-! ### The frame check code (R459, R462) -/

/-- Floor of the base-2 logarithm, for numbers below 2,048. -/
def log2N (n : Nat) : Nat := ((List.range 11).filter (fun k => 2 ^ k ≤ n)).length - 1

/-- Position of data bit `i` of a codeword: the i-th number, from 0, that is no power of two (R459). -/
def dataPos (i : Nat) : Nat :=
  let l := ((List.range 11).find? (fun l => i + 2 + l < 2 ^ (l + 1))).getD 0
  i + 2 + l

/-- The frame bit at position `p` of codeword `j`: check bit k at 2^k, C[12j + 11] at 0, data elsewhere. -/
def posBit (j p : Nat) : Nat :=
  if p = 0 then 4096 + 12 * j + 11
  else if 2 ^ log2N p = p then 4096 + 12 * j + log2N p
  else 4 * (p - 2 - log2N p) + j

/-- The codeword and position of frame bit `b`, which is no CRC bit. -/
def bitPos (b : Nat) : Nat × Nat :=
  if b < 4096 then (b % 4, dataPos (b / 4))
  else ((b - 4096) / 12, if (b - 4096) % 12 = 11 then 0 else 2 ^ ((b - 4096) % 12))

/-- Syndrome and overall parity of codeword `j` for the bits in error. -/
def syndrome (bs : List Nat) (j : Nat) : Nat × Bool :=
  let ps := (bs.filter (· < 4144)).filterMap fun b => if (bitPos b).1 = j then some (bitPos b).2 else none
  (ps.foldl Nat.xor 0, ps.length % 2 = 1)

/-- One bit of the CRC-16, polynomial 0x1021, most significant bit first. -/
def crc16Bit (c : Nat) (b : Bool) : Nat :=
  Nat.xor (2 * c % 65536) (if (32768 ≤ c) != b then 0x1021 else 0)

/-- The change that the data bits in error make to the CRC: the CRC of their pattern from initial value 0. -/
def crcChange (e : BitVec 4160) : Nat :=
  (List.range 4096).foldl (fun c k => crc16Bit c (bitAt e (8 * (k / 8) + (7 - k % 8)))) 0

/-- What the check of a frame finds (R462). -/
inductive FrameCheck where
  | clean
  /-- Corrected; the bits still in error after it. -/
  | corrected (left : BitVec 4160)
  | bad
  deriving DecidableEq, Repr

/-- The check of a stored frame with bits `e` in error (R462). -/
def frameCheck (e : BitVec 4160) : FrameCheck :=
  if e = 0 then .clean
  else
    let bs := bitList 4160 0 e.toNat
    let syn := (List.range 4).map fun j => (j, syndrome bs j)
    if syn.any (fun x => if x.2.2 then 1035 < x.2.1 else x.2.1 != 0) then .bad
    else
      let fix := syn.filter (fun x => x.2.2)
      let left := fix.foldl (fun e x => flipBit e (posBit x.1 x.2.1)) e
      if crcChange left != fld left 4144 16 then .bad
      else if fix.isEmpty then .clean else .corrected left

/-! ### Frames by scrubber position (R463) -/

/-- A frame that a scrubber reads. -/
inductive FramePos where
  | tile (t : Nat)
  | spare (p : Nat)
  | bmc (k : Nat)
  deriving DecidableEq, Repr

/-- The frame at position `p` of a section: the tile frames of physical columns 0 to 527, then the block-memory
configuration frames (R463). -/
def framePos (s : State) (sec p : Nat) : FramePos :=
  if 135168 ≤ p then .bmc (p - 135168)
  else match logCol s sec (p / 256) with
    | some c => .tile (tileAddr sec c (p % 256))
    | none => .spare p

/-- The bits in error of a frame. -/
def frameErr (s : State) (sec : Nat) (f : FramePos) : BitVec 4160 :=
  match f with
  | .tile t => (getTile s t).upset
  | .spare p => mget dBits (getScr s sec).spare p
  | .bmc k => mget dBits (getScr s sec).bmc k

/-- The position of a tile's frame. -/
def posOf (s : State) (t : Nat) : Nat := 256 * physCol s (tSec t) (tCol t) + tRow t

/-- The hold of a line ends once the eight frames that hold its taps have been corrected and at most one enable
remains (R93). -/
def endHolds (s : State) : State :=
  { s with fab := { s.fab with heldLines := s.fab.heldLines.filter (fun l =>
      2 ≤ (tapsSet s l).length || (tapTiles l).any (fun t => frameCheck (getTile s t).upset != .clean)) } }

/-- The bits of `m` of a tile's frame are rewritten: in a free-running tile each handshake cycle in progress is
undefined and counted (R466), and under GSR the storage elements take the new INIT at once (R58). -/
def changeTile (t : Nat) (m : BitVec 4160) (s : State) : State :=
  let x := getTile s t
  let hits := if fFree x.frame && m.setWidth 4096 != 0#4096 then (List.range 4).filter (fun c => bitAt x.frFull c) else []
  let q := hits.foldl (fun q c => setFld q (16 * c) 16 (Config.free 16 (s.free + c)).toNat) x.q
  let f := x.frame ^^^ m.setWidth 4096
  let s := setTile t { x with upset := x.upset ^^^ m, frame := f, q := if gsrOn s (tSec t) then initQ f else q } s
  let s := bumpBy (Reg.scrFrHit (tSec t)) hits.length s
  endHolds (if hits.isEmpty then s else refreshAcks { s with free := s.free + 4 })

/-- A rewrite of a frame: a tick-bound tile of a tick in progress takes it after its spacer-complete report, every
other frame at once (R466). -/
def rewriteFrame (sec : Nat) (f : FramePos) (m : BitVec 4160) (s : State) : State :=
  let x := getScr s sec
  match f with
  | .tile t =>
    let y := getTile s t
    if s.tick.inTick && !y.spacerDone && !fFree y.frame && !tileIdle y then
      setScr sec { x with rewrites := mset dBits x.rewrites t m } s
    else changeTile t m s
  | .spare p => setScr sec { x with spare := mset dBits x.spare p (mget dBits x.spare p ^^^ m) } s
  | .bmc k =>
    let s := setScr sec { x with bmc := mset dBits x.bmc k (mget dBits x.bmc k ^^^ m) } s
    forEach (fun j s =>
      let b := getBlock s (4096 * sec + 128 * k + j)
      setBlock (4096 * sec + 128 * k + j) { b with cfg := b.cfg ^^^ BitVec.ofNat 32 (fld m (32 * j) 32) } s)
      ((List.range 128).filter fun j => fld m (32 * j) 32 != 0) s

/-- The rewrite of a tile takes effect (R466). -/
def applyRewrite (t : Nat) (s : State) : State :=
  let x := getScr s (tSec t)
  let m := mget dBits x.rewrites t
  if m = 0 || (s.tick.inTick && !(getTile s t).spacerDone) then s
  else changeTile t m (setScr (tSec t) { x with rewrites := merase x.rewrites t } s)

/-! ### The shadow (R464) -/

/-- The HBM word of word `i` of the shadow copy at position `p` (R464). -/
def shadowWord (sec p i : Nat) : Nat := 0x400000 + Config.shadowAt (65 * (135200 * sec + p) + i) % 0x7C00000

/-- Count what the controller finds in the words of a shadow copy (R294). -/
def countShadow (sec p : Nat) (v : Nat → Ecc) (s : State) : State :=
  forEach (fun i s => match v i with
    | .ok => s
    | .ce => bump (Reg.hbmCe (hbmStack (shadowWord sec p i))) s
    | .ue => hbmUe (shadowWord sec p i) 0 s) (List.range 65) s

/-- Read the shadow copy at position `p`: whether it is readable, and the bits in error of the frame it gives. Its words are
read as any HBM word: counted, a correction written back (R294), three or more bits as R532 leaves them. -/
def readShadow (sec p : Nat) (s : State) : Bool × BitVec 4160 × State :=
  let x := getScr s sec
  let e := mget dShadow x.shadow p
  let mis := mget dBits x.shadowMis p
  if !s.rep.shadowOk || hbmFailed s then (false, 0, s)
  else if e = 0 then (true, mis, s)
  else
    let word (i : Nat) : BitVec 72 := BitVec.ofNat 72 (fld e (72 * i) 72)
    let n (i : Nat) : Nat := popc 72 (word i).toNat
    let v (i : Nat) : Ecc := eccVerdict (n i) (s.free + i)
    let ok := (List.range 65).all fun i => v i != .ue
    let data (i : Nat) : Nat :=
      if n i ≤ 1 then 0
      else Nat.xor (eccData (n i) (s.free + i) 0#64 ((word i).setWidth 64)).toNat (fld (word i) 0 64)
    let out := (List.range 65).foldl (fun o i => setFld o (64 * i) 64 (Nat.xor (data i) (fld mis (64 * i) 64))) (0#4160)
    let kept := (List.range 65).foldl (fun o i => if v i = .ce then setFld o (72 * i) 72 0 else o) e
    let left := (List.range 65).foldl (fun o i => if v i = .ce then setFld o (64 * i) 64 (fld out (64 * i) 64) else o) mis
    let s := setScr sec { x with shadow := mset dShadow x.shadow p kept, shadowMis := mset dBits x.shadowMis p left } s
    (ok, out, { countShadow sec p v s with free := s.free + 65 })

/-- Restore a frame from a shadow copy that gives the bits `left` in error. -/
def restoreFrame (sec : Nat) (f : FramePos) (left : BitVec 4160) (s : State) : State :=
  rewriteFrame sec f (frameErr s sec f ^^^ left) s

/-! ### Scrubbing (R463–R466) -/

/-- The scrubber is marked failed, by the watchdog or a KIND 8 mark (R469, R478). -/
def scrFailed (s : State) (sec : Nat) : Bool := (getScr s sec).failed || (allMarks s).any (fun m => m.kind = 8 && m.sec = sec)

/-- The scrubber runs: EN, and not suspended by a load nor marked failed (R463, R469). -/
def scrubbing (s : State) (sec : Nat) : Bool :=
  bitAt (getReg s (Reg.scrCfg sec)) 31 && !s.rep.susp && !scrFailed s sec && mgmtOpen s

/-- SCR_LOC and SCR_LOC_TICK: the first uncorrectable frame since the last read (R466, R485). -/
def scrLoc (sec p : Nat) (s : State) : State :=
  if bitAt (getReg s (Reg.scrLoc sec)) 31 then s
  else
    let v := if 135168 ≤ p then 2 ^ 30 + (p - 135168) * 2 ^ 8 else p / 256 * 2 ^ 8 + p % 256
    setReg (Reg.scrLocTick sec) (w32 (s.tick.nowP1 - 1)) (setReg (Reg.scrLoc sec) (w32 (2 ^ 31 + v)) s)

/-- Whether the image uses the frame. -/
def frameUsed (s : State) (sec : Nat) (f : FramePos) : Bool :=
  match f with
  | .tile t => !tileIdle (getTile s t)
  | .spare _ => false
  | .bmc k => (List.range 128).any fun j => bmUse (getBlock s (4096 * sec + 128 * k + j)).cfg

/-- A frame is lost: SCR_LOST, SCR_LOC, LOST; in use, it is marked until PORST_N (R465). -/
def frameLost (sec p : Nat) (f : FramePos) (s : State) : State :=
  let s := scrLoc sec p (bump (Reg.scrLost sec) s)
  let s := setScr sec { getScr s sec with lost := true } s
  if frameUsed s sec f then
    markTile (match f with | .tile t => t | .spare p => p | .bmc k => 2 ^ 20 + 32 * sec + k) s
  else s

/-- The scrubber checks one frame and deals with it as the table of R465 states. -/
def scrubOne (sec p : Nat) (s : State) : State :=
  let f := framePos s sec p
  match frameCheck (frameErr s sec f) with
  | .clean => s
  | .corrected left => bump (Reg.scrCe sec) (restoreFrame sec f left s)
  | .bad =>
    let s := bump (Reg.scrUe sec) s
    let (ok, left, s) := readShadow sec p s
    if ok then raiseVec 13 (scrLoc sec p (bump (Reg.scrShadowFix sec) (restoreFrame sec f left s)))
    else frameLost sec p f s

/-- The lease of a frame. -/
def frameLease (sec : Nat) (f : FramePos) : Option LeaseRes :=
  match f with
  | .tile t => some (.tile t)
  | .spare p => some (.spareTile sec (p / 256) (p % 256))
  | .bmc _ => none

/-- A lease of a tile frame is revoked: the frame is restored from the shadow (R476, R484). -/
def revokeFrame (sec p : Nat) (s : State) : State :=
  let f := framePos s sec p
  match frameLease sec f with
  | some r =>
    if leased s r then
      let s := revoke r s
      let (ok, left, s) := readShadow sec p s
      if ok then restoreFrame sec f left s else s
    else s
  | none => s

/-- SCRUB_FRAME: the next frame in turn; a leased frame is skipped; a cycle ends after the last (R463, R476). -/
def scrubFrame (sec : Nat) (s : State) : State :=
  let x := getScr s sec
  if !scrubbing s sec || !x.prio.isEmpty then s
  else
    let p := x.pos
    let done := p + 1 = 135200
    let s := setScr sec { x with pos := if done then 0 else p + 1 } s
    let s := if done then bump (Reg.scrCycles sec) s else s
    if (frameLease sec (framePos s sec p)).any (leased s) then s else scrubOne sec p s

/-- SCRUB_PRIORITY_REWRITE: the frames a checker asked for, before any scheduled frame (R93, R465, R484). -/
def scrubPriority (sec : Nat) (s : State) : State :=
  let x := getScr s sec
  if !scrubbing s sec || x.prio.isEmpty then s
  else
    let s := setScr sec { x with prio := [] } s
    endHolds (forEach (fun t s => scrubOne sec (posOf s t) (revokeFrame sec (posOf s t) s)) x.prio s)

/-! ### SCR_CFG and the watchdog (R463, R468, R469) -/

/-- A write of SCR_CFG: PERIOD must be 18 to 1,000; CFG_RESTORED clears (R463, R485). -/
def scrCfgWrite (sec : Nat) (v : Word) (s : State) : State :=
  if fld v 0 10 < 18 || 1000 < fld v 0 10 then setReg Reg.testResult 0x20 (bump (Reg.scrRangeCount sec) s)
  else
    setReg (Reg.scrCfg sec) (v &&& 0x800003FF#32) (setScr sec { getScr s sec with cfgErr := 0, cfgRestored := false } s)

/-- The peer checks the SCR_CFG of section `sec` every 1 ms (R468); three or more bits in error are as R532 leaves
them. -/
def peerCheck (sec : Nat) (s : State) : State :=
  let x := getScr s sec
  let n := popc 40 x.cfgErr.toNat
  let s' := setReg (Reg.scrCfg sec) (getReg s (Reg.scrCfg sec) ^^^ x.cfgErr.setWidth 32) s
  if !mgmtOpen s || n = 0 then s
  else if n = 1 then bump (Reg.scrPeerFix ((sec + 1) % 8)) (setScr sec { x with cfgErr := 0 } s')
  else if n = 2 then setScr sec { x with cfgErr := 0, cfgRestored := true } s'
  else match eccVerdict n s.free with
    | .ok => drawFree s
    | .ue => drawFree (setScr sec { x with cfgErr := 0, cfgRestored := true } s')
    | .ce =>
      let b := (Config.free 16 s.free).toNat % 40
      let s := bump (Reg.scrPeerFix ((sec + 1) % 8)) (setScr sec { x with cfgErr := flipBit x.cfgErr b } s)
      drawFree (if b < 32 then setReg (Reg.scrCfg sec) (flipBit (getReg s (Reg.scrCfg sec)) b) s else s)

/-- The watchdog resets a scrubber that broke a limit of R469; `recent` resets lie within the last second. After the
third it is marked failed. -/
def scrubWatchdog (sec recent : Nat) (s : State) : State :=
  let x := getScr s sec
  if !scrubbing s sec then s
  else
    let third := 2 ≤ recent && 2 ≤ x.resets
    let s := bump (Reg.scrWdog sec) (setScr sec { x with resets := x.resets + 1, failed := third } s)
    if third then setReg Reg.testResult 2 (markRun true ⟨8, sec, 0⟩ s) else s

/-! ### Background test (R476) -/

/-- The section of a resource, and whether it exists. -/
def leaseSec (r : LeaseRes) : Option Nat :=
  match r with
  | .tile t => if t < 2 ^ 20 then some (tSec t) else none
  | .spareTile sec p row => if p < 528 && row < 256 then some sec else none
  | .block sec m => if m < 4160 then some sec else none
  | .queue q => if q < 2048 then some (q / 256) else none
  | .spad e b => if e < 512 && b < 64 then some (e / 64) else none
  | .spare sec i => if i < 66 then some sec else none

/-- The mark a failure of the resource makes (R478). -/
def leaseMark (s : State) (r : LeaseRes) : Mark :=
  match r with
  | .tile t => ⟨1, tSec t, physCol s (tSec t) (tCol t)⟩
  | .spareTile sec p _ => ⟨1, sec, p⟩
  | .block sec m => ⟨2, sec, m⟩
  | .queue q => ⟨4, q / 256, q % 256⟩
  | .spad e _ => ⟨3, e / 64, (physEddy s e).getD (e % 64)⟩
  | .spare sec i => ⟨3, sec, i⟩

/-- The resource is idle as the table of R476 states (R343 and R344 for a scratchpad block). -/
def leaseIdle (s : State) (r : LeaseRes) : Bool :=
  match r with
  | .tile t => tileIdle (getTile s t)
  | .spareTile sec p _ => (logCol s sec p).isNone
  | .block sec m => (match logBlock s sec m with | some k => !bmUse (getBlock s (4096 * sec + k)).cfg | none => true)
  | .queue q => !qEn (getReg s (Reg.qcfg q))
  | .spad e b =>
    ((getEddy s e).st == .halted || (getEddy s e).st == .running) &&
      !bitAt (getReg s (if b < 32 then Reg.eddyPinLo e else Reg.eddyPinHi e)) (b % 32) &&
      (getEddy s e).vbase.toNat / 1024 % 64 != b && !(upTo 64).any (fun j => leased s (.spad e j))
  | .spare sec i => (logEddy s sec i).isNone

/-- LEASE_START: one lease at a time in a section, of an idle resource that is not marked (R476). -/
def leaseStart (sec : Nat) (r : LeaseRes) (s : State) : State :=
  if s.bg.on && deviceUp s && leaseSec r = some sec && !s.bg.leases.any (fun p => p.1 = sec) && leaseIdle s r &&
      !(allMarks s).contains (leaseMark s r) then
    { s with bg := { s.bg with leases := mput s.bg.leases sec r } }
  else s

/-- LEASE_DONE: the resource is restored; one that fails twice in a row is marked at run time and added to the field
repair map (R36, R476). -/
def leaseDone (sec : Nat) (pass : Bool) (s : State) : State :=
  match s.bg.leases.lookup sec with
  | none => s
  | some r =>
    let s := { s with bg := { s.bg with leases := merase s.bg.leases sec } }
    let s := match r with
      | .tile t =>
        let (ok, left, s) := readShadow sec (posOf s t) s
        if ok then restoreFrame sec (.tile t) left s else s
      | .spareTile _ p row =>
        let (ok, left, s) := readShadow sec (256 * p + row) s
        if ok then restoreFrame sec (.spare (256 * p + row)) left s else s
      | _ => s
    let s := bump Reg.testBgDone s
    let rest := s.bg.failedOnce.filter (· != r)
    if pass then setReg Reg.testResult 0 { s with bg := { s.bg with failedOnce := rest } }
    else if s.bg.failedOnce.contains r then
      let s := setReg Reg.testResult 2 (bump Reg.testBgFail { s with bg := { s.bg with failedOnce := rest } })
      markRun true (leaseMark s r) s
    else { s with bg := { s.bg with failedOnce := r :: rest } }

/-! ### Readback, the column query and raw mode (R467, R477, R481) -/

/-- Readback is allowed: MANUFACTURE, SERVICE, or an OPEN image in force (R467). -/
def rbAllowed (s : State) : Bool :=
  s.nv.lc == .manufacture || s.nv.lc == .service || s.ldr.image == some 0

/-- The data bits of a frame with the correction of R462 applied. -/
def frameShown (e : BitVec 4160) (f : Frame) : Frame :=
  match frameCheck e with
  | .corrected left => f ^^^ (e ^^^ left).setWidth 4096
  | _ => f

/-- The 4,096 stored bits of block-memory configuration frame `k`: the words of R401. -/
def bmcFrame (s : State) (sec k : Nat) : Frame :=
  (upTo 128).foldl (fun f j => setFld f (32 * j) 32 (getBlock s (4096 * sec + 128 * k + j)).cfg.toNat) 0#4096

/-- A readback read of byte `off` of the window (R467). -/
def readback (off : Nat) (s : State) : State :=
  let base := (getReg s Reg.scrRbSel).toNat
  let cls := base / 2 ^ 28
  let a := base % 2 ^ 28 + off / 512
  let sec := if cls = 1 then a / 32 % 8 else a / 131072 % 8
  if s.dev.inReset then s
  else if s.dev.st == .shuttingDown then { s with rdata := 0 }
  else if !rbAllowed s then bump (Reg.scrRbDenied sec) { s with rdata := 0 }
  else
    let word (f : Frame) : Word := w32 (fld f (32 * (off % 512 / 4)) 32)
    if cls = 0 && a < 2 ^ 20 then
      if (colOf s sec (tCol a)).isNone then drawFree { s with rdata := Config.free 32 s.free }
      else
        let s := revokeFrame sec (posOf s a) s
        let x := getTile s a
        { s with rdata := word (frameShown x.upset x.frame) }
    else if cls = 1 && a < 256 then
      { s with rdata := word (frameShown (mget dBits (getScr s sec).bmc (a % 32)) (bmcFrame s sec (a % 32))) }
    else { s with rdata := 0 }

/-- REP_XLAT_Q: the logical column of physical column `p`, or why it has none (R477, R485). -/
def xlat (sec : Nat) (v : Word) (s : State) : State :=
  let p := fld v 0 10
  let a :=
    if 527 < p then 0
    else if (failedCols s sec).contains p then 2 ^ 30
    else match logCol s sec p with | some c => 2 ^ 31 + c | none => 2 ^ 29
  setReg (Reg.repXlatA sec) (w32 a) (setReg (Reg.repXlatQ sec) (w32 p) s)

/-- TEST_RAW_CTL APPLY in raw mode: one pattern step; its signature words are free values (R481, R485). -/
def rawApply (_seg : Fin 16) (s : State) : State :=
  if !s.rep.raw then s
  else
    let s := setReg (Reg.testRawSig 1) (Config.free 32 (s.free + 1)) (setReg (Reg.testRawSig 0) (Config.free 32 s.free) s)
    { s with free := s.free + 2 }

/-! ### The commands -/

def execScrubFrame (sec : Fin 8) (s : State) : Res := .next (scrubFrame sec s)
def execScrubPriorityRewrite (sec : Fin 8) (s : State) : Res := .next (scrubPriority sec s)
def execFrameRewriteApply (tile : BitVec 20) (s : State) : Res := .next (applyRewrite tile.toNat s)
def execScrCfgPeerCheck (sec : Fin 8) (s : State) : Res := .next (peerCheck sec s)
def execScrubWatchdog (sec : Fin 8) (recent : Fin 3) (s : State) : Res := .next (scrubWatchdog sec recent s)
def execScrCfgWrite (sec : Fin 8) (v : Word) (s : State) : Res := .next (mgmt (viaPath sec (Reg.scrCfg sec) v (scrCfgWrite sec v)) s)
def execReadbackRead (off : BitVec 25) (s : State) : Res := .next (readback off.toNat s)
def execRepXlatQWrite (sec : Fin 8) (v : Word) (s : State) : Res := .next (mgmt (viaPath sec (Reg.repXlatQ sec) v (xlat sec v)) s)
def execTestRawApply (seg : Fin 16) (s : State) : Res := .next (mgmt (rawApply seg) s)
def execLeaseStart (sec : Fin 8) (r : LeaseRes) (s : State) : Res := .next (leaseStart sec r s)
def execLeaseDone (sec : Fin 8) (pass : Bool) (s : State) : Res := .next (leaseDone sec pass s)

end Sys2Proof.Machine
end

