-- ==== Sys2Proof/Machine/TraceCmds.lean ====
section
/-! DEFINITION. Trace commands, snapshots, export over FW, and the trace registers with rows of their own
(chapter Trace and Counters). -/

namespace Sys2Proof.Machine

/-! ### The ring and probes (R487, R488, R492, R500) -/

/-- The pool named by the register at `o`. -/
def poolAt (s : State) (o : Nat) : Nat := fld (getReg s o) 0 20

/-- Why pool `p` cannot be the ring: TRACE_MODE, TRACE_RANGE, or 0 (R492). -/
def ringRefusal (s : State) (p : Nat) : Nat :=
  let d := descOf s 8 p
  if dKind d != 1 || dVersioned d || p = poolAt s Reg.trcSnapPool then 3
  else if 0x200000000 < dDepth d then 0x20 else 0

/-- A write of TRC_RING_POOL (R492). -/
def ringPoolWrite (v : Word) (s : State) : State :=
  let p := fld v 0 20
  let s := descTouch 8 p s
  if s.trc.running then trcResult 1 s
  else if ringRefusal s p != 0 then trcResult (ringRefusal s p) s
  else setReg Reg.trcRingPool (w32 p) s

/-- A write of a probe: while trace is stopped, and unless the image gives the probe set to an owner other than host
software (R487, R488). -/
def probeWrite (sec k : Nat) (v : Word) (s : State) : State :=
  if s.trc.running then trcResult 1 s
  else if (claimOwner s 10 sec).any (· != 6) then trcResult 0x21 s
  else setReg (Reg.trcProbe sec k) (v &&& 0x83FEFF3F#32) s

/-! ### START, STOP, RESET_RING (R491, R499, R500) -/

/-- A section has a compressor. -/
def hasCompressor (s : State) (sec : Nat) : Bool := bitAt (getReg s (Reg.trcSecCfg sec)) 31

/-- START (R500): the first sample of every section is a KEY. -/
def traceStart (s : State) : State :=
  let s := descTouch 8 (poolAt s Reg.trcRingPool) s
  if s.trc.running then trcResult 1 s
  else if !(trcSecs s).all (hasCompressor s) || ringRefusal s (poolAt s Reg.trcRingPool) != 0 then trcResult 3 s
  else trcResult 0 { s with trc := { s.trc with running := true, stopping := false, held := [], ring := [], exp := [] } }

/-- STOP: no more samples are taken; the FIFOs drain into the ring (R499). -/
def traceStop (s : State) : State :=
  if !s.trc.running || s.trc.stopping then trcResult 1 s
  else trcResult 0 { s with trc := { s.trc with stopping := true, held := [] } }

/-- The FIFOs have drained: trace stops (R499). -/
def traceStopDone (s : State) : State :=
  if s.trc.running && s.trc.stopping && fifosEmpty s then
    let s := exportFlits true s.trc.words.length s
    { s with trc := { s.trc with running := false, stopping := false } }
  else s

/-- RESET_RING, only while stopped (R500). -/
def resetRing (s : State) : State :=
  if s.trc.running then trcResult 1 s
  else trcResult 0 (setReg Reg.trcRpLo 0 (setReg Reg.trcRpHi 0 { s with trc := { s.trc with wp := 0, recs := [] } }))

/-- A reserved code of TRC_CTL (R500). -/
def traceReserved (cmd : Nat) (s : State) : State := if 1 ≤ cmd && cmd ≤ 7 then s else trcResult 0x20 s

/-! ### Snapshots (R497, R498) -/

/-- Why the snapshot pool is unsuitable: TRACE_MODE, TRACE_RANGE, or 0. -/
def snapRefusal (s : State) : Nat :=
  let p := poolAt s Reg.trcSnapPool
  let d := descOf s 8 p
  if dKind d != 1 || dVersioned d || p = poolAt s Reg.trcRingPool then 3
  else if dDepth d < 1179656 then 0x20 else 0

/-- TRC_SNAP_TICK. -/
def snapTick (s : State) : Nat := (getReg s Reg.trcSnapTickLo).toNat + fld (getReg s Reg.trcSnapTickHi) 0 16 * 2 ^ 32

/-- SNAP_NOW: the present tick, with no tick uncommitted (R498, R499). -/
def snapNow (s : State) : State :=
  let s := descTouch 8 (poolAt s Reg.trcSnapPool) s
  let st := s.tick.st
  if s.trc.snap != .off then trcResult 2 s
  else if !(st == .idle || st == .halted || st == .fault) || uncommitted s || s.tick.nowP1 = 0 then trcResult 1 s
  else if snapRefusal s != 0 then trcResult (snapRefusal s) s
  else trcResult 0 { s with trc := { s.trc with snap := .busy (s.tick.nowP1 - 1), snapVals := some (ringSnap (s.tick.nowP1 - 1) s) } }

/-- SNAP_ARM: a later tick (R498, R499). -/
def snapArm (s : State) : State :=
  let s := descTouch 8 (poolAt s Reg.trcSnapPool) s
  if s.trc.snap != .off then trcResult 2 s
  else if snapTick s ≤ s.tick.nowP1 - 1 then trcResult 1 s
  else if snapRefusal s != 0 then trcResult (snapRefusal s) s
  else trcResult 0 { s with trc := { s.trc with snap := .armed (snapTick s) } }

/-- What the ring holds of the snapshot's tick (R498). -/
def snapOf (s : State) (t : Nat) : RingSnap :=
  match s.trc.snapVals with | some r => if r.tick = t then r else ringSnap t s | none => ringSnap t s

/-- The elements of a tile in a snapshot, which launched `q`: 0 for a free-running tile and for an element OFF (R497). -/
def snapTile (x : Tile) (v : BitVec 64) : BitVec 64 :=
  if fFree x.frame then 0
  else (upTo 64).foldl (fun a e => if fSrc x.frame e = 3 then a else setBit a e (bitAt v e)) 0

/-- Port `pb` of a block in a snapshot: its SYNC read register (R497). -/
def snapPort (r : RingSnap) (s : State) (m : Nat) (pb : Bool) : BitVec 72 :=
  let b := getBlock s m
  if bmUse b.cfg && bmHasPort b.cfg pb && bmReads b.cfg pb && !bmAsync b.cfg pb && !bmFree s m then
    (if pb then (snapRegs r m).2 else (snapRegs r m).1).dout
  else 0

/-- Word `i` of the snapshot of tick `t` (R497). -/
def snapWord (s : State) (t i : Nat) : BitVec 64 :=
  if i = 0 then BitVec.ofNat 64 (0x534E4150 + ownId s * 2 ^ 32)
  else if i = 1 then BitVec.ofNat 64 t
  else if i = 2 then BitVec.ofNat 64 s.tick.lastPos
  else if i < 8 then 0
  else if i < 1048584 then snapTile (getTile s (i - 8)) (snapQ (snapOf s t) (i - 8))
  else
    let j := i - 1048584
    let r := snapPort (snapOf s t) s (j / 4) (j / 2 % 2 = 1)
    if j % 2 = 0 then r.setWidth 64 else BitVec.ofNat 64 (fld r 64 8)

/-- SNAPSHOT_DONE: L has reached the tick; the snapshot is written (R497, R498). -/
def snapDone (s : State) : State :=
  let due : Option Nat := match s.trc.snap with
    | .off => none
    | .busy t => some t
    | .armed t => if s.tick.nowP1 != t + 1 || s.ra.com < t + 1 || s.tick.inTick then none else some t
  match due with
  | none => s
  | some t =>
    let d := descOf s 8 (poolAt s Reg.trcSnapPool)
    let s' := forEach (fun i => otherWrite d i 0xFF#8 (snapWord s t i)) (upTo 1179656) s
    trcEvent 1 (bump Reg.trcSnaps (trcResult 0 { s' with trc := { s'.trc with snap := .off, snapVals := none } }))

/-! ### Export over FW (R495, R496) -/

/-- EXPORT_ON: FW is held, enabled and trained (R428, R495). -/
def exportOn (s : State) : State :=
  let x := getChan s 19
  if (claimOwner s 3 19).isSome || s.dev.st == .starting then trcResult 0x21 s
  else if !(x.st == .disabled || x.st == .failed) then trcResult 1 s
  else
    let s := lnkEnable 19 (setChan 19 { x with owned := false } s)
    let s := setChan 19 { getChan s 19 with owned := true } s
    trcResult 0 { s with trc := { s.trc with exporting := true, exp := [], words := [] } }

/-- EXPORT_OFF: FW is released in DISABLED (R495). -/
def exportOff (s : State) : State :=
  if !s.trc.exporting then trcResult 1 s
  else
    let s := lnkCause 19 1 (stopChan 19 (handOver 19 s))
    let s := setChan 19 { getChan s 19 with owned := false } s
    trcResult 0 { s with trc := { s.trc with exporting := false, exp := [], words := [] } }

/-! ### The compressor (R488, R499) -/

/-- The compressor of a section runs. -/
def compressorRuns (s : State) (sec : Nat) : Bool :=
  let c := getReg s (Reg.trcSecCfg sec)
  bitAt c 31 && (getEddy s (64 * sec + fld c 0 6)).st == .running

/-- TRACE_RECORD_WRITE: a running compressor takes the next entry of its FIFO. -/
def recordWrite (sec : Nat) (ex : Bool) (s : State) : State :=
  if s.trc.running && compressorRuns s sec then traceRecord ex sec s else s

/-! ### The commands -/

def execTrcCmdStart (s : State) : Res := .next (mgmt traceStart s)
def execTrcCmdStop (s : State) : Res := .next (mgmt traceStop s)
def execTraceStopDone (s : State) : Res := .next (traceStopDone s)
def execTrcCmdSnapNow (s : State) : Res := .next (mgmt snapNow s)
def execTrcCmdSnapArm (s : State) : Res := .next (mgmt snapArm s)
def execSnapshotDone (s : State) : Res := .next (snapDone s)
def execTrcCmdExportOn (s : State) : Res := .next (mgmt exportOn s)
def execTrcCmdExportOff (s : State) : Res := .next (mgmt exportOff s)
def execTrcCmdResetRing (s : State) : Res := .next (mgmt resetRing s)
def execTrcCmdReserved (cmd : BitVec 4) (s : State) : Res := .next (mgmt (traceReserved cmd.toNat) s)
def execTraceRecordWrite (sec : Fin 8) (ex : Bool) (s : State) : Res := .next (recordWrite sec ex s)
def execTrcProbeWrite (sec : Fin 8) (k : Fin 1024) (v : Word) (s : State) : Res :=
  .next (mgmt (viaPath sec (Reg.trcProbe sec k) v (probeWrite sec k v)) s)
def execTrcRingPoolWrite (v : Word) (s : State) : Res := .next (mgmt (ringPoolWrite v) s)

end Sys2Proof.Machine
end

