-- ==== Sys2Proof/Machine/RegView.lean ====
section
/-! DEFINITION. What a read of each register returns (R5): the held value of its row, or what the state of the
block that owns it shows. -/

namespace Sys2Proof.Machine

/-- The device timer whose DTMR_COUNT lies at `o`. -/
def timerCount (o : Nat) : Option Nat := if 0x204 ≤ o && o < 0x304 && (o - 0x204) % 16 = 0 then some ((o - 0x204) / 16) else none

/-- What a read draws, where a sensor or a running clock decides it: TAMPER_STAT names sources whose condition has arisen (R456),
DTMR_COUNT of a running timer lies between 1 and PERIOD (R429), HBM_TEMP is a reading (R324), and EDDY_PC of a running eddy
moves on (R349). -/
def freeRead (s : State) (o : Nat) : Option Word :=
  if o = Reg.tamperStat then some ((Config.free 5 s.free &&& s.dev.cond).setWidth 32)
  else if 0x500118 ≤ o && o < 0x500200 && (o - 0x500118) % 64 = 0 && bitAt (getReg s (Reg.hbmStat ((o - 0x500118) / 64))) 0 then
    some ((Config.free 8 s.free).setWidth 32)
  else if 0x1000000 ≤ o && o < 0x2000000 && o % 0x8000 = 0x10 && (getEddy s ((o - 0x1000000) / 0x8000)).st == .running then
    some (Config.free 32 s.free)
  else match timerCount o with
    | some d =>
      let cfg := getReg s (Reg.dtmrCfg d)
      if bitAt cfg 31 && fld cfg 0 20 != 0 then some (w32 (1 + (Config.free 20 s.free).toNat % fld cfg 0 20)) else none
    | none => none

/-- Device manager, package and pins (R39, R526). -/
def viewDev (s : State) (o : Nat) : Option Word :=
  if o = Reg.devState then
    let st := match s.dev.st with | .starting => 0 | .operational => 1 | .degraded => 2 | .shuttingDown => 3
    let ld := s.ldr.phase == .passA || s.ldr.phase == .passB
    some (w32 (st + 256 * b2n s.dev.cfgDone + 512 * b2n s.dev.cfgErr + 1024 * b2n ld + 2048 * b2n s.dev.shdnDone))
  else if o = Reg.devStepping then some (w32 (0xB1 + 0x100 * b2n Config.gradeE))
  else if o = Reg.pkgStraps then some (s.dev.straps.setWidth 32)
  else none

/-- Loader (R431). -/
def viewLdr (s : State) (o : Nat) : Option Word :=
  if o = Reg.ldrStat then
    some (w32 (phaseCode s.ldr.phase + s.ldr.src % 8 * 2 ^ 8 + b2n s.ldr.locked * 2 ^ 11 + min 4 s.ldr.steps * 2 ^ 12))
  else if o = Reg.ldrBoot then some (w32 s.nv.boot)
  else if o = Reg.ldrClaimOwner then some (claimAnswer s)
  else if 0x20060 ≤ o && o < 0x20070 && o % 4 = 0 then some (w32 (getSlot s ((o - 0x20060) / 4)).len)
  else none

/-- A key check value: the first four bytes of the key's HMAC, 0 if it is absent (R434, R456). -/
def kcv (k : Option (BitVec 256)) : Word :=
  match k with
  | some k => w32 (leNat ((derive (some k) labelKcv).take 4))
  | none => 0

/-- LC_POLICY: the source of TAMPER_N is always armed in DEPLOYED and SERVICE (R450). -/
def policyView (s : State) : Word :=
  if s.nv.lc == .deployed || s.nv.lc == .service then s.nv.policy ||| 0x100#32 else s.nv.policy

/-- Mailbox, life cycle, keys and tamper (R455, R456). -/
def viewSec (s : State) (o : Nat) : Option Word :=
  if o = Reg.mbxCtrLo then some (w32 s.nv.counter)
  else if o = Reg.lcState then
    some (w32 (lcCode s.nv.lc + min 32 s.nv.trips * 2 ^ 8 + b2n s.nv.wipe.isSome * 2 ^ 16))
  else if o = Reg.lcPolicy then some (policyView s)
  else if o = Reg.lcKeyStat then
    some (w32 (b2n s.nv.kFuse.isSome + 2 * b2n s.nv.kBbk.isSome + 4 * b2n s.nv.bbkLost))
  else if o = Reg.lcKcvFuse then some (kcv s.nv.kFuse)
  else if o = Reg.lcKcvBbk then some (kcv s.nv.kBbk)
  else if o = Reg.lcFloor1Lo then some (w32 s.nv.floor1)
  else if o = Reg.lcFloor2Lo then some (w32 s.nv.floor2)
  else if o = Reg.tamperEvent then some (s.nv.tamper.setWidth 32)
  else if 0x30040 ≤ o && o < 0x30050 && o % 4 = 0 then some (w32 (getSlot s ((o - 0x30040) / 4)).wear)
  else none

/-- Word `w` of a freeze record (R452). -/
def frzWord (r : FreezeRec) (w : Nat) : Word :=
  let t := r.tick.getD 0
  w32 ([r.cls + r.idx * 2 ^ 4 + r.cause * 2 ^ 16 + r.code * 2 ^ 24, r.pool, r.addr, r.addr / 2 ^ 32, t,
        t / 2 ^ 32 % 65536 + b2n r.tick.isSome * 2 ^ 31, r.seq % 65536].getD w 0)

/-- Frozen masters and freeze records (R457). -/
def viewFrz (s : State) (o : Nat) : Option Word :=
  let f := s.frz
  if o % 4 != 0 then none
  else if o < 0x40008 then some (w32 (fld f.ctx (8 * (o - 0x40000)) 32))
  else if o = Reg.frzDma then some (f.dma.setWidth 32)
  else if 0x40010 ≤ o && o < 0x40050 then some (w32 (fld f.eddy (8 * (o - 0x40010)) 32))
  else if 0x40050 ≤ o && o < 0x40070 then some (w32 (fld f.port (8 * (o - 0x40050)) 32))
  else if 0x40070 ≤ o && o < 0x400F0 then some (w32 (fld f.remote (8 * (o - 0x40070)) 32))
  else if o = Reg.frzRecCount then some (w32 f.recs.length)
  else if 0x40120 ≤ o && o < 0x40140 then
    some (match f.recs with | r :: _ => frzWord r ((o - 0x40120) / 4) | [] => 0)
  else none

/-- Issue is delegated (R137). -/
def localActive (s : State) : Bool := s.tick.st == .run && bitAt (getReg s Reg.tickCfg) 0 && s.tick.localOk

/-- Tick engine and AVSBus (R153): PHASE is 1 also while the spacer wave of a tick given up still runs (R146). DESIGN CHOICE (log
209): CAD_POS shows the entry of the next tick, for a repeated or re-evaluated tick its kept one, whatever has been written. -/
def viewTick (s : State) (o : Nat) : Option Word :=
  let k := s.tick
  if o = Reg.tickState then
    let st := match k.st with | .idle => 0 | .run => 1 | .paced => 2 | .halted => 3 | .fault => 4
    some (w32 (st + 8 * b2n (0 < k.hiP1) + 16 * b2n k.stepping + 32 * b2n (localActive s) + 64 * b2n k.inTick +
      128 * b2n (if k.inTick then k.spacer else !fabricAtSpacer s) + 256 * b2n k.pend.isSome))
  else if o = Reg.tickNowLo then some (w32 (k.nowP1 - 1))
  else if o = Reg.tickCfg then some (getReg s o ||| w32 (2 * b2n k.localOk))
  else if o = Reg.cadPos then some (w32 (issueEntry s).1)
  else if o = Reg.tickPending then some (w32 k.due)
  else if o = Reg.avsStat then
    some (w32 (k.avs.railFail.toNat + b2n k.avs.capUnmet * 2 ^ 8 + b2n k.avs.busy * 2 ^ 9 +
      (match k.avs.lim with | some l => l * 2 ^ 16 + 2 ^ 19 | none => 0)))
  else none

/-- Section registers, at offset `r` of section `sec` (R76, R100, R127, R349), and GSR_STAT. DESIGN CHOICE (log 201): while RESULT is
0b11, CAUSE, RT_CENSUS_LOC and RT_CENSUS_COUNT still show the census before. -/
def viewSection (s : State) (sec r : Nat) : Option Word :=
  if r = 0x04 then
    some (w32 (b2n (bitAt s.fab.uv sec) + 2 * b2n (bitAt s.fab.ov sec) + 4 * b2n (bitAt s.fab.retLost sec)))
  else if r = 0x1C then some (w32 (b2n (gsrOn s sec)))
  else if r = 0x20 then
    some (if s.fab.censusRunning then getReg s (Reg.rtCensus sec) ||| 3#32 else getReg s (Reg.rtCensus sec))
  else if r = 0x34 then
    let n := (s.fab.heldLines.filter (fun l => l.sec = sec)).length
    some (w32 (b2n (0 < n) + min 255 n * 2 ^ 8))
  else if r = 0x5C then
    some (w32 (spareBlocksUsed s sec + min 255 (unrepairedBlocks s sec).length * 2 ^ 16))
  else if r = 0x90 then
    some (w32 (500 + 125 * fld s.ldr.qclk (8 * sec) 8 + fld s.ldr.qspread (8 * sec) 2 * 2 ^ 12))
  else none

/-- Run-ahead (R190). -/
def viewRa (s : State) (o : Nat) : Option Word :=
  let a := s.ra
  if o = Reg.raStat then
    some (w32 (raDepth s + b2n (0 < a.com) * 2 ^ 8 + b2n (a.alone && s.ldr.image.isSome) * 2 ^ 10 + b2n (isRoot s) * 2 ^ 11 +
      b2n a.depthMismatch * 2 ^ 12 + b2n a.rolling * 2 ^ 13 + b2n a.lwmHeld * 2 ^ 14 +
      (s.tick.nowP1 - a.com) % 32 * 2 ^ 16 + a.wresult % 8 * 2 ^ 24))
  else if o = Reg.raLwmLo then some (w32 (lwm48 s))
  else if o = Reg.raULo then some (w32 (unsettled s))
  else none

/-- LNK_STAT of channel `c` (R218). Lanes carry flits, and FEC is in use, while the channel is UP: FEC_ACTIVE reads 0 at
reset, where LNK_CFG FEC is 1 (DEDUCED). -/
def viewLnk (s : State) (c r : Nat) : Option Word :=
  if r = 8 then
    let x := getChan s c
    let up := x.st == .up
    some (w32 (stateCode x.st + (if up then x.lanesUp.toNat else 0) * 2 ^ 4 + b2n (up && lnkFec s c) * 2 ^ 8 + b2n x.reversed * 2 ^ 9 +
      x.polInv.toNat * 2 ^ 10 + x.wresult % 8 * 2 ^ 16))
  else none

/-- Word at offset `r` of the entry of device `i` in FAB_TOPO (R243). -/
def topoWord (s : State) (i r : Nat) : Word :=
  match s.net.topo.find? (fun n => n.id = i) with
  | none => 0
  | some n =>
    if r = 0 then w32 n.serial
    else if r = 4 then w32 (n.serial / 2 ^ 32)
    else if r = 8 then w32 (2 ^ 31 + n.level * 2 ^ 16 + n.parent)
    else if r < 0x10 || r % 8 != 0 then 0
    else match (nodeLinks s n).find? (fun l => l.chan = (r - 0x10) / 8) with
      | some l => w32 (2 ^ 31 + l.nbChan * 2 ^ 16 + (idOf s.net.topo l.serial).getD 0)
      | none => 0

/-- Device fabric (R243). The best candidate shows once the fuses with the serial number have been read; before that
IS_ROOT and FAB_ROOT hold their reset value 0 (DEDUCED, log 33). -/
def viewFab (s : State) (o : Nat) : Option Word :=
  let n := s.net
  let known := s.ldr.pow != .fuses
  let root := if known then (bestCand s).2 else 0
  if o = Reg.fabId then some (w32 n.id)
  else if o = Reg.fabSerialLo then some (Config.serial.setWidth 32)
  else if o = Reg.fabSerialHi then some (w32 (Config.serial.toNat / 2 ^ 32))
  else if o = Reg.fabStat then
    let st := match n.dstate with
      | .unassigned => 0 | .electing => 1 | .enumerating => 2 | .pending => 3 | .ready => 4 | .failed => 5
    let fencing := s.chans.any (fun c => match c.2.ev with | some e => !e.dests.isEmpty | none => false)
    some (w32 (st + 16 * b2n (known && n.cand.isNone) + 32 * b2n n.noRoute + 64 * b2n fencing + 128 * b2n n.peerHalt))
  else if o = Reg.fabEpoch then some (w32 n.commitEpoch)
  else if o = Reg.fabRootLo then some (w32 root)
  else if o = Reg.fabRootHi then some (w32 (root / 2 ^ 32))
  else if o = Reg.fabParent then
    some (w32 ((match n.parent with | some c => c + 2 ^ 7 | none => 0) + n.level % 256 * 2 ^ 16))
  else if o = Reg.fabChildren then some (n.children.setWidth 32)
  else if o = Reg.fabUpMask then some (n.upMask.setWidth 32)
  else if 0x320000 ≤ o && o % 4 = 0 && o < 0x360000 then some (topoWord s ((o - 0x320000) / 256) (o % 256))
  else none

/-- The code of a side's state (R274, R324). -/
def sideCode (x : SideState) : Nat := match x with | .disconnected => 0 | .connecting => 1 | .connected => 2

/-- Queue `q`, at offset `r` (R274). -/
def viewQ (s : State) (q r : Nat) : Option Word :=
  let x := getQ s q
  let w := qCfg s q
  if r = 0x08 then
    some (w32 (sideCode x.rd.st + sideCode x.wr.st * 4 + b2n (qEmpty w x) * 2 ^ 7 + b2n (qFull w x) * 2 ^ 8 +
      b2n x.openSpill * 2 ^ 9 + b2n x.flushing * 2 ^ 10 + b2n x.discarding * 2 ^ 11 + b2n x.inItem * 2 ^ 12 +
      b2n x.itemOpen * 2 ^ 13 + qDr w x * 2 ^ 16))
  else if r = 0x14 then some (w32 x.wp)
  else if r = 0x18 then some (w32 x.rp)
  else if r = 0x1C then some (w32 x.pwp)
  else if r = 0x20 then some (w32 (x.wr.epoch.toNat + x.rd.epoch.toNat * 2 ^ 8))
  else none

/-- PP_STAT of port `p` (R324): its state is that of the side less far on. -/
def viewPort (s : State) (p r : Nat) : Option Word :=
  if r = 8 then
    let x := getPort s p
    some (w32 (x.wb.length + b2n x.resetting * 2 ^ 14 + b2n (isFrozen s 3 p) * 2 ^ 15 +
      min (sideCode x.wr.st) (sideCode x.rd.st) * 2 ^ 16))
  else none

/-- Scrubber and repair registers of a section, at offset `r` (R485). -/
def viewScr (s : State) (sec r : Nat) : Option Word :=
  let x := getScr s sec
  let bad := failedCols s sec
  if r = 0x04 then
    some (w32 (b2n (scrubbing s sec) + 2 * b2n (!x.prio.isEmpty) + 4 * b2n (s.rep.susp && s.ldr.pow == .over) + 8 * b2n (scrFailed s sec) +
      16 * b2n x.lost + 32 * b2n x.cfgRestored))
  else if 0x40 ≤ r && r < 0x80 && r % 4 = 0 then
    let k := (r - 0x40) / 4
    some (w32 ((match bad[k]? with | some c => 2 ^ 31 + c | none => 0) + b2n (k = 15 && 16 < bad.length) * 2 ^ 30))
  else if r = 0x80 then
    some (w32 (bad.length + spareBlocksUsed s sec * 2 ^ 16 + spareEddiesUsed s sec * 2 ^ 24))
  else none

/-- Test registers (R485); the raw registers act in raw mode only (R481). -/
def viewTest (s : State) (o : Nat) : Option Word :=
  if o = Reg.testHealth then
    some (w32 (s.rep.outcome % 4 + 4 * b2n s.rep.abbrevRun + s.rep.segDone.toNat * 2 ^ 16))
  else if o = Reg.testSummary then
    some (w32 (min 255 (allMarks s).length + min 255 (unrepaired s) * 2 ^ 8))
  else if o = Reg.testBgStat then some (w32 (b2n s.bg.on + min 255 s.bg.leases.length * 2 ^ 8))
  else if 0x601040 ≤ o && o < 0x601080 && o % 4 = 0 then
    some (match s.rep.log[(o - 0x601040) / 4]? with
      | some m => w32 (m.kind * 2 ^ 24 + m.sec * 2 ^ 16 + m.idx % 65536)
      | none => 0)
  else if 0x602100 ≤ o && o < 0x602208 && !s.rep.raw then some 0
  else none

/-- Trace (R500). -/
def viewTrc (s : State) (o : Nat) : Option Word :=
  let t := s.trc
  if o = Reg.trcStat then
    let a := match t.snap with | .armed _ => 2 | .busy _ => 4 | .off => 0
    some (w32 (b2n t.running + a + 8 * b2n t.exporting + t.result % 256 * 2 ^ 8))
  else if o = Reg.trcWpLo then some (w32 t.wp)
  else if o = Reg.trcOldestLo then some (w32 (trcOldest s))
  else none

/-- Host contexts, DMA engines and the MSI-X pending bit array (R382, R389). -/
def viewHost (s : State) (o : Nat) : Option Word :=
  if o < 0x840000 then
    let c := (o - 0x800000) / 0x1000
    if o % 0x1000 = 0xC then
      let held := (s.host.held.filter (fun h => h.1 = c && !h.2.isRead)).length
      some (w32 (b2n (isFrozen s 0 c) + 2 * b2n (claimOwner s 6 c).isSome + held * 2 ^ 8))
    else none
  else if 0x841000 ≤ o && o < 0x842000 then
    let e := (o - 0x841000) / 0x100
    if o % 0x100 = 0x14 then
      some (getReg s o ||| w32 (b2n (!dmaIdle s e) + 2 * b2n (isFrozen s 1 e)))
    else none
  else if 0x890000 ≤ o && o < 0x890100 && o % 4 = 0 then some (w32 (fld s.msix.pend (8 * (o - 0x890000)) 32))
  else none

/-- EDDY_STAT STATE (R347): every eddy is UNAVAILABLE while the device is SHUTTING_DOWN. -/
def eddyCode (s : State) (x : Eddy) : Nat :=
  if s.dev.st == .shuttingDown then 5
  else match x.st with | .off => 0 | .halted => 1 | .running => 2 | .frozen => 3 | .wiping => 4 | .failed => 6

/-- The window of eddy `e`, at offset `r` (R349). -/
def viewEddy (s : State) (e r : Nat) : Option Word :=
  let x := getEddy s e
  if r = 0x00 then some (w32 (e + (physEddy s e).getD 0 * 2 ^ 16 + e / 64 * 2 ^ 24))
  else if r = 0x08 then
    let lent := (upTo 64).any (fun b => leased s (.spad e b))
    some (w32 (eddyCode s x + 16 * b2n lent + 32 * b2n x.secure + x.kind % 4 * 2 ^ 6 + x.result % 256 * 2 ^ 8))
  else if r = 0x10 then some x.pc
  else if r = 0x20 then some (w32 (fld x.irqPend 4 8))
  else if r = 0x24 then some (w32 (x.fwId + b2n (claimOwner s 5 e).isSome * 2 ^ 31))
  else none

/-- What the owning block shows at BAR0 offset `o`, where that is not a held register. -/
def regView (s : State) (o : Nat) : Option Word :=
  if o < 0x10000 then viewDev s o
  else if o < 0x20000 then viewSec s o
  else if o < 0x30000 then viewLdr s o
  else if o < 0x40000 then viewSec s o
  else if o < 0x80000 then viewFrz s o
  else if o < 0x90000 then viewTick s o
  else if o < 0xB0000 then none
  else if o < 0xB0800 then viewSection s ((o - 0xB0000) / 256) (o % 256)
  else if o = Reg.gsrStat then some (w32 (s.fab.gsrResult % 8 + 8 * b2n s.fab.gsrBusy))
  else if o < 0xC0000 then none
  else if o < 0x100000 then viewRa s o
  else if o < 0x240000 then viewLnk s ((o - 0x100000) / 65536) (o % 65536)
  else if o < 0x400000 then viewFab s o
  else if o < 0x480000 then viewQ s ((o - 0x400000) / 256) (o % 256)
  else if 0x500100 ≤ o && o < 0x500200 && o % 64 = 0 then
    some (getReg s o ||| w32 (lanesRepaired s ((o - 0x500100) / 64) * 2 ^ 8))
  else if o < 0x510000 then none
  else if o < 0x520000 then viewPort s ((o - 0x510000) / 256) (o % 256)
  else if o < 0x600000 then none
  else if o < 0x600800 then viewScr s ((o - 0x600000) / 256) (o % 256)
  else if o < 0x700000 then viewTest s o
  else if o < 0x800000 then viewTrc s o
  else if o < 0x1000000 then viewHost s o
  else if o < 0x2000000 then viewEddy s ((o - 0x1000000) / 0x8000) (o % 0x8000)
  else none

/-- The held value that a read shows: a WO register and a reserved offset read 0 (R5, R6). -/
def heldView (s : State) (o : Nat) : Word :=
  match regRow o with
  | some r => if r.acc == .wo then 0 else getReg s o
  | none => 0

/-- What a read of the register at BAR0 offset `o` returns (R5, R8). -/
def readReg (s : State) (o : Nat) : Word :=
  (freeRead s o).getD ((regView s o).getD (heldView s o))

end Sys2Proof.Machine
end

