-- ==== Sys2Proof/Machine/RegWrite.lean ====
section
/-! DEFINITION. Reads and writes of registers: by access type (R5), or by the action that the register's table
gives; the register path of a section (R278, R279); the regions of the host masters (R380). -/

namespace Sys2Proof.Machine

/-! ### Reads -/

/-- The read latches the high half of a 64-bit value in its HI register (R153, R190, R455, R456, R500). -/
def latchHi (o : Nat) (s : State) : State :=
  if o = Reg.tickNowLo then setReg Reg.tickNowHi (w32 ((s.tick.nowP1 - 1) / 2 ^ 32)) s
  else if o = Reg.raLwmLo then setReg Reg.raLwmHi (w32 (lwm48 s / 2 ^ 32)) s
  else if o = Reg.raULo then setReg Reg.raUHi (w32 (unsettled s / 2 ^ 32 % 65536)) s
  else if o = Reg.mbxCtrLo then setReg Reg.mbxCtrHi (w32 (s.nv.counter / 2 ^ 32)) s
  else if o = Reg.lcFloor1Lo then setReg Reg.lcFloor1Hi (w32 (s.nv.floor1 / 2 ^ 32)) s
  else if o = Reg.lcFloor2Lo then setReg Reg.lcFloor2Hi (w32 (s.nv.floor2 / 2 ^ 32)) s
  else if o = Reg.trcWpLo then setReg Reg.trcWpHi (w32 (s.trc.wp / 2 ^ 32)) s
  else if o = Reg.trcOldestLo then setReg Reg.trcOldestHi (w32 (trcOldest s / 2 ^ 32)) s
  else s

/-- Whether the register at `o` clears when it is read (R5). -/
def clearsOnRead (o : Nat) : Bool :=
  match regRow o with | some r => r.acc == .rc | none => false

/-- The stack whose HBM_UE_LOC lies at `o` (R324). -/
def ueLocStack (o : Nat) : Option Nat :=
  if 0x50010C ≤ o && o < 0x500200 && (o - 0x50010C) % 64 = 0 then some ((o - 0x50010C) / 64) else none

/-- The context whose CTX_EVENT lies at `o` (R382). -/
def eventCtx (o : Nat) : Option Nat := if 0x800000 ≤ o && o < 0x840000 && o % 0x1000 = 0x14 then some ((o - 0x800000) / 0x1000) else none

/-- A read of CTX_EVENT finds the bits that the host transactor, which claims the context, has set meanwhile; one that is enabled
raises the context's vector (R382, R392). DESIGN CHOICE (log 114): which they are is a free value of the read. -/
def transactorSets (o : Nat) (s : State) : State :=
  match eventCtx o with
  | some c =>
    if (claimOwner s 6 c).isNone then s
    else
      let new := (Config.free 8 s.free).setWidth 32 &&& ~~~getReg s o
      let s := orReg o new (drawFree s)
      if new &&& getReg s (Reg.ctxEventEn c) = 0 then s else raiseVec (64 + c) s
  | none => s

/-- A read in the management window (R5, R15). -/
def mgmtRead (o : Nat) (s : State) : State :=
  match ueLocStack o with
  | some k => ueLocRead k s
  | none =>
    let s := transactorSets o s
    let v := readReg s o
    let s := if (freeRead s o).isSome then drawFree s else s
    let s := latchHi o { s with rdata := v }
    if clearsOnRead o then setReg o 0 s else s

/-- Blocks read in SHUTTING_DOWN: identity, mailbox, loader, life cycle (R385, R431). -/
def shutReadable (o : Nat) : Bool := o < 0x40000

/-! ### Regions of the host masters (R380) -/

/-- A region of the host masters, with the context its traffic belongs to. -/
def hostRegion (o : Nat) : Option Nat :=
  if 0x400000 ≤ o && o < 0x480000 && 0x80 ≤ o % 0x100 && o % 0x100 < 0x98 then some 0
  else if 0x1000000 ≤ o && o < 0x2000000 && 0x4000 ≤ o % 0x8000 then some 0
  else if 0x800000 ≤ o && o < 0x840000 && o % 0x1000 = 0x10 then some ((o - 0x800000) / 0x1000)
  else none

/-- The access that a read of a host-master region makes. -/
def hostReadAcc (o : Nat) : HostAcc :=
  if 0x1000000 ≤ o then .aperture ((o - 0x1000000) / 0x8000) false (o % 0x4000 / 4) 0
  else if o < 0x480000 && o % 0x100 = 0x8C then .qPop ((o - 0x400000) / 0x100)
  else .regRead o

/-- The access that a write of a host-master region makes; `none` where a write has no effect. -/
def hostWriteAcc (o : Nat) (v : Word) : Option HostAcc :=
  let q := (o - 0x400000) / 0x100
  if 0x1000000 ≤ o then some (.aperture ((o - 0x1000000) / 0x8000) true (o % 0x4000 / 4) v)
  else if 0x800000 ≤ o then some (.doorbell v)
  else if o % 0x100 = 0x80 || o % 0x100 = 0x84 then some (.regWrite o v)
  else if o % 0x100 = 0x88 then some (.qPush q v)
  else none

/-- A read of BAR0 (R5, R8, R380, R385): configuration readback lies above 32 MiB (R467). -/
def hostRead (o : Nat) (s : State) : State :=
  if s.dev.inReset then s
  else if 0x2000000 ≤ o then readback (o - 0x2000000) s
  else match hostRegion o with
    | some c => hostAccess c (hostReadAcc o) s
    | none =>
      if s.dev.st == .shuttingDown && !shutReadable o then { s with rdata := 0 } else mgmtRead o s

/-! ### Writes -/

/-- A write by access type (R5, R6, R7). -/
def plainWrite (o : Nat) (v : Word) (s : State) : State :=
  match regRow o with
  | none => s
  | some r =>
    let m := w32 r.mask
    match r.acc with
    | .rw => setReg o ((getReg s o &&& ~~~m) ||| (v &&& m)) s
    | .w1c => andNotReg o (v &&& m) s
    | .w1s => orReg o (v &&& m) s
    | .ro | .wo | .rc | .key => s

/-- A write of an enable register: an event that is set and becomes enabled raises its vector (R39, R274, R382, R500). -/
def enableWrite (ev en vec : Nat) (v : Word) (s : State) : State :=
  let t := plainWrite en v s
  if getReg t ev &&& getReg t en &&& ~~~getReg s en = 0 then t else raiseVec vec t

/-- A write of MSIX_CTL: a vector that waits is sent when it is unmasked (R392). -/
def msixCtlWrite (n : Nat) (v : Word) (s : State) : State :=
  let s := plainWrite (Reg.msixCtl n) v s
  if bitAt s.msix.pend n && !bitAt v 0 && s.msix.enable && !s.msix.funcMask then
    { s with msix := { s.msix with pend := setBit s.msix.pend n false, sent := s.msix.sent ++ [n] } }
  else s

/-- Identity block, device timers, package (R39, R429, R526). -/
def writeDev (o : Nat) (v : Word) (s : State) : State :=
  if o = Reg.devEventEn then enableWrite Reg.devEvent Reg.devEventEn 0 v s
  else if 0x200 ≤ o && o < 0x300 && o % 16 = 0 then dtmrWrite ((o - 0x200) / 16) v s
  else plainWrite o v s

/-- Mailbox: MBX_CTL and MBX_BUF do nothing while BUSY (R441). -/
def writeMbx (o : Nat) (v : Word) (s : State) : State :=
  if mbxBusy s then s
  else if o = Reg.mbxCtl then if bitAt v 0 then mbxGo s else s
  else plainWrite o v s

/-- Life cycle, keys, tamper: TAMPER_EVENT is kept in the island's own record (R456). -/
def writeLc (o : Nat) (v : Word) (s : State) : State :=
  if o = Reg.tamperEvent then { s with nv := { s.nv with tamper := s.nv.tamper &&& ~~~(v.setWidth 5) } } else s

/-- TICK_CTL (R153). -/
def tickCtl (v : Word) (s : State) : State :=
  match fld v 0 4 with
  | 0 => s
  | 1 => tickRun s
  | 2 => tickPaced s
  | 3 => tickStop s
  | 4 => tickStep (fld v 16 16) s
  | 5 => tickClear s
  | n => cmdStat n 7 s

/-- Tick engine and AVSBus (R153). -/
def writeTick (o : Nat) (v : Word) (s : State) : State :=
  if o = Reg.tickCtl then tickCtl v s
  else if o = Reg.tickStopLo then wrStat 1 (setReg o v s)
  else if o = Reg.tickStopHi then tickStopHi v s
  else if o = Reg.tickCfg then tickCfgWrite v s
  else if o = Reg.tickTimeout then timeoutWrite v 0 s
  else if o = Reg.tickPacePeriod then tickPeriodWrite v s
  else if o = Reg.tickOutCfg then
    let s := wrStat 1 (plainWrite o v s)
    if bitAt v 7 then s else { s with tick := { s.tick with tickOut := false } }
  else if o = Reg.cadLen then cadLenWrite v s
  else if o = Reg.cadPos then cadPosWrite v s
  else if o = Reg.avsCfg then avsCfgWrite v s
  else if o = Reg.avsCap then avsCapWrite v s
  else if 0x80120 ≤ o && o < 0x80140 && o % 4 = 0 then avsTargetWrite ((o - 0x80120) / 4) v s
  else if 0x90000 ≤ o && o < 0x98000 && o % 4 = 0 then cadMaskWrite ((o - 0x90000) / 8) (o % 8 = 4) v s
  else if o = Reg.gsrCtl then gsrPulse v s
  else plainWrite o v s

/-- Run-ahead (R190): a wave period of 0 is refused. -/
def writeRa (o : Nat) (v : Word) (s : State) : State :=
  if o = Reg.raCfg then raCfgWrite v s
  else if 0xC1000 ≤ o && o < 0xC5000 && o % 4 = 0 then raPredWrite ((o - 0xC1000) / 4) v s
  else if o = Reg.raWavePeriod && fld v 0 16 = 0 then raRange s
  else plainWrite o v s

/-- Channel `c` (R218): commands and LNK_CFG writes answer in WRESULT; a port held by trace export refuses them with
LINK_OWNED (R219, R495). -/
def writeLnk (c o : Nat) (v : Word) (s : State) : State :=
  if o = Reg.lnkCtl c then
    match fld v 0 4 with
    | 0 => s
    | 1 => lnkEnable c s
    | 2 => lnkDisable c s
    | 3 => lnkReset c s
    | 4 => lnkRetrain c s
    | _ => lnkReserved c s
  else if o = Reg.lnkCfg c then lnkCfgWrite c v s
  else plainWrite o v s

/-- Device fabric (R243): a zero FAB_QUIET or FAB_QUERY_TO is refused. DESIGN CHOICE (log 213): AUTO written 1 after FAB_QUIET has passed
starts no enumeration by itself. -/
def writeFab (o : Nat) (v : Word) (s : State) : State :=
  if o = Reg.fabCtl then
    match fld v 0 4 with
    | 0 => s
    | 1 => discoverCmd s
    | _ => fabCause 0x20 (bump Reg.fabRangeCount s)
  else if (o = Reg.fabQuiet || o = Reg.fabQueryTo) && fld v 0 16 = 0 then fabCause 0x20 (bump Reg.fabRangeCount s)
  else plainWrite o v s

/-- QCTL (R274): a flush, then the resets. -/
def qctl (q : Nat) (v : Word) (s : State) : State :=
  let s := if bitAt v 0 then flushAsk q s else s
  let s := if bitAt v 1 then qctlWrReset q s else s
  if bitAt v 2 then qctlRdReset q s else s

/-- Queue `q`, at offset `r` (R274). -/
def writeQ (q r : Nat) (v : Word) (s : State) : State :=
  if r = 0x00 then qcfgWrite q v s
  else if r = 0x04 then qctl q v s
  else if r = 0x10 then qtimerWrite q v s
  else if r = 0x28 then enableWrite (Reg.qevent q) (Reg.qeventEn q) (512 + q / 2) v s
  else plainWrite (Reg.qcfg q + r) v s

/-- Pools (R303, R324). -/
def writePool (o : Nat) (v : Word) (s : State) : State :=
  if o = Reg.poolDescCmd then
    match fld v 0 2 with
    | 0 => s
    | 1 => descRead s
    | 2 => descWrite s
    | _ => descClear s
  else if 0x510000 ≤ o && o < 0x520000 then
    if o % 0x100 = 4 && bitAt v 0 then portReset ((o - 0x510000) / 0x100) s else s
  else plainWrite o v s

/-- Scrubbers and test (R481, R485). -/
def writeTest (o : Nat) (v : Word) (s : State) : State :=
  if o < 0x600800 then
    let sec := (o - 0x600000) / 0x100
    if o % 0x100 = 0 then scrCfgWrite sec v s
    else if o % 0x100 = 0x84 then xlat sec v s
    else s
  else if o = Reg.testBgCfg && fld v 8 8 = 0 then testResult 0x20 s
  else if o = Reg.testRawCtl then if bitAt v 8 then rawApply ⟨fld v 0 4, Nat.mod_lt _ (by decide)⟩ s else s
  else if 0x602100 ≤ o && o < 0x602200 && !s.rep.raw then s
  else plainWrite o v s

/-- TRC_CTL (R500). -/
def trcCtl (v : Word) (s : State) : State :=
  match fld v 0 4 with
  | 1 => traceStart s
  | 2 => traceStop s
  | 3 => snapNow s
  | 4 => snapArm s
  | 5 => exportOn s
  | 6 => exportOff s
  | 7 => resetRing s
  | n => traceReserved n s

/-- Trace (R500): TRC_CFG is writable only while stopped. -/
def writeTrc (o : Nat) (v : Word) (s : State) : State :=
  if o = Reg.trcCtl then trcCtl v s
  else if o = Reg.trcCfg && s.trc.running then trcResult 1 s
  else if o = Reg.trcRingPool then ringPoolWrite v s
  else if o = Reg.trcEventEn then enableWrite Reg.trcEvent Reg.trcEventEn 14 v s
  else if 0x701000 ≤ o && o < 0x709000 && o % 4 = 0 then
    probeWrite ((o - 0x701000) / 0x1000) (o % 0x1000 / 4) v s
  else plainWrite o v s

/-- Context pages, DMA engines, MSI-X (R382, R389, R392). -/
def writeHost (o : Nat) (v : Word) (s : State) : State :=
  if o < 0x840000 then
    let c := (o - 0x800000) / 0x1000
    let r := o % 0x1000
    if r = 0 || r = 4 || r = 8 then ctxCfgWrite c (r / 4) v s
    else if r = 0x18 then enableWrite (Reg.ctxEvent c) (Reg.ctxEventEn c) (64 + c) v s
    else plainWrite o v s
  else if 0x841000 ≤ o && o < 0x842000 then
    let e := (o - 0x841000) / 0x100
    let r := o % 0x100
    if r = 0 || r = 4 || r = 8 then dmaRingWrite e (r / 4) v s
    else if r = 0xC then dmaTailWrite e v s
    else s
  else if 0x880000 ≤ o && o < 0x888000 && o % 16 = 0xC then msixCtlWrite ((o - 0x880000) / 16) v s
  else plainWrite o v s

/-- The window of eddy `e`, at offset `r` (R349): every EDDY_CTL value but START, HALT and RESET is refused. -/
def writeEddy (e r : Nat) (v : Word) (s : State) : State :=
  if r = 0x04 then
    match fld v 0 4 with
    | 1 => eddyStart e s
    | 2 => eddyCmd e (fun x => x.st == .running) haltEddy s
    | 3 => eddyReset e s
    | _ => eddyCmd e (fun _ => false) id s
  else if r = 0x14 then eddyPinWrite e false v s
  else if r = 0x18 then eddyPinWrite e true v s
  else if r = 0x20 then ringDoorbell e (fld v 0 8) s
  else plainWrite (Reg.eddyId e + r) v s

/-- A write reaches the register at `o`. -/
def writeReg (o : Nat) (v : Word) (s : State) : State :=
  if o < 0x10000 then writeDev o v s
  else if o < 0x20000 then writeMbx o v s
  else if o < 0x30000 then if o = Reg.ldrClaimQ then claimQWrite v s else s
  else if o < 0x40000 then writeLc o v s
  else if o < 0x80000 then if o = Reg.frzPop then frzPop v s else s
  else if o < 0xC0000 then writeTick o v s
  else if o < 0x100000 then writeRa o v s
  else if o < 0x240000 then writeLnk ((o - 0x100000) / 65536) o v s
  else if o < 0x300000 then s
  else if o < 0x400000 then writeFab o v s
  else if o < 0x480000 then writeQ ((o - 0x400000) / 256) (o % 256) v s
  else if o < 0x600000 then writePool o v s
  else if o < 0x700000 then writeTest o v s
  else if o < 0x800000 then writeTrc o v s
  else if o < 0x1000000 then writeHost o v s
  else if o < 0x2000000 then writeEddy ((o - 0x1000000) / 0x8000) (o % 0x8000) v s
  else s

/-! ### The register path of a section (R275, R278, R279) -/

/-- The section whose registers hold `o`, reached through its register path. -/
def sectionOf (o : Nat) : Option Nat :=
  if 0x400000 ≤ o && o < 0x480000 then some ((o - 0x400000) / 0x10000)
  else if 0x510000 ≤ o && o < 0x520000 then some ((o - 0x510000) / 0x2000)
  else if 0x600000 ≤ o && o < 0x600800 then some ((o - 0x600000) / 0x100)
  else if 0x701000 ≤ o && o < 0x709000 then some ((o - 0x701000) / 0x1000)
  else if 0x1000000 ≤ o && o < 0x2000000 then some ((o - 0x1000000) / 0x200000)
  else none

/-- A write offered to a section's register path: refused and kept while the register is not free (R279). `split` leaves
it in the data register until its REQ arrives; else the whole transfer is this step. -/
def pathWrite (sec o : Nat) (v : Word) (split : Bool) (s : State) : State :=
  viaPath sec o v (fun s => if split then setPath sec { getPath s sec with data := some (o, v), taken := false } s else writeReg o v s) s

/-- Writes served in SHUTTING_DOWN (R385). -/
def shutWritable (o : Nat) : Bool := o < 0x20000 || (0x30000 ≤ o && o < 0x40000)

/-- A write that SHUTTING_DOWN discards (R385): GSR_CTL and EDDY_CTL show their own codes of it (R62, R351). -/
def shutWrite (o : Nat) (v : Word) (s : State) : State :=
  if o = Reg.gsrCtl then gsrPulse v s
  else if 0x1000000 ≤ o && o < 0x2000000 && o % 0x8000 = 4 then eddyShut ((o - 0x1000000) / 0x8000) s
  else s

/-- A write of BAR0. -/
def hostWrite (o : Nat) (v : Word) (split : Bool) (s : State) : State :=
  if s.dev.inReset then s
  else match hostRegion o with
    | some c => match hostWriteAcc o v with
      | some a => hostAccess c (if split then a.held else a) s
      | none => s
    | none =>
      if s.dev.st == .shuttingDown && !shutWritable o then shutWrite o v s
      else match sectionOf o with
        | some sec => pathWrite sec o v split s
        | none => writeReg o v s

/-- A host tile offers a request that its hold-and-flag register can take: `line` is its request line (R249, R307). -/
def offers (s : State) (t line : Nat) : Bool :=
  if fFree (frameOf s t) then portTakes s t && lineRail s t line != .v0
  else waveOn s && (getTile s t).portOut.isNone && linesValid s t (hostLines s t) && !portQuiet s t

/-- A side's register takes a request (R278). -/
def Side.request (offered : Bool) (x : Side) : Side :=
  if offered && !x.inReset && !x.req && !x.ack then { x with req := true } else x

/-- A REQ reaches the reader (R278). -/
def reqArrive (x : FlagXing) (s : State) : State :=
  match x with
  | .qWrite q =>
    let t := qWrTile q
    let x := getQ s q
    if x.hostPush.isEmpty then setQ q { x with wr := x.wr.request (hostOf s t == .qWr q && offers s t 15) } s
    else hostPushArrive q s
  | .qRead q =>
    let t := qRdTile q
    let x := getQ s q
    setQ q { x with rd := x.rd.request (hostOf s t == .qRd q && offers s t 15) } s
  | .poolPort p k =>
    let t := poolTile p k
    let x := getPort s p
    if hostOf s t == .pool p k && offers s t 0 && portLinked x && !bitAt x.req k && !bitAt x.ack k &&
        !x.reqs.any (fun r => r.1 = k.val) then
      setPort p { x with req := setBit x.req k true } s
    else s
  | .regPath sec =>
    let p := getPath s sec
    match p.data with
    | some (o, v) => if p.taken then s else mgmt (writeReg o v) (setPath sec { p with taken := true } s)
    | none => s

/-- An ACK returns: the register is free, and takes the oldest write that waits for it (R278, R279, R288). -/
def ackArrive (x : FlagXing) (s : State) : State :=
  match x with
  | .qWrite q => let x := getQ s q; setQ q { x with wr := { x.wr with ack := false, req := x.wr.req || (x.wr.ack && !x.hostPush.isEmpty) } } s
  | .qRead q => let x := getQ s q; setQ q { x with rd := { x.rd with ack := false } } s
  | .poolPort p k => let x := getPort s p; setPort p { x with ack := setBit x.ack k false } s
  | .regPath sec =>
    let p := getPath s sec
    if p.taken then setPath sec { data := p.kept.head?, taken := false, kept := p.kept.drop 1 } s else s

/-! ### Commands -/

def execReadClear (off : BitVec 26) (s : State) : Res := .next (hostRead off.toNat s)
def execRegisterWrite (off : BitVec 26) (v : Word) (split : Bool) (s : State) : Res :=
  .next (hostWrite off.toNat v split s)
def execXingReqArrive (x : FlagXing) (s : State) : Res := .next (reqArrive x s)
def execXingAckArrive (x : FlagXing) (s : State) : Res := .next (ackArrive x s)

end Sys2Proof.Machine
end

