-- ==== Sys2Proof/Machine/Pins.lean ====
section
/-! DEFINITION. Temperature sensors and supplies, the balls of the package as the device drives them, the SMBus target
and the test access port (R517, R520–R529). -/

namespace Sys2Proof.Machine

/-! ### Temperature and supplies (R517, R525) -/

/-- The temperature of die `d`, signed °C. -/
def dieTemp (temps : BitVec 72) (d : Nat) : Int := sgn 8 (fld temps (8 * d) 8)

/-- The hottest of dies 0 to `n`, the lowest number first. -/
def hottest (temps : BitVec 72) : Nat → Nat
  | 0 => 0
  | n + 1 => let h := hottest temps n; if dieTemp temps h < dieTemp temps (n + 1) then n + 1 else h

/-- A flag is set at its threshold and clears 3 °C below it. -/
def thermFlag (was : Bool) (t limit : Int) : Bool := decide (limit ≤ t) || (was && decide (limit - 3 < t))

/-- CRIT's threshold by grade. -/
def critTemp : Int := if Config.gradeE then 115 else 110

/-- The die sensors are read (R525). -/
def thermalRead (temps : BitVec 72) (s : State) : State :=
  let h := hottest temps 8
  let t := dieTemp temps h
  let old := getReg s Reg.thermStat
  let warn := thermFlag (bitAt old 0) t (fld (getReg s Reg.tempWarn) 0 8)
  let crit := thermFlag (bitAt old 1) t critTemp
  let s := forEach (fun d => setReg (Reg.dieTemp d) (w32 (fld temps (8 * d) 8))) (upTo 9) s
  setReg Reg.thermStat (w32 (b2n warn + 2 * b2n crit + h * 2 ^ 8 + fld temps (8 * h) 8 * 2 ^ 16)) s

/-- An HBM rail out of its range: every stack is marked failed at run time (R517). A KIND 7 mark names
the stack as its section and a pseudo-channel of it as its index; the loss of a whole stack is recorded
with index 0 (DESIGN CHOICE, log 98). -/
def hbmSupplyFault (s : State) : State := markAll false [⟨7, 0, 0⟩, ⟨7, 1, 0⟩, ⟨7, 2, 0⟩, ⟨7, 3, 0⟩] s

/-! ### What the balls show -/

/-- ALERT_N is asserted (R525). -/
def alertN (s : State) : Bool :=
  getReg s Reg.devEvent &&& getReg s Reg.devEventEn != 0 ||
    getReg s Reg.thermStat &&& getReg s Reg.thermEn &&& 3#32 != 0

/-- Outputs have been released (R422). -/
def outputsOn (s : State) : Bool :=
  !s.dev.inReset && (deviceUp s || (s.dev.st == .starting && s.ldr.phase == .startup && stepDone s 3))

/-- The level the output of GIO ball `g` drives by itself; `none` is high-Z (R517, R521). -/
def gioLeg (s : State) (g : Nat) : Option Bool :=
  let w := gioBall s g
  if !outputsOn s || !bankOn s g || !bitAt w 1 then none
  else if !bitAt s.pins.gioFirst g then
    match fld w 12 2 with | 0 => some false | 1 => some true | _ => none
  else if bitAt w 0 && !bitAt s.pins.gioOe g then none
  else some (bitAt s.pins.gioOut g)

/-- The level a GIO ball drives: of a differential pair the odd ball drives the complement of the even one, whose OUT, OE and
configuration count (R519; PRESUMED, log 203). -/
def gioDrive (s : State) (g : Nat) : Option Bool :=
  if g % 2 = 1 && fld (gioBall s g) 2 2 = 2 then (gioLeg s (g - 1)).map not else gioLeg s g

/-- The pull a GIO ball carries while it is high-Z: CFG_PULL before output release and in SHUTTING_DOWN, its own PULL
afterwards (R512, R521). -/
def gioPull (s : State) (g : Nat) : Nat := if outputsOn s then fld (gioBall s g) 8 2 else fld s.dev.straps 0 2

/-- The level of GIO ball `g` where nothing outside drives it: its own, its pull's or its keeper's; `none` floats (R512). -/
def gioLevel (s : State) (g : Nat) : Option Bool :=
  match gioDrive s g, gioPull s g with
  | some b, _ => some b
  | none, 1 => some false
  | none, 2 => some true
  | none, 3 => some (bitAt s.pins.kept g)
  | none, _ => none

/-- TICK_OUT: high-Z while STARTING or SHUTTING_DOWN, then with the CFG_PULL pull (R142). -/
def tickOutBall (s : State) : Option Bool := if deviceUp s then some s.tick.tickOut else none

/-- The pull of TICK_OUT: CFG_PULL while it is high-Z, none while it drives (R142). -/
def tickOutPull (s : State) : Nat := if deviceUp s then 0 else fld s.dev.straps 0 2

/-- A ford port's strobes run and its drivers drive: in TRAINING, UP or RETRAINING (R197). In reset, in STARTING before
output release and in SHUTTING_DOWN every ford port is DISABLED, so its balls are high-Z (R31). -/
def fordDrives (s : State) (port : Nat) : Bool :=
  let st := (getChan s (16 + port)).st
  !s.dev.inReset && chansOpen s && !(getChan s (16 + port)).resetting && (st == .training || st == .up || st == .retraining)

/-- The pull of a ford port's balls: CFG_PULL while its drivers are high-Z (R31, R197). -/
def fordPull (s : State) (port : Nat) : Nat := if fordDrives s port then 0 else fld s.dev.straps 0 2

/-- What a ball puts on its line. -/
inductive Drive where
  /-- High-Z, or an open-drain output released. -/
  | released
  | level (b : Bool)
  /-- It carries a signal in progress, whose bits no command reports. -/
  | signal
  deriving DecidableEq, Repr

def drive : Option Bool → Drive | some b => .level b | none => .released

/-- The device's outputs (R31, R142, R197, R510); an input and a line that is shifting belong to the sender of the commands. -/
def pinDrive (s : State) : Pin → Drive
  | .cfgDone => if s.dev.porstHigh && s.dev.cfgDone then .released else .level false
  | .shdnDone => if s.dev.porstHigh && s.dev.shdnDone then .released else .level false
  | .cfgErrN => if s.dev.porstHigh && s.dev.cfgErr then .level false else .released
  | .alertN => if s.dev.porstHigh && alertN s then .level false else .released
  | .tickOut => drive (if s.dev.porstHigh then tickOutBall s else none)
  | .avsClk | .avsMdata => if s.dev.inReset || !s.tick.avs.busy then .level false else .signal
  | .gio b j => drive (gioDrive s (48 * b + j))
  | .fordTx p _ => if fordDrives s (match p with | .fn => 0 | .fe => 1 | .fs => 2 | .fw => 3) then .signal else .released
  | .serTx c _ _ => if (getChan s c).st == .disabled then .released else .signal
  | .pcieTx _ _ => if s.dev.inReset then .released else .signal
  | _ => .released

/-! ### The SMBus target (R529) -/

/-- Its 7-bit address. -/
def smbAddress (s : State) : BitVec 7 := 0b1001100#7 ||| (fld s.dev.straps 2 2 : Nat)

/-- A packet error code: the CRC-8 of SMBus, polynomial x^8 + x^2 + x + 1, from 0 (PRESUMED, log 204). -/
def smbPec (l : List Nat) : BitVec 8 :=
  l.foldl (fun c b => (upTo 8).foldl (fun c _ => if bitAt c 7 then c <<< 1 ^^^ 0x07#8 else c <<< 1) (c ^^^ BitVec.ofNat 8 b)) 0

/-- The command code that each accepted command has. -/
def smbCodeOffset : Nat := 0x10
def smbCodeRead : Nat := 0x11

/-- The offset lies in the management window, below the readback window. -/
def smbSees (o : Nat) : Bool := decide (o < 0x2000000) && (hostRegion o).isNone

/-- Set the offset. -/
def smbSetOffset (v : Word) (s : State) : State := { s with smb := { s.smb with off := v.toNat, nack := false } }

/-- Read the register at the offset, clearing and latching nothing, and advance. -/
def smbBlockRead (s : State) : State :=
  let o := s.smb.off
  let v := if smbSees o then readReg s o else 0
  let s := if smbSees o && (freeRead s o).isSome then drawFree s else s
  let a := 2 * (smbAddress s).toNat
  let pec := smbPec ([a, smbCodeRead, a + 1, 4] ++ (upTo 4).map (fun i => fld v (8 * i) 8))
  { s with smb := { off := (o + 4) % 2 ^ 32, data := v, nack := false, pec := pec } }

/-- Another command is refused. -/
def smbOther (s : State) : State := { s with smb := { s.smb with nack := true } }

/-! ### The test access port (R481, R527, R528) -/

/-- The instructions that drive or release balls may do so: PORST_N is low, or CFG_ERR_N is asserted. -/
def tapMayDrive (s : State) : Bool := !s.dev.porstHigh || s.dev.cfgErr

/-- The cells of an output of the device: its output cell and the enable cell that it has or shares (R528). -/
def pinCells : Pin → Option (Nat × Nat)
  | .gio b j => some (144 * b + 3 * j + 1, 144 * b + 3 * j + 2)
  | .fordTx p n =>
    let i := 1440 + 165 * (match p with | .fn => 0 | .fe => 1 | .fs => 2 | .fw => 3)
    some (i + n, i + 82)
  | .cfgDone => some (2228, 2229)
  | .cfgErrN => some (2230, 2231)
  | .shdnDone => some (2232, 2233)
  | .tickOut => some (2234, 2235)
  | .alertN => some (2236, 2237)
  | _ => none

/-- What cell `i` captures where the balls stand at `lvl`: an enable cell whether its ball is driven, an output cell the level that
the device drives, an input cell the ball (R528; PRESUMED, log 203). -/
def cellCapture (s : State) (lvl : BitVec 2246) (i : Nat) : Bool :=
  match boundaryCell i with
  | some (p, .enable) => pinDrive s p != .released
  | some (p, .output) => (match pinDrive s p with | .level b => b | _ => bitAt lvl i)
  | _ => bitAt lvl i

/-- What the boundary register captures. -/
def tapCapture (s : State) (lvl : BitVec 2246) : BitVec 2246 :=
  BitVec.ofNat 2246 ((upTo 2246).foldl (fun n i => n + b2n (cellCapture s lvl i) * 2 ^ i) 0)

/-- A boundary scan: the cells capture, then hold what was shifted in. -/
def tapScan (i : JtagInst) (lvl load : BitVec 2246) (s : State) : State :=
  { s with jtag := { s.jtag with inst := i, cap := tapCapture s lvl, upd := load, irOut := tapIrCapture } }

/-- What the data register of an instruction without a boundary register captures: IDCODE, or the 0 of BYPASS (R527). -/
def tapData : JtagInst → Word | .idcode => tapIdcode | _ => 0

/-- Select an instruction whose data register is not the boundary register. -/
def tapSelect (i : JtagInst) (s : State) : State :=
  { s with jtag := { s.jtag with inst := i, irOut := tapIrCapture, drOut := tapData i } }

/-- HIGHZ or CLAMP: the bypass register is selected and the boundary cells keep what they hold. At other times it acts as
SAMPLE/PRELOAD, until the balls may be driven (DESIGN CHOICE, log 205). -/
def tapHold (i : JtagInst) (lvl load : BitVec 2246) (s : State) : State :=
  if tapMayDrive s then tapSelect i s else tapScan i lvl load s

/-- What the boundary cells put on the balls: their held values, all released, or nothing. -/
def tapDrive (s : State) : Option (Option (BitVec 2246)) :=
  if !tapMayDrive s then none
  else match s.jtag.inst with
    | .extest | .clamp | .extestPulse | .extestTrain => some (some s.jtag.upd)
    | .highz => some none
    | .idcode | .sample | .bypass | .priv _ => none

/-- What stands on an output ball: the boundary cells' where they drive, else the device's own (R527, R528). -/
def ballDrive (s : State) (p : Pin) : Drive :=
  match tapDrive s, pinCells p with
  | some none, some _ => .released
  | some (some v), some (o, e) => if bitAt v e then .level (bitAt v o) else .released
  | _, _ => pinDrive s p

/-- The instruction that an opcode selects (R481, R527). -/
def tapInst (raw : Bool) (op : BitVec 8) : JtagInst :=
  match op.toNat with
  | 1 => .idcode
  | 2 => .sample
  | 3 => .extest
  | 4 => .highz
  | 5 => .clamp
  | 6 => .extestPulse
  | 7 => .extestTrain
  | n => if raw && 0x80 ≤ n && n != 0xFF then .priv op else .bypass

/-- A private test instruction: BYPASS outside raw mode (R481, R527). -/
def tapPrivate (op : BitVec 8) (s : State) : State := tapSelect (tapInst s.rep.raw op) s

/-! ### Commands -/

def execThermalRead (temps : BitVec 72) (s : State) : Res := .next (awake (thermalRead temps) s)
def execHbmSupplyFault (s : State) : Res := .next (awake hbmSupplyFault s)
def execSmbSetOffset (v : Word) (s : State) : Res := .next (awake (smbSetOffset v) s)
def execSmbBlockRead (s : State) : Res := .next (awake smbBlockRead s)
def execSmbOtherCommand (s : State) : Res := .next (awake smbOther s)
def execJtagIdcode (s : State) : Res := .next (tapSelect .idcode s)
def execJtagSamplePreload (lvl load : BitVec 2246) (s : State) : Res := .next (tapScan .sample lvl load s)
def execJtagExtest (lvl load : BitVec 2246) (s : State) : Res := .next (tapScan .extest lvl load s)
def execJtagHighz (lvl load : BitVec 2246) (s : State) : Res := .next (tapHold .highz lvl load s)
def execJtagClamp (lvl load : BitVec 2246) (s : State) : Res := .next (tapHold .clamp lvl load s)
def execJtagExtestPulse (lvl load : BitVec 2246) (s : State) : Res := .next (tapScan .extestPulse lvl load s)
def execJtagExtestTrain (lvl load : BitVec 2246) (s : State) : Res := .next (tapScan .extestTrain lvl load s)
def execJtagPrivate (op : BitVec 8) (s : State) : Res := .next (tapPrivate op s)
def execJtagBypass (s : State) : Res := .next (tapSelect .bypass s)

end Sys2Proof.Machine
end

