-- ==== Sys2Proof/Machine/Dispatch.lean ====
section
/-! DEFINITION. One arm for each command: a direct call of its meaning. -/

namespace Sys2Proof.Machine
open Sys2Proof

def exec (i : Instr) (s : State) : Host.Outcome State Fault Refusal :=
  match i with
  | .porstNRelease straps rails => Sys2Proof.Machine.execPorstNRelease straps rails s
  | .porstNAssert => Sys2Proof.Machine.execPorstNAssert s
  | .pwrOffReqNAssert => Sys2Proof.Machine.execPwrOffReqNAssert s
  | .pwrOffReqNRelease => Sys2Proof.Machine.execPwrOffReqNRelease s
  | .shutdownSegmentDone fails => Sys2Proof.Machine.execShutdownSegmentDone fails s
  | .shutdownTestDone => Sys2Proof.Machine.execShutdownTestDone s
  | .tickIssue gio => Sys2Proof.Machine.execTickIssue gio s
  | .lcEvaluate tile n => Sys2Proof.Machine.execLcEvaluate tile n s
  | .tileSettled tile => Sys2Proof.Machine.execTileSettled tile s
  | .tileSpacerComplete tile => Sys2Proof.Machine.execTileSpacerComplete tile s
  | .spacerRelease => Sys2Proof.Machine.execSpacerRelease s
  | .tickComplete period same fault => Sys2Proof.Machine.execTickComplete period same fault s
  | .frStageCapture tile c => Sys2Proof.Machine.execFrStageCapture tile c s
  | .frStageRelease tile c => Sys2Proof.Machine.execFrStageRelease tile c s
  | .gsrPulse v => Sys2Proof.Machine.execGsrPulse v s
  | .gsrPulseDone => Sys2Proof.Machine.execGsrPulseDone s
  | .singleEventUpset u => Sys2Proof.Machine.execSingleEventUpset u s
  | .vsenseUpdate sec mv => Sys2Proof.Machine.execVsenseUpdate sec mv s
  | .replicaUpdate sec ps => Sys2Proof.Machine.execReplicaUpdate sec ps s
  | .oneHotConflict sec vert idx line => Sys2Proof.Machine.execOneHotConflict sec vert idx line s
  | .bmAsyncRead sec m portB => Sys2Proof.Machine.execBmAsyncRead sec m portB s
  | .bmFrAccess sec m portB meet => Sys2Proof.Machine.execBmFrAccess sec m portB meet s
  | .bmEccWriteback sec m row => Sys2Proof.Machine.execBmEccWriteback sec m row s
  | .bmPatrolRead sec m => Sys2Proof.Machine.execBmPatrolRead sec m s
  | .tickCmdRun => Sys2Proof.Machine.execTickCmdRun s
  | .tickCmdPaced => Sys2Proof.Machine.execTickCmdPaced s
  | .tickCmdStop => Sys2Proof.Machine.execTickCmdStop s
  | .tickCmdStep count => Sys2Proof.Machine.execTickCmdStep count s
  | .tickCmdClear => Sys2Proof.Machine.execTickCmdClear s
  | .tickCmdReserved cmd => Sys2Proof.Machine.execTickCmdReserved cmd s
  | .tickStopHiWrite v => Sys2Proof.Machine.execTickStopHiWrite v s
  | .tickNowLoRead => Sys2Proof.Machine.execTickNowLoRead s
  | .tickCfgWrite v => Sys2Proof.Machine.execTickCfgWrite v s
  | .tickTimeoutWrite v elapsed => Sys2Proof.Machine.execTickTimeoutWrite v elapsed s
  | .tickPacePeriodWrite v => Sys2Proof.Machine.execTickPacePeriodWrite v s
  | .cadLenWrite v => Sys2Proof.Machine.execCadLenWrite v s
  | .cadPosWrite v => Sys2Proof.Machine.execCadPosWrite v s
  | .cadMaskWrite n hi v => Sys2Proof.Machine.execCadMaskWrite n hi v s
  | .paceTimerEvent => Sys2Proof.Machine.execPaceTimerEvent s
  | .tickInEdge => Sys2Proof.Machine.execTickInEdge s
  | .settleTimeout => Sys2Proof.Machine.execSettleTimeout s
  | .timeoutLocated => Sys2Proof.Machine.execTimeoutLocated s
  | .tickInterval1ms => Sys2Proof.Machine.execTickInterval1ms s
  | .avsCapInterval cur fail => Sys2Proof.Machine.execAvsCapInterval cur fail s
  | .avsCfgWrite v => Sys2Proof.Machine.execAvsCfgWrite v s
  | .avsTargetWrite sec v => Sys2Proof.Machine.execAvsTargetWrite sec v s
  | .avsCapWrite v => Sys2Proof.Machine.execAvsCapWrite v s
  | .avsFrameDone ok => Sys2Proof.Machine.execAvsFrameDone ok s
  | .raCfgWrite v => Sys2Proof.Machine.execRaCfgWrite v s
  | .raPredWrite g v => Sys2Proof.Machine.execRaPredWrite g v s
  | .raLwmLoRead => Sys2Proof.Machine.execRaLwmLoRead s
  | .raULoRead => Sys2Proof.Machine.execRaULoRead s
  | .predictionWaitExpire g => Sys2Proof.Machine.execPredictionWaitExpire g s
  | .boundaryFrameRx chan pay => Sys2Proof.Machine.execBoundaryFrameRx chan pay s
  | .rollbackRestore => Sys2Proof.Machine.execRollbackRestore s
  | .boundaryFrameSend o vals => Sys2Proof.Machine.execBoundaryFrameSend o vals s
  | .recallSend g v => Sys2Proof.Machine.execRecallSend g v s
  | .recallRx chan pay => Sys2Proof.Machine.execRecallRx chan pay s
  | .waveRootStart => Sys2Proof.Machine.execWaveRootStart s
  | .waveStartRx chan pay => Sys2Proof.Machine.execWaveStartRx chan pay s
  | .markRx chan pay => Sys2Proof.Machine.execMarkRx chan pay s
  | .waveReportRx chan pay => Sys2Proof.Machine.execWaveReportRx chan pay s
  | .waveReportSend => Sys2Proof.Machine.execWaveReportSend s
  | .waveResultRx chan pay => Sys2Proof.Machine.execWaveResultRx chan pay s
  | .sluiceRelease => Sys2Proof.Machine.execSluiceRelease s
  | .lnkCmdEnable chan => Sys2Proof.Machine.execLnkCmdEnable chan s
  | .lnkCmdDisable chan => Sys2Proof.Machine.execLnkCmdDisable chan s
  | .lnkCmdReset chan => Sys2Proof.Machine.execLnkCmdReset chan s
  | .lnkCmdRetrain chan => Sys2Proof.Machine.execLnkCmdRetrain chan s
  | .lnkCmdReserved chan cmd => Sys2Proof.Machine.execLnkCmdReserved chan cmd s
  | .lnkCfgWrite chan v => Sys2Proof.Machine.execLnkCfgWrite chan v s
  | .linkSignalDetect chan => Sys2Proof.Machine.execLinkSignalDetect chan s
  | .trainRx chan pay => Sys2Proof.Machine.execTrainRx chan pay s
  | .trainingDone chan pol rev => Sys2Proof.Machine.execTrainingDone chan pol rev s
  | .trainingFail chan why => Sys2Proof.Machine.execTrainingFail chan why s
  | .flitRx chan hdr pay crc corr unc apart => Sys2Proof.Machine.execFlitRx chan hdr pay crc corr unc apart s
  | .flitTransmit chan => Sys2Proof.Machine.execFlitTransmit chan s
  | .nakRx chan hdr nextRx => Sys2Proof.Machine.execNakRx chan hdr nextRx s
  | .creditRx chan hdr pay => Sys2Proof.Machine.execCreditRx chan hdr pay s
  | .idleRx chan hdr => Sys2Proof.Machine.execIdleRx chan hdr s
  | .retrainReqRx chan hdr => Sys2Proof.Machine.execRetrainReqRx chan hdr s
  | .replayTimeout chan => Sys2Proof.Machine.execReplayTimeout chan s
  | .creditReturnTimer chan => Sys2Proof.Machine.execCreditReturnTimer chan s
  | .linkStallTimeout chan => Sys2Proof.Machine.execLinkStallTimeout chan s
  | .fordCutThrough port pay n => Sys2Proof.Machine.execFordCutThrough port pay n s
  | .laneLoss chan lane => Sys2Proof.Machine.execLaneLoss chan lane s
  | .strobeLoss port => Sys2Proof.Machine.execStrobeLoss port s
  | .linkSignalLoss chan => Sys2Proof.Machine.execLinkSignalLoss chan s
  | .refclkSerLoss q => Sys2Proof.Machine.execRefclkSerLoss q s
  | .linkResetDone chan => Sys2Proof.Machine.execLinkResetDone chan s
  | .helloRx chan pay => Sys2Proof.Machine.execHelloRx chan pay s
  | .electionQuietExpire => Sys2Proof.Machine.execElectionQuietExpire s
  | .fabCmdDiscover => Sys2Proof.Machine.execFabCmdDiscover s
  | .fabCmdReserved cmd => Sys2Proof.Machine.execFabCmdReserved cmd s
  | .queryAssignRx chan pay => Sys2Proof.Machine.execQueryAssignRx chan pay s
  | .queryCommitRx chan pay => Sys2Proof.Machine.execQueryCommitRx chan pay s
  | .replyRx chan pay => Sys2Proof.Machine.execReplyRx chan pay s
  | .routesRx chan pay => Sys2Proof.Machine.execRoutesRx chan pay s
  | .queryTimeout => Sys2Proof.Machine.execQueryTimeout s
  | .pendingIdTimeout => Sys2Proof.Machine.execPendingIdTimeout s
  | .noticeRx chan pay => Sys2Proof.Machine.execNoticeRx chan pay s
  | .fenceSend chan => Sys2Proof.Machine.execFenceSend chan s
  | .linkDownRx chan pay => Sys2Proof.Machine.execLinkDownRx chan pay s
  | .fenceRx chan pay => Sys2Proof.Machine.execFenceRx chan pay s
  | .fenceDoneRx chan pay => Sys2Proof.Machine.execFenceDoneRx chan pay s
  | .fenceTimeout chan => Sys2Proof.Machine.execFenceTimeout chan s
  | .queuePush q => Sys2Proof.Machine.execQueuePush q s
  | .queuePop q => Sys2Proof.Machine.execQueuePop q s
  | .pointerSync q toRead => Sys2Proof.Machine.execPointerSync q toRead s
  | .spillSeal q => Sys2Proof.Machine.execSpillSeal q s
  | .qctlFlush q => Sys2Proof.Machine.execQctlFlush q s
  | .flushAct q => Sys2Proof.Machine.execFlushAct q s
  | .qctlWrReset q => Sys2Proof.Machine.execQctlWrReset q s
  | .qctlRdReset q => Sys2Proof.Machine.execQctlRdReset q s
  | .sideResetRelease x rd => Sys2Proof.Machine.execSideResetRelease x rd s
  | .peerResetSync x atRead => Sys2Proof.Machine.execPeerResetSync x atRead s
  | .epochConnectRx x rd => Sys2Proof.Machine.execEpochConnectRx x rd s
  | .epochAckRx x rd => Sys2Proof.Machine.execEpochAckRx x rd s
  | .qhPushWrite q v => Sys2Proof.Machine.execQhPushWrite q v s
  | .qhPopRead q => Sys2Proof.Machine.execQhPopRead q s
  | .qcfgWrite q v => Sys2Proof.Machine.execQcfgWrite q v s
  | .staleTimeout q => Sys2Proof.Machine.execStaleTimeout q s
  | .xingReqArrive x => Sys2Proof.Machine.execXingReqArrive x s
  | .xingAckArrive x => Sys2Proof.Machine.execXingAckArrive x s
  | .arbiterEntry sec late ball v => Sys2Proof.Machine.execArbiterEntry sec late ball v s
  | .poolDescRead => Sys2Proof.Machine.execPoolDescRead s
  | .poolDescWrite => Sys2Proof.Machine.execPoolDescWrite s
  | .poolDescClear => Sys2Proof.Machine.execPoolDescClear s
  | .poolDescDone => Sys2Proof.Machine.execPoolDescDone s
  | .poolPortRequest p k => Sys2Proof.Machine.execPoolPortRequest p k s
  | .poolPortAnswer p k => Sys2Proof.Machine.execPoolPortAnswer p k s
  | .drainDone p => Sys2Proof.Machine.execDrainDone p s
  | .hbmEccWriteback wa => Sys2Proof.Machine.execHbmEccWriteback wa s
  | .hbmPatrolRead wa => Sys2Proof.Machine.execHbmPatrolRead wa s
  | .hbmRfm k => Sys2Proof.Machine.execHbmRfm k s
  | .hbmUeLocRead k => Sys2Proof.Machine.execHbmUeLocRead k s
  | .poolPortReset p => Sys2Proof.Machine.execPoolPortReset p s
  | .poolPortResetDone p => Sys2Proof.Machine.execPoolPortResetDone p s
  | .poolRdRx pay => Sys2Proof.Machine.execPoolRdRx pay s
  | .poolWrRx pay => Sys2Proof.Machine.execPoolWrRx pay s
  | .poolAnsRx pay => Sys2Proof.Machine.execPoolAnsRx pay s
  | .eddyCmdStart e => Sys2Proof.Machine.execEddyCmdStart e s
  | .eddyCmdHalt e => Sys2Proof.Machine.execEddyCmdHalt e s
  | .eddyCmdReset e => Sys2Proof.Machine.execEddyCmdReset e s
  | .eddyCmdReserved e cmd => Sys2Proof.Machine.execEddyCmdReserved e cmd s
  | .eddyDoorbellWrite e lines => Sys2Proof.Machine.execEddyDoorbellWrite e lines s
  | .eddyPinWrite e hi v => Sys2Proof.Machine.execEddyPinWrite e hi v s
  | .dmaGo e => Sys2Proof.Machine.execDmaGo e s
  | .dmaTransferDone d => Sys2Proof.Machine.execDmaTransferDone d s
  | .dmaDoneRead e => Sys2Proof.Machine.execDmaDoneRead e s
  | .irqEntry e => Sys2Proof.Machine.execIrqEntry e s
  | .eddyTimerMatch e => Sys2Proof.Machine.execEddyTimerMatch e s
  | .eddyTimerLoRead e now => Sys2Proof.Machine.execEddyTimerLoRead e now s
  | .secureWipeDone e => Sys2Proof.Machine.execSecureWipeDone e s
  | .leaseStart sec r => Sys2Proof.Machine.execLeaseStart sec r s
  | .leaseDone sec pass => Sys2Proof.Machine.execLeaseDone sec pass s
  | .apertureAccess e we off v => Sys2Proof.Machine.execApertureAccess e we off v s
  | .apertureStarved a => Sys2Proof.Machine.execApertureStarved a s
  | .eAdd e rd ra rb f => Sys2Proof.Machine.execEAdd e rd ra rb f s
  | .eSub e rd ra rb f => Sys2Proof.Machine.execESub e rd ra rb f s
  | .eAnd e rd ra rb f => Sys2Proof.Machine.execEAnd e rd ra rb f s
  | .eOr e rd ra rb f => Sys2Proof.Machine.execEOr e rd ra rb f s
  | .eXor e rd ra rb f => Sys2Proof.Machine.execEXor e rd ra rb f s
  | .eSll e rd ra rb f => Sys2Proof.Machine.execESll e rd ra rb f s
  | .eSrl e rd ra rb f => Sys2Proof.Machine.execESrl e rd ra rb f s
  | .eSra e rd ra rb f => Sys2Proof.Machine.execESra e rd ra rb f s
  | .eMul e rd ra rb f => Sys2Proof.Machine.execEMul e rd ra rb f s
  | .eMulhu e rd ra rb f => Sys2Proof.Machine.execEMulhu e rd ra rb f s
  | .eSlt e rd ra rb f => Sys2Proof.Machine.execESlt e rd ra rb f s
  | .eSltu e rd ra rb f => Sys2Proof.Machine.execESltu e rd ra rb f s
  | .eAddc e rd ra rb f => Sys2Proof.Machine.execEAddc e rd ra rb f s
  | .eSubb e rd ra rb f => Sys2Proof.Machine.execESubb e rd ra rb f s
  | .ePopc e rd ra f => Sys2Proof.Machine.execEPopc e rd ra f s
  | .eClz e rd ra f => Sys2Proof.Machine.execEClz e rd ra f s
  | .eAddi e rd ra imm => Sys2Proof.Machine.execEAddi e rd ra imm s
  | .eAndi e rd ra imm => Sys2Proof.Machine.execEAndi e rd ra imm s
  | .eOri e rd ra imm => Sys2Proof.Machine.execEOri e rd ra imm s
  | .eXori e rd ra imm => Sys2Proof.Machine.execEXori e rd ra imm s
  | .eSlli e rd ra sh => Sys2Proof.Machine.execESlli e rd ra sh s
  | .eSrli e rd ra sh => Sys2Proof.Machine.execESrli e rd ra sh s
  | .eSrai e rd ra sh => Sys2Proof.Machine.execESrai e rd ra sh s
  | .eInsh e rd imm k => Sys2Proof.Machine.execEInsh e rd imm k s
  | .eSlti e rd ra imm => Sys2Proof.Machine.execESlti e rd ra imm s
  | .eSltiu e rd ra imm => Sys2Proof.Machine.execESltiu e rd ra imm s
  | .eCmpi e ra imm => Sys2Proof.Machine.execECmpi e ra imm s
  | .eBc e cond off => Sys2Proof.Machine.execEBc e cond off s
  | .eBz e ra imm => Sys2Proof.Machine.execEBz e ra imm s
  | .eBnz e ra imm => Sys2Proof.Machine.execEBnz e ra imm s
  | .eCall e off => Sys2Proof.Machine.execECall e off s
  | .eJr e rd ra imm => Sys2Proof.Machine.execEJr e rd ra imm s
  | .eLdb e rd ra imm => Sys2Proof.Machine.execELdb e rd ra imm s
  | .eLdh e rd ra imm => Sys2Proof.Machine.execELdh e rd ra imm s
  | .eLdw e rd ra imm => Sys2Proof.Machine.execELdw e rd ra imm s
  | .eLdd e rd ra imm => Sys2Proof.Machine.execELdd e rd ra imm s
  | .eStb e rd ra imm => Sys2Proof.Machine.execEStb e rd ra imm s
  | .eSth e rd ra imm => Sys2Proof.Machine.execESth e rd ra imm s
  | .eStw e rd ra imm => Sys2Proof.Machine.execEStw e rd ra imm s
  | .eStd e rd ra imm => Sys2Proof.Machine.execEStd e rd ra imm s
  | .eQpush e rd rs site l => Sys2Proof.Machine.execEQpush e rd rs site l s
  | .eQpop e rd rs site => Sys2Proof.Machine.execEQpop e rd rs site s
  | .eQpopw e rd rs site => Sys2Proof.Machine.execEQpopw e rd rs site s
  | .eQflush e rd site => Sys2Proof.Machine.execEQflush e rd site s
  | .eQstat e rd site => Sys2Proof.Machine.execEQstat e rd site s
  | .ePld e rd ra h off => Sys2Proof.Machine.execEPld e rd ra h off s
  | .ePldAnswer e n => Sys2Proof.Machine.execEPldAnswer e n s
  | .ePst e rd ra h off => Sys2Proof.Machine.execEPst e rd ra h off s
  | .ePatomSwap e rd ra rb h => Sys2Proof.Machine.execEPatomSwap e rd ra rb h s
  | .ePatomAdd e rd ra rb h => Sys2Proof.Machine.execEPatomAdd e rd ra rb h s
  | .ePatomAnd e rd ra rb h => Sys2Proof.Machine.execEPatomAnd e rd ra rb h s
  | .ePatomOr e rd ra rb h => Sys2Proof.Machine.execEPatomOr e rd ra rb h s
  | .ePatomXor e rd ra rb h => Sys2Proof.Machine.execEPatomXor e rd ra rb h s
  | .ePatomCas e rd ra rb h => Sys2Proof.Machine.execEPatomCas e rd ra rb h s
  | .ePatomAnswer e n => Sys2Proof.Machine.execEPatomAnswer e n s
  | .eCmt e rd p => Sys2Proof.Machine.execECmt e rd p s
  | .eFence e waitP waitD => Sys2Proof.Machine.execEFence e waitP waitD s
  | .eMtake e rd w => Sys2Proof.Machine.execEMtake e rd w s
  | .eMans e ra rb => Sys2Proof.Machine.execEMans e ra rb s
  | .eEret e => Sys2Proof.Machine.execEEret e s
  | .eMfc e rd n => Sys2Proof.Machine.execEMfc e rd n s
  | .eMtc e n rb => Sys2Proof.Machine.execEMtc e n rb s
  | .eTrap e n => Sys2Proof.Machine.execETrap e n s
  | .eBreak e => Sys2Proof.Machine.execEBreak e s
  | .eWfi e => Sys2Proof.Machine.execEWfi e s
  | .eHalt e => Sys2Proof.Machine.execEHalt e s
  | .eIllegalInstruction e => Sys2Proof.Machine.execEIllegalInstruction e s
  | .bar2Read c x => Sys2Proof.Machine.execBar2Read c x s
  | .bar2Write c x be v => Sys2Proof.Machine.execBar2Write c x be v s
  | .ctxCfgWrite c reg v => Sys2Proof.Machine.execCtxCfgWrite c reg v s
  | .ctxDoorbellWrite c v => Sys2Proof.Machine.execCtxDoorbellWrite c v s
  | .dmaTailWrite e v => Sys2Proof.Machine.execDmaTailWrite e v s
  | .dmaRingWrite e reg v => Sys2Proof.Machine.execDmaRingWrite e reg v s
  | .dmaDescriptorStart e d => Sys2Proof.Machine.execDmaDescriptorStart e d s
  | .dmaDescriptorDone e data => Sys2Proof.Machine.execDmaDescriptorDone e data s
  | .hostPortReset => Sys2Proof.Machine.execHostPortReset s
  | .pciePerstNRelease => Sys2Proof.Machine.execPciePerstNRelease s
  | .frozenReadTimeout c => Sys2Proof.Machine.execFrozenReadTimeout c s
  | .kcLoadImage => Sys2Proof.Machine.execKcLoadImage s
  | .fuseReadDone => Sys2Proof.Machine.execFuseReadDone s
  | .healthRecordRead => Sys2Proof.Machine.execHealthRecordRead s
  | .abbreviatedSegmentDone fails => Sys2Proof.Machine.execAbbreviatedSegmentDone fails s
  | .loadHeaderRead storeUe => Sys2Proof.Machine.execLoadHeaderRead storeUe s
  | .loadPassAEnd storeUe => Sys2Proof.Machine.execLoadPassAEnd storeUe s
  | .loadIdleFillEnd => Sys2Proof.Machine.execLoadIdleFillEnd s
  | .loadPassBEnd storeUe => Sys2Proof.Machine.execLoadPassBEnd storeUe s
  | .loadChecksEnd => Sys2Proof.Machine.execLoadChecksEnd s
  | .lockWaitEnd => Sys2Proof.Machine.execLockWaitEnd s
  | .lockWaitTimeout => Sys2Proof.Machine.execLockWaitTimeout s
  | .setResetReleaseDone => Sys2Proof.Machine.execSetResetReleaseDone s
  | .writeEnableDone => Sys2Proof.Machine.execWriteEnableDone s
  | .outputReleaseDone => Sys2Proof.Machine.execOutputReleaseDone s
  | .deviceTimerExpire d => Sys2Proof.Machine.execDeviceTimerExpire d s
  | .dtmrCfgWrite d v => Sys2Proof.Machine.execDtmrCfgWrite d v s
  | .ldrClaimQWrite v => Sys2Proof.Machine.execLdrClaimQWrite v s
  | .kcWriteSlotData => Sys2Proof.Machine.execKcWriteSlotData s
  | .kcWriteSlotErase => Sys2Proof.Machine.execKcWriteSlotErase s
  | .kcWriteSlotBoot => Sys2Proof.Machine.execKcWriteSlotBoot s
  | .slotWriteDone => Sys2Proof.Machine.execSlotWriteDone s
  | .kcSetLifecycle => Sys2Proof.Machine.execKcSetLifecycle s
  | .lifecycleTransitionDone => Sys2Proof.Machine.execLifecycleTransitionDone s
  | .kcUnfreeze => Sys2Proof.Machine.execKcUnfreeze s
  | .kcSetRoot => Sys2Proof.Machine.execKcSetRoot s
  | .kcWriteRoutesEntries => Sys2Proof.Machine.execKcWriteRoutesEntries s
  | .kcWriteRoutesApply => Sys2Proof.Machine.execKcWriteRoutesApply s
  | .routesApplyDrained => Sys2Proof.Machine.execRoutesApplyDrained s
  | .kcKeyLoad => Sys2Proof.Machine.execKcKeyLoad s
  | .kcBgTestOn => Sys2Proof.Machine.execKcBgTestOn s
  | .kcBgTestOff => Sys2Proof.Machine.execKcBgTestOff s
  | .kcHbmSweep => Sys2Proof.Machine.execKcHbmSweep s
  | .hbmSweepDone => Sys2Proof.Machine.execHbmSweepDone s
  | .kcRawModeEnter => Sys2Proof.Machine.execKcRawModeEnter s
  | .kcZeroise => Sys2Proof.Machine.execKcZeroise s
  | .kcShutdown => Sys2Proof.Machine.execKcShutdown s
  | .kcUnassigned => Sys2Proof.Machine.execKcUnassigned s
  | .mbxLockoutEnd => Sys2Proof.Machine.execMbxLockoutEnd s
  | .mbxCounterStored pin => Sys2Proof.Machine.execMbxCounterStored pin s
  | .mbxCtrLoRead => Sys2Proof.Machine.execMbxCtrLoRead s
  | .lcFloorLoRead two => Sys2Proof.Machine.execLcFloorLoRead two s
  | .tamperNAssert => Sys2Proof.Machine.execTamperNAssert s
  | .vbatLoss => Sys2Proof.Machine.execVbatLoss s
  | .tamperTemperature => Sys2Proof.Machine.execTamperTemperature s
  | .vccHubExcursion low => Sys2Proof.Machine.execVccHubExcursion low s
  | .refclkSysLoss => Sys2Proof.Machine.execRefclkSysLoss s
  | .frzPopWrite v => Sys2Proof.Machine.execFrzPopWrite v s
  | .scrubFrame sec => Sys2Proof.Machine.execScrubFrame sec s
  | .scrubPriorityRewrite sec => Sys2Proof.Machine.execScrubPriorityRewrite sec s
  | .frameRewriteApply tile => Sys2Proof.Machine.execFrameRewriteApply tile s
  | .scrCfgPeerCheck sec => Sys2Proof.Machine.execScrCfgPeerCheck sec s
  | .scrubWatchdog sec recent => Sys2Proof.Machine.execScrubWatchdog sec recent s
  | .scrCfgWrite sec v => Sys2Proof.Machine.execScrCfgWrite sec v s
  | .readbackRead off => Sys2Proof.Machine.execReadbackRead off s
  | .repXlatQWrite sec v => Sys2Proof.Machine.execRepXlatQWrite sec v s
  | .testRawApply seg => Sys2Proof.Machine.execTestRawApply seg s
  | .trcCmdStart => Sys2Proof.Machine.execTrcCmdStart s
  | .trcCmdStop => Sys2Proof.Machine.execTrcCmdStop s
  | .traceStopDone => Sys2Proof.Machine.execTraceStopDone s
  | .trcCmdSnapNow => Sys2Proof.Machine.execTrcCmdSnapNow s
  | .trcCmdSnapArm => Sys2Proof.Machine.execTrcCmdSnapArm s
  | .snapshotDone => Sys2Proof.Machine.execSnapshotDone s
  | .trcCmdExportOn => Sys2Proof.Machine.execTrcCmdExportOn s
  | .trcCmdExportOff => Sys2Proof.Machine.execTrcCmdExportOff s
  | .trcCmdResetRing => Sys2Proof.Machine.execTrcCmdResetRing s
  | .trcCmdReserved cmd => Sys2Proof.Machine.execTrcCmdReserved cmd s
  | .traceRecordWrite sec ex => Sys2Proof.Machine.execTraceRecordWrite sec ex s
  | .trcProbeWrite sec k v => Sys2Proof.Machine.execTrcProbeWrite sec k v s
  | .trcRingPoolWrite v => Sys2Proof.Machine.execTrcRingPoolWrite v s
  | .thermalRead temps => Sys2Proof.Machine.execThermalRead temps s
  | .hbmSupplyFault => Sys2Proof.Machine.execHbmSupplyFault s
  | .smbSetOffset v => Sys2Proof.Machine.execSmbSetOffset v s
  | .smbBlockRead => Sys2Proof.Machine.execSmbBlockRead s
  | .smbOtherCommand => Sys2Proof.Machine.execSmbOtherCommand s
  | .jtagIdcode => Sys2Proof.Machine.execJtagIdcode s
  | .jtagSamplePreload lvl load => Sys2Proof.Machine.execJtagSamplePreload lvl load s
  | .jtagExtest lvl load => Sys2Proof.Machine.execJtagExtest lvl load s
  | .jtagHighz lvl load => Sys2Proof.Machine.execJtagHighz lvl load s
  | .jtagClamp lvl load => Sys2Proof.Machine.execJtagClamp lvl load s
  | .jtagExtestPulse lvl load => Sys2Proof.Machine.execJtagExtestPulse lvl load s
  | .jtagExtestTrain lvl load => Sys2Proof.Machine.execJtagExtestTrain lvl load s
  | .jtagPrivate op => Sys2Proof.Machine.execJtagPrivate op s
  | .jtagBypass => Sys2Proof.Machine.execJtagBypass s
  | .readClear off => Sys2Proof.Machine.execReadClear off s
  | .registerWrite off v split => Sys2Proof.Machine.execRegisterWrite off v split s
  | .gioHoldExpire => Sys2Proof.Machine.execGioHoldExpire s
  | .pstComplete e n => Sys2Proof.Machine.execPstComplete e n s
  | .slotEraseDone => Sys2Proof.Machine.execSlotEraseDone s
  | .keyStored => Sys2Proof.Machine.execKeyStored s
  | .railsInRange => Sys2Proof.Machine.execRailsInRange s
  | .hostLinkUp rate width flit => Sys2Proof.Machine.execHostLinkUp rate width flit s

end Sys2Proof.Machine
end

