-- ==== Sys2Proof/WellFormed.lean ====
section
/-! DEFINITION. Well-formed commands: the operands that a plain number or list type leaves too wide lie in the ranges
the spec gives them, and a reserved-command row carries a reserved code. -/

namespace Sys2Proof

/-- A mark names a resource that exists (R478): physical columns 0–527, block sites 0–4,159, eddies 0–65, queue sites
0–255 and pool ports 0–31 of a section, channels 0–19, HBM stacks and their pseudo-channels, scrubbers, the hub. -/
def Mark.wf (m : Mark) : Bool :=
  match m.kind with
  | 1 => m.sec < 8 && m.idx < 528
  | 2 => m.sec < 8 && m.idx < 4160
  | 3 => m.sec < 8 && m.idx < 66
  | 4 => m.sec < 8 && m.idx < 256
  | 5 => m.sec < 8 && m.idx < 32
  | 6 => m.sec < 20 && m.idx = 0
  | 7 => m.sec < 4 && m.idx < 256
  | 8 => m.sec < 8 && m.idx = 0
  | 9 => m.sec = 0 && m.idx = 0
  | _ => false

/-- A leased resource exists (R476). -/
def LeaseRes.wf (r : LeaseRes) : Bool :=
  match r with
  | .tile t => t < 1048576
  | .spareTile sec pcol row => sec < 8 && pcol < 528 && row < 256
  | .block sec m => sec < 8 && m < 4160
  | .queue q => q < 2048
  | .spad e b => e < 512 && b < 64
  | .spare sec i => sec < 8 && i < 66

/-- A command is well formed. -/
def Instr.wf (i : Instr) : Bool :=
  match i with
  | .shutdownSegmentDone fails => fails.all Mark.wf
  | .abbreviatedSegmentDone fails => fails.all Mark.wf
  | .leaseStart _ r => r.wf
  | .oneHotConflict _ vert idx line => if vert then line < 32 else idx < 256
  | .tickCmdReserved cmd => 6 ≤ cmd.toNat
  | .lnkCmdReserved _ cmd => 5 ≤ cmd.toNat
  | .fabCmdReserved cmd => 2 ≤ cmd.toNat
  | .eddyCmdReserved _ cmd => cmd.toNat = 0 || 4 ≤ cmd.toNat
  | .trcCmdReserved cmd => cmd.toNat = 0 || 8 ≤ cmd.toNat
  | .dmaDescriptorDone _ data => data.length < 536870912
  | _ => true

end Sys2Proof
end

