-- ==== Sys2Proof/Safety.lean ====
section
/-! DEFINITION. What counts as a safe run, in the terms the claims use: the canonical forms, and which parts of the
state a command leaves alone. -/

namespace Sys2Proof.Machine

/-- The register file is in its canonical form: offsets rising, no register listed at its reset value. -/
def RegsOk (s : State) : Prop := mwf resetOf s.regs = true

/-- The banks inside an eddy are in canonical form: registers, scratchpad, queue sites, pool handles. -/
def eddyOk (x : Eddy) : Bool := mwf dG x.g && mwf dHbm x.spad && mwf dInfo x.qinfo && mwf (fun _ => (0 : Word)) x.ph

/-- The device's stores are in canonical form: tiles, blocks, channels, queues and their words, pool ports, HBM, eddies
and their banks, scrubbers. -/
def StoresOk (s : State) : Prop :=
  mwf dTile s.fab.tiles = true ∧ mwf dBlock s.bm = true ∧ mwf dChan s.chans = true ∧ mwf dQueue s.queues = true ∧
  s.queues.all (fun p => mwf dWord p.2.mem) = true ∧ mwf dPort s.pool.ports = true ∧ mwf dHbm s.pool.hbm = true ∧
  mwf dEddy s.eddies = true ∧ s.eddies.all (fun p => eddyOk p.2) = true ∧ mwf dScr s.scr = true

/-- The tables beside the stores are in canonical form: the configuration store's slots, the descriptor caches, the trace
streams, the rewrites that scrubbing owes, the staged routes. -/
def TablesOk (s : State) : Prop :=
  mwf dSlotStore s.nv.slots = true ∧ mwf dDescs s.pool.dcache = true ∧ mwf dStream s.trc.ring = true ∧
  mwf dStream s.trc.exp = true ∧ s.scr.all (fun p => mwf dBits p.2.rewrites) = true ∧
  mwf (fun _ => (0 : Word)) s.net.shadow = true

/-- The commands that wait are well formed. -/
def QueueOk (s : State) : Prop := s.pending.all Instr.wf = true

/-- A run of `k` commands completes: none stops with a fault or a refusal. -/
def RunsFor : Nat → State → Prop
  | 0, _ => True
  | k + 1, s => ∃ t, step s = .next t ∧ RunsFor k t

/-- The parts of the state. -/
inductive Part where
  | pending | regs | dev | fab | bm | tick | ra | chans | net | paths | queues | pool | eddies | msix | host | rdata
  | claims | ldr | nv | mbx | frz | scr | bg | rep | trc | jtag | smb | pins | free
  deriving DecidableEq, Repr

/-- One part is the same in both states. -/
def samePart (s t : State) (p : Part) : Prop :=
  match p with
  | .pending => t.pending = s.pending
  | .regs => t.regs = s.regs
  | .dev => t.dev = s.dev
  | .fab => t.fab = s.fab
  | .bm => t.bm = s.bm
  | .tick => t.tick = s.tick
  | .ra => t.ra = s.ra
  | .chans => t.chans = s.chans
  | .net => t.net = s.net
  | .paths => t.paths = s.paths
  | .queues => t.queues = s.queues
  | .pool => t.pool = s.pool
  | .eddies => t.eddies = s.eddies
  | .msix => t.msix = s.msix
  | .host => t.host = s.host
  | .rdata => t.rdata = s.rdata
  | .claims => t.claims = s.claims
  | .ldr => t.ldr = s.ldr
  | .nv => t.nv = s.nv
  | .mbx => t.mbx = s.mbx
  | .frz => t.frz = s.frz
  | .scr => t.scr = s.scr
  | .bg => t.bg = s.bg
  | .rep => t.rep = s.rep
  | .trc => t.trc = s.trc
  | .jtag => t.jtag = s.jtag
  | .smb => t.smb = s.smb
  | .pins => t.pins = s.pins
  | .free => t.free = s.free

/-- The command completes, and the state it leaves satisfies `P`. -/
def Gives (i : Instr) (s : State) (P : State → Prop) : Prop := ∃ t, exec i s = .next t ∧ P t

/-- FRAME: every part of the state but those named is unchanged. -/
def OnlyParts (ps : List Part) (s t : State) : Prop := ∀ p, p ∉ ps → samePart s t p

/-- Every part of the state but those named is as it is right after reset. -/
def FreshBut (ps : List Part) (t : State) : Prop := ∀ p, p ∉ ps → samePart State.reset t p

/-- Every register but those at the offsets named reads as before. -/
def OnlyRegs (os : List Nat) (s t : State) : Prop := ∀ o, o ∉ os → getReg t o = getReg s o

/-- The eddy may issue an instruction, the one at its PC is `w`, and fetching it changes nothing; its banks are in
canonical form. -/
def Issues (e : Nat) (w : Word) (s : State) : Prop :=
  mayIssueE s (getEddy s e) = true ∧ fetch e s = (some w, s) ∧ mwf dEddy s.eddies = true ∧
  eddyOk (getEddy s e) = true

/-- No operation outstanding writes one of these registers. -/
def NotPending (x : Eddy) (l : List Nat) : Prop := ∀ r ∈ l, pendingReg x r = false

/-- The registers of an eddy with `v` in g[rd]; a write of g0 is discarded. -/
def withG (x : Eddy) (rd : Nat) (v : BitVec 64) : Nat → BitVec 64 := fun r => if r = rd ∧ rd ≠ 0 then v else getG x r

/-- FRAME of an eddy instruction: registers, FLAGS and PC become those named, the loop buffer may change, the rest of the
eddy, every other eddy and every part but `ps` is unchanged. -/
def EddyGoes (ps : List Part) (e : Nat) (g : Nat → BitVec 64) (fl : BitVec 4) (pc : Word) (s t : State) : Prop :=
  (∀ r, getG (getEddy t e) r = g r) ∧
  getEddy t e = { getEddy s e with g := (getEddy t e).g, flags := fl, pc := pc, loop := (getEddy t e).loop } ∧
  (∀ d, d ≠ e → getEddy t d = getEddy s d) ∧ OnlyParts ps s t

/-- The byte of an eddy's scratchpad at address `a`. -/
def spByte (x : Eddy) (a : Nat) : Nat := fld (mget dHbm x.spad (a / 8)).data (8 * (a % 8)) 8

/-- The `n` bytes of the scratchpad at `a` are intact and in no leased block. -/
def SpPlain (s : State) (e a n : Nat) : Prop :=
  ∀ j < n, (mget dHbm (getEddy s e).spad ((a + j) / 8)).err = 0 ∧ leased s (.spad e ((a + j) / 1024)) = false

/-- FRAME of an eddy exception: the handler is entered with the cause, EPC and the status saved (R373). -/
def EddyTraps (ps : List Part) (e code : Nat) (epc : Word) (s t : State) : Prop :=
  (getEddy s e).exc = false ∧ (getEddy t e).epc = epc ∧ fld (getEddy t e).cause 0 8 = code ∧ (getEddy t e).pc = (getEddy s e).vbase ∧
  (getEddy t e).ie = false ∧ (getEddy t e).exc = true ∧ (getEddy t e).g = (getEddy s e).g ∧
  (getEddy t e).estatus = w32 (b2n (getEddy s e).ie + 4 * b2n (getEddy s e).secure + (getEddy s e).flags.toNat * 2 ^ 8) ∧
  (getEddy t e).flags = (getEddy s e).flags ∧ (∀ d, d ≠ e → getEddy t d = getEddy s d) ∧ OnlyParts ps s t

/-- A load attempt has failed with a code and a location (R420, R421): it falls back to slot 0 once, else it is the
final failure; the device is as the start of a load leaves it. -/
def AttemptFailed (code : Nat) (loc : Option Nat) (s t : State) : Prop :=
  getReg t Reg.ldrFails = satInc (getReg s Reg.ldrFails) ∧
  getReg t Reg.ldrLoc = (match loc with | some n => w32 (2 ^ 31 + n) | none => 0) ∧
  t.fab.gsr = 0xFF#8 ∧ t.tick.st = .idle ∧ t.claims = [] ∧ t.fab.writesOn = false ∧
  (if s.ldr.attempt = 0 ∧ s.ldr.src ≠ 0 then
    t.ldr.phase = .header ∧ t.ldr.src = 0 ∧ t.ldr.attempt = 1 ∧ t.ldr.locked = true ∧ t.dev.cfgErr = s.dev.cfgErr ∧
    getReg t Reg.ldrFallbacks = satInc (getReg s Reg.ldrFallbacks)
  else
    t.ldr.phase = .failed ∧ t.ldr.busy = false ∧ t.ldr.locked = false ∧ t.dev.cfgErr = true ∧
    getReg t Reg.ldrResult = w32 (code + 256 * s.ldr.attempt + 512))

/-- A keyed command has completed with a SEC_ result and a block code (R441). -/
def MbxEnds (result block : Nat) (s t : State) : Prop :=
  fld (getReg t Reg.mbxStat) 0 8 = result ∧ fld (getReg t Reg.mbxStat) 16 8 = block ∧ bitAt (getReg t Reg.mbxStat) 31 = false ∧
  t.mbx.phase = .idle ∧ (∀ i < 512, getReg t (Reg.mbxBuf i) = 0#32) ∧
  getReg t Reg.mbxRefused = (if result = 0 then getReg s Reg.mbxRefused else satInc (getReg s Reg.mbxRefused))

/-- Steps 1 to 4 of R442 for the command in MBX_BUF. -/
def MbxChecked (s t : State) : Prop :=
  if 1040 < opLenOf s ∨ bufN s 12 8 = 2 ^ 64 - 1 then MbxEnds 0x20 0 s t
  else if bufN s 4 8 ≠ Config.serial.toNat then MbxEnds 2 0 s t
  else if tagMatches s = false then
    MbxEnds 3 0 s t ∧ t.mbx.tagRun = s.mbx.tagRun + 1 ∧ getReg t Reg.mbxTagFails = satInc (getReg s Reg.mbxTagFails)
  else if bufN s 12 8 ≤ s.nv.counter then MbxEnds 4 0 s t ∧ t.mbx.tagRun = 0
  else t.mbx.phase = .storing ∧ t.mbx.tagRun = 0 ∧ mbxBusy t = true ∧ t.nv = s.nv

/-- Looking descriptor `n` up through cache `u` (0 to 7 a section's, 8 the confluence's) finds no error: it is held there, or the
table's words are intact, in HBM and in the FIFOs that bring them (R283, R304). -/
def DescClean (s : State) (u n : Nat) : Prop :=
  (cachedDesc s u n).isSome = true ∨ (s.pool.fifo = [] ∧ ∀ i < 4, (hbmAt s (4 * n + i)).err = 0)

/-- The parts whose contents self-test segment `k` destroys (R470, R475). -/
def testedParts (k : Nat) : List Part :=
  if k < 8 then [.fab, .bm, .queues, .ra, .scr, .free]
  else if k = 8 then [.queues, .free]
  else if k = 9 then [.pool, .free]
  else if k = 10 then [.eddies, .free]
  else if k = 11 then [.ra, .free]
  else []

/-- The next health record's sequence number does not wrap past 2³² − 1 (R472). -/
def SeqRoom (s : State) : Prop := ∀ r, newestRec s = some r → r.seq + 1 < 2 ^ 32

/-- A load has started from a source (R414, R415). -/
def LoadStarted (src : Nat) (t : State) : Prop :=
  t.dev.st = .starting ∧ t.ldr.phase = .header ∧ t.ldr.busy = true ∧ t.ldr.src = src ∧ t.ldr.attempt = 0 ∧ t.ldr.locked = true ∧
  t.fab.gsr = 0xFF#8 ∧ t.tick.st = .idle ∧ t.claims = []

end Sys2Proof.Machine
end

