-- ==== Sys2Proof/Certificates/Slice0/Obligations.lean ====
section
/-! DEFINITION. The statements for the provers: what the commands of the ET32 do, by the spec's rules. -/

section
open Sys2Proof
open Sys2Proof.Machine

/-- A step of the block takes the command at the front of its queue and answers what the command's own meaning answers on
the state whose queue is the rest. This is the model's own convention (log entry 126). -/
def Obligations.StepRunsFront : Prop :=
  ∀ (s : State) (c : Instr) (rest : List Instr), s.pending = c :: rest → step s = exec c { s with pending := rest }

/-- On an empty queue a step changes nothing: every time-driven event of the spec has a command of its own
(the model's choice, log entry 126). -/
def Obligations.IdleKeepsState : Prop := ∀ s : State, s.pending = [] → step s = .next s

/-- Right after PORST_N is released the device is in STARTING with DEV_CAUSE 0x01 and DEV_EVENT POWER_UP (R33, R39), the GSR
of every section is asserted (R57), the tick engine is in IDLE, no GIO output is enabled, every link channel is DISABLED,
every tile holds the idle frame (R403), every register the tables name holds the value of its Reset column (R5), and
no command waits.
Where the spec leaves room this states the model's own choice or reading: log entries 44 and 158. -/
def Obligations.ResetState : Prop :=
  State.reset.dev.st = .starting ∧ getReg State.reset Reg.devCause = 1#32 ∧ getReg State.reset Reg.devEvent = 1#32 ∧
  State.reset.fab.gsr = 0xFF#8 ∧ State.reset.tick.st = .idle ∧ State.reset.pins.gioOe = 0#480 ∧
  (∀ ch, (getChan State.reset ch).st = .disabled) ∧ (∀ t, frameOf State.reset t = idleFrame) ∧
  (∀ o, getReg State.reset o = resetOf o) ∧ State.reset.pending = []

/-- The reset state meets the invariants that the statements below ask for: the register file and every store are in their
canonical forms and every waiting command is well formed. -/
def Obligations.ResetCanonical : Prop := RegsOk State.reset ∧ StoresOk State.reset ∧ TablesOk State.reset ∧ QueueOk State.reset

/-- Whatever command a step runs, a register file in its canonical form (offsets rising, no register listed at its reset
value) stays so, so that equal register contents are equal data. -/
def Obligations.RegisterFileInvariant : Prop := ∀ s t : State, RegsOk s → step s = .next t → RegsOk t

/-- Whatever command a step runs, tiles, block memories, channels, queues, pool ports, HBM, eddies and scrubbers that are in
canonical form (keys rising, no entry equal to what an unlisted key reads as), with the words of queues and the banks of eddies, stay so, so that equal contents are equal data. The slots of the configuration store,
the descriptor caches, the trace streams, the rewrites that scrubbing owes and the staged routes stay so too. -/
def Obligations.StoresInvariant : Prop :=
  (∀ s t : State, StoresOk s → step s = .next t → StoresOk t) ∧ (∀ s t : State, TablesOk s → step s = .next t → TablesOk t)

/-- Every step answers a next state. It removes the command at the front of the queue and touches no other
waiting command, so that a queue of well-formed commands stays one and the device never stops. The queue of waiting commands
and the order in which they are taken are the model's own convention, not the spec's (log entries 126 and 1). -/
def Obligations.QueueFifo : Prop :=
  ∀ s : State, ∃ t, step s = .next t ∧ t.pending = s.pending.tail ∧ (QueueOk s → QueueOk t)

/-- Whatever command a step runs, the life-cycle state stays or moves along a row of the table of R438, with the row's
condition met: the repair map fused for PROVISIONED, a fuse key present for DEPLOYED, SERVICE_TRIPS below 32 for SERVICE.
No step leaves RETIRED. -/
def Obligations.LifeCycleTable : Prop :=
  ∀ s t : State, step s = .next t → t.nv.lc = s.nv.lc ∨
    match s.nv.lc, t.nv.lc with
    | .blank, .manufacture => True
    | .manufacture, .provisioned => s.nv.fused = true
    | .provisioned, .deployed => s.nv.kFuse.isSome = true
    | .deployed, .service => s.nv.trips < 32
    | .service, .deployed => True
    | .manufacture, .retired | .provisioned, .retired | .deployed, .retired | .service, .retired => True
    | _, _ => False

/-- Whatever command a step runs, the stored command counter, LC_FLOOR1 and SERVICE_TRIPS never fall, and LC_FLOOR2 falls
only where KEY_STORED installs a new battery-backed key.
Where the spec leaves room this states the model's own choice or reading: log entry 127. -/
def Obligations.CountersNeverFall : Prop :=
  ∀ s t : State, step s = .next t →
    s.nv.counter ≤ t.nv.counter ∧ s.nv.floor1 ≤ t.nv.floor1 ∧ s.nv.trips ≤ t.nv.trips ∧
    (s.pending.head? ≠ some .keyStored → s.nv.floor2 ≤ t.nv.floor2)

/-- PORST_N_ASSERT holds the device in reset from any state: every part is as after reset but the waiting commands, what
outlives PORST_N (fuses, store, counters: a slot being written keeps length 0), the run of tag failures (R443), what PCIe and
the supplies hold, the test access port and the free-value counter; the high halves of the stored counter and floors read
what is stored (R455, R456). A keyed command that is storing its counter has used it up (R442, R512), and a zeroise response that has not begun falls due at the next power-up. PORST_N_RELEASE of a low PORST_N samples the straps and starts the device if every rail is in range; otherwise
RAILS_IN_RANGE starts it. A release of a PORST_N that is high changes nothing.
Where the spec leaves room this states the model's own choice or reading: log entries 95 and 197. -/
def Obligations.ResetPins : Prop :=
  (∀ s, Gives .porstNAssert s (fun t =>
    t.dev.inReset = true ∧ t.dev.porstHigh = false ∧ t.pending = s.pending ∧
    t.nv.counter = (if s.mbx.phase = .storing then max s.nv.counter (bufN s 12 8) else s.nv.counter) ∧
    t.nv.lc = s.nv.lc ∧ t.nv.marks = s.nv.marks ∧ t.nv.kFuse = s.nv.kFuse ∧ t.dev.cond = s.dev.cond ∧
    (s.mbx.phase = .idle → s.ldr.zeroise = false → t.nv = s.nv) ∧
    t.nv.zeroDue = (if s.ldr.zeroise then some (s.ldr.erase ||| s.nv.zeroDue.getD 0) else s.nv.zeroDue) ∧ t.host = { bar2 := s.host.bar2, perstHigh := s.host.perstHigh } ∧
    t.mbx = { tagRun := s.mbx.tagRun } ∧ t.pins = { absent := s.pins.absent } ∧
    getReg t Reg.mbxCtrHi = w32 (t.nv.counter / 2 ^ 32) ∧ getReg t Reg.lcFloor1Hi = w32 (t.nv.floor1 / 2 ^ 32) ∧
    getReg t Reg.lcFloor2Hi = w32 (t.nv.floor2 / 2 ^ 32) ∧
    OnlyRegs [Reg.mbxCtrHi, Reg.lcFloor1Hi, Reg.lcFloor2Hi] State.reset t ∧
    FreshBut [.dev, .pending, .nv, .free, .jtag, .mbx, .pins, .host, .regs] t)) ∧
  (∀ s straps rails, s.dev.porstHigh = false → Gives (.porstNRelease straps rails) s (fun t =>
    t.dev.inReset = !rails ∧ t.dev.porstHigh = true ∧ t.dev.straps = straps ∧ t.dev.st = .starting ∧
    t.pending = s.pending ∧ t.nv = s.nv ∧ t.jtag = s.jtag ∧ t.dev.cond = s.dev.cond ∧
    t.host = { bar2 := s.host.bar2, perstHigh := s.host.perstHigh, training := rails && s.host.perstHigh } ∧
    t.mbx = { tagRun := s.mbx.tagRun } ∧ t.pins = { absent := s.pins.absent } ∧
    OnlyRegs [Reg.mbxCtrHi, Reg.lcFloor1Hi, Reg.lcFloor2Hi] State.reset t ∧
    FreshBut [.dev, .pending, .nv, .free, .jtag, .mbx, .pins, .host, .regs] t)) ∧
  (∀ s straps rails, s.dev.porstHigh = true → Gives (.porstNRelease straps rails) s (fun t => t = s)) ∧
  (∀ s, s.dev.inReset = true → s.dev.porstHigh = true → Gives .railsInRange s (fun t =>
    t.dev.inReset = false ∧ t.dev.st = .starting ∧ t.dev.straps = s.dev.straps ∧
    t.pending = s.pending ∧ t.nv = s.nv ∧ t.dev.watch = s.dev.watch ∧ t.host.training = s.host.perstHigh ∧
    t.mbx = { tagRun := s.mbx.tagRun } ∧ t.pins = { absent := s.pins.absent } ∧
    OnlyRegs [Reg.mbxCtrHi, Reg.lcFloor1Hi, Reg.lcFloor2Hi] State.reset t ∧
    FreshBut [.dev, .pending, .nv, .free, .jtag, .mbx, .pins, .host, .regs] t))

/-- PWR_OFF_REQ_N_ASSERT in STARTING, OPERATIONAL or DEGRADED enters SHUTTING_DOWN with DEV_CAUSE 0x06 and DEV_EVENT
SHUT_PIN, halts the tick engine with TICK_SHUTDOWN, asserts GSR, disables the user outputs and the channels, abandons a load with LOAD_ABORTED, and
writes a health record without completion marker. In SHUTTING_DOWN the pin only sets SHUT_PIN (R39). A release changes nothing else (R38). Each SHUTDOWN_SEGMENT_DONE adds its failures and
65,536 patterns to the record, and the contents of what it tests are lost; SHUTDOWN_TEST_DONE after 16 segments writes the complete record, wipes every secure part and raises
SHDN_DONE.
Where the spec leaves room this states the model's own choice or reading: log entry 82. -/
def Obligations.ShutdownEntry : Prop :=
  (∀ s, RegsOk s → s.dev.inReset = false → s.dev.pwrOff = false → s.dev.st ≠ .shuttingDown → SeqRoom s →
    Gives .pwrOffReqNAssert s (fun t =>
      t.dev.st = .shuttingDown ∧ t.dev.pwrOff = true ∧ getReg t Reg.devCause = 6#32 ∧ bitAt (getReg t Reg.devEvent) 7 = true ∧
      t.tick.st = .halted ∧ getReg t Reg.tickCause = 6#32 ∧ t.fab.gsr = 0xFF#8 ∧ t.fab.writesOn = false ∧
      t.pins.gioOe = 0#480 ∧ (∀ ch, (getChan t ch).st = .disabled) ∧ t.rep.seg = 0 ∧
      (newestRec t).map HealthRec.complete = some false ∧
      (s.ldr.busy = true → s.ldr.pow = .over → t.ldr.phase = .aborted ∧ fld (getReg t Reg.ldrResult) 0 8 = 0x12))) ∧
  (∀ s, RegsOk s → s.dev.inReset = false → s.dev.pwrOff = false → s.dev.st = .shuttingDown → s.mbx.phase = .idle →
    Gives .pwrOffReqNAssert s (fun t => t.dev.st = .shuttingDown ∧ t.dev.pwrOff = true ∧
      bitAt (getReg t Reg.devEvent) 7 = true ∧ OnlyRegs [Reg.devEvent] s t ∧ OnlyParts [.dev, .regs, .msix] s t)) ∧
  (∀ s, Gives .pwrOffReqNRelease s (fun t => t.dev.pwrOff = false ∧ t.dev.st = s.dev.st ∧ OnlyParts [.dev] s t)) ∧
  (∀ s fails, s.dev.inReset = false → s.dev.st = .shuttingDown → s.rep.seg < 16 → SeqRoom s →
    Gives (.shutdownSegmentDone fails) s (fun t =>
      t.rep.seg = s.rep.seg + 1 ∧ t.rep.found = s.rep.found ++ fails ∧
      (newestRec t).map HealthRec.reached = some (65536 * (s.rep.seg + 1)) ∧
      (newestRec t).map HealthRec.complete = some false ∧ OnlyParts ([.rep, .nv] ++ testedParts s.rep.seg) s t)) ∧
  (∀ s, s.dev.inReset = false → s.dev.st = .shuttingDown → s.rep.seg = 16 → s.dev.shdnDone = false → SeqRoom s →
    Gives .shutdownTestDone s (fun t =>
      t.dev.shdnDone = true ∧ (newestRec t).map HealthRec.complete = some true ∧
      (newestRec t).map HealthRec.reached = some 0x100000 ∧ (newestRec t).map HealthRec.fail = some (!s.rep.found.isEmpty) ∧
      (∀ e < 512, (getEddy t e).wipe = false) ∧
      (∀ e < 512, ∀ i ≥ 7680, mget dHbm (getEddy t e).spad i = dHbm i) ∧ OnlyParts [.dev, .nv, .eddies, .regs] s t))

/-- FUSE_READ_DONE puts the stored marks in force, and repeats a pending wipe, after which slot 0 is loaded; a VBAT loss found at
power-up is then recorded as a tamper event of source 1 (R435), and a zeroisation that fell due in reset starts its load of
slot 0 (R450). HEALTH_RECORD_READ with no valid record
starts the abbreviated test of all 16 segments; with a PASS record it starts the load of BOOT_SLOT, with a FAIL record it marks
the failures first, and with an INCOMPLETE one it marks them and tests the segments left. ABBREVIATED_SEGMENT_DONE
goes on to the next segment, and after the last writes a complete record of KIND 2 that joins the older record's failures
and starts the load. What a segment tests loses its contents.
Where the spec leaves room this states the model's own choice or reading: log entries 93, 161 and 197. -/
def Obligations.PowerUpOrder : Prop :=
  (∀ s, powering s = true → s.ldr.pow = .fuses → s.nv.vbatFound = false → s.nv.zeroDue = none → Gives .fuseReadDone s (fun t =>
    t.ldr.pow = .health ∧ t.rep.marks = s.nv.marks ∧ t.ldr.slot0 = s.nv.wipe.isSome ∧ t.nv.wipe = none ∧
    (s.nv.wipe = none → OnlyParts [.ldr, .rep] s t))) ∧
  (∀ s, RegsOk s → powering s = true → s.ldr.pow = .fuses → s.nv.vbatFound = true → s.nv.wipe = none → Gives .fuseReadDone s (fun t =>
    bitAt t.nv.tamper 1 = true ∧ t.nv.vbatFound = false ∧ t.rep.marks = s.nv.marks ∧
    getReg t Reg.tamperCount = satInc (getReg s Reg.tamperCount))) ∧
  (∀ s m, powering s = true → s.ldr.pow = .fuses → s.nv.zeroDue = some m → s.nv.wipe = none → Gives .fuseReadDone s (fun t =>
    LoadStarted 0 t ∧ t.ldr.zeroise = true ∧ t.ldr.erase = m ||| s.ldr.erase ∧ t.nv.zeroDue = none ∧ t.nv.kBbk = none)) ∧
  (∀ s, powering s = true → s.ldr.pow = .health → newestRec s = none → Gives .healthRecordRead s (fun t =>
    t.ldr.pow = .abbrev (upTo 16) ∧ t.rep.outcome = 3 ∧ OnlyParts [.ldr, .rep] s t)) ∧
  (∀ s r, powering s = true → s.ldr.pow = .health → newestRec s = some r → recOutcome r = 0 →
    Gives .healthRecordRead s (fun t =>
      t.ldr.pow = .over ∧ t.ldr.phase = .header ∧ t.ldr.src = (if s.ldr.slot0 then 0 else s.nv.boot) ∧
      t.rep.outcome = 0 ∧ OnlyParts [.dev, .ldr, .rep, .eddies, .regs] s t)) ∧
  (∀ s r, RegsOk s → powering s = true → s.ldr.pow = .health → newestRec s = some r → recOutcome r = 1 →
    Gives .healthRecordRead s (fun t =>
      t.ldr.pow = .over ∧ t.ldr.phase = .header ∧ t.ldr.src = (if s.ldr.slot0 then 0 else s.nv.boot) ∧
      t.rep.outcome = 1 ∧ (∀ m, m ∈ t.nv.marks ↔ m ∈ s.nv.marks ∨ m ∈ r.fails) ∧ t.rep.marks = t.nv.marks ∧
      getReg t Reg.testResult = (if ∀ m ∈ r.fails, m ∈ s.nv.marks then getReg s Reg.testResult else 2#32) ∧
      OnlyParts [.dev, .ldr, .rep, .nv, .eddies, .regs] s t)) ∧
  (∀ s r k l, RegsOk s → powering s = true → s.ldr.pow = .health → newestRec s = some r → recOutcome r = 2 →
    segsLeft r.segDone = k :: l → Gives .healthRecordRead s (fun t =>
      t.ldr.pow = .abbrev (k :: l) ∧ t.rep.outcome = 2 ∧ (∀ m, m ∈ t.nv.marks ↔ m ∈ s.nv.marks ∨ m ∈ r.fails) ∧
      t.rep.marks = t.nv.marks ∧ getReg t Reg.testResult = 3#32 ∧ OnlyRegs [Reg.testResult] s t ∧
      OnlyParts [.ldr, .rep, .nv, .regs] s t)) ∧
  (∀ s k k' l fails, powering s = true → s.ldr.pow = .abbrev (k :: k' :: l) →
    Gives (.abbreviatedSegmentDone fails) s (fun t =>
      t.ldr.pow = .abbrev (k' :: l) ∧ t.rep.found = s.rep.found ++ fails ∧ OnlyParts ([.ldr, .rep] ++ testedParts k) s t)) ∧
  (∀ s k fails, powering s = true → s.ldr.pow = .abbrev [k] → SeqRoom s →
    Gives (.abbreviatedSegmentDone fails) s (fun t =>
      t.ldr.pow = .over ∧ t.ldr.phase = .header ∧ (newestRec t).map HealthRec.kind = some 2 ∧
      (newestRec t).map HealthRec.complete = some true ∧
      (newestRec t).map HealthRec.fails =
        some ((((newestRec s).map HealthRec.fails).getD [] ++ (s.rep.found ++ fails)).take 256) ∧
      (newestRec t).map HealthRec.segDone = some 0xFFFF#16 ∧ (∀ m ∈ s.rep.found ++ fails, m ∈ t.nv.marks) ∧
      OnlyParts ([.dev, .ldr, .rep, .nv, .eddies, .regs] ++ testedParts k) s t))

/-- In a cell tile outside GSR, LC_EVALUATE of a cell in mode LUT6 (R49): if all six inputs are valid and OA is at spacer, OA goes valid
with the bit of the truth table that the inputs select (R48); if some input is not valid, OA stays as it was (no early evaluation).
In DUAL5, OA takes FA once I0 to I4 are valid and OB takes FB once I0 to I3 and I5 are. In ARITH, OA takes P xor CIN once I0 to I4 and
CIN are valid; COUT and OB take CIN once those are valid where P is 1, and G once I0 to I5 are, without CIN, where P is 0; else they
stay. CIN of LC j ≥ 1 of a cluster is the COUT of LC j − 1 (R50).
In any mode no rail of OA falls (R41), so an OA that shows the value of its inputs stays. Unless an output then shows the illegal code,
which every cluster that monitors it counts (R66), no other tile changes but for the acknowledge that a stage holds (R45), and
nothing outside the fabric. -/
def Obligations.LogicCell : Prop :=
  ∀ (s : State) (tile : BitVec 20) (n : Fin 32), StoresOk s → hostOf s tile.toNat = .none → gsrOn s (tSec tile.toNat) = false →
    fFree (frameOf s tile.toNat) = false →
    Gives (.lcEvaluate tile n) s (fun t =>
      (fMode (frameOf s tile.toNat) n = 1 → (lcIns s tile.toNat n).all Rail.valid = true →
        bitAt (getTile s tile.toNat).oaT n = false → bitAt (getTile s tile.toNat).oaF n = false →
        bitAt (getTile t tile.toNat).oaT n = fLut (frameOf s tile.toNat) n (lutIdx (lcIns s tile.toNat n)) ∧
        bitAt (getTile t tile.toNat).oaF n = !fLut (frameOf s tile.toNat) n (lutIdx (lcIns s tile.toNat n))) ∧
      (fMode (frameOf s tile.toNat) n = 1 → (lcIns s tile.toNat n).all Rail.valid = false →
        (getTile t tile.toNat).oaT = (getTile s tile.toNat).oaT ∧ (getTile t tile.toNat).oaF = (getTile s tile.toNat).oaF) ∧
      (let I (k : Nat) : Rail := (lcIns s tile.toNat n).getD k .spacer
       let V (l : List Nat) : Bool := l.all fun k => (I k).valid
       let P := fLut (frameOf s tile.toNat) n (lutIdx [I 0, I 1, I 2, I 3, I 4])
       let G := fLut (frameOf s tile.toNat) n (32 + lutIdx [I 0, I 1, I 2, I 3, I 5])
       let C := cinRail s tile.toNat n
       (fMode (frameOf s tile.toNat) n = 2 →
         (V [0, 1, 2, 3, 4] = true → bitAt (getTile s tile.toNat).oaT n = false → bitAt (getTile s tile.toNat).oaF n = false →
           bitAt (getTile t tile.toNat).oaT n = P ∧ bitAt (getTile t tile.toNat).oaF n = !P) ∧
         (V [0, 1, 2, 3, 5] = true → bitAt (getTile s tile.toNat).obT n = false → bitAt (getTile s tile.toNat).obF n = false →
           bitAt (getTile t tile.toNat).obT n = G ∧ bitAt (getTile t tile.toNat).obF n = !G) ∧
         (V [0, 1, 2, 3, 4] = false → (getTile t tile.toNat).oaT = (getTile s tile.toNat).oaT) ∧
         (V [0, 1, 2, 3, 5] = false → (getTile t tile.toNat).obT = (getTile s tile.toNat).obT)) ∧
       (fMode (frameOf s tile.toNat) n = 3 →
         (V [0, 1, 2, 3, 4] = true → C.valid = true → bitAt (getTile s tile.toNat).oaT n = false →
           bitAt (getTile s tile.toNat).oaF n = false →
           bitAt (getTile t tile.toNat).oaT n = (P != C.high) ∧ bitAt (getTile t tile.toNat).oaF n = !(P != C.high)) ∧
         (V [0, 1, 2, 3, 4] = true → bitAt (getTile s tile.toNat).coT n = false → bitAt (getTile s tile.toNat).coF n = false →
           (P = false → (I 5).valid = true →
             bitAt (getTile t tile.toNat).coT n = G ∧ bitAt (getTile t tile.toNat).coF n = !G) ∧
           (P = true → C.valid = true →
             bitAt (getTile t tile.toNat).coT n = C.high ∧ bitAt (getTile t tile.toNat).coF n = !C.high) ∧
           ((if P = true then C.valid else (I 5).valid) = false →
             bitAt (getTile t tile.toNat).coT n = false ∧ bitAt (getTile t tile.toNat).coF n = false) ∧
           (bitAt (getTile s tile.toNat).obT n = false → bitAt (getTile s tile.toNat).obF n = false →
             bitAt (getTile t tile.toNat).obT n = bitAt (getTile t tile.toNat).coT n ∧
             bitAt (getTile t tile.toNat).obF n = bitAt (getTile t tile.toNat).coF n)) ∧
         (V [0, 1, 2, 3, 4] = false → (getTile t tile.toNat).oaT = (getTile s tile.toNat).oaT ∧
           (getTile t tile.toNat).coT = (getTile s tile.toNat).coT ∧ (getTile t tile.toNat).obT = (getTile s tile.toNat).obT)) ∧
       (n.val % 8 ≠ 0 → fMode (frameOf s tile.toNat) (n.val - 1) = 3 →
         (C = .v1 ↔ bitAt (getTile s tile.toNat).coT (n.val - 1) = true ∧ bitAt (getTile s tile.toNat).coF (n.val - 1) = false) ∧
         (C = .v0 ↔ bitAt (getTile s tile.toNat).coT (n.val - 1) = false ∧ bitAt (getTile s tile.toNat).coF (n.val - 1) = true))) ∧
      (∀ k, bitAt (getTile s tile.toNat).oaT k = true → bitAt (getTile t tile.toNat).oaT k = true) ∧
      (∀ k, bitAt (getTile s tile.toNat).oaF k = true → bitAt (getTile t tile.toNat).oaF k = true) ∧
      (lcIllegal (getTile t tile.toNat) n = false →
        (∀ u, u ≠ tile.toNat → getTile t u = { getTile s u with ackC := (getTile t u).ackC }) ∧ OnlyParts [.fab] s t) ∧
      OnlyParts [.fab, .regs] s t)

/-- TILE_SETTLED in a data wave: a tick-bound cell tile whose four clusters are data-complete reports settled, unless its section is under
GSR (R57) or undervoltage (R73), in which case nothing changes; its storage elements keep their outputs, and it becomes the last to settle (R133). TILE_SPACER_COMPLETE in
a spacer wave: a tick-bound tile all of whose monitored points are at spacer reports. Neither changes another tile. -/
def Obligations.TileReports : Prop :=
  (∀ (s : State) (tile : BitVec 20), waveOn s = true → fFree (frameOf s tile.toNat) = false →
    hostOf s tile.toNat = .none → (upTo 4).all (dataComplete s tile.toNat) = true →
    gsrOn s (tSec tile.toNat) = false → bitAt s.fab.uv (tSec tile.toNat) = false →
    Gives (.tileSettled tile) s (fun t =>
      (getTile t tile.toNat).settled = true ∧ (getTile t tile.toNat).q = (getTile s tile.toNat).q ∧
      ((getTile s tile.toNat).settled = false → t.tick.lastSec = tSec tile.toNat) ∧
      t.tick = { s.tick with lastCls := t.tick.lastCls, lastSec := t.tick.lastSec } ∧
      (∀ u, u ≠ tile.toNat → getTile t u = getTile s u) ∧ OnlyParts [.fab, .tick] s t)) ∧
  (∀ (s : State) (tile : BitVec 20), (gsrOn s (tSec tile.toNat) = true ∨ bitAt s.fab.uv (tSec tile.toNat) = true) →
    Gives (.tileSettled tile) s (fun t => t = s) ∧ Gives (.tileSpacerComplete tile) s (fun t => t = s)) ∧
  (∀ (s : State) (tile : BitVec 20), s.tick.inTick = true → s.tick.spacer = true → fFree (frameOf s tile.toNat) = false →
    gsrOn s (tSec tile.toNat) = false → bitAt s.fab.uv (tSec tile.toNat) = false →
    (∀ c < 4, ∀ r ∈ clusterPoints s tile.toNat c, r = .spacer) →
    Gives (.tileSpacerComplete tile) s (fun t =>
      (getTile t tile.toNat).spacerDone = true ∧ (getTile t tile.toNat).q = (getTile s tile.toNat).q ∧
      (∀ u, u ≠ tile.toNat → getTile t u = getTile s u) ∧ OnlyParts [.fab] s t))

/-- An empty stage of a free-running cell tile whose storage-element inputs in use are all valid, with ACK_IN low and GSR off, captures:
each element in use takes its input and ACK_OUT rises. A full stage with ACK_IN high whose inputs have all returned to spacer empties
and ACK_OUT falls, its elements keeping their values. Under GSR no stage captures (R57). Only the fabric changes.
Where the spec leaves room this states the model's own choice or reading: log entries 6 and 142. -/
def Obligations.FreeRunningStage : Prop :=
  (∀ (s : State) (tile : BitVec 20) (c : Fin 4), StoresOk s → fFree (frameOf s tile.toNat) = true → hostOf s tile.toNat = .none →
    gsrOn s (tSec tile.toNat) = false → bitAt (getTile s tile.toNat).frFull c = false → ackIn s tile.toNat c = false →
    stageElems (frameOf s tile.toNat) c ≠ [] → (∀ e ∈ stageElems (frameOf s tile.toNat) c, (elemIn s tile.toNat e).valid = true) →
    Gives (.frStageCapture tile c) s (fun t =>
      bitAt (getTile t tile.toNat).frFull c = true ∧
      (∀ e ∈ stageElems (frameOf s tile.toNat) c, bitAt (getTile t tile.toNat).q e = (elemIn s tile.toNat e).high) ∧
      OnlyParts [.fab] s t)) ∧
  (∀ (s : State) (tile : BitVec 20) (c : Fin 4), gsrOn s (tSec tile.toNat) = true →
    Gives (.frStageCapture tile c) s (fun t => t = s)) ∧
  (∀ (s : State) (tile : BitVec 20) (c : Fin 4), StoresOk s → fFree (frameOf s tile.toNat) = true → hostOf s tile.toNat = .none →
    bitAt (getTile s tile.toNat).frFull c = true → ackIn s tile.toNat c = true →
    (∀ e ∈ stageElems (frameOf s tile.toNat) c, elemIn s tile.toNat e = .spacer) →
    Gives (.frStageRelease tile c) s (fun t =>
      bitAt (getTile t tile.toNat).frFull c = false ∧ (getTile t tile.toNat).q = (getTile s tile.toNat).q ∧
      OnlyParts [.fab] s t))

/-- A write of GSR_CTL PULSE outside a pulse is refused by the first of device state (0b100), tick engine running (0b010), FAULT (0b101),
uncommitted ticks (0b011), and GSR_REFUSED counts it once; otherwise GSR is asserted in every section, every storage element takes its
INIT bit and every stage is empty, BUSY is set, RESULT is unchanged, the next tick is tick 0, and an engine in HALTED goes to IDLE. While BUSY a
write changes nothing. GSR_PULSE_DONE ends the pulse: every storage element holds its INIT bit, GSR deasserts, RESULT is 0b001, and a RUN that the
pulse held is performed (R62).
Where the spec leaves room this states the model's own choice or reading: log entry 12. -/
def Obligations.SetResetPulse : Prop :=
  (∀ s v, s.dev.inReset = false → RegsOk s → StoresOk s → bitAt v 0 = true → s.fab.gsrBusy = false → Gives (.gsrPulse v) s (fun t =>
    if gsrRefusal s = none then
      t.fab.gsrBusy = true ∧ t.fab.gsr = 0xFF#8 ∧ t.fab.gsrResult = s.fab.gsrResult ∧ t.tick.nowP1 = 0 ∧ t.ra.com = 0 ∧
      (∀ u, (getTile t u).q = initQ (frameOf s u) ∧ (getTile t u).frFull = 0#4 ∧ frameOf t u = frameOf s u) ∧
      t.tick.st = (if s.tick.st = .halted then .idle else s.tick.st) ∧
      t.pool = { s.pool with ports := t.pool.ports } ∧ OnlyParts [.fab, .tick, .ra, .regs, .pool, .net, .trc] s t
    else
      t.fab.gsrResult = (if deviceUp s = false then 4 else if s.tick.st = .run ∨ s.tick.st = .paced then 2
        else if s.tick.st = .fault then 5 else 3) ∧
      getReg t Reg.gsrRefused = satInc (getReg s Reg.gsrRefused) ∧ t.fab.gsr = s.fab.gsr ∧ OnlyParts [.fab, .regs] s t)) ∧
  (∀ s v, s.dev.inReset = false → (bitAt v 0 = false ∨ (s.fab.gsrBusy = true ∧ deviceUp s = true)) →
    Gives (.gsrPulse v) s (fun t => t = s)) ∧
  (∀ s, StoresOk s → s.fab.gsrBusy = true → s.tick.heldStart = none → Gives .gsrPulseDone s (fun t =>
    t.fab.gsrBusy = false ∧ t.fab.gsr = 0#8 ∧ t.fab.gsrResult = 1 ∧
    (∀ u, (getTile t u).q = initQ (frameOf s u) ∧ frameOf t u = frameOf s u) ∧ OnlyParts [.fab, .bm] s t)) ∧
  (∀ s, RegsOk s → s.fab.gsrBusy = true → s.tick.heldStart = some (1, 0) → deviceUp s = true → engineStill s = true →
    s.tick.pend = none → s.tick.numberEnd = false → bndUnreachable s = false → Gives .gsrPulseDone s (fun t =>
    t.fab.gsrBusy = false ∧ t.fab.gsr = 0#8 ∧ t.tick.st = .run ∧ t.tick.heldStart = none ∧
    getReg t Reg.tickCmdStat = 0x11#32 ∧ OnlyRegs [Reg.tickCmdStat] s t))

/-- A single-event upset changes the one bit it names (a frame bit, a storage element outside GSR, an HBM bit, with the stored codeword's error
recorded) and nothing else but what the acknowledge of a free-running stage then holds (R45). A sensor update shows the millivolts, sets UV below 480 mV and clears it above 500 mV, sets OV above 920 mV
and clears it below 900 mV, sets RET_LOST below 450 mV for good, and counts each setting of UV and OV. REPLICA_UPDATE shows the
replica's cycle. Two enabled taps on a line (R93) hold the line at spacer and count in RT_DC_COUNT; a line already held changes nothing.
Where the spec leaves room this states the model's own choice or reading: log entries 9 and 143. -/
def Obligations.UpsetsAndSensors : Prop :=
  (∀ (s : State) (tile : BitVec 20) (b : Fin 4160), StoresOk s → Gives (.singleEventUpset (.frameBit tile b)) s (fun t =>
    frameOf t tile.toNat = (if b.val < 4096 then flipBit (frameOf s tile.toNat) b else frameOf s tile.toNat) ∧
    (getTile t tile.toNat).upset = flipBit (getTile s tile.toNat).upset b ∧
    (gsrOn s (tSec tile.toNat) = false → (getTile t tile.toNat).q = (getTile s tile.toNat).q) ∧
    (∀ u, u ≠ tile.toNat → getTile t u = { getTile s u with ackC := (getTile t u).ackC }) ∧ OnlyParts [.fab] s t)) ∧
  (∀ (s : State) (tile : BitVec 20) (e : Fin 64), StoresOk s → gsrOn s (tSec tile.toNat) = false → Gives (.singleEventUpset (.element tile e)) s (fun t =>
    (getTile t tile.toNat).q = flipBit (getTile s tile.toNat).q e ∧ frameOf t tile.toNat = frameOf s tile.toNat ∧
    (∀ u, u ≠ tile.toNat → getTile t u = { getTile s u with ackC := (getTile t u).ackC }) ∧ OnlyParts [.fab] s t)) ∧
  (∀ (s : State) wa (b : Fin 72), StoresOk s → Gives (.singleEventUpset (.hbmWord wa b)) s (fun t =>
    (hbmAt t wa.toNat).err = flipBit (hbmAt s wa.toNat).err b ∧
    (hbmAt t wa.toNat).data = (if b.val < 64 then flipBit (hbmAt s wa.toNat).data b else (hbmAt s wa.toNat).data) ∧
    (∀ a, a ≠ wa.toNat → hbmAt t a = hbmAt s a) ∧ OnlyParts [.pool] s t)) ∧
  (∀ (s : State) (sec : Fin 8) (mv : BitVec 10), RegsOk s → Gives (.vsenseUpdate sec mv) s (fun t =>
    getReg t (Reg.secVsense sec) = w32 mv.toNat ∧
    bitAt t.fab.uv sec = (if mv.toNat < 480 then true else if 500 < mv.toNat then false else bitAt s.fab.uv sec) ∧
    bitAt t.fab.ov sec = (if 920 < mv.toNat then true else if mv.toNat < 900 then false else bitAt s.fab.ov sec) ∧
    bitAt t.fab.retLost sec = (decide (mv.toNat < 450) || bitAt s.fab.retLost sec) ∧
    (450 ≤ mv.toNat → ∀ u, frameOf t u = frameOf s u) ∧
    getReg t (Reg.secUvCount sec) = (if mv.toNat < 480 ∧ bitAt s.fab.uv sec = false
      then satInc (getReg s (Reg.secUvCount sec)) else getReg s (Reg.secUvCount sec)) ∧
    getReg t (Reg.secOvCount sec) = (if 920 < mv.toNat ∧ bitAt s.fab.ov sec = false
      then satInc (getReg s (Reg.secOvCount sec)) else getReg s (Reg.secOvCount sec)))) ∧
  (∀ (s : State) (sec : Fin 8) ps, RegsOk s → Gives (.replicaUpdate sec ps) s (fun t =>
    getReg t (Reg.secReplica sec) = w32 ps.toNat ∧ OnlyRegs [Reg.secReplica sec] s t ∧ OnlyParts [.regs] s t)) ∧
  (∀ (s : State) (sec : Fin 8) vert idx (line : Fin 64), RegsOk s → s.fab.tapsOn = true →
    Instr.wf (.oneHotConflict sec vert idx line) = true →
    2 ≤ (tapsSet s ⟨sec, vert, idx, line⟩).length →
    Gives (.oneHotConflict sec vert idx line) s (fun t =>
      if s.fab.heldLines.contains ⟨sec, vert, idx, line⟩ = true then t = s
      else t.fab.heldLines = s.fab.heldLines ++ [⟨sec, vert, idx, line⟩] ∧
        getReg t (Reg.rtDcCount sec) = satInc (getReg s (Reg.rtDcCount sec))))

/-- BM_ASYNC_READ: an ASYNC port of RDW 0b00 whose address is valid drives the entry that the address names, once per wave, from a row
without error. BM_FR_ACCESS: a free-running port whose stage is empty, with every pin valid and ACK_IN low, completes one handshake: with EN 0 nothing moves,
a write with writes enabled stores its entry, a read drives the entry (after the check that the other port's latest read still waits for), a write before write enable only counts in BM_WR_BLOCKED; the stage fills.
BM_ECC_WRITEBACK stores the corrected row. BM_PATROL_READ of a block with PATROL set goes to the next row, modulo 512, and
counts a single-bit error in BM_CE_COUNT and a double-bit one in BM_UE_COUNT. -/
def Obligations.BlockMemory : Prop :=
  (∀ (s : State) (sec : Fin 8) (m : Fin 4096) (pb : Bool), StoresOk s →
    Gives (.bmAsyncRead sec m pb) s (fun t =>
      let k := 4096 * sec.val + m.val
      let b := getBlock s k
      let a := linesVal s (bmTile k pb) 0 (bmABits b.cfg)
      bmHasPort b.cfg pb = true → bmFree s k = false → bmAsync b.cfg pb = true → bmReads b.cfg pb = true →
      waveOn s = true → bmRdw b.cfg = 0 → linesValid s (bmTile k pb) (upTo (bmABits b.cfg)) = true →
      (if pb then b.outB else b.outA) = none → bmErr b (a / bmPerRow b.cfg) = 0#80 →
      (if pb then (getBlock t k).outB else (getBlock t k).outA) =
        some { dout := BitVec.ofNat 72 (entryGet b.cfg (bmRow b (a / bmPerRow b.cfg)) (a % bmPerRow b.cfg)) } ∧
      OnlyParts [.bm] s t)) ∧
  (∀ (s : State) (sec : Fin 8) (m : Fin 4096) (pb : Bool), StoresOk s →
    Gives (.bmFrAccess sec m pb {}) s (fun t =>
      let k := 4096 * sec.val + m.val
      let b := getBlock s k
      let p := portPins s k pb
      let s0 := bmFrReport k (!pb) s
      let b0 := getBlock s0 k
      let row := bmRow b0 (p.addr / bmPerRow b.cfg)
      bmHasPort b.cfg pb = true → bmFree s k = true → gsrOn s (k / 4096) = false →
      linesValid s (bmTile k pb) (hostLines s (bmTile k pb)) = true → ackIn s (bmTile k pb) 0 = false →
      bitAt (getTile s (bmTile k pb)).frFull 0 = false →
      (if pb then b.outB else b.outA) = none → bmErr b0 (p.addr / bmPerRow b.cfg) = 0#80 →
      bitAt (getTile t (bmTile k pb)).frFull 0 = true ∧
      (if pb then (getBlock t k).outB else (getBlock t k).outA) =
        some (if p.en = true ∧ p.we = false then { dout := BitVec.ofNat 72 (entryGet b.cfg row (p.addr % bmPerRow b.cfg)) } else {}) ∧
      (getBlock t k).rows = (if p.en = true ∧ p.we = true ∧ s.fab.writesOn = true then
        mset (fun _ => 0) b0.rows (p.addr / bmPerRow b.cfg) (entryPut b.cfg row (p.addr % bmPerRow b.cfg) p.be p.din) else b0.rows) ∧
      getReg t (Reg.bmWrBlocked (k / 4096)) = getReg (if p.en = true ∧ p.we = true ∧ s.fab.writesOn = false
        then bump (Reg.bmWrBlocked (k / 4096)) s0 else s0) (Reg.bmWrBlocked (k / 4096)) ∧
      OnlyParts [.bm, .fab, .regs] s0 t ∧ OnlyParts [.bm, .fab, .regs, .msix] s t)) ∧
  (∀ (s : State) (sec : Fin 8) (m : Fin 4096) (row : Fin 512), StoresOk s →
    (getBlock s (4096 * sec.val + m.val)).wb.contains row.val = true →
    errCount (bmErr (getBlock s (4096 * sec.val + m.val)) row) = 1 →
    Gives (.bmEccWriteback sec m row) s (fun t =>
      let b := getBlock s (4096 * sec.val + m.val)
      getBlock t (4096 * sec.val + m.val) = { b with
        wb := b.wb.filter (· != row.val), errs := mset (fun _ => 0) b.errs row 0
        rows := mset (fun _ => 0) b.rows row (bmRow b row ^^^ (bmErr b row).setWidth 72) } ∧
      (∀ k, k ≠ 4096 * sec.val + m.val → getBlock t k = getBlock s k) ∧ OnlyParts [.bm] s t)) ∧
  (∀ (s : State) (sec : Fin 8) (m : Fin 4096), RegsOk s → StoresOk s → bmUse (getBlock s (4096 * sec.val + m.val)).cfg = true →
    bmPatrol (getBlock s (4096 * sec.val + m.val)).cfg = true →
    Gives (.bmPatrolRead sec m) s (fun t =>
      let b := getBlock s (4096 * sec.val + m.val)
      (getBlock t (4096 * sec.val + m.val)).patrol = (b.patrol + 1) % 512 ∧
      (errCount (bmErr b b.patrol) = 0 → OnlyParts [.bm] s t ∧ (getBlock t (4096 * sec.val + m.val)).rows = b.rows) ∧
      (errCount (bmErr b b.patrol) = 1 → getReg t (Reg.bmCeCount sec) = satInc (getReg s (Reg.bmCeCount sec))) ∧
      (errCount (bmErr b b.patrol) = 2 → getReg t (Reg.bmUeCount sec) = satInc (getReg s (Reg.bmUeCount sec)))))

/-- With the management window open: from IDLE or HALTED in OPERATIONAL or DEGRADED, with no fault pending, no set-reset pulse under way in IDLE, tick numbers left and every
boundary input reachable, RUN, PACED and STEP (COUNT not 0) start ticking with RESULT 0b001; STEP ends after COUNT ticks; STEP with COUNT 0 is refused with 0b011
and counted. In STARTING they are refused with 0b101, in FAULT with 0b010. STOP in RUN or PACED halts with cause 0x01, after the tick in progress if there
is one; elsewhere 0b010. A pulse under way in IDLE holds a start, and nothing else changes (R62). CLEAR in FAULT moves to HALTED once the cause is gone, otherwise 0b100. A reserved command answers 0b111.
Where the spec leaves room this states the model's own choice or reading: log entries 11, 15 and 144. -/
def Obligations.TickCommands : Prop :=
  (∀ s, mgmtOpen s = true → deviceUp s = true → startHeld s = true →
    Gives .tickCmdRun s (fun t => t.tick = { s.tick with heldStart := some (1, 0) } ∧ OnlyParts [.tick] s t) ∧
    Gives .tickCmdPaced s (fun t => t.tick = { s.tick with heldStart := some (2, 0) } ∧ OnlyParts [.tick] s t) ∧
    (∀ n, Gives (.tickCmdStep n) s (fun t => t.tick = { s.tick with heldStart := some (4, n.toNat) } ∧ OnlyParts [.tick] s t))) ∧
  (∀ s, mgmtOpen s = true → RegsOk s → deviceUp s = true → engineStill s = true → s.tick.pend = none → s.tick.numberEnd = false →
    bndUnreachable s = false → startHeld s = false →
    Gives .tickCmdRun s (fun t => t.tick.st = .run ∧ t.tick.stepping = false ∧ t.tick.due = 0 ∧
      getReg t Reg.tickCmdStat = 0x11#32 ∧ OnlyRegs [Reg.tickCmdStat] s t ∧ OnlyParts [.tick, .ra, .regs] s t) ∧
    Gives .tickCmdPaced s (fun t => t.tick.st = .paced ∧ t.tick.stepping = false ∧ t.tick.due = 0 ∧
      getReg t Reg.tickCmdStat = 0x21#32 ∧ OnlyRegs [Reg.tickCmdStat] s t ∧ OnlyParts [.tick, .ra, .regs] s t) ∧
    (∀ n : BitVec 16, n ≠ 0#16 → Gives (.tickCmdStep n) s (fun t => t.tick.st = .run ∧ t.tick.stepping = true ∧
      t.tick.stepEnd = nextTick s + n.toNat ∧ getReg t Reg.tickCmdStat = 0x41#32 ∧
      OnlyRegs [Reg.tickCmdStat] s t ∧ OnlyParts [.tick, .ra, .regs] s t)) ∧
    Gives (.tickCmdStep 0) s (fun t => t.tick.st = s.tick.st ∧ getReg t Reg.tickCmdStat = 0x43#32 ∧
      getReg t Reg.tickRangeCount = satInc (getReg s Reg.tickRangeCount) ∧ OnlyParts [.regs] s t)) ∧
  (∀ s n, mgmtOpen s = true → RegsOk s → deviceUp s = false →
    Gives .tickCmdRun s (fun t => getReg t Reg.tickCmdStat = 0x15#32 ∧ OnlyParts [.regs] s t) ∧
    Gives .tickCmdPaced s (fun t => getReg t Reg.tickCmdStat = 0x25#32 ∧ OnlyParts [.regs] s t) ∧
    Gives (.tickCmdStep n) s (fun t => getReg t Reg.tickCmdStat = 0x45#32 ∧ OnlyParts [.regs] s t)) ∧
  (∀ s n, mgmtOpen s = true → RegsOk s → deviceUp s = true → s.tick.st = .fault →
    Gives .tickCmdRun s (fun t => getReg t Reg.tickCmdStat = 0x12#32 ∧ OnlyParts [.regs] s t) ∧
    Gives .tickCmdPaced s (fun t => getReg t Reg.tickCmdStat = 0x22#32 ∧ OnlyParts [.regs] s t) ∧
    Gives (.tickCmdStep n) s (fun t => getReg t Reg.tickCmdStat = 0x42#32 ∧ OnlyParts [.regs] s t)) ∧
  (∀ s, mgmtOpen s = true → RegsOk s → Gives .tickCmdStop s (fun t =>
    if s.tick.st = .run ∨ s.tick.st = .paced then
      getReg t Reg.tickCmdStat = 0x31#32 ∧ OnlyParts [.tick, .ra, .regs] s t ∧
      (if s.tick.inTick then t.tick.stopReq = true ∧ t.tick.st = s.tick.st
       else t.tick.st = .halted ∧ getReg t Reg.tickCause = 1#32)
    else getReg t Reg.tickCmdStat = 0x32#32 ∧ OnlyParts [.regs] s t)) ∧
  (∀ s, mgmtOpen s = true → RegsOk s → Gives .tickCmdClear s (fun t =>
    if s.tick.st = .fault then
      if clearable s (fld (getReg s Reg.tickCause) 0 8) = true then
        t.tick.st = .halted ∧ getReg t Reg.tickCmdStat = 0x51#32 ∧ OnlyParts [.tick, .ra, .regs] s t
      else getReg t Reg.tickCmdStat = 0x54#32 ∧ OnlyParts [.regs] s t
    else getReg t Reg.tickCmdStat = 0x52#32 ∧ OnlyParts [.regs] s t)) ∧
  (∀ s cmd, mgmtOpen s = true → RegsOk s → Gives (.tickCmdReserved cmd) s (fun t =>
    getReg t Reg.tickCmdStat = w32 (16 * cmd.toNat + 7) ∧ OnlyRegs [Reg.tickCmdStat] s t ∧ OnlyParts [.regs] s t))

/-- With the management window open: TICK_STOP_HI arms or disarms the stop tick; TICK_NOW_LO reads the low half of TICK_NOW and latches the high half;
TICK_CFG is stored whole in IDLE or HALTED, elsewhere only DITHER is; TICK_TIMEOUT is stored; a TICK_PACE_PERIOD of 0 is refused; CAD_LEN of 0
or above 4,096 and CAD_POS at or above CAD_LEN are refused with TICK_RANGE, an accepted CAD_LEN sets CAD_POS to 0;
a cadence write outside IDLE and HALTED has no effect but RESULT 0b110.
Where the spec leaves room this states the model's own choice or reading: log entry 21. -/
def Obligations.TickRegisters : Prop :=
  (∀ s v, mgmtOpen s = true → RegsOk s → Gives (.tickStopHiWrite v) s (fun t =>
    t.tick.stopAt = (if bitAt v 31 then some ((getReg s Reg.tickStopLo).toNat + fld v 0 16 * 2 ^ 32) else none) ∧
    getReg t Reg.tickStopHi = v &&& 0x8000FFFF#32 ∧ getReg t Reg.tickCmdStat = 0xF1#32 ∧
    OnlyRegs [Reg.tickStopHi, Reg.tickCmdStat] s t ∧ OnlyParts [.tick, .regs] s t)) ∧
  (∀ s, mgmtOpen s = true → RegsOk s → Gives .tickNowLoRead s (fun t =>
    t.rdata = w32 (s.tick.nowP1 - 1) ∧ getReg t Reg.tickNowHi = w32 ((s.tick.nowP1 - 1) / 2 ^ 32) ∧
    OnlyRegs [Reg.tickNowHi] s t ∧ OnlyParts [.regs, .rdata] s t)) ∧
  (∀ s v, mgmtOpen s = true → RegsOk s → Gives (.tickCfgWrite v) s (fun t =>
    getReg t Reg.tickCfg = (if engineStill s then v &&& 0x1D#32 else (getReg s Reg.tickCfg &&& 0x0D#32) ||| (v &&& 0x10#32)) ∧
    getReg t Reg.tickCmdStat = (if engineStill s = true ∨ getReg s Reg.tickCfg &&& 0x0D#32 = v &&& 0x0D#32 then 0xF1#32 else 0xF6#32) ∧
    OnlyRegs [Reg.tickCfg, Reg.tickCmdStat] s t ∧ OnlyParts [.regs] s t)) ∧
  (∀ s v el, mgmtOpen s = true → RegsOk s → (v &&& 0xFFFFF#32 = 0#32 ∨ el ≤ v &&& 0xFFFFF#32) →
    Gives (.tickTimeoutWrite v el) s (fun t =>
      getReg t Reg.tickTimeout = v &&& 0xFFFFF#32 ∧ getReg t Reg.tickCmdStat = 0xF1#32 ∧
      OnlyRegs [Reg.tickTimeout, Reg.tickCmdStat] s t ∧ OnlyParts [.regs] s t)) ∧
  (∀ s v, mgmtOpen s = true → RegsOk s → Gives (.tickPacePeriodWrite v) s (fun t => OnlyParts [.regs] s t ∧
    if v &&& 0xFFFFFF#32 = 0#32 then
      getReg t Reg.tickPacePeriod = getReg s Reg.tickPacePeriod ∧ getReg t Reg.tickCmdStat = 0xF3#32 ∧
      getReg t Reg.tickRangeCount = satInc (getReg s Reg.tickRangeCount)
    else getReg t Reg.tickPacePeriod = v &&& 0xFFFFFF#32 ∧ getReg t Reg.tickCmdStat = 0xF1#32)) ∧
  (∀ s v, mgmtOpen s = true → RegsOk s → Gives (.cadLenWrite v) s (fun t => OnlyParts [.tick, .regs] s t ∧
    if engineStill s = false then t.tick = s.tick ∧ getReg t Reg.tickCmdStat = 0xF6#32 ∧ getReg t Reg.cadLen = getReg s Reg.cadLen
    else if fld v 0 13 = 0 ∨ 4096 < fld v 0 13 then
      t.tick = s.tick ∧ getReg t Reg.tickCmdStat = 0xF3#32 ∧ getReg t Reg.cadLen = getReg s Reg.cadLen ∧
      getReg t Reg.tickRangeCount = satInc (getReg s Reg.tickRangeCount)
    else t.tick.cadNext = 0 ∧ getReg t Reg.cadLen = w32 (fld v 0 13) ∧ getReg t Reg.tickCmdStat = 0xF1#32)) ∧
  (∀ s v, mgmtOpen s = true → RegsOk s → Gives (.cadPosWrite v) s (fun t => OnlyParts [.tick, .regs] s t ∧
    if engineStill s = false then t.tick = s.tick ∧ getReg t Reg.tickCmdStat = 0xF6#32
    else if cadLen s ≤ fld v 0 12 then t.tick = s.tick ∧ getReg t Reg.tickCmdStat = 0xF3#32 ∧
      getReg t Reg.tickRangeCount = satInc (getReg s Reg.tickRangeCount)
    else t.tick.cadNext = fld v 0 12 ∧ getReg t Reg.tickCmdStat = 0xF1#32)) ∧
  (∀ s (i : Fin 4096) hi v, mgmtOpen s = true → RegsOk s → Gives (.cadMaskWrite i hi v) s (fun t => OnlyParts [.regs] s t ∧
    if engineStill s = false then getReg t Reg.tickCmdStat = 0xF6#32 ∧ OnlyRegs [Reg.tickCmdStat] s t
    else getReg t (if hi then Reg.cadMaskHi i else Reg.cadMaskLo i) = v ∧ getReg t Reg.tickCmdStat = 0xF1#32 ∧
      OnlyRegs [if hi then Reg.cadMaskHi i else Reg.cadMaskLo i, Reg.tickCmdStat] s t))

/-- TICK_ISSUE with every condition of R138 holding and the run-ahead window open issues the next tick number; each storage
element of a tick-bound tile takes its held input where its domain is active and its held enable is 1 (not at tick 0, nor where a tick only launches), and otherwise
keeps its value; the tick is then in its data wave unless a block memory read was uncorrectable. With the window shut nothing is issued and
RA_WINDOW_WAIT counts once. SPACER_RELEASE once every contributor has settled forces every cell output of tick-bound tiles to spacer and moves no
element. TICK_COMPLETE once every tile is back at spacer ends the tick, records its period and counts the class that settled last (R133), and where L is local and nothing
is predicted L rises to the tick.
Where the spec leaves room this states the model's own choice or reading: log entry 165. -/
def Obligations.TickCycle : Prop :=
  (∀ s gio, StoresOk s → mayIssue s = true → windowOpen s = true → Gives (.tickIssue gio) s (fun t =>
    t.tick.nowP1 = nextTick s + 1 ∧ t.tick.hiP1 = max s.tick.hiP1 (nextTick s + 1) ∧
    (∀ u, (getTile t u).q = (if s.tick.relaunch = true ∨ nextTick s = 0 then (getTile s u).q
      else (captureTile (issueEntry s).2 (getTile s u)).q) ∧ frameOf t u = frameOf s u) ∧
    ((∀ m, (getBlock s m).errs = []) → t.tick.inTick = true ∧ t.tick.spacer = false))) ∧
  (∀ s gio, RegsOk s → mayIssue s = true → windowOpen s = false → Gives (.tickIssue gio) s (fun t =>
    t.tick.nowP1 = s.tick.nowP1 ∧ t.tick.inTick = false ∧
    getReg t Reg.raWindowWait = (if s.tick.winCounted then getReg s Reg.raWindowWait else satInc (getReg s Reg.raWindowWait)) ∧
    OnlyParts [.tick, .regs] s t)) ∧
  (∀ s gio, mayIssue s = false → Gives (.tickIssue gio) s (fun t => t = s)) ∧
  (∀ s, StoresOk s → Gives .spacerRelease s (fun t =>
    if allSettled s = true then
      t.tick.spacer = true ∧ t.tick.inTick = true ∧
      (∀ u, fFree (frameOf s u) = false → (getTile t u).oaT = 0#32 ∧ (getTile t u).oaF = 0#32 ∧ (getTile t u).obT = 0#32 ∧
        (getTile t u).obF = 0#32 ∧ (getTile t u).coT = 0#32 ∧ (getTile t u).coF = 0#32) ∧
      (∀ u, (getTile t u).q = (getTile s u).q) ∧ OnlyParts [.fab, .bm, .tick, .ra] s t
    else t = s)) ∧
  (∀ s period same fault, RegsOk s → s.tick.inTick = true → s.tick.spacer = true → s.tick.lastCls < 5 →
    tilesReported Tile.spacerDone s = true → ctPending s = false → Gives (.tickComplete period same fault) s (fun t =>
      t.tick.inTick = false ∧ t.tick.nowP1 = s.tick.nowP1 ∧ getReg t Reg.tickPeriodLast = period ∧
      getReg t (Reg.tickLimit (limitClass same s)) = satInc (getReg s (Reg.tickLimit (limitClass same s))) ∧
      (haltCodes { s with tick := { s.tick with inTick := false, spacer := false } } = [] → t.tick.st = s.tick.st) ∧
      (localL s = true → s.ra.vals = [] → s.ra.rb = none → s.ra.lwmHeld = false → s.tick.redo = false →
        t.ra.com = max s.ra.com s.tick.nowP1)))

/-- A pace event of the selected source in PACED is held due, or dropped and counted when the policy's room is full; of the other source, or outside
PACED, it changes nothing. SETTLE_TIMEOUT of a running engine whose awaited phase has not completed enters FAULT with TICK_SETTLE_TIMEOUT and counts; TIMEOUT_LOCATED publishes the
location. TICK_INTERVAL_1MS shows the ticks of the interval, starts a new one, and the hub supplies are watched from the first one on (R449). PREDICTION_WAIT_EXPIRE drives the prediction of a
group whose value has not come. SLUICE_RELEASE releases committed ticks one at a time: TICK_OUT toggles where the released tick says so, and the balls of tick-bound slots take the outputs and
enables that the tick whose GIO frame is due gave; GIO_HOLD_EXPIRE ends the hold.
Where the spec leaves room this states the model's own choice or reading: log entry 166. -/
def Obligations.TickEvents : Prop :=
  (∀ s, RegsOk s → s.tick.st = .paced → bitAt (getReg s Reg.tickCfg) 2 = false → Gives .paceTimerEvent s (fun t =>
    if (if bitAt (getReg s Reg.tickCfg) 3 then 1 else 255) ≤ s.tick.due then
      getReg t Reg.tickPaceDropped = satInc (getReg s Reg.tickPaceDropped) ∧ OnlyParts [.regs] s t
    else t.tick.due = s.tick.due + 1 ∧ OnlyParts [.tick] s t)) ∧
  (∀ s, RegsOk s → s.tick.st = .paced → bitAt (getReg s Reg.tickCfg) 2 = true → Gives .tickInEdge s (fun t =>
    if (if bitAt (getReg s Reg.tickCfg) 3 then 1 else 255) ≤ s.tick.due then
      getReg t Reg.tickPaceDropped = satInc (getReg s Reg.tickPaceDropped) ∧ OnlyParts [.regs] s t
    else t.tick.due = s.tick.due + 1 ∧ OnlyParts [.tick] s t)) ∧
  (∀ s, bitAt (getReg s Reg.tickCfg) 2 = true → Gives .paceTimerEvent s (fun t => t = s)) ∧
  (∀ s, bitAt (getReg s Reg.tickCfg) 2 = false → Gives .tickInEdge s (fun t => t = s)) ∧
  (∀ s, s.tick.st ≠ .paced → Gives .paceTimerEvent s (fun t => t = s) ∧ Gives .tickInEdge s (fun t => t = s)) ∧
  (∀ s, RegsOk s → s.tick.inTick = true → getReg s Reg.tickTimeout ≠ 0#32 → (s.tick.st = .run ∨ s.tick.st = .paced) →
    phaseDone s = false → s.tick.haltSame = false → Gives .settleTimeout s (fun t =>
      t.tick.st = .fault ∧ getReg t Reg.tickCause = 0x10#32 ∧ t.tick.inTick = false ∧ t.tick.redo = true ∧
      t.tick.nowP1 = s.tick.nowP1 ∧ getReg t Reg.tickTimeouts = satInc (getReg s Reg.tickTimeouts) ∧
      t.tick.toLoc = some (locateStop s))) ∧
  (∀ s, phaseDone s = true → Gives .settleTimeout s (fun t => t = s)) ∧
  (∀ s l c, RegsOk s → s.tick.toLoc = some (l, c) → Gives .timeoutLocated s (fun t =>
    getReg t Reg.tickToLoc = l ∧ getReg t Reg.tickToCount = c ∧ t.tick.toLoc = none ∧
    OnlyRegs [Reg.tickToLoc, Reg.tickToCount] s t ∧ OnlyParts [.tick, .regs] s t)) ∧
  (∀ s, RegsOk s → Gives .tickInterval1ms s (fun t =>
    getReg t Reg.tickRate = w32 s.tick.ivTicks ∧ t.tick.ivTicks = 0 ∧ t.tick.ivPrev = s.tick.ivLast ∧ t.tick.ivLast = [] ∧
    t.dev = { s.dev with watch := (if s.dev.watch = .soon ∧ s.dev.porstHigh = true ∧ s.dev.shdnDone = false then .on else s.dev.watch) } ∧
    OnlyParts [.tick, .regs, .dev, .free] s t)) ∧
  (∀ s (g : Fin 4096), waveOn s = true → 0 < raDepth s → (inGroups s).contains g.val = true →
    findVal s (s.tick.nowP1 - 1) g = none → Gives (.predictionWaitExpire g) s (fun t =>
      findVal t (s.tick.nowP1 - 1) g =
        some { tick := s.tick.nowP1 - 1, g := g, pred := some (predict s (s.tick.nowP1 - 1) g), used := true } ∧
      (∀ k h, (k, h) ≠ (s.tick.nowP1 - 1, g.val) → findVal t k h = findVal s k h) ∧
      t.tick = { s.tick with lastCls := 3 } ∧ OnlyParts [.ra, .tick] s t)) ∧
  (∀ s, Gives .sluiceRelease s (fun t =>
    t.ra.rel = (if s.ra.rel < s.ra.com then s.ra.rel + 1 else s.ra.rel) ∧
    t.ra.gio = (if s.ra.gio < s.ra.com ∧ s.ra.gioHold = false then s.ra.gio + 1 else s.ra.gio) ∧ t.ra.com = s.ra.com ∧
    t.tick = { s.tick with tickOut := (if s.ra.rel < s.ra.com ∧ s.ra.toggles.any (fun p => p.1 = s.ra.rel && togglesOut s p.2) = true
      then !s.tick.tickOut else s.tick.tickOut) } ∧
    (∀ o e, s.ra.gio < s.ra.com → s.ra.gioHold = false → s.ra.gioOut.find? (fun p => p.1 = s.ra.gio) = some (s.ra.gio, o, e) →
      t.pins.gioOut = s.pins.gioOut &&& ~~~gioTickBalls s ||| o ∧ t.pins.gioOe = s.pins.gioOe &&& ~~~gioTickBalls s ||| e) ∧
    (s.ra.com ≤ s.ra.gio ∨ s.ra.gioHold = true → t.pins = s.pins))) ∧
  (∀ s, Gives .gioHoldExpire s (fun t => t.ra.gioHold = false ∧ t.ra.gio = s.ra.gio ∧ OnlyParts [.ra] s t))

/-- With the management window open, AVS_CFG outside 500 to 900 mV, with VMIN above VMAX or a reserved MODE is refused with TICK_RANGE; otherwise it
is stored, and its MODE applies at once, with failed rails commanded again, or after the frame in progress. AVS_TARGET outside VMIN to VMAX (and not 0) and AVS_CAP of
0 or above 440 W are refused; accepted values are stored, and in MANUAL each nonzero target written queues a frame of its own. AVS_FRAME_DONE
with success goes on to the next frame; a failed frame counts in AVS_ERR and is repeated three times, after which its rail has failed and no frame that waits for it is sent. A cap interval in CAP
mode with a failed current read marks the rails failed and clears the power's VALID; otherwise it shows the summed power; in other modes it changes nothing.
Where the spec leaves room this states the model's own choice or reading: log entries 24 and 139. -/
def Obligations.Voltage : Prop :=
  (∀ s v, mgmtOpen s = true → RegsOk s → Gives (.avsCfgWrite v) s (fun t => OnlyParts [.tick, .regs] s t ∧
    if fld v 4 10 < 500 ∨ 900 < fld v 16 10 ∨ fld v 16 10 < fld v 4 10 ∨ fld v 0 2 = 3 then
      getReg t Reg.tickCmdStat = 0xF3#32 ∧ getReg t Reg.avsCfg = getReg s Reg.avsCfg ∧ t.tick = s.tick ∧
      getReg t Reg.tickRangeCount = satInc (getReg s Reg.tickRangeCount)
    else getReg t Reg.tickCmdStat = 0xF1#32 ∧ getReg t Reg.avsCfg = v &&& 0x3FF3FF3#32 ∧
      (if s.tick.avs.busy then t.tick = { s.tick with avs := { s.tick.avs with modeNext := some (fld v 0 2) } }
       else t.tick.avs.mode = fld v 0 2 ∧ t.tick.avs.railFail = 0#8))) ∧
  (∀ s (r : Fin 8) v, mgmtOpen s = true → RegsOk s → Gives (.avsTargetWrite r v) s (fun t => OnlyParts [.tick, .regs] s t ∧
    if fld v 0 10 ≠ 0 ∧ (fld v 0 10 < avsVmin s ∨ avsVmax s < fld v 0 10) then
      getReg t Reg.tickCmdStat = 0xF3#32 ∧ getReg t (Reg.avsTarget r) = getReg s (Reg.avsTarget r)
    else getReg t Reg.tickCmdStat = 0xF1#32 ∧ getReg t (Reg.avsTarget r) = w32 (fld v 0 10) ∧
      t.tick.avs.todo = (if avsMode s = 1 ∧ fld v 0 10 ≠ 0 ∧ bitAt s.tick.avs.railFail r = false
        then s.tick.avs.todo ++ [⟨0, true, r, fld v 0 10⟩] else s.tick.avs.todo))) ∧
  (∀ s v, mgmtOpen s = true → RegsOk s → Gives (.avsCapWrite v) s (fun t => OnlyParts [.regs] s t ∧
    if fld v 0 9 = 0 ∨ 440 < fld v 0 9 then getReg t Reg.tickCmdStat = 0xF3#32 ∧ getReg t Reg.avsCap = getReg s Reg.avsCap
    else getReg t Reg.tickCmdStat = 0xF1#32 ∧ getReg t Reg.avsCap = w32 (fld v 0 9))) ∧
  (∀ s f l, s.tick.avs.todo = f :: l → s.tick.avs.modeNext = none → Gives (.avsFrameDone true) s (fun t =>
    t.tick.avs.todo = l ∧ t.tick.avs.busy = !l.isEmpty ∧ t.tick.avs.railFail = s.tick.avs.railFail ∧ OnlyParts [.tick] s t)) ∧
  (∀ s f l, RegsOk s → s.tick.avs.todo = f :: l → s.tick.avs.modeNext = none → Gives (.avsFrameDone false) s (fun t =>
    getReg t Reg.avsErr = satInc (getReg s Reg.avsErr) ∧
    (if s.tick.avs.repeats < 3 then t.tick.avs.todo = f :: l ∧ t.tick.avs.repeats = s.tick.avs.repeats + 1
     else t.tick.avs.todo = l.filter (fun g => g.rail != f.rail) ∧ t.tick.avs.railFail = setBit s.tick.avs.railFail f.rail true))) ∧
  (∀ s cur fail, RegsOk s → avsMode s = 2 → Gives (.avsCapInterval cur fail) s (fun t =>
    if fail ||| s.tick.avs.curFail ≠ 0#8 then
      t.tick.avs.railFail = s.tick.avs.railFail ||| fail ∧
      getReg t Reg.avsPower = getReg s Reg.avsPower &&& ~~~0x80000000#32 ∧ OnlyParts [.tick, .regs] s t
    else getReg t Reg.avsPower = w32 (2 ^ 31 +
      ((upTo 8).foldl (fun a i => a + (getReg s (Reg.secVsense i)).toNat * fld cur (32 * i) 32) 0) / 1000 % 2 ^ 19))) ∧
  (∀ s cur fail, avsMode s ≠ 2 → Gives (.avsCapInterval cur fail) s (fun t => t = s))

/-- With the management window open: RA_CFG is refused, in order, while the engine runs or ticks are uncommitted (0b010), for a DEPTH with NO_RUNAHEAD
(0b100) and for a DEPTH above 16 (0b011, counted, and shown in TICK_CMD_STAT); otherwise it is stored (0b001). RA_PRED with a reserved MODE or a PERIOD
outside 1 to 8 in periodic mode is refused, counted and shown in TICK_CMD_STAT. RA_LWM_LO
returns L[31:0] and latches L[47:32]; RA_U_LO likewise for U.
Where the spec leaves room this states the model's own choice or reading: log entry 23. -/
def Obligations.RunAheadRegisters : Prop :=
  (∀ s v, mgmtOpen s = true → RegsOk s → Gives (.raCfgWrite v) s (fun t =>
    t.ra.wresult = (if engineStill s = false ∨ uncommitted s = true then 2
      else if fld v 0 5 ≠ 0 ∧ (bitAt (getReg s Reg.raCfg) 24 = true ∨ bitAt v 24 = true) then 4
      else if 16 < fld v 0 5 then 3 else 1) ∧
    getReg t Reg.raCfg = (if t.ra.wresult = 1 then v &&& 0x1FFFF1F#32 else getReg s Reg.raCfg) ∧
    getReg t Reg.raRangeCount = (if t.ra.wresult = 3 then satInc (getReg s Reg.raRangeCount) else getReg s Reg.raRangeCount) ∧
    getReg t Reg.tickCmdStat = (if t.ra.wresult = 3 then 0xF3#32 else getReg s Reg.tickCmdStat) ∧
    OnlyRegs [Reg.raCfg, Reg.raRangeCount, Reg.tickCmdStat] s t ∧ OnlyParts [.ra, .regs] s t)) ∧
  (∀ s (g : Fin 4096) v, mgmtOpen s = true → RegsOk s → Gives (.raPredWrite g v) s (fun t => OnlyParts [.regs] s t ∧
    if fld v 0 2 = 3 ∨ (fld v 0 2 = 2 ∧ (fld v 4 4 = 0 ∨ 8 < fld v 4 4)) then
      getReg t Reg.raRangeCount = satInc (getReg s Reg.raRangeCount) ∧ getReg t Reg.tickCmdStat = 0xF3#32 ∧
      OnlyRegs [Reg.raRangeCount, Reg.tickCmdStat] s t
    else getReg t (Reg.raPred g) = v &&& 0xF3#32 ∧ OnlyRegs [Reg.raPred g] s t)) ∧
  (∀ s, mgmtOpen s = true → RegsOk s → Gives .raLwmLoRead s (fun t =>
    t.rdata = w32 (lwm48 s) ∧ getReg t Reg.raLwmHi = w32 (lwm48 s / 2 ^ 32) ∧ OnlyRegs [Reg.raLwmHi] s t ∧
    OnlyParts [.regs, .rdata] s t)) ∧
  (∀ s, mgmtOpen s = true → RegsOk s → Gives .raULoRead s (fun t =>
    t.rdata = w32 (unsettled s) ∧ getReg t Reg.raUHi = w32 (unsettled s / 2 ^ 32 % 65536) ∧ OnlyRegs [Reg.raUHi] s t ∧
    OnlyParts [.regs, .rdata] s t))

/-- BOUNDARY_FRAME_RX: a frame that fails a check of R236 is discarded, counted twice and sets LWM_HELD; the values of a good one are held as real values of
their tick. A predicted group whose real value differs counts a misprediction and decides a rollback to its tick (R166); an equal one counts a hit.
BOUNDARY_FRAME_SEND sends the oldest frame of its groups that still stands in the output registers, with the values held there, else that of the tick in progress, and keeps what it
sent until the tick is committed. ROLLBACK_RESTORE, with no tick in progress, makes the target the next tick and
restores the storage elements from the backwater ring. RECALL_SEND of a changed value counts and rewrites the history. RECALL_RX counts every recall;
one that changes a used real value of an issued tick decides a rollback.
Where the spec leaves room this states the model's own choice or reading: log entry 22. -/
def Obligations.BoundaryValues : Prop :=
  (∀ s (ch : Fin 20) pay, RegsOk s → frameBad s pay = true → Gives (.boundaryFrameRx ch pay) s (fun t =>
    getReg t Reg.fabBadMsg = satInc (getReg s Reg.fabBadMsg) ∧ getReg t Reg.raBadMsg = satInc (getReg s Reg.raBadMsg) ∧
    t.ra.lwmHeld = true ∧ t.ra.vals = s.ra.vals ∧ OnlyParts [.ra, .regs, .net, .msix] s t)) ∧
  (∀ s (ch : Fin 20) pay, frameBad s pay = false → s.net.ct = [] → Gives (.boundaryFrameRx ch pay) s (fun t =>
    ∀ i < payN pay 1 1, (findVal t (tagTick s (payN pay 2 2)) (payN pay 8 2 % 4096 + i)).bind BVal.real =
      some (BitVec.ofNat 64 (payN pay (16 + 8 * i) 8)))) ∧
  (∀ s (ch : Fin 20) pay b p, RegsOk s → frameBad s pay = false → s.net.ct = [] → payN pay 1 1 = 1 → s.ra.rb = none →
    findVal s (tagTick s (payN pay 2 2)) (payN pay 8 2 % 4096) = some b → b.pred = some p → b.real = none →
    Gives (.boundaryFrameRx ch pay) s (fun t =>
      if p = BitVec.ofNat 64 (payN pay 16 8) then
        t.ra.rb = none ∧ getReg t Reg.raPredHits = satInc (getReg s Reg.raPredHits)
      else t.ra.rb = some ⟨tagTick s (payN pay 2 2), false, ch⟩ ∧ getReg t Reg.raMispredict = satInc (getReg s Reg.raMispredict))) ∧
  (∀ s (o : Fin 4096) vals n, waveOn s = true → (outFrames s).find? (fun p => p.1 = o.val) = some (o.val, n) →
    (∀ h ∈ s.ra.outHist, ¬ (h.tick = s.tick.nowP1 - 1 ∧ h.g = o.val)) → (∀ p ∈ s.ra.outPend, p.2 ≠ o.val) →
    s.ra.com ≤ s.tick.nowP1 - 1 → Gives (.boundaryFrameSend o vals) s (fun t =>
      t.ra.outHist = s.ra.outHist ++ (upTo n).map (fun i =>
        ⟨s.tick.nowP1 - 1, o + i, BitVec.ofNat 64 (fld vals (64 * i) 64)⟩))) ∧
  (∀ s (o : Fin 4096) vals n k, (outFrames s).find? (fun p => p.1 = o.val) = some (o.val, n) →
    s.ra.outPend.find? (fun p => p.2 = o.val) = some (k, o.val) → Gives (.boundaryFrameSend o vals) s (fun t =>
      t.ra.outPend = s.ra.outPend.filter (fun p => !(p.1 = k && p.2 = o.val)) ∧
      t.ra.outReg = s.ra.outReg.filter (fun r => !(r.tick = k && o.val ≤ r.g && r.g < o.val + n)) ∧
      (k < s.ra.com → t.ra.outHist = s.ra.outHist) ∧
      (s.ra.com ≤ k → t.ra.outHist = s.ra.outHist ++ (upTo n).map (fun i =>
        ⟨k, o + i, BitVec.ofNat 64 (fld (regVals s k o n) (64 * i) 64)⟩)))) ∧
  (∀ s k a n i, i < n → n ≤ 14 → fld (regVals s k a n) (64 * i) 64 =
    (match s.ra.outReg.find? (fun r => r.tick = k && r.g = a + i) with | some r => r.val.toNat | none => 0)) ∧
  (∀ s r, StoresOk s → s.ra.rb = some r → s.tick.inTick = false → s.ra.restored = false → s.tick.st ≠ .fault →
    Gives .rollbackRestore s (fun t =>
      t.tick.nowP1 = r.target ∧ t.tick.relaunch = true ∧ t.tick.redo = false ∧ t.ra.restored = true ∧ t.ra.rb = some r ∧
      (∀ snap u, s.ra.ring.find? (fun q => q.tick = r.target) = some snap → frameOf s u ≠ idleFrame → fFree (frameOf s u) = false →
        (getTile t u).q = snapQ snap u))) ∧
  (∀ s (g : Fin 4096) v o, RegsOk s → waveOn s = true → s.ra.outHist.find? (fun h => h.tick = s.tick.nowP1 - 1 && h.g = g.val) = some o →
    o.val ≠ v → Gives (.recallSend g v) s (fun t =>
      getReg t Reg.raRecallsSent = satInc (getReg s Reg.raRecallsSent) ∧
      t.ra.outHist.find? (fun h => h.tick = s.tick.nowP1 - 1 && h.g = g.val) = some ⟨s.tick.nowP1 - 1, g, v⟩)) ∧
  (∀ s (ch : Fin 20) pay, RegsOk s → Gives (.recallRx ch pay) s (fun t =>
    getReg t Reg.raRecallsRcvd = satInc (getReg s Reg.raRecallsRcvd))) ∧
  (∀ s (ch : Fin 20) pay b w, payN pay 1 1 = 1 → tagHeld s (tagTick s (payN pay 2 2)) = true →
    (inGroups s).contains (payN pay 16 2 % 4096) = true → groupSrc s (payN pay 16 2 % 4096) = msgSrc pay →
    findVal s (tagTick s (payN pay 2 2)) (payN pay 16 2 % 4096) = some b → b.real = some w → b.used = true →
    w ≠ BitVec.ofNat 64 (payN pay 18 8) → tagTick s (payN pay 2 2) < s.tick.nowP1 → s.ra.rb = none →
    Gives (.recallRx ch pay) s (fun t => t.ra.rb = some ⟨tagTick s (payN pay 2 2), true, ch⟩))

/-- WAVE_ROOT_START at an idle root begins the next wave, modulo 2^16, recording U. WAVE_START and MARK of the wave in progress are taken (a MARK closes its
source), of the next one begin it, of any other are discarded: counted, with LWM_HELD, the wave in progress then reporting U at L + 1 (R181). WAVE_REPORT of the wave in progress from a child is kept. WAVE_REPORT_SEND,
once every source is closed and every child has reported, ends this device's part; the root applies the result itself. An OK WAVE_RESULT at depth 1 or more
raises L to the result unless LWM_HELD is set, never lowers it, and counts the wave.
Where the spec leaves room this states the model's own choice or reading: log entries 13, 22 and 147. -/
def Obligations.LowWaterWave : Prop :=
  (∀ s, isRoot s = true → s.ra.wave.busy = false → Gives .waveRootStart s (fun t =>
    t.ra.wave.cur = some (match s.ra.wave.cur with | some c => (c + 1) % 65536 | none => 0) ∧ t.ra.wave.busy = true ∧
    t.ra.wave.recd = (if s.ra.alone then none else some (unsettled s)) ∧ t.ra.com = s.ra.com)) ∧
  (∀ s (ch : Fin 20) pay, RegsOk s → Gives (.waveStartRx ch pay) s (fun t =>
    match waveAct s (payN pay 2 2) with
    | .now => OnlyParts [.net] s t
    | .begins => t.ra.wave.cur = some (payN pay 2 2) ∧ t.ra.wave.busy = true
    | _ => getReg t Reg.raBadMsg = satInc (getReg s Reg.raBadMsg) ∧ t.ra.lwmHeld = true ∧
      t.ra.wave.cur = s.ra.wave.cur ∧ t.ra.wave.busy = s.ra.wave.busy ∧ t.ra.wave.openSrc = s.ra.wave.openSrc ∧
      (s.ra.lwmHeld = false → t.ra.wave.recd = s.ra.wave.recd.map (min s.ra.com)))) ∧
  (∀ s (ch : Fin 20) pay, RegsOk s → Gives (.markRx ch pay) s (fun t =>
    match waveAct s (payN pay 2 2) with
    | .now => t.ra.wave.openSrc = s.ra.wave.openSrc.filter (· != msgSrc pay) ∧ OnlyParts [.net, .ra] s t
    | .begins => t.ra.wave.cur = some (payN pay 2 2) ∧ msgSrc pay ∉ t.ra.wave.openSrc
    | _ => getReg t Reg.raBadMsg = satInc (getReg s Reg.raBadMsg) ∧ t.ra.lwmHeld = true ∧
      t.ra.wave.cur = s.ra.wave.cur ∧ t.ra.wave.busy = s.ra.wave.busy ∧ t.ra.wave.openSrc = s.ra.wave.openSrc ∧
      (s.ra.lwmHeld = false → t.ra.wave.recd = s.ra.wave.recd.map (min s.ra.com)))) ∧
  (∀ s (ch : Fin 20) pay, RegsOk s → Gives (.waveReportRx ch pay) s (fun t =>
    if s.ra.wave.cur = some (payN pay 2 2) ∧ (childChans s).contains ch.val = true then
      (⟨ch, bitAt pay 8, payN pay 8 6, payN pay 14 1 % 32, payN pay 15 1 % 32⟩ : WaveRep) ∈ t.ra.wave.reps ∧
      t.ra.wave.cur = s.ra.wave.cur ∧ OnlyParts [.net, .ra] s t
    else getReg t Reg.raBadMsg = satInc (getReg s Reg.raBadMsg) ∧ t.ra.lwmHeld = true)) ∧
  (∀ s, waveReady s = true → isRoot s = false → Gives .waveReportSend s (fun t => t.ra.wave.busy = false ∧ t.ra.com = s.ra.com ∧
    ∀ c, parentChan s = some c → (getChan t c).outq.length = (getChan s c).outq.length + 1)) ∧
  (∀ s, RegsOk s → waveReady s = true → isRoot s = true → s.ra.alone = false → Gives .waveReportSend s (fun t =>
    t.ra.wave.busy = false ∧ getReg t Reg.raWaves = satInc (getReg s Reg.raWaves) ∧ s.ra.com ≤ t.ra.com)) ∧
  (∀ s (ch : Fin 20) pay c, RegsOk s → s.ra.wave.cur = some c → payN pay 2 2 = c → s.ra.alone = false → bitAt pay 8 = true →
    Gives (.waveResultRx ch pay) s (fun t =>
      t.ra.com = (if 1 ≤ raDepth s ∧ s.ra.wave.stale = false ∧ s.ra.lwmHeld = false then
        max s.ra.com (if bitAt pay 9 then 0 else payN pay 8 6 + 1) else s.ra.com) ∧
      t.ra.depthMismatch = false ∧ getReg t Reg.raWaves = satInc (getReg s Reg.raWaves)))

/-- With the management window open, for a channel that no run-time feature holds: ENABLE from DISABLED or FAILED goes to WAITING (LNK_CAUSE 2), else WRESULT 0b010, also where the channel is marked failed (R31; log entry 140) or the device's state still keeps every channel DISABLED (R421, R425; log entry 140);
DISABLE stops the channel at once (LNK_CAUSE 1); RESET leaves the fabric and sets SEQ_RESET for the next training (LNK_CAUSE 0x0A); RETRAIN of a channel that is
UP begins a retrain and counts it, else WRESULT 0b010; a reserved code answers 0b111; LNK_CFG is stored in DISABLED or FAILED only, and a serial channel's reserved
RATE or LANES is refused and counted. For a port held by a run-time feature each answers WRESULT 0b100 and LINK_OWNED, and nothing else changes.
Where the spec leaves room this states the model's own choice or reading: log entries 28, 45 and 46. -/
def Obligations.LinkCommands : Prop :=
  (∀ s (c : Fin 20), mgmtOpen s = true → RegsOk s → StoresOk s → (getChan s c).owned = false → Gives (.lnkCmdEnable c) s (fun t =>
    (∀ d, d ≠ c.val → getChan t d = getChan s d) ∧ OnlyParts [.chans, .regs] s t ∧
    if chansOpen s = true ∧ chanFailed s c = false ∧ ((getChan s c).st = .disabled ∨ (getChan s c).st = .failed) then
      (getChan t c).st = .waiting ∧ (getChan t c).wresult = 1 ∧ getReg t (Reg.lnkCause c) = 2#32
    else (getChan t c).st = (getChan s c).st ∧ (getChan t c).wresult = 2)) ∧
  (∀ s (c : Fin 20), mgmtOpen s = true → RegsOk s → StoresOk s → (getChan s c).owned = false → Gives (.lnkCmdDisable c) s (fun t =>
    (getChan t c).st = .disabled ∧ (getChan t c).resetting = false ∧ (getChan t c).wresult = 1 ∧ getReg t (Reg.lnkCause c) = 1#32)) ∧
  (∀ s (c : Fin 20), mgmtOpen s = true → RegsOk s → StoresOk s → (getChan s c).owned = false → Gives (.lnkCmdReset c) s (fun t =>
    (getChan t c).resetting = true ∧ (getChan t c).seqReset = true ∧ (getChan t c).wresult = 1 ∧
    getReg t (Reg.lnkCause c) = 0x0A#32)) ∧
  (∀ s (c : Fin 20), mgmtOpen s = true → RegsOk s → StoresOk s → (getChan s c).owned = false → Gives (.lnkCmdRetrain c) s (fun t =>
    (∀ d, d ≠ c.val → getChan t d = getChan s d) ∧ OnlyParts [.chans, .regs] s t ∧
    if linkUp s c = true then (getChan t c).st = .retraining ∧ (getChan t c).wresult = 1 ∧ (getChan t c).retry = (getChan s c).retry ∧
      getReg t (Reg.retrains c) = satInc (getReg s (Reg.retrains c))
    else (getChan t c).st = (getChan s c).st ∧ (getChan t c).wresult = 2)) ∧
  (∀ s (c : Fin 20) cmd, mgmtOpen s = true → StoresOk s → (getChan s c).owned = false → Gives (.lnkCmdReserved c cmd) s (fun t =>
    (getChan t c).wresult = 7 ∧ (getChan t c).st = (getChan s c).st ∧ OnlyParts [.chans] s t)) ∧
  (∀ s (c : Fin 20) v, mgmtOpen s = true → RegsOk s → StoresOk s → (getChan s c).owned = false → Gives (.lnkCfgWrite c v) s (fun t =>
    (getChan t c).st = (getChan s c).st ∧ OnlyParts [.chans, .regs] s t ∧
    if ¬ ((getChan s c).st = .disabled ∨ (getChan s c).st = .failed) then
      (getChan t c).wresult = 2 ∧ getReg t (Reg.lnkCfg c) = getReg s (Reg.lnkCfg c)
    else if c.val < 16 ∧ (fld v 0 2 = 3 ∨ fld v 2 2 = 3) then
      (getChan t c).wresult = 3 ∧ getReg t (Reg.lnkCfg c) = getReg s (Reg.lnkCfg c) ∧ getReg t (Reg.lnkCause c) = 0x20#32 ∧
      getReg t (Reg.lnkRangeCount c) = satInc (getReg s (Reg.lnkRangeCount c))
    else (getChan t c).wresult = 1 ∧ getReg t (Reg.lnkCfg c) = v &&& 0x3F3F#32)) ∧
  (∀ s (c : Fin 20) i v cmd, mgmtOpen s = true → RegsOk s → StoresOk s → (getChan s c).owned = true →
    i ∈ [Instr.lnkCmdEnable c, .lnkCmdDisable c, .lnkCmdReset c, .lnkCmdRetrain c, .lnkCmdReserved c cmd, .lnkCfgWrite c v] →
    Gives i s (fun t => getChan t c = { getChan s c with wresult := 4 } ∧ getReg t (Reg.lnkCause c) = 0x21#32 ∧
      OnlyRegs [Reg.lnkCause c] s t ∧ OnlyParts [.chans, .regs] s t))

/-- A signal seen in WAITING begins TRAINING. A TRAIN flit whose RATE, LANES and FEC match is kept, and where it shows a lane in use that the partner has lost the width is reduced at this end too; one that differs fails the attempt with LINK_MISMATCH. TRAINING_DONE
with the partner's TRAIN here makes the channel UP, with the partner's credits and LNK_CAUSE 0, and sends HELLO. TRAINING_FAIL counts the attempt; the third one enters FAILED and counts in
LINK_FAILS. From UP a lost lane, strobe, signal or REFCLK_SER begins a retrain; a lane loss, then or in a retrain, with DEGRADE_OK and more than one lane also counts and
shows LINK_LANE_FAIL. A RESET completes in DISABLED once nothing received
on the channel is queued or held.
Where the spec leaves room this states the model's own choice or reading: log entries 30, 35, 38 and 148. -/
def Obligations.LinkTraining : Prop :=
  (∀ s (c : Fin 20), StoresOk s → Gives (.linkSignalDetect c) s (fun t => OnlyParts [.chans] s t ∧
    if (getChan s c).st = .waiting then (getChan t c).st = .training ∧ (getChan t c).attempts = 0 else t = s)) ∧
  (∀ s (c : Fin 20) pay, RegsOk s → StoresOk s → inTraining s c = true → Gives (.trainRx c pay) s (fun t =>
    if payN pay 2 1 = lnkRate s c ∧ payN pay 3 1 = lnkLanes s c ∧ payN pay 4 1 = b2n (lnkFec s c) then
      (getChan t c).partner = some pay ∧ (getChan t c).st = (getChan s c).st ∧
      (if partnerLost s c pay = true then (getChan t c).degrading = true ∧ getReg t (Reg.lnkCause c) = 6#32 ∧
        getReg t (Reg.laneDegrade c) = satInc (getReg s (Reg.laneDegrade c)) else OnlyParts [.chans] s t)
    else (getChan t c).attempts = (getChan s c).attempts + 1 ∧ getReg t (Reg.lnkCause c) = 4#32)) ∧
  (∀ s (c : Fin 20) pol rev p, RegsOk s → (getChan s c).partner = some p → inTraining s c = true →
    (isFord c = true ∨ nextLanes s c ≠ 0#4) → Gives (.trainingDone c pol rev) s (fun t =>
      (getChan t c).st = .up ∧ (getChan t c).partner = none ∧ (getChan t c).lanesUp = nextLanes s c ∧
      (getChan t c).outq.length = (getChan s c).outq.length + 1 ∧ getReg t (Reg.lnkCause c) = 0#32 ∧
      ((getChan s c).retry = [] → (getChan t c).credits = (upTo 6).map (fun k => payN p (8 + 2 * k) 2)))) ∧
  (∀ s (c : Fin 20) (why : Fin 4), RegsOk s → StoresOk s → inTraining s c = true → Gives (.trainingFail c why) s (fun t =>
    (getChan t c).attempts = (getChan s c).attempts + 1 ∧
    getReg t (Reg.lnkCause c) = (if why = 0 then 2#32 else if why = 1 then 4#32 else if why = 2 then 9#32 else 3#32) ∧
    if 2 ≤ (getChan s c).attempts then (getChan t c).st = .failed ∧
      getReg t (Reg.linkFails c) = satInc (getReg s (Reg.linkFails c))
    else (getChan t c).st = (getChan s c).st ∧ OnlyParts [.chans, .regs] s t)) ∧
  (∀ s (c : Fin 20), StoresOk s → (getChan s c).resetting = true →
    (∀ p ∈ s.chans, ∀ o ∈ p.2.outq, ¬ (o.f.slot = true ∧ o.f.arr = some c.val)) →
    (∀ h ∈ s.net.held, ¬ (h.f.slot = true ∧ h.f.arr = some c.val ∧ h.stalled = false)) → Gives (.linkResetDone c) s (fun t =>
      (getChan t c).st = .disabled ∧ (getChan t c).resetting = false ∧ (getChan t c).seqReset = (getChan s c).seqReset ∧
      OnlyParts [.chans] s t)) ∧
  (∀ s (c : Fin 16) (lane : Fin 4), RegsOk s →
    (linkUp s c = true ∨ ((getChan s c).st = .retraining ∧ (getChan s c).resetting = false)) →
    bitAt (getChan s c).lanesUp lane = true → bitAt (getChan s c).lanesOk lane = true →
    Gives (.laneLoss c lane) s (fun t =>
      (getChan t c).st = .retraining ∧ bitAt (getChan t c).lanesOk lane = false ∧
      if degradeOk s c = true ∧ 1 < popc 4 (getChan s c).lanesUp.toNat then
        getReg t (Reg.laneDegrade c) = satInc (getReg s (Reg.laneDegrade c)) ∧ getReg t (Reg.lnkCause c) = 6#32
      else OnlyParts [.chans, .regs] s t)) ∧
  (∀ s (port : Fin 4), RegsOk s → linkUp s (16 + port) = true → Gives (.strobeLoss port) s (fun t =>
    (getChan t (16 + port)).st = .retraining ∧ getReg t (Reg.lnkCause (16 + port)) = 8#32 ∧ OnlyParts [.chans, .regs] s t)) ∧
  (∀ s (c : Fin 20), RegsOk s → linkUp s c = true → Gives (.linkSignalLoss c) s (fun t =>
    (getChan t c).st = .retraining ∧ getReg t (Reg.retrains c) = satInc (getReg s (Reg.retrains c)) ∧
    OnlyParts [.chans, .regs] s t)) ∧
  (∀ s (q i : Fin 4), linkUp s (4 * q + i) = true → Gives (.refclkSerLoss q) s (fun t =>
    (getChan t (4 * q + i)).st = .retraining ∧ OnlyParts [.chans, .regs] s t))

/-- FLIT_TRANSMIT of a channel that is UP, with no replay, NAK or CREDIT due: the arbiter's flit takes the next SEQ and one credit of its class and is kept
in the retry buffer; with nothing to send an IDLE goes; the flit before it leaves the transmit FIFO, on a ford port as its 17 beats, after a filler where
256 beats would go without one. FLIT_RX of a flit whose CRC is good and whose SEQ is the expected one is accepted, but a trace export flit is then discarded (R496); a bad CRC is counted and a NAK falls due, and so a flit that leaves the receive FIFO with two bits in error (R283). NAK_RX, and
REPLAY_TIMEOUT, replay from the SEQ asked for while the oldest flit has been replayed fewer than 16 times. CREDIT_RX adds the credits, IDLE_RX takes the
acknowledge, RETRAIN_REQ_RX begins a retrain, CREDIT_RETURN_TIMER makes unreturned credits due. LINK_STALL_TIMEOUT fails a
channel that waits for credit.
Where the spec leaves room this states the model's own choice or reading: log entries 31, 39 and 152. -/
def Obligations.FlitTransfer : Prop :=
  (∀ s (c : Fin 20) k o, RegsOk s → linkUp s c = true → (getChan s c).replay = none → (getChan s c).nakDue = none →
    (getChan s c).creditDue = false → (getChan s c).slotIdle < 4095 → arbiter (getChan s c) = some k →
    ready (getChan s c) k = some o → (getChan s c).retry.length < 512 → Gives (.flitTransmit c) s (fun t =>
      (getChan t c).nextTx = ((getChan s c).nextTx + 1) % 1024 ∧
      (getChan t c).retry = (getChan s c).retry ++ [⟨(getChan s c).nextTx, o.dl, { o.f with slot := false }⟩] ∧
      (getChan t c).credits.getD k 0 = (getChan s c).credits.getD k 0 - 1 ∧
      (getChan t c).sent.map WireFlit.pay = some o.f.pay ∧
      getReg t (Reg.flitsTx c) = satInc (getReg s (Reg.flitsTx c)))) ∧
  (∀ s (c : Fin 20), linkUp s c = true → (getChan s c).replay = none → (getChan s c).nakDue = none →
    (getChan s c).creditDue = false → arbiter (getChan s c) = none → Gives (.flitTransmit c) s (fun t =>
      (getChan t c).sent.map WireFlit.pay = some (payPut 0 0 1 1) ∧ (getChan t c).nextTx = (getChan s c).nextTx ∧
      ((getChan s c).sentErr = 0#1088 → OnlyParts [.chans] s t) ∧ OnlyParts [.chans, .free, .regs] s t)) ∧
  (∀ s (c : Fin 20) w, (linkUp s c = true ∨ inTraining s c = true) → (getChan s c).sent = some w → (getChan s c).sentErr = 0#1088 →
    Gives (.flitTransmit c) s (fun t => (getChan t c).wire = some w ∧
      (isFord c = true → (getChan t c).beats = (if (getChan s c).fill + 17 < 256 then fordBeats w
        else fillerBeat c (getChan s c).fillers :: fordBeats w)))) ∧
  (∀ s (c : Fin 20) h p crc apart, RegsOk s → linkUp s c = true → fld h 0 2 ≠ 3 → crc = flitCrc h p → (getChan s c).rxErr = 0#1088 →
    fld h 4 10 = (getChan s c).nextRx → Gives (.flitRx c h p crc 0 0 apart) s (fun t =>
      (getChan t c).nextRx = ((getChan s c).nextRx + 1) % 1024 ∧ (getChan t c).rxAny = true ∧
      getReg t (Reg.flitsRx c) = satInc (getReg s (Reg.flitsRx c)) ∧
      (fld h 0 2 = 1 → msgType p = 0x50 → t.net = s.net ∧ getReg t Reg.fabBadMsg = satInc (getReg s Reg.fabBadMsg)))) ∧
  (∀ s (c : Fin 20) h p crc, RegsOk s → linkUp s c = true → fld h 0 2 ≠ 3 → crc ≠ flitCrc h p → (getChan s c).rxErr = 0#1088 →
    Gives (.flitRx c h p crc 0 0 true) s (fun t =>
      (getChan t c).nextRx = (getChan s c).nextRx ∧ (getChan t c).nakDue = some (getChan s c).nextRx ∧
      getReg t (Reg.crcErr c) = satInc (getReg s (Reg.crcErr c)) ∧ getReg t (Reg.naksSent c) = satInc (getReg s (Reg.naksSent c)) ∧
      OnlyParts [.chans, .regs] s t)) ∧
  (∀ s (c : Fin 20) h p crc, RegsOk s → linkUp s c = true → fld h 0 2 ≠ 3 → popc 1088 (getChan s c).rxErr.toNat = 2 →
    Gives (.flitRx c h p crc 0 0 true) s (fun t =>
      (getChan t c).nextRx = (getChan s c).nextRx ∧ (getChan t c).nakDue = some (getChan s c).nextRx ∧ (getChan t c).rxErr = 0#1088 ∧
      getReg t (Reg.crcErr c) = satInc (getReg s (Reg.crcErr c)) ∧ OnlyParts [.chans, .regs] s t)) ∧
  (∀ s (c : Fin 20) h (n : Fin 1024), RegsOk s → linkUp s c = true → bitAt h 3 = false →
    (∃ e ∈ (getChan s c).retry, e.seq = n.val) → (getChan s c).replays < 16 → Gives (.nakRx c h n) s (fun t =>
      (getChan t c).replay = some n.val ∧ (getChan t c).retry = (getChan s c).retry ∧
      getReg t (Reg.replays c) = satInc (getReg s (Reg.replays c)) ∧ OnlyParts [.chans, .regs] s t)) ∧
  (∀ s (c : Fin 20) h p (j : Fin 6), linkUp s c = true → Gives (.creditRx c h p) s (fun t =>
    (getChan t c).credits.getD j 0 = (getChan s c).credits.getD j 0 + payN p (2 * j + 1) 2 ∧ OnlyParts [.chans] s t)) ∧
  (∀ s (c : Fin 20) h, StoresOk s → linkUp s c = true → Gives (.idleRx c h) s (fun t =>
    (getChan t c).retry = (if bitAt h 3 then (getChan s c).retry.filter (fun e => 512 ≤ (fld h 14 10 + 1024 - e.seq) % 1024)
      else (getChan s c).retry) ∧ (getChan t c).nextRx = (getChan s c).nextRx ∧ OnlyParts [.chans] s t)) ∧
  (∀ s (c : Fin 20) h, RegsOk s → linkUp s c = true → Gives (.retrainReqRx c h) s (fun t =>
    (getChan t c).st = .retraining ∧ getReg t (Reg.retrains c) = satInc (getReg s (Reg.retrains c)) ∧
    OnlyParts [.chans, .regs] s t)) ∧
  (∀ s (c : Fin 20) e l, RegsOk s → linkUp s c = true → (getChan s c).retry = e :: l → (getChan s c).replays < 16 →
    Gives (.replayTimeout c) s (fun t => (getChan t c).replay = some e.seq ∧
      (getChan t c).replays = (getChan s c).replays + 1 ∧ OnlyParts [.chans, .regs] s t)) ∧
  (∀ s (c : Fin 20), (∃ n ∈ (getChan s c).unret, 0 < n) → Gives (.creditReturnTimer c) s (fun t =>
    (getChan t c).creditDue = true ∧ (getChan t c).unret = (getChan s c).unret ∧ OnlyParts [.chans] s t)) ∧
  (∀ s (c : Fin 20) o, RegsOk s → linkUp s c = true → getReg s (Reg.lnkStallTo c) &&& 0xFFFF#32 ≠ 0#32 → o ∈ (getChan s c).outq →
    (getChan s c).credits.getD (flitClass o.f.vl o.dl) 0 = 0 → Gives (.linkStallTimeout c) s (fun t =>
      (getChan t c).st = .failed ∧ getReg t (Reg.lnkCause c) = 7#32 ∧
      getReg t (Reg.linkFails c) = satInc (getReg s (Reg.linkFails c))))

/-- A ford port that is UP delivers group i of an arriving boundary frame for this device as a real value, and remembers that its flit has not passed; for a message that is no
boundary frame nothing happens. -/
def Obligations.CutThrough : Prop :=
  (∀ s (port : Fin 4) pay (i : Fin 14), linkUp s (16 + port) = true → msgType pay = 0x20 → i.val < payN pay 1 1 → payN pay 1 1 ≤ 14 →
    payN pay 8 2 % 4096 + i ≤ 4095 → tagHeld s (tagTick s (payN pay 2 2)) = true →
    bitAt (routeEntry s (some (16 + port)) (msgDst pay)) 28 = true → (inGroups s).contains (payN pay 8 2 % 4096 + i) = true →
    groupSrc s (payN pay 8 2 % 4096 + i) = msgSrc pay →
    findVal s (tagTick s (payN pay 2 2)) (payN pay 8 2 % 4096 + i) = none → Gives (.fordCutThrough port pay i) s (fun t =>
      (findVal t (tagTick s (payN pay 2 2)) (payN pay 8 2 % 4096 + i)).bind BVal.real =
        some (BitVec.ofNat 64 (payN pay (16 + 8 * i) 8)) ∧
      t.net.ct = s.net.ct ++ [⟨16 + port, tagTick s (payN pay 2 2), payN pay 8 2 % 4096 + i,
        BitVec.ofNat 64 (payN pay (16 + 8 * i) 8), false⟩] ∧ OnlyParts [.net, .ra, .tick] s t)) ∧
  (∀ s port pay i, msgType pay ≠ 0x20 → Gives (.fordCutThrough port pay i) s (fun t => t = s))

/-- HELLO records the neighbour, and a better candidate is adopted. The quiet time of an elected device that may discover begins an enumeration under the next
epoch. DISCOVER at a device that has a better candidate shows FAB_CAUSE 5; a reserved code counts. A QUERY or ROUTES with HOPS 0 or above 32 is discarded and counted. A QUERY ASSIGN for this device makes the ID
pending unless the device runs, when it answers BUSY and takes nothing. A QUERY COMMIT of the pending epoch puts the ID in force and keeps the staged routes (R225). A REPLY that has not reached the root goes back on the channel recorded for it; one with no record is
discarded. FAB_QUERY_TO sends again up to three times, then fails with FAB_CAUSE 3. The pending ID lapses with its timer. NOTICE about another flow sets PEER_HALT.
Where the spec leaves room this states the model's own choice or reading: log entries 32 and 42. -/
def Obligations.DiscoveryMessages : Prop :=
  (∀ s (c : Fin 20) pay, Gives (.helloRx c pay) s (fun t =>
    (getChan t c).nbId = msgSrc pay ∧ (getChan t c).nbSerial = some (payN pay 16 8) ∧ (getChan t c).nbChan = payN pay 1 1 ∧
    t.net.cand = (if candBetter (bitAt pay 65, payN pay 24 8) (bestCand s) then some (bitAt pay 65, payN pay 24 8) else s.net.cand) ∧
    t.net.dstate ≠ .unassigned)) ∧
  (∀ s, s.net.cand = none → s.net.enum = none → (s.net.discover = true ∨
      (bitAt (getReg s Reg.fabCfg) 0 = true ∧ s.net.committed = false ∧ s.net.dstate ≠ .unassigned)) →
    Gives .electionQuietExpire s (fun t => t.net.quiet = true ∧ t.net.epoch = (s.net.epoch + 1) % 65536 ∧ t.net.discover = false)) ∧
  (∀ s, mgmtOpen s = true → RegsOk s → Gives .fabCmdDiscover s (fun t =>
    if s.net.cand ≠ none then getReg t Reg.fabCause = 5#32 ∧ OnlyParts [.regs] s t
    else if s.net.enum = none ∧ s.net.quiet = true then t.net.epoch = (s.net.epoch + 1) % 65536
    else t.net.discover = true ∧ OnlyParts [.net] s t)) ∧
  (∀ s cmd, mgmtOpen s = true → RegsOk s → Gives (.fabCmdReserved cmd) s (fun t => getReg t Reg.fabCause = 0x20#32 ∧
    getReg t Reg.fabRangeCount = satInc (getReg s Reg.fabRangeCount) ∧ OnlyParts [.regs] s t)) ∧
  (∀ s (c : Fin 20) pay i, RegsOk s → badHops pay = true → i ∈ [Instr.queryAssignRx c pay, .queryCommitRx c pay, .routesRx c pay] →
    Gives i s (fun t => getReg t Reg.fabBadMsg = satInc (getReg s Reg.fabBadMsg) ∧ OnlyParts [.regs, .net] s t)) ∧
  (∀ s (c : Fin 20) pay, badHops pay = false → payN pay 8 1 + 1 = payN pay 1 1 → payN pay 24 8 = Config.serial.toNat →
    payN pay 16 8 = (bestCand s).2 → s.net.pend = none → Gives (.queryAssignRx c pay) s (fun t =>
      t.net.pend = (if assignBusy s = true then none else some (payN pay 10 2 % 1024, payN pay 2 2)) ∧
      (assignBusy s = false → t.net.dstate = .pending ∧ t.net.shadow = []) ∧
      (getChan t c).outq.length = (getChan s c).outq.length + 2)) ∧
  (∀ s (c : Fin 20) pay id, RegsOk s → badHops pay = false → payN pay 8 1 + 1 = payN pay 1 1 →
    payN pay 24 8 = Config.serial.toNat → payN pay 16 8 = (bestCand s).2 → s.net.pend = some (id, payN pay 2 2) →
    Gives (.queryCommitRx c pay) s (fun t =>
      t.net.id = id ∧ t.net.epoch = payN pay 2 2 ∧ t.net.commitEpoch = payN pay 2 2 ∧ t.net.parent = some c.val ∧
      t.net.pend = none ∧ t.net.dstate = .ready ∧ t.net.shadow = s.net.shadow ∧ getReg t Reg.fabDiscoveries = satInc (getReg s Reg.fabDiscoveries))) ∧
  (∀ s (c : Fin 20) pay d, 0 < payN pay 8 1 → s.net.relayRet = [(payN pay 8 1 - 1, d)] → Gives (.replyRx c pay) s (fun t =>
    (getChan t d).outq.length = (getChan s d).outq.length + 1 ∧ OnlyParts [.net, .chans] s t)) ∧
  (∀ s (c : Fin 20) pay, RegsOk s → 0 < payN pay 8 1 → s.net.relayRet = [] → Gives (.replyRx c pay) s (fun t =>
    getReg t Reg.fabBadMsg = satInc (getReg s Reg.fabBadMsg) ∧ OnlyParts [.net, .regs] s t)) ∧
  (∀ s (c : Fin 20) pay id, badHops pay = false → payN pay 1 1 ≤ payN pay 8 1 + 1 → s.net.pend = some (id, payN pay 2 2) →
    0 < payN pay 9 1 → payN pay 9 1 ≤ 20 → payN pay 10 2 % 1024 + payN pay 9 1 ≤ 1024 → bitAt (getReg s Reg.fabCfg) 8 = false →
    s.net.shadow = [] → Gives (.routesRx c pay) s (fun t =>
      (∀ i < payN pay 9 1, mget (fun _ => 0) t.net.shadow (payN pay 10 2 % 1024 + i) = w32 (payN pay (48 + 4 * i) 4)) ∧
      OnlyParts [.net] s t)) ∧
  (∀ s e, RegsOk s → s.net.enum = some e → Gives .queryTimeout s (fun t =>
    if 3 ≤ e.tries then t.net.enum = none ∧ t.net.dstate = .failed ∧ getReg t Reg.fabCause = 3#32
    else t.net.enum = some { e with tries := e.tries + 1 })) ∧
  (∀ s p, s.net.pend = some p → Gives .pendingIdTimeout s (fun t => t.net.pend = none ∧ t.net.shadow = [] ∧
    t.net.dstate = (if s.net.committed then .ready else .electing) ∧ OnlyParts [.net] s t)) ∧
  (∀ s (c : Fin 20) pay, payN pay 8 2 % 1024 ≠ s.net.id → payN pay 10 2 % 1024 ≠ s.net.id → Gives (.noticeRx c pay) s (fun t =>
    t.net.peerHalt = true ∧ OnlyParts [.net, .chans, .msix] s t))

/-- FENCE_SEND once nothing received on the channel remains marks the fences sent. LINK_DOWN and FENCE_DONE from a neighbour that no channel of this device leads
to are discarded and counted; LINK_DOWN of an event not begun here is kept while the channel is still UP or RETRAINING (one of an event already over is not; log entry 206), as is FENCE_DONE. FENCE: the first of a class is remembered, and the second of the pair ends it with a FENCE_DONE.
FENCE_TIMEOUT while destinations, and no pool request, are held shows FAB_CAUSE 8 and NO_ROUTE; with no event nothing happens.
Where the spec leaves room this states the model's own choice or reading: log entries 34, 36, 43 and 168. -/
def Obligations.Reroute : Prop :=
  (∀ s (c : Fin 20), StoresOk s → Gives (.fenceSend c) s (fun t =>
    match (getChan s c).ev with
    | none => t = s
    | some e => if e.fenceSent = true ∨ flitsFrom s c = true then t = s
      else ∀ f, (getChan t c).ev = some f → f.fenceSent = true ∧ f.num = e.num)) ∧
  (∀ s (c : Fin 20) pay, RegsOk s → chanTo s (msgSrc pay) (payN pay 1 1) = none → Gives (.linkDownRx c pay) s (fun t =>
    getReg t Reg.fabBadMsg = satInc (getReg s Reg.fabBadMsg) ∧ OnlyParts [.net, .regs] s t)) ∧
  (∀ s (c : Fin 20) pay d, chanTo s (msgSrc pay) (payN pay 1 1) = some d → (getChan s d).ev = none →
    Gives (.linkDownRx c pay) s (fun t =>
      (chanIn s d = true → (getChan t d).downEarly = some (payN pay 8 2 % 1024, payN pay 2 2)) ∧
      (chanIn s d = false → t.chans = s.chans) ∧ OnlyParts [.net, .chans] s t)) ∧
  (∀ s (c : Fin 20) pay, s.net.fences = [] → Gives (.fenceRx c pay) s (fun t =>
    t.net.fences = [⟨msgSrc pay, payN pay 10 1, payN pay 2 2, payN pay 1 1⟩] ∧ OnlyParts [.net] s t)) ∧
  (∀ s (c : Fin 20) pay k, s.net.fences = [⟨msgSrc pay, payN pay 10 1, payN pay 2 2, k⟩] → k ≠ payN pay 1 1 →
    Gives (.fenceRx c pay) s (fun t => t.net.fences = [])) ∧
  (∀ s (c : Fin 20) pay, RegsOk s → chanTo s (payN pay 8 2 % 1024) (payN pay 10 1) = none → Gives (.fenceDoneRx c pay) s (fun t =>
    getReg t Reg.fabBadMsg = satInc (getReg s Reg.fabBadMsg) ∧ OnlyParts [.net, .regs] s t)) ∧
  (∀ s (c : Fin 20) pay d, chanTo s (payN pay 8 2 % 1024) (payN pay 10 1) = some d → (getChan s d).ev = none →
    Gives (.fenceDoneRx c pay) s (fun t =>
      (getChan t d).doneEarly = (getChan s d).doneEarly ++ [(msgSrc pay, payN pay 2 2)] ∧ OnlyParts [.net, .chans] s t)) ∧
  (∀ s (c : Fin 20) e, RegsOk s → (getChan s c).ev = some e → getReg s Reg.fabFenceTo ≠ 0#32 → e.dests ≠ [] → e.expired = false →
    (∀ h ∈ s.net.held, isRequest h.f = false) → Gives (.fenceTimeout c) s (fun t =>
      t.net.noRoute = true ∧ (getChan t c).ev = some { e with expired := true } ∧ getReg t Reg.fabCause = 8#32)) ∧
  (∀ s (c : Fin 20), (getChan s c).ev = none → Gives (.fenceTimeout c) s (fun t => t = s))

/-- A free-running write port that takes a push (its inputs valid, its stage empty, no ACK on its way): with both sides CONNECTED, no item being
discarded and dw at most N − 2, the word and its LAST bit are stored at wp, wp and pwp advance, QRESULT is 0 and ACCEPT is 1; with dw above
N − 2 the word is dropped and counted with QRESULT 1, rp stays and ACCEPT is 0; with a side not CONNECTED it is dropped and counted with
QRESULT 4 and nothing is stored; during discard-to-boundary it is counted in FLUSH_DISCARD with QRESULT 1. A side in reset performs
nothing and answers ACCEPT 0. Before the clocked domains are up a push that meets an unconnected queue waits in its evaluate phase (R423). With ENABLE 0 nothing happens to the queue. In a tick-bound tile the word waits in
the hold with its tick. Other queues never change.
Where the spec leaves room this states the model's own choice or reading: log entries 47, 49 and 150. -/
def Obligations.QueuePush : Prop :=
  (∀ (s : State) (q : Fin 2048), StoresOk s → RegsOk s → hostOf s (qWrTile q) = .qWr q → portTakes s (qWrTile q) = true →
    lineRail s (qWrTile q) 15 = .v1 → (getQ s q).wr.ack = false → (getQ s q).wr.inReset = false →
    (clockedUp s = true ∨ qLinked (getQ s q) = true) → Gives (.queuePush q) s (fun t =>
    (qLinked (getQ s q) = true → (getQ s q).discarding = false → qDw (qCfg s q) (getQ s q) + 2 ≤ qN (qCfg s q) →
      (getQ t q).mem = mset dWord (getQ s q).mem ((getQ s q).wp % qN (qCfg s q))
        { pay := BitVec.ofNat 64 (linesVal s (qWrTile q) 32 64), tag := b2n (lineRail s (qWrTile q) 16).high } ∧
      (getQ t q).wp = ptrAdd (qCfg s q) (getQ s q).wp 1 ∧ (getQ t q).pwp = (getQ t q).wp ∧ (getQ t q).rp = (getQ s q).rp ∧
      getReg t (Reg.qresult q) = 0#32 ∧ ((getTile t (qWrTile q)).portOut.map (fun v => bitAt v 0)) = some true) ∧
    (qLinked (getQ s q) = true → (getQ s q).discarding = false → qN (qCfg s q) < qDw (qCfg s q) (getQ s q) + 2 →
      (getQ t q).rp = (getQ s q).rp ∧ getReg t (Reg.qDropped q) = satInc (getReg s (Reg.qDropped q)) ∧
      getReg t (Reg.qresult q) = 1#32 ∧ bitAt (getReg t (Reg.qevent q)) 1 = true ∧
      ((getTile t (qWrTile q)).portOut.map (fun v => bitAt v 0)) = some false) ∧
    (qLinked (getQ s q) = false →
      ((getQ s q).discarding = false → (getQ t q).mem = (getQ s q).mem ∧ (getQ t q).wp = (getQ s q).wp) ∧
      (getQ t q).inItem = !(lineRail s (qWrTile q) 16).high ∧ (getQ t q).rp = (getQ s q).rp ∧
      getReg t (Reg.qDropped q) = satInc (getReg s (Reg.qDropped q)) ∧ getReg t (Reg.qresult q) = 4#32 ∧
      ((getTile t (qWrTile q)).portOut.map (fun v => bitAt v 0)) = some false) ∧
    (qLinked (getQ s q) = true → (getQ s q).discarding = true →
      getReg t (Reg.flushDiscard q) = satInc (getReg s (Reg.flushDiscard q)) ∧ (getQ t q).rp = (getQ s q).rp ∧
      getReg t (Reg.qresult q) = 1#32 ∧ bitAt (getReg t (Reg.qevent q)) 1 = true ∧
      ((getQ t q).discarding = !(lineRail s (qWrTile q) 16).high)) ∧
    (∀ p, p ≠ q.val → getQ t p = getQ s p) ∧ OnlyParts [.fab, .queues, .regs, .msix, .eddies, .free] s t)) ∧
  (∀ (s : State) (q : Fin 2048), StoresOk s → hostOf s (qWrTile q) = .qWr q → portTakes s (qWrTile q) = true →
    lineRail s (qWrTile q) 15 = .v1 → (getQ s q).wr.ack = false → (getQ s q).wr.inReset = true → clockedUp s = true →
    Gives (.queuePush q) s (fun t =>
      (getQ t q).mem = (getQ s q).mem ∧ (getQ t q).wp = (getQ s q).wp ∧ (getQ t q).rp = (getQ s q).rp ∧
      ((getTile t (qWrTile q)).portOut.map (fun v => bitAt v 0)) = some false ∧ OnlyParts [.fab, .queues, .eddies] s t)) ∧
  (∀ (s : State) (q : Fin 2048), hostOf s (qWrTile q) = .qWr q → portTakes s (qWrTile q) = true →
    lineRail s (qWrTile q) 15 = .v1 → clockedUp s = false → qLinked (getQ s q) = false → Gives (.queuePush q) s (fun t => t = s)) ∧
  (∀ (s : State) (q : Fin 2048), StoresOk s → hostOf s (qWrTile q) = .qWr q → portTakes s (qWrTile q) = true →
    lineRail s (qWrTile q) 15 = .v0 → Gives (.queuePush q) s (fun t =>
      (getTile t (qWrTile q)).portOut = some 0 ∧ OnlyParts [.fab] s t)) ∧
  (∀ (s : State) (q : Fin 2048), StoresOk s → hostOf s (qWrTile q) = .qWr q → fFree (frameOf s (qWrTile q)) = false → waveOn s = true →
    (getTile s (qWrTile q)).portOut = none → linesValid s (qWrTile q) (hostLines s (qWrTile q)) = true →
    portQuiet s (qWrTile q) = false → (getQ s q).wr.ack = false → (getQ s q).wr.inReset = false → qLinked (getQ s q) = true →
    Gives (.queuePush q) s (fun t =>
      (getQ t q).hold = (getQ s q).hold ++ [⟨s.tick.nowP1 - 1, (lineRail s (qWrTile q) 16).high,
        BitVec.ofNat 64 (linesVal s (qWrTile q) 32 64)⟩] ∧
      (getQ t q).mem = (getQ s q).mem ∧ (getQ t q).wp = (getQ s q).wp ∧ (getTile t (qWrTile q)).portOut = some 0 ∧
      (∀ p, p ≠ q.val → getQ t p = getQ s p) ∧ OnlyParts [.fab, .queues, .eddies] s t))

/-- A free-running read port that takes a pop: with both sides CONNECTED and the queue not EMPTY to the reader, an intact stored word becomes the word most recently
popped with its tag, rp advances, QRESULT is 0, and nothing stored changes; at EMPTY rp stays, Q_UNDERRUN counts,
QRESULT is 2 and the port reports UNDERRUN with the word most recently popped; not CONNECTED, the same with QRESULT 4. A side in reset performs nothing and reports UNDERRUN. Before the clocked domains are up a pop that meets an unconnected queue waits (R423). In a tick-bound tile a pop first takes the
words of the journal that its ticks took before, without touching the queue; otherwise a word it pops is journalled with its tick.
Where the spec leaves room this states the model's own choice or reading: log entry 47. -/
def Obligations.QueuePop : Prop :=
  (∀ (s : State) (q : Fin 2048), StoresOk s → RegsOk s → hostOf s (qRdTile q) = .qRd q → portTakes s (qRdTile q) = true →
    lineRail s (qRdTile q) 15 = .v1 → (getQ s q).rd.ack = false → (getQ s q).rd.inReset = false →
    (clockedUp s = true ∨ qLinked (getQ s q) = true) → Gives (.queuePop q) s (fun t =>
    (qLinked (getQ s q) = true → qEmpty (qCfg s q) (getQ s q) = false →
      (qSlot (qCfg s q) (getQ s q) (getQ s q).rp).err = 0 →
      (getQ t q).rp = ptrAdd (qCfg s q) (getQ s q).rp 1 ∧
      (getQ t q).last = (qSlot (qCfg s q) (getQ s q) (getQ s q).rp).pay ∧
      (getQ t q).lastTag = (qSlot (qCfg s q) (getQ s q) (getQ s q).rp).tag % 4 ∧
      getReg t (Reg.qresult q) = 0#32 ∧
      ((getTile t (qRdTile q)).portOut.map (fun v => v.setWidth 64)) = some (qSlot (qCfg s q) (getQ s q) (getQ s q).rp).pay) ∧
    (qEmpty (qCfg s q) (getQ s q) = true ∨ qLinked (getQ s q) = false →
      (getQ t q).rp = (getQ s q).rp ∧ getReg t (Reg.qUnderrun q) = satInc (getReg s (Reg.qUnderrun q)) ∧
      getReg t (Reg.qresult q) = (if qLinked (getQ s q) then 2#32 else 4#32) ∧ bitAt (getReg t (Reg.qevent q)) 0 = true ∧
      ((getTile t (qRdTile q)).portOut.map (fun v => (v.setWidth 64, bitAt v 66))) = some ((getQ s q).last, true)) ∧
    (getQ t q).mem = (getQ s q).mem ∧ (getQ t q).wp = (getQ s q).wp ∧
    (∀ p, p ≠ q.val → getQ t p = getQ s p) ∧ OnlyParts [.fab, .queues, .regs, .msix, .eddies, .free] s t)) ∧
  (∀ (s : State) (q : Fin 2048), StoresOk s → hostOf s (qRdTile q) = .qRd q → portTakes s (qRdTile q) = true →
    lineRail s (qRdTile q) 15 = .v1 → (getQ s q).rd.ack = false → (getQ s q).rd.inReset = true → clockedUp s = true →
    Gives (.queuePop q) s (fun t =>
      (getQ t q).mem = (getQ s q).mem ∧ (getQ t q).rp = (getQ s q).rp ∧
      ((getTile t (qRdTile q)).portOut.map (fun v => bitAt v 66)) = some true ∧ OnlyParts [.fab, .queues, .eddies] s t)) ∧
  (∀ (s : State) (q : Fin 2048), hostOf s (qRdTile q) = .qRd q → portTakes s (qRdTile q) = true →
    lineRail s (qRdTile q) 15 = .v1 → clockedUp s = false → qLinked (getQ s q) = false → Gives (.queuePop q) s (fun t => t = s)) ∧
  (∀ (s : State) (q : Fin 2048), StoresOk s → hostOf s (qRdTile q) = .qRd q → portTakes s (qRdTile q) = true →
    lineRail s (qRdTile q) 15 = .v0 → Gives (.queuePop q) s (fun t =>
      (getTile t (qRdTile q)).portOut = some 0 ∧ OnlyParts [.fab] s t)) ∧
  (∀ (s : State) (q : Fin 2048), StoresOk s → RegsOk s → hostOf s (qRdTile q) = .qRd q → fFree (frameOf s (qRdTile q)) = false →
    waveOn s = true → (getTile s (qRdTile q)).portOut = none → linesValid s (qRdTile q) (hostLines s (qRdTile q)) = true →
    portQuiet s (qRdTile q) = false → (getQ s q).rd.ack = false → (getQ s q).rd.inReset = false → Gives (.queuePop q) s (fun t =>
    (∀ jw, (mget dJournal s.ra.journal q).words[(mget dJournal s.ra.journal q).taken]? = some jw →
      (getQ t q).rp = (getQ s q).rp ∧ (mget dJournal t.ra.journal q).taken = (mget dJournal s.ra.journal q).taken + 1 ∧
      (getTile t (qRdTile q)).portOut = some (readOuts ⟨jw.word, jw.tag, false, jw.poison⟩ false false)) ∧
    ((mget dJournal s.ra.journal q).words[(mget dJournal s.ra.journal q).taken]? = none →
      journalUsed s (q / 256) < 65536 → qLinked (getQ s q) = true → qEmpty (qCfg s q) (getQ s q) = false →
      (qSlot (qCfg s q) (getQ s q) (getQ s q).rp).err = 0 →
      (getQ t q).rp = ptrAdd (qCfg s q) (getQ s q).rp 1 ∧
      (mget dJournal t.ra.journal q).words = (mget dJournal s.ra.journal q).words ++
        [⟨s.tick.nowP1 - 1, (qSlot (qCfg s q) (getQ s q) (getQ s q).rp).tag % 4,
          (qSlot (qCfg s q) (getQ s q) (getQ s q).rp).pay, false⟩]) ∧
    OnlyParts [.fab, .queues, .regs, .msix, .eddies, .free, .ra] s t))

/-- POINTER_SYNC copies a pointer of an IND queue to the other side (and nothing in SAME mode); toward the read side it ends FLUSHING once the FLUSH marker
is published, and asks for a seal when the reader is EMPTY and a spill marker is open. SPILL_SEAL publishes an open marker. A flush
is refused with Q_DISCONNECTED, ignored while one is in progress, else taken; FLUSH_ACT discards what is stored and held, counts it, and
places the FLUSH marker, after the item being written ends where one is open. STALE_TIMEOUT of an item waiting at EMPTY raises its event once. QCFG_WRITE is
refused by the conditions of R272, in order, or stored. The QCTL and QCFG writes here meet a free register path.
Where the spec leaves room this states the model's own choice or reading: log entries 48, 51 and 151. -/
def Obligations.QueueFlushSync : Prop :=
  (∀ (s : State) (q : Fin 2048) toRead, qInd (qCfg s q) = false → Gives (.pointerSync q toRead) s (fun t => t = s)) ∧
  (∀ (s : State) (q : Fin 2048), StoresOk s → qInd (qCfg s q) = true → Gives (.pointerSync q false) s (fun t =>
    getQ t q = { getQ s q with rpW := (getQ s q).rp } ∧ (∀ p, p ≠ q.val → getQ t p = getQ s p) ∧ OnlyParts [.queues, .eddies] s t)) ∧
  (∀ (s : State) (q : Fin 2048), StoresOk s → RegsOk s → qInd (qCfg s q) = true → Gives (.pointerSync q true) s (fun t =>
    (getQ t q).pwpR = (getQ s q).pwp ∧ (getQ t q).wp = (getQ s q).wp ∧ (getQ t q).rp = (getQ s q).rp ∧
    (getQ t q).mem = (getQ s q).mem ∧
    ((getQ s q).flush = .written → (getQ t q).flush = .none ∧ (getQ t q).flushing = false ∧ bitAt (getReg t (Reg.qevent q)) 2 = true) ∧
    ((getQ s q).flush ≠ .written → (getQ s q).flushing = false → (getQ s q).openSpill = true → (getQ s q).sealReq = none →
      ptrSub (qCfg s q) (getQ s q).pwp (getQ s q).rp = 0 → (getQ t q).sealReq = some (getQ s q).rp) ∧
    (∀ p, p ≠ q.val → getQ t p = getQ s p) ∧ OnlyParts [.queues, .eddies, .regs, .msix] s t)) ∧
  (∀ (s : State) (q : Fin 2048) r, StoresOk s → (getQ s q).sealReq = some r → Gives (.spillSeal q) s (fun t =>
    getQ t q = (if (getQ s q).openSpill
      then { getQ s q with openSpill := false, pwp := (getQ s q).wp, rpW := r, sealReq := none }
      else { getQ s q with sealReq := none }) ∧ OnlyParts [.queues, .eddies] s t)) ∧
  (∀ (s : State) (q : Fin 2048), (getQ s q).sealReq = none → Gives (.spillSeal q) s (fun t => t = s)) ∧
  (∀ (s : State) (q : Fin 2048), mgmtOpen s = true → (getPath s (q / 256)).data = none → StoresOk s → RegsOk s →
    Gives (.qctlFlush q) s (fun t =>
    if qLinked (getQ s q) = false then
      getReg t (Reg.qresult q) = 4#32 ∧ OnlyRegs [Reg.qresult q] s t ∧ OnlyParts [.regs] s t
    else if (getQ s q).flush ≠ .none then t = s
    else getQ t q = { getQ s q with flush := .asked, flushing := true, above := false } ∧ getReg t (Reg.qresult q) = 0#32 ∧
      OnlyRegs [Reg.qresult q] s t ∧ OnlyParts [.queues, .eddies, .regs] s t)) ∧
  (∀ (s : State) (q : Fin 2048), StoresOk s → RegsOk s → Gives (.flushAct q) s (fun t =>
    if (getQ s q).flush ≠ .asked then t = s
    else (getQ t q).rp = (getQ s q).wp ∧ (getQ t q).hold = [] ∧ (getQ t q).openSpill = false ∧
      getReg t (Reg.qFlushed q) = satAdd (getReg s (Reg.qFlushed q)) (qDepth (qCfg s q) (getQ s q) + (getQ s q).hold.length) ∧
      (if withinItem (getQ s q) then
        (getQ t q).flush = .discard ∧ (getQ t q).discarding = true ∧ (getQ t q).wp = (getQ s q).wp ∧ (getQ t q).mem = (getQ s q).mem
       else (getQ t q).wp = ptrAdd (qCfg s q) (getQ s q).wp 1 ∧
        (getQ t q).flush = (if qInd (qCfg s q) then .written else .none) ∧
        (getQ t q).mem = mset dWord (getQ s q).mem ((getQ s q).wp % qN (qCfg s q))
          { pay := BitVec.ofNat 64 ((qDepth (qCfg s q) (getQ s q) + (getQ s q).hold.length) % 65536 * 2 ^ 32), tag := 3 }))) ∧
  (∀ (s : State) (q : Fin 2048), StoresOk s → RegsOk s → Gives (.staleTimeout q) s (fun t =>
    if qLarge (qCfg s q) = false ∧ fld (getReg s (Reg.qtimer q)) 0 16 ≠ 0 ∧ qEn (qCfg s q) = true ∧ (getQ s q).itemOpen = true ∧
        qEmpty (qCfg s q) (getQ s q) = true ∧ (getQ s q).staleFired = false then
      getReg t (Reg.qStale q) = satInc (getReg s (Reg.qStale q)) ∧ bitAt (getReg t (Reg.qevent q)) 5 = true ∧
      getQ t q = { getQ s q with staleFired := true } ∧ OnlyParts [.queues, .eddies, .regs, .msix] s t
    else t = s)) ∧
  (∀ (s : State) (q : Fin 2048) v, mgmtOpen s = true → (getPath s (q / 256)).data = none → RegsOk s → Gives (.qcfgWrite q v) s (fun t =>
    getReg t (Reg.qresult q) = (if (claimOwner s 4 q).isSome then 0x21#32
      else if qEn (qCfg s q) = true ∧ v &&& 0xFFFF1F#32 ≠ qCfg s q &&& 0xFFFFFFFE#32 then 5#32
      else if 4 < qSizeCode v then 0x20#32
      else if fld v 8 2 = 1 ∨ fld v 10 2 = 1 then 6#32
      else if qEn v = true ∧ (fld v 8 2 = 0 ∨ fld v 10 2 = 0 ∨ (qInd v = false ∧ (fld v 8 2 = 3 ∨ fld v 10 2 = 3))) then 6#32
      else 0#32) ∧
    (getReg t (Reg.qresult q) = 0#32 → getReg t (Reg.qcfg q) = v &&& 0xFFFF1F#32) ∧
    (getReg t (Reg.qresult q) ≠ 0#32 → getReg t (Reg.qcfg q) = getReg s (Reg.qcfg q) ∧ t.queues = s.queues) ∧
    (∀ p : Fin 2048, p ≠ q → qCfg t p = qCfg s p)))

/-- QCTL WR_RESET and RD_RESET (with their register path free) take their side to DISCONNECTED in reset: the write side loses its sluice hold and an open spill marker, the read side
the word most recently popped. A side in reset of an enabled queue whose site is not marked failed, with the clocked domains up, leaves reset with a new epoch in CONNECTING and
sends CONNECT. CONNECT and ACK of the oldest message make their epoch the peer's, are answered with an ACK unless that epoch was
already acknowledged, and the side is CONNECTED once its own epoch was; an ACK of another epoch counts in XING_STALE. A peer's reset discards
what the write side had published or stored: counted in Q_PEER_DISCARD where the read side sees it or both sides reset together, in Q_DROPPED
where the write side sees it alone. A REQ of a queue port or a pool port is kept in a free register, that of a held host push takes the push;
an ACK frees it; a register write that meets a busy path is kept and counted, and changes nothing yet, and the ACK brings the next one to the path. Pool ports exchange epochs the same way. ARBITER_ENTRY counts a late entry and hands on a ball's value; the acknowledges that stages hold may follow it (R45).
Where the spec leaves room this states the model's own choice or reading: log entries 49, 50, 52 and 140. -/
def Obligations.Crossings : Prop :=
  (∀ (s : State) (q : Fin 2048), mgmtOpen s = true → (getPath s (q / 256)).data = none → StoresOk s → RegsOk s →
    Gives (.qctlWrReset q) s (fun t =>
    (getQ t q).wr.st = .disconnected ∧ (getQ t q).wr.inReset = true ∧ (getQ t q).rd.peerRst = true ∧ (getQ t q).hold = [] ∧
    (getQ t q).openSpill = false ∧ (getQ t q).inItem = false ∧ (getQ t q).hostPush = [] ∧ getReg t (Reg.qresult q) = 0#32 ∧
    getReg t (Reg.xingDiscard (q / 256)) = (if (getQ s q).wr.req then satInc (getReg s (Reg.xingDiscard (q / 256)))
      else getReg s (Reg.xingDiscard (q / 256))) ∧ (getQ t q).rp = (getQ s q).rp ∧ (getQ t q).mem = (getQ s q).mem ∧
    (getQ t q).wp = (if (getQ s q).openSpill then ptrAdd (qCfg s q) (getQ s q).wp (2 * qN (qCfg s q) - 1) else (getQ s q).wp) ∧
    (∀ p, p ≠ q.val → getQ t p = getQ s p) ∧ OnlyParts [.queues, .eddies, .regs] s t)) ∧
  (∀ (s : State) (q : Fin 2048), (getPath s (q / 256)).data.isSome = true → mgmtOpen s = true → RegsOk s →
    Gives (.qctlWrReset q) s (fun t =>
      getReg t (Reg.xingBusyCount (q / 256)) = satInc (getReg s (Reg.xingBusyCount (q / 256))) ∧
      (getPath t (q / 256)).data = (getPath s (q / 256)).data ∧
      (getPath t (q / 256)).kept = (getPath s (q / 256)).kept ++ [(Reg.qctl q, 2#32)] ∧ OnlyParts [.paths, .regs] s t)) ∧
  (∀ (s : State) (q : Fin 2048), mgmtOpen s = true → (getPath s (q / 256)).data = none → StoresOk s → RegsOk s → Gives (.qctlRdReset q) s (fun t =>
    getReg t (Reg.qresult q) = 0#32 ∧
    (getQ t q).rd.st = .disconnected ∧ (getQ t q).rd.inReset = true ∧ (getQ t q).wr.peerRst = true ∧ (getQ t q).last = 0 ∧
    (getQ t q).lastTag = 0 ∧ (getQ t q).wp = (getQ s q).wp ∧ (getQ t q).rp = (getQ s q).rp ∧ (getQ t q).mem = (getQ s q).mem ∧
    (∀ p, p ≠ q.val → getQ t p = getQ s p) ∧ OnlyParts [.queues, .eddies, .regs] s t)) ∧
  (∀ (s : State) (q : Fin 2048) (rd : Bool), StoresOk s → Gives (.sideResetRelease (.queue q) rd) s (fun t =>
    let me (x : Queue) := if rd then x.rd else x.wr
    let ot (x : Queue) := if rd then x.wr else x.rd
    if (me (getQ s q)).inReset = true ∧ qEn (qCfg s q) = true ∧ clockedUp s = true ∧ siteFailed s q = false then
      (me (getQ t q)).epoch = (me (getQ s q)).epoch + 1 ∧ (me (getQ t q)).inReset = false ∧ (me (getQ t q)).st = .connecting ∧
      (ot (getQ t q)).msgs = (ot (getQ s q)).msgs ++ [.connect ((me (getQ s q)).epoch + 1)] ∧ OnlyParts [.queues, .eddies] s t
    else t = s)) ∧
  (∀ (s : State) (p : Fin 256) (rd : Bool), StoresOk s → Gives (.sideResetRelease (.port p) rd) s (fun t =>
    let me (x : Port) := if rd then x.rd else x.wr
    let ot (x : Port) := if rd then x.wr else x.rd
    if (me (getPort s p)).inReset = true ∧ bitAt (getReg s (Reg.ppCfg p)) 0 = true ∧ clockedUp s = true ∧
        (rd && (getPort s p).resetAsked) = false ∧ portFailed s p = false then
      (me (getPort t p)).epoch = (me (getPort s p)).epoch + 1 ∧ (me (getPort t p)).inReset = false ∧
      (me (getPort t p)).st = .connecting ∧
      (ot (getPort t p)).msgs = (ot (getPort s p)).msgs ++ [.connect ((me (getPort s p)).epoch + 1)] ∧ OnlyParts [.pool] s t
    else t = s)) ∧
  (∀ (s : State) (p : Fin 256) (rd ack : Bool) (e n : BitVec 8) l, StoresOk s → RegsOk s →
    let me (x : Port) := if rd then x.rd else x.wr
    let ot (x : Port) := if rd then x.wr else x.rd
    (me (getPort s p)).inReset = false → (me (getPort s p)).msgs = (if ack then .ack e n else .connect e) :: l →
    Gives (if ack then .epochAckRx (.port p) rd else .epochConnectRx (.port p) rd) s (fun t =>
      (me (getPort t p)).peer = some e ∧ (me (getPort t p)).msgs = l ∧ (me (getPort t p)).acked = some e ∧
      (me (getPort t p)).ownAcked = ((me (getPort s p)).ownAcked || (ack && n = (me (getPort s p)).epoch)) ∧
      (me (getPort t p)).st = (if (me (getPort s p)).st = .connecting ∧ (me (getPort t p)).ownAcked = true then .connected
        else (me (getPort s p)).st) ∧
      (ot (getPort t p)).msgs = (if (me (getPort s p)).acked = some e then (ot (getPort s p)).msgs
        else (ot (getPort s p)).msgs ++ [.ack (me (getPort s p)).epoch e]) ∧
      (getPort t p).resetting = ((getPort s p).resetting && !(portLinked (getPort t p) && !(getPort s p).resetAsked)) ∧
      getReg t (Reg.xingStale (p / 32)) = (if ack = true ∧ n ≠ (me (getPort s p)).epoch
        then satInc (getReg s (Reg.xingStale (p / 32))) else getReg s (Reg.xingStale (p / 32))) ∧
      OnlyParts [.pool, .regs] s t)) ∧
  (∀ (s : State) (q : Fin 2048) (rd ack : Bool) (e n : BitVec 8) l, StoresOk s → RegsOk s →
    let me (x : Queue) := if rd then x.rd else x.wr
    let ot (x : Queue) := if rd then x.wr else x.rd
    (me (getQ s q)).inReset = false → (me (getQ s q)).msgs = (if ack then .ack e n else .connect e) :: l →
    Gives (if ack then .epochAckRx (.queue q) rd else .epochConnectRx (.queue q) rd) s (fun t =>
      (me (getQ t q)).peer = some e ∧ (me (getQ t q)).msgs = l ∧ (me (getQ t q)).acked = some e ∧
      (me (getQ t q)).ownAcked = ((me (getQ s q)).ownAcked || (ack && n = (me (getQ s q)).epoch)) ∧
      (me (getQ t q)).st = (if (me (getQ s q)).st = .connecting ∧ (me (getQ t q)).ownAcked = true then .connected
        else (me (getQ s q)).st) ∧
      (ot (getQ t q)).msgs = (if (me (getQ s q)).acked = some e then (ot (getQ s q)).msgs
        else (ot (getQ s q)).msgs ++ [.ack (me (getQ s q)).epoch e]) ∧
      getReg t (Reg.xingStale (q / 256)) = (if ack = true ∧ n ≠ (me (getQ s q)).epoch
        then satInc (getReg s (Reg.xingStale (q / 256))) else getReg s (Reg.xingStale (q / 256))) ∧
      OnlyParts [.queues, .eddies, .regs] s t)) ∧
  (∀ (s : State) (q : Fin 2048), StoresOk s → RegsOk s → Gives (.peerResetSync (.queue q) true) s (fun t =>
    if (getQ s q).rd.peerRst then
      (getQ t q).rp = (getQ s q).pwp ∧ (getQ t q).rd.peerRst = false ∧ (getQ t q).wp = (getQ s q).wp ∧
      (getQ t q).rd.st = (if (getQ s q).rd.inReset then (getQ s q).rd.st else .connecting) ∧
      getReg t (Reg.qPeerDiscard q) = satAdd (getReg s (Reg.qPeerDiscard q)) (ptrSub (qCfg s q) (getQ s q).pwp (getQ s q).rp) ∧
      bitAt (getReg t (Reg.qevent q)) 3 = true
    else t = s)) ∧
  (∀ (s : State) (q : Fin 2048), StoresOk s → RegsOk s → (getQ s q).hostPush = [] →
    Gives (.peerResetSync (.queue q) false) s (fun t =>
    if (getQ s q).wr.peerRst then
      (getQ t q).discarding = ((getQ s q).discarding || (getQ s q).inItem) ∧
      (getQ t q).rp = (getQ s q).wp ∧ (getQ t q).wr.peerRst = false ∧ (getQ t q).wp = (getQ s q).wp ∧
      (getQ t q).wr.st = (if (getQ s q).wr.inReset then (getQ s q).wr.st else .connecting) ∧
      getReg t (if (getQ s q).wr.inReset then Reg.qPeerDiscard q else Reg.qDropped q) =
        satAdd (getReg s (if (getQ s q).wr.inReset then Reg.qPeerDiscard q else Reg.qDropped q)) (qDepth (qCfg s q) (getQ s q)) ∧
      bitAt (getReg t (Reg.qevent q)) 4 = true
    else t = s)) ∧
  (∀ (s : State) (p : Fin 256), StoresOk s → Gives (.peerResetSync (.port p) true) s (fun t =>
    if (getPort s p).rd.peerRst then
      (getPort t p).rd.peerRst = false ∧ (getPort t p).peerRd = true ∧
      (getPort t p).rd.st = (if (getPort s p).rd.inReset then (getPort s p).rd.st else .connecting) ∧ OnlyParts [.pool] s t
    else t = s)) ∧
  (∀ (s : State) (p : Fin 256), StoresOk s → Gives (.peerResetSync (.port p) false) s (fun t =>
    if (getPort s p).wr.peerRst then
      (getPort t p).wr.peerRst = false ∧ (getPort t p).peerWr = true ∧
      (getPort t p).wr.st = (if (getPort s p).wr.inReset then (getPort s p).wr.st else .connecting) ∧ OnlyParts [.pool] s t
    else t = s)) ∧
  (∀ (s : State) (q : Fin 2048), StoresOk s → Gives (.xingReqArrive (.qRead q)) s (fun t =>
    (getQ t q).rd.req = ((getQ s q).rd.req || (hostOf s (qRdTile q) == .qRd q && offers s (qRdTile q) 15 &&
      !(getQ s q).rd.inReset && !(getQ s q).rd.ack)) ∧
    (getQ t q).mem = (getQ s q).mem ∧ (getQ t q).rp = (getQ s q).rp ∧ OnlyParts [.queues, .eddies] s t)) ∧
  (∀ (s : State) (q : Fin 2048) w l, StoresOk s → (getQ s q).hostPush = w :: l → (getQ s q).wr.req = true →
    Gives (.xingReqArrive (.qWrite q)) s (fun t =>
      (getQ t q).hostPush = l ∧ (getQ t q).wr = { (getQ s q).wr with req := false, ack := true })) ∧
  (∀ (s : State) (p : Fin 256) (k : Fin 4), StoresOk s → Gives (.xingReqArrive (.poolPort p k)) s (fun t =>
    bitAt (getPort t p).req k = (bitAt (getPort s p).req k || (hostOf s (poolTile p k) == .pool p k && offers s (poolTile p k) 0 &&
      portLinked (getPort s p) && !bitAt (getPort s p).ack k && !(getPort s p).reqs.any (fun r => r.1 = k.val))) ∧
    getPort t p = { getPort s p with req := (getPort t p).req } ∧ OnlyParts [.pool] s t)) ∧
  (∀ (s : State) (q : Fin 2048), StoresOk s → (getQ s q).hostPush = [] → Gives (.xingReqArrive (.qWrite q)) s (fun t =>
    (getQ t q).wr.req = ((getQ s q).wr.req || (hostOf s (qWrTile q) == .qWr q && offers s (qWrTile q) 15 &&
      !(getQ s q).wr.inReset && !(getQ s q).wr.ack)) ∧
    (getQ t q).mem = (getQ s q).mem ∧ OnlyParts [.queues, .eddies] s t)) ∧
  (∀ (s : State) (sec : Fin 8), (getPath s sec).data = none → Gives (.xingReqArrive (.regPath sec)) s (fun t => t = s)) ∧
  (∀ (s : State) (sec : Fin 8) o v, (getPath s sec).data = some (o, v) → (getPath s sec).taken = true →
    Gives (.xingReqArrive (.regPath sec)) s (fun t => t = s)) ∧
  (∀ (s : State) (sec : Fin 8) w l, (getPath s sec).taken = true → (getPath s sec).kept = w :: l →
    Gives (.xingAckArrive (.regPath sec)) s (fun t =>
      getPath t sec = { data := some w, taken := false, kept := l } ∧ OnlyParts [.paths] s t)) ∧
  (∀ (s : State) (sec : Fin 8), (getPath s sec).taken = false → Gives (.xingAckArrive (.regPath sec)) s (fun t => t = s)) ∧
  (∀ (s : State) (q : Fin 2048), StoresOk s → Gives (.xingAckArrive (.qRead q)) s (fun t =>
    (getQ t q).rd = { (getQ s q).rd with ack := false } ∧ (getQ t q).mem = (getQ s q).mem ∧ OnlyParts [.queues, .eddies] s t)) ∧
  (∀ (s : State) (p : Fin 256) (k : Fin 4), StoresOk s → Gives (.xingAckArrive (.poolPort p k)) s (fun t =>
    bitAt (getPort t p).ack k = false ∧ getPort t p = { getPort s p with ack := (getPort t p).ack } ∧ OnlyParts [.pool] s t)) ∧
  (∀ (s : State) (q : Fin 2048), StoresOk s → Gives (.xingAckArrive (.qWrite q)) s (fun t =>
    (getQ t q).wr = { (getQ s q).wr with ack := false, req := (getQ s q).wr.req || ((getQ s q).wr.ack && !(getQ s q).hostPush.isEmpty) } ∧ (getQ t q).mem = (getQ s q).mem ∧ OnlyParts [.queues, .eddies] s t)) ∧
  (∀ (s : State) (sec : Fin 8) late ball v, RegsOk s → Gives (.arbiterEntry sec late ball v) s (fun t =>
    getReg t (Reg.xingLate sec) = (if late then satInc (getReg s (Reg.xingLate sec)) else getReg s (Reg.xingLate sec)) ∧
    (∀ g, ball = some g → bitAt t.pins.gioFree g = v) ∧ (ball = none → t.pins = s.pins) ∧
    (StoresOk s → ∀ u, getTile t u = { getTile s u with ackC := (getTile t u).ackC }) ∧
    (ball = none → t.fab = s.fab) ∧ OnlyRegs [Reg.xingLate sec] s t ∧ OnlyParts [.regs, .pins, .fab] s t))

/-- READ copies the descriptor of POOL_DESC_ID, as the table gives it, into POOL_DESC_DATA with code 0, and where its words are intact (in HBM and in the FIFOs that bring them) changes nothing
else; while a WRITE or CLEAR is in progress it is refused with POOL_BUSY. WRITE and CLEAR are refused with
POOL_OWNED (claimed) and then POOL_BUSY (a command in progress, or a bound pool while ticks run or are uncommitted); WRITE also with the code of its check.
An accepted WRITE stores the descriptor with its reserved bits 0, sets BUSY, and with INIT ZERO
makes every word of the pool 0; no other HBM word changes, and no descriptor cache keeps another descriptor of that pool. An accepted CLEAR leaves KIND NONE. The completion clears BUSY, shows its code
and raises vector 8.
Where the spec leaves room this states the model's own choice or reading: log entry 154. -/
def Obligations.Descriptors : Prop :=
  (∀ s n, mgmtOpen s = true → RegsOk s → s.pool.busy = none → n = fld (getReg s Reg.poolDescId) 0 20 →
    Gives .poolDescRead s (fun t =>
      (∀ i < 8, getReg t (Reg.poolDescData i) = dW (tableDesc s n) i) ∧ fld (getReg t Reg.poolDescStat) 0 8 = 0 ∧
      (s.pool.fifo = [] → (∀ i < 4, (hbmAt s (4 * n + i)).err = 0) → OnlyParts [.regs] s t) ∧ OnlyParts [.regs, .pool, .msix, .free] s t)) ∧
  (∀ s, mgmtOpen s = true → RegsOk s → s.pool.busy ≠ none → Gives .poolDescRead s (fun t =>
    fld (getReg t Reg.poolDescStat) 0 8 = 4 ∧ OnlyRegs [Reg.poolDescStat] s t ∧ OnlyParts [.regs] s t)) ∧
  (∀ s, mgmtOpen s = true → RegsOk s → (descShut s (fld (getReg s Reg.poolDescId) 0 20) ≠ 0) →
    Gives .poolDescWrite s (fun t => OnlyRegs [Reg.poolDescStat] s t ∧ OnlyParts [.regs] s t ∧ fld (getReg t Reg.poolDescStat) 0 8 =
      (if (claimOwner s 8 (fld (getReg s Reg.poolDescId) 0 20)).isSome then 0x21 else 4)) ∧
    Gives .poolDescClear s (fun t => OnlyRegs [Reg.poolDescStat] s t ∧ OnlyParts [.regs] s t ∧ fld (getReg t Reg.poolDescStat) 0 8 =
      (if (claimOwner s 8 (fld (getReg s Reg.poolDescId) 0 20)).isSome then 0x21 else 4))) ∧
  (∀ s n d, mgmtOpen s = true → RegsOk s → StoresOk s → s.pool.fifo = [] → n = fld (getReg s Reg.poolDescId) 0 20 →
    d = (upTo 8).map (fun i => getReg s (Reg.poolDescData i)) → claimOwner s 8 n = none → s.pool.busy = none →
    (poolBound s n = false ∨ engineQuiet s = true) → descCheck (useGranules n (tableDesc s n) false s) n d = 0 →
    Gives .poolDescWrite s (fun t =>
      t.pool.busy = some 0 ∧ bitAt (getReg t Reg.poolDescStat) 8 = true ∧
      (∀ i < 8, dW (tableDesc t n) i = dW d i &&& descMask i) ∧
      (∀ a, (4 * n ≤ a ∧ a < 4 * n + 4) ∨ hbmAt t a =
        (if dKind d ≠ 0 ∧ dInit d = 1 ∧ poolAddr d 0 ≤ a ∧ a < poolAddr d 0 + dDepth d then {} else hbmAt s a)) ∧
      (mwf dDescs s.pool.dcache = true → ∀ u < 9, cachedDesc t u n = none ∨ cachedDesc t u n = some (tableDesc t n)))) ∧
  (∀ s n d, mgmtOpen s = true → RegsOk s → n = fld (getReg s Reg.poolDescId) 0 20 →
    d = (upTo 8).map (fun i => getReg s (Reg.poolDescData i)) → claimOwner s 8 n = none → s.pool.busy = none →
    (poolBound s n = false ∨ engineQuiet s = true) → descCheck (useGranules n (tableDesc s n) false s) n d ≠ 0 →
    Gives .poolDescWrite s (fun t =>
      fld (getReg t Reg.poolDescStat) 0 8 = descCheck (useGranules n (tableDesc s n) false s) n d ∧
      getReg t Reg.poolRangeCount = (if descCheck (useGranules n (tableDesc s n) false s) n d = 0x20
        then satInc (getReg s Reg.poolRangeCount) else getReg s Reg.poolRangeCount) ∧ OnlyParts [.regs] s t)) ∧
  (∀ s n, mgmtOpen s = true → RegsOk s → StoresOk s → s.pool.fifo = [] → n = fld (getReg s Reg.poolDescId) 0 20 → claimOwner s 8 n = none →
    s.pool.busy = none → (poolBound s n = false ∨ engineQuiet s = true) → Gives .poolDescClear s (fun t =>
      t.pool.busy = some 0 ∧ bitAt (getReg t Reg.poolDescStat) 8 = true ∧ dKind (tableDesc t n) = 0 ∧
      (∀ a, (4 * n ≤ a ∧ a < 4 * n + 4) ∨ hbmAt t a = hbmAt s a))) ∧
  (∀ s, RegsOk s → Gives .poolDescDone s (fun t =>
    match s.pool.busy with
    | some c => t.pool.busy = none ∧ fld (getReg t Reg.poolDescStat) 0 8 = c % 256 ∧ bitAt (getReg t Reg.poolDescStat) 8 = false ∧
        t.pool.hbm = s.pool.hbm ∧ (s.msix.enable = true → s.msix.funcMask = false → bitAt (getReg s (Reg.msixCtl 8)) 0 = false → t.msix.sent = s.msix.sent ++ [8]) ∧
        OnlyRegs [Reg.poolDescStat] s t ∧ OnlyParts [.regs, .pool, .msix] s t
    | none => t = s))

/-- A patrol read of an intact word changes nothing; of a word with one bit in error it counts HBM_CE and makes the word wait for its write-back; with two
it counts HBM_UE and records the location with source PATROL, unless one is recorded. The write-back of a waiting word
stores the corrected word. RFM counts. A read of HBM_UE_LOC returns it, latches the high word bits and clears it. -/
def Obligations.HbmController : Prop :=
  (∀ s (wa : BitVec 35), (hbmAt s wa.toNat).err = 0 → Gives (.hbmPatrolRead wa) s (fun t => t = s)) ∧
  (∀ s (wa : BitVec 35), RegsOk s → popc 72 (hbmAt s wa.toNat).err.toNat = 1 → Gives (.hbmPatrolRead wa) s (fun t =>
    getReg t (Reg.hbmCe (hbmStack wa.toNat)) = satInc (getReg s (Reg.hbmCe (hbmStack wa.toNat))) ∧
    wa.toNat ∈ t.pool.wb ∧ t.pool.hbm = s.pool.hbm ∧ OnlyParts [.regs, .pool] s t)) ∧
  (∀ s (wa : BitVec 35), RegsOk s → popc 72 (hbmAt s wa.toNat).err.toNat = 2 → Gives (.hbmPatrolRead wa) s (fun t =>
    getReg t (Reg.hbmUe (hbmStack wa.toNat)) = satInc (getReg s (Reg.hbmUe (hbmStack wa.toNat))) ∧
    getReg t (Reg.hbmUeLoc (hbmStack wa.toNat)) = (if bitAt (getReg s (Reg.hbmUeLoc (hbmStack wa.toNat))) 31
      then getReg s (Reg.hbmUeLoc (hbmStack wa.toNat)) else w32 (2 ^ 31 + 2 ^ 30 + hbmLoc wa.toNat % 2 ^ 30)) ∧
    t.pool.hbm = s.pool.hbm ∧ OnlyParts [.regs, .pool, .msix] s t)) ∧
  (∀ s (wa : BitVec 35), StoresOk s → Gives (.hbmEccWriteback wa) s (fun t =>
    if s.pool.wb.contains wa.toNat then
      t.pool.wb = s.pool.wb.filter (· != wa.toNat) ∧
      hbmAt t wa.toNat = (if popc 72 (hbmAt s wa.toNat).err.toNat = 1
        then { data := (hbmAt s wa.toNat).data ^^^ (hbmAt s wa.toNat).err.setWidth 64 } else hbmAt s wa.toNat) ∧
      (∀ a, a ≠ wa.toNat → hbmAt t a = hbmAt s a) ∧ OnlyParts [.pool] s t
    else t = s)) ∧
  (∀ s (k : Fin 4), RegsOk s → Gives (.hbmRfm k) s (fun t =>
    getReg t (Reg.hbmRfm k) = satInc (getReg s (Reg.hbmRfm k)) ∧ OnlyRegs [Reg.hbmRfm k] s t ∧ OnlyParts [.regs] s t)) ∧
  (∀ s (k : Fin 4), mgmtOpen s = true → RegsOk s → Gives (.hbmUeLocRead k) s (fun t =>
    t.rdata = getReg s (Reg.hbmUeLoc k) ∧ getReg t (Reg.hbmUeLoc k) = 0#32 ∧
    getReg t (Reg.hbmUeLocHi k) = w32 (mget (fun _ => 0) s.pool.ueWord k / 2 ^ 30) ∧
    OnlyRegs [Reg.hbmUeLoc k, Reg.hbmUeLocHi k] s t ∧ OnlyParts [.regs, .rdata, .pool] s t))

/-- A free-running channel that may send takes a request with its direction, pool, index, byte enables and data. A request with an invalid binding (cause
6), to a pool of KIND NONE (4), without the right (5), a write through a binding without WE (7) or to a VERSIONED pool (9) is refused, the port frozen, counted and
recorded; one beyond DEPTH is refused and counted in both range counters. The answer to a read of a
PLAIN, uncached pool whose word is intact gives the word to the host tile; to a write it stores the enabled bytes; nothing is driven where the stage that asked
was put under GSR. A tick-bound write to a VERSIONED pool of the port takes an entry of its tick in the write buffer, and is answered without a store
(R307, R312); a tick-bound read sees the entries of earlier ticks over the word (R182). DRAIN_DONE stores the entry being drained and frees it, unless an operation that its
agent issued before it on that word is not done with. (Here
the descriptor is looked up without an error, and no word carries one in a FIFO.) RESET, its register path free,
is refused (without effect) for a tick-bound port unless no tick runs or is uncommitted; else the port side enters reset and tells the other side. Once its committed entries have drained, the cache is empty
and the port side is CONNECTING with a new epoch.
Where the spec leaves room this states the model's own choice or reading: log entries 54, 55, 152 and 154. -/
def Obligations.PoolPorts : Prop :=
  (∀ (s : State) (p : Fin 256) (k : Fin 4), StoresOk s → RegsOk s → hostOf s (poolTile p k) = .pool p k →
    fFree (frameOf s (poolTile p k)) = true → portTakes s (poolTile p k) = true → lineRail s (poolTile p k) 0 = .v1 →
    (getPort s p).reqs.any (fun r => r.1 = k.val) = false → isFrozen s 3 p = false → (getPort s p).resetting = false →
    portLinked (getPort s p) = true → bitAt (getPort s p).ack k = false → Gives (.poolPortRequest p k) s (fun t =>
    let b := ppBinding s p (linesVal s (poolTile p k) 2 2)
    let d := descOf s (p / 32) (fld b 0 20)
    let we := (lineRail s (poolTile p k) 1).high
    let idx := linesVal s (poolTile p k) 12 35
    let v := if bitAt b 31 = false then 6 else if dKind d = 0 then 4 else if dRight d (if we then 1 else 0) = false then 5
      else if we = true ∧ bitAt b 30 = false then 7 else if we = true ∧ dVersioned d = true then 9 else 0
    DescClean s (p / 32) (fld b 0 20) → ∃ req, (getPort t p).reqs.find? (fun r => r.1 = k.val) = some (k.val, req) ∧
      (v ≠ 0 → req.st = .refused ∧ isFrozen t 3 p = true ∧ getReg t Reg.poolViolations = satInc (getReg s Reg.poolViolations) ∧
        (s.frz.recs.length < 64 → ∃ r ∈ t.frz.recs, r.cls = 3 ∧ r.idx = p.val ∧ r.cause = v ∧ r.addr = idx)) ∧
      (v = 0 → dDepth d ≤ idx → req.st = .refused ∧ getReg t (Reg.ppRange p) = satInc (getReg s (Reg.ppRange p)) ∧
        getReg t Reg.poolRangeCount = satInc (getReg s Reg.poolRangeCount)) ∧
      (v = 0 → idx < dDepth d → s.pool.initWait.contains (fld b 0 20) = true →
        req.st = .waiting ∧ req.we = we ∧ req.pool = fld b 0 20 ∧ req.idx = idx ∧ t.pool.hbm = s.pool.hbm) ∧
      (v = 0 → idx < dDepth d → s.pool.initWait.contains (fld b 0 20) = false → dModel d = false →
        (getPort s p).reqs.any (fun q => q.2.tick.isNone && q.2.st == .waiting) = false →
        req.st = .taken ∧ req.tick = none ∧ req.we = we ∧ req.pool = fld b 0 20 ∧ req.idx = idx ∧
        req.be = BitVec.ofNat 8 (linesVal s (poolTile p k) 4 8) ∧ req.din = BitVec.ofNat 64 (linesVal s (poolTile p k) 64 64) ∧
        t.pool.hbm = s.pool.hbm))) ∧
  (∀ (s : State) (p : Fin 256) (k : Fin 4), (getPort s p).reqs.find? (fun r => r.1 = k.val) = none →
    Gives (.poolPortAnswer p k) s (fun t => t = s)) ∧
  (∀ (s : State) (p : Fin 256) (k : Fin 4) r, StoresOk s → (getPort s p).reqs = [(k.val, r)] → r.tick = none →
    r.st = .taken → r.err = 0 → s.pool.fifo = [] → dCache (descOf s (p / 32) r.pool) = false → dVersioned (descOf s (p / 32) r.pool) = false →
    (hbmAt s (poolAddr (descOf s (p / 32) r.pool) r.idx)).err = 0 → Gives (.poolPortAnswer p k) s (fun t =>
      (getPort t p).reqs = [] ∧ (∀ q, q ≠ p.val → getPort t q = getPort s q) ∧
      (r.gone = true ∨ gsrOn s (tSec (poolTile p k)) = true → t.fab = s.fab) ∧
      (if r.we then
        (r.gone = false → gsrOn s (tSec (poolTile p k)) = false → (getTile t (poolTile p k)).portOut = some 0) ∧
        hbmAt t (poolAddr (descOf s (p / 32) r.pool) r.idx) =
          { data := mergeBytes r.be (hbmAt s (poolAddr (descOf s (p / 32) r.pool) r.idx)).data r.din } ∧
        (∀ a, a ≠ poolAddr (descOf s (p / 32) r.pool) r.idx → hbmAt t a = hbmAt s a)
       else (r.gone = false → gsrOn s (tSec (poolTile p k)) = false → (getTile t (poolTile p k)).portOut =
          some (BitVec.ofNat 128 (hbmAt s (poolAddr (descOf s (p / 32) r.pool) r.idx)).data.toNat)) ∧ t.pool.hbm = s.pool.hbm) ∧
      OnlyParts [.fab, .pool] s t)) ∧
  (∀ (s : State) (p : Fin 256) (k : Fin 4), StoresOk s → hostOf s (poolTile p k) = .pool p k → fFree (frameOf s (poolTile p k)) = false →
    portQuiet s (poolTile p k) = false → waveOn s = true → (getTile s (poolTile p k)).portOut = none →
    linesValid s (poolTile p k) (hostLines s (poolTile p k)) = true → (getPort s p).reqs.any (fun r => r.1 = k.val) = false →
    isFrozen s 3 p = false → (getPort s p).resetting = false → portLinked (getPort s p) = true → bitAt (getPort s p).ack k = false →
    (lineRail s (poolTile p k) 1).high = true → Gives (.poolPortRequest p k) s (fun t =>
    let b := ppBinding s p (linesVal s (poolTile p k) 2 2)
    let d := descOf s (p / 32) (fld b 0 20)
    let idx := linesVal s (poolTile p k) 12 35
    DescClean s (p / 32) (fld b 0 20) → bitAt b 31 = true → bitAt b 30 = true → dKind d ≠ 0 → dRight d 1 = true →
      dVersioned d = true → dOwner d = p.val → idx < dDepth d → s.pool.initWait.contains (fld b 0 20) = false →
      (getPort s p).wb.length < 4096 →
      (∀ e ∈ (getPort s p).wb, ¬ (e.tick = s.tick.nowP1 - 1 ∧ e.pool = fld b 0 20 ∧ e.idx = idx)) →
      (getPort t p).wb = (getPort s p).wb ++ [newEntry (s.tick.nowP1 - 1) k (fld b 0 20) idx
        (BitVec.ofNat 8 (linesVal s (poolTile p k) 4 8)) (BitVec.ofNat 64 (linesVal s (poolTile p k) 64 64))] ∧
      ((getPort t p).reqs.find? (fun r => r.1 = k.val)).map (fun q => (q.2.st, q.2.tick)) = some (.taken, some (s.tick.nowP1 - 1)) ∧
      t.pool.hbm = s.pool.hbm ∧ OnlyParts [.pool] s t)) ∧
  (∀ (s : State) (p : Fin 256) (k : Fin 4) r tk, StoresOk s → (getPort s p).reqs = [(k.val, r)] → r.tick = some tk → r.st = .taken →
    r.gone = false → r.we = true → Gives (.poolPortAnswer p k) s (fun t =>
      (getPort t p).reqs = [] ∧ (getPort t p).wb = (getPort s p).wb ∧ (getTile t (poolTile p k)).portOut = some 0 ∧
      t.pool.hbm = s.pool.hbm ∧ OnlyParts [.fab, .pool] s t)) ∧
  (∀ (s : State) (p : Fin 256) (k : Fin 4) r tk, StoresOk s → (getPort s p).reqs = [(k.val, r)] → r.tick = some tk → r.st = .taken →
    r.gone = false → r.we = false → s.pool.fifo = [] → dCache (descOf s (p / 32) r.pool) = false →
    dVersioned (descOf s (p / 32) r.pool) = true → dOwner (descOf s (p / 32) r.pool) = p.val →
    (hbmAt s (poolAddr (descOf s (p / 32) r.pool) r.idx)).err = 0 → Gives (.poolPortAnswer p k) s (fun t =>
      let f := forwarded (getPort s p) r.pool r.idx tk
      (getTile t (poolTile p k)).portOut = some (BitVec.ofNat 128
        (mergeBytes f.1 (hbmAt s (poolAddr (descOf s (p / 32) r.pool) r.idx)).data f.2).toNat) ∧
      t.pool.hbm = s.pool.hbm ∧ OnlyParts [.fab, .pool] s t)) ∧
  (∀ (s : State) (p : Fin 256) w, StoresOk s → oldestEntry (fun e => e.draining.isSome) (getPort s p).wb = some w →
    w.err = 0 → s.pool.fifo = [] → drainBehind s (w.draining.getD 0) p w = false → DescClean s (p / 32) w.pool → dModel (descOf s (p / 32) w.pool) = false → dCache (descOf s (p / 32) w.pool) = false →
    (hbmAt s (poolAddr (descOf s (p / 32) w.pool) w.idx)).err = 0 → Gives (.drainDone p) s (fun t =>
      (getPort t p).wb = (getPort s p).wb.erase w ∧
      hbmAt t (poolAddr (descOf s (p / 32) w.pool) w.idx) =
        { data := mergeBytes w.be (hbmAt s (poolAddr (descOf s (p / 32) w.pool) w.idx)).data w.data } ∧
      (∀ a, a ≠ poolAddr (descOf s (p / 32) w.pool) w.idx → hbmAt t a = hbmAt s a) ∧ OnlyParts [.pool, .eddies] s t)) ∧
  (∀ (s : State) (p : Fin 256) w, oldestEntry (fun e => e.draining.isSome) (getPort s p).wb = some w → DescClean s (p / 32) w.pool →
    drainBehind s (w.draining.getD 0) p w = true → Gives (.drainDone p) s (fun t =>
      (getPort t p).wb = (getPort s p).wb ∧ t.pool.hbm = s.pool.hbm ∧ OnlyParts [.pool] s t)) ∧
  (∀ (s : State) (p : Fin 256), oldestEntry (fun e => e.draining.isSome) (getPort s p).wb = none →
    Gives (.drainDone p) s (fun t => t = s)) ∧
  (∀ (s : State) (p : Fin 256), mgmtOpen s = true → (getPath s (p / 32)).data = none → StoresOk s →
    Gives (.poolPortReset p) s (fun t =>
    if portTickBound s p = true ∧ engineQuiet s = false then t = s
    else getPort t p = { getPort s p with resetAsked := true, resetting := true, rd := (getPort s p).rd.reset
                                          wr := { (getPort s p).wr with peerRst := true, msgs := [] } } ∧ OnlyParts [.pool] s t)) ∧
  (∀ (s : State) (p : Fin 256), StoresOk s → Gives (.poolPortResetDone p) s (fun t =>
    if (getPort s p).resetAsked = false ∨ ((getPort s p).wb.any (fun e => e.tick < s.ra.com)) = true then t = s
    else (getPort t p).cache = [] ∧ (getPort t p).resetAsked = false ∧ (getPort t p).rd.st = .connecting ∧
      (getPort t p).rd.epoch = (getPort s p).rd.epoch + 1 ∧ (getPort t p).rd.inReset = false ∧
      (getPort t p).wr.msgs = (getPort s p).wr.msgs ++ [.connect ((getPort s p).rd.epoch + 1)] ∧
      (getPort t p).wb = (getPort s p).wb ∧ t.pool.hbm = s.pool.hbm ∧ OnlyParts [.pool, .regs, .fab] s t))

/-- A POOL_RD of a PLAIN, unversioned pool this requester may read, within DEPTH, is answered POOL_OK with the word; a POOL_WR stores the enabled
bytes and is answered POOL_OK. A violation freezes the requester, is counted, and is answered POOL_VIOLATION; an index at or above DEPTH is counted and
answered POOL_RANGE, reads and writes alike; a write to a VERSIONED pool that no other master may write now is answered POOL_BUSY. (The confluence's descriptor cache looks the descriptor up without an error.) A frozen requester's request waits, up to 16 of them. POOL_ANS completes the request of its TAG.
Where the spec leaves room this states the model's own choice or reading: log entries 57 and 154. -/
def Obligations.RemotePools : Prop :=
  (∀ (s : State) pay d, isFrozen s 4 (msgSrc pay) = false → d = descOf s 8 (payN pay 8 4 % 2 ^ 20) →
    s.pool.fifo = [] → DescClean s 8 (payN pay 8 4 % 2 ^ 20) → dKind d = 1 → dRight d 6 = true →
    (dRemote d = 0x3FF ∨ dRemote d = msgSrc pay) → payN pay 16 8 % 2 ^ 35 < dDepth d → dVersioned d = false →
    s.pool.initWait.contains (payN pay 8 4 % 2 ^ 20) = false → (hbmAt s (poolAddr d (payN pay 16 8 % 2 ^ 35))).err = 0 →
    Gives (.poolRdRx pay) s (fun t =>
      t = sendAns (msgSrc pay) (payN pay 2 2) 0 (hbmAt s (poolAddr d (payN pay 16 8 % 2 ^ 35))).data (descTouch 8 (payN pay 8 4 % 2 ^ 20) (takeMsg pay s)))) ∧
  (∀ (s : State) pay d, StoresOk s → isFrozen s 4 (msgSrc pay) = false → d = descOf s 8 (payN pay 8 4 % 2 ^ 20) →
    s.pool.fifo = [] → DescClean s 8 (payN pay 8 4 % 2 ^ 20) → dKind d = 1 →
    dRight d 7 = true → (dRemote d = 0x3FF ∨ dRemote d = msgSrc pay) → payN pay 16 8 % 2 ^ 35 < dDepth d → dVersioned d = false →
    s.pool.initWait.contains (payN pay 8 4 % 2 ^ 20) = false → (hbmAt s (poolAddr d (payN pay 16 8 % 2 ^ 35))).err = 0 →
    Gives (.poolWrRx pay) s (fun t =>
      t = sendAns (msgSrc pay) (payN pay 2 2) 0 0 (otherWrite d (payN pay 16 8 % 2 ^ 35) (BitVec.ofNat 8 (payN pay 1 1))
        (BitVec.ofNat 64 (payN pay 24 8)) (descTouch 8 (payN pay 8 4 % 2 ^ 20) (takeMsg pay s))) ∧
      hbmAt t (poolAddr d (payN pay 16 8 % 2 ^ 35)) =
        { data := mergeBytes (BitVec.ofNat 8 (payN pay 1 1)) (hbmAt s (poolAddr d (payN pay 16 8 % 2 ^ 35))).data
            (BitVec.ofNat 64 (payN pay 24 8)) } ∧
      (∀ a, a ≠ poolAddr d (payN pay 16 8 % 2 ^ 35) → hbmAt t a = hbmAt s a))) ∧
  (∀ (s : State) pay d (we : Bool), RegsOk s → isFrozen s 4 (msgSrc pay) = false → d = descOf s 8 (payN pay 8 4 % 2 ^ 20) →
    DescClean s 8 (payN pay 8 4 % 2 ^ 20) →
    Gives (if we then .poolWrRx pay else .poolRdRx pay) s (fun t =>
      let n := payN pay 8 4 % 2 ^ 20
      let idx := payN pay 16 8 % 2 ^ 35
      let q := descTouch 8 n (takeMsg pay s)
      let v := if dRight d (if we then 7 else 6) = false then 5 else if dRemote d ≠ 0x3FF ∧ dRemote d ≠ msgSrc pay then 0x0A
        else if dKind d = 0 then 4 else 0
      (v ≠ 0 → t = sendAns (msgSrc pay) (payN pay 2 2) 2 0 (poolViolation 4 (msgSrc pay) v n idx q) ∧
        isFrozen t 4 (msgSrc pay) = true ∧ getReg t Reg.poolViolations = satInc (getReg s Reg.poolViolations) ∧ t.pool.hbm = s.pool.hbm) ∧
      (v = 0 → we = true → versionedShut s d = true → t = sendAns (msgSrc pay) (payN pay 2 2) 4 0 q ∧ t.pool.hbm = s.pool.hbm) ∧
      (v = 0 → (we = true → versionedShut s d = false) → dDepth d ≤ idx →
        t = sendAns (msgSrc pay) (payN pay 2 2) 0x20 0 (bump Reg.poolRangeCount q) ∧
        getReg t Reg.poolRangeCount = satInc (getReg s Reg.poolRangeCount) ∧ t.frz = s.frz ∧ t.pool.hbm = s.pool.hbm))) ∧
  (∀ (s : State) pay, isFrozen s 4 (msgSrc pay) = true → (s.pool.remHeld.filter (fun h => h.1 = msgSrc pay)).length < 16 →
    Gives (.poolRdRx pay) s (fun t => t.pool.remHeld = s.pool.remHeld ++ [(msgSrc pay, pay)] ∧ OnlyParts [.net, .pool] s t) ∧
    Gives (.poolWrRx pay) s (fun t => t.pool.remHeld = s.pool.remHeld ++ [(msgSrc pay, pay)] ∧ OnlyParts [.net, .pool] s t)) ∧
  (∀ (s : State) pay, Gives (.poolAnsRx pay) s (fun t =>
    (t.pool.remAns.find? (fun p => p.1 = payN pay 2 2)).map Prod.snd = some (payN pay 1 1, BitVec.ofNat 64 (payN pay 24 8)) ∧
    t.pool.hbm = s.pool.hbm ∧ OnlyParts [.net, .pool] s t))

/-- An eddy that may issue, with the word at PC the operation's encoding and no register of it pending: each operation of OP 0x00 writes its result to
g[rd] (nothing where rd is g0, so that with F = 1 it is a compare) and goes on; with F = 1 FLAGS is N = bit 63, Z = result 0, and C and V as R358 says: the carry of ADD and ADDC, the borrow of SUB and SUBB, with signed overflow;
the last bit shifted out of a shift (0 for a count of 0) with V 0; otherwise both 0. With F = 0 FLAGS is unchanged. CMPI sets FLAGS
from g[ra] − sext(imm16) and writes no register. Nothing else changes. -/
def Obligations.EddyFlags : Prop :=
  (∀ (s : State) (e : Fin 512) (rd ra rb : Fin 32) (f : Bool), NotPending (getEddy s e) [rd, ra, rb] →
    let a := getG (getEddy s e) ra
    let b := getG (getEddy s e) rb
    let c := b2n (flagC (getEddy s e).flags)
    let n := b.toNat % 64
    let range (i : Int) : Bool := decide (i < -(2 ^ 63 : Int) ∨ (2 ^ 63 : Int) ≤ i)
    let ops : List (Instr × Nat × BitVec 64 × Bool × Bool) :=
      [(.eAdd e rd ra rb f, 0, a + b, decide (2 ^ 64 ≤ a.toNat + b.toNat), range (a.toInt + b.toInt)),
       (.eSub e rd ra rb f, 1, a - b, decide (a.toNat < b.toNat), range (a.toInt - b.toInt)),
       (.eAnd e rd ra rb f, 2, a &&& b, false, false),
       (.eOr e rd ra rb f, 3, a ||| b, false, false),
       (.eXor e rd ra rb f, 4, a ^^^ b, false, false),
       (.eSll e rd ra rb f, 5, a <<< n, if n = 0 then false else a.getLsbD (64 - n), false),
       (.eSrl e rd ra rb f, 6, a >>> n, if n = 0 then false else a.getLsbD (n - 1), false),
       (.eSra e rd ra rb f, 7, a.sshiftRight n, if n = 0 then false else a.getLsbD (n - 1), false),
       (.eMul e rd ra rb f, 8, a * b, false, false),
       (.eMulhu e rd ra rb f, 9, BitVec.ofNat 64 (a.toNat * b.toNat / 2 ^ 64), false, false),
       (.eSlt e rd ra rb f, 10, if a.toInt < b.toInt then 1 else 0, false, false),
       (.eSltu e rd ra rb f, 11, if a.toNat < b.toNat then 1 else 0, false, false),
       (.eAddc e rd ra rb f, 12, a + b + BitVec.ofNat 64 c, decide (2 ^ 64 ≤ a.toNat + b.toNat + c), range (a.toInt + b.toInt + c)),
       (.eSubb e rd ra rb f, 13, a - b - BitVec.ofNat 64 c, decide (a.toNat < b.toNat + c), range (a.toInt - b.toInt - c))]
    ∀ p ∈ ops, Issues e (encR 0 rd ra rb (b2n f) p.2.1) s → Gives p.1 s (EddyGoes [.eddies] e (withG (getEddy s e) rd p.2.2.1)
      (if f then BitVec.ofNat 4 (b2n p.2.2.1.msb + 2 * b2n (p.2.2.1 == 0) + 4 * b2n p.2.2.2.1 + 8 * b2n p.2.2.2.2)
       else (getEddy s e).flags) ((getEddy s e).pc + 4#32) s)) ∧
  (∀ (s : State) (e : Fin 512) (rd ra : Fin 32) (f : Bool), NotPending (getEddy s e) [rd, ra, 0] →
    let a := getG (getEddy s e) ra
    ∀ p ∈ [((.ePopc e rd ra f : Instr), 14, BitVec.ofNat 64 (((upTo 64).filter (fun i => a.getLsbD i)).length)),
           (.eClz e rd ra f, 15, BitVec.ofNat 64 (clzN 64 a.toNat))],
      Issues e (encR 0 rd ra 0 (b2n f) p.2.1) s → Gives p.1 s (EddyGoes [.eddies] e (withG (getEddy s e) rd p.2.2)
        (if f then BitVec.ofNat 4 (b2n p.2.2.msb + 2 * b2n (p.2.2 == 0)) else (getEddy s e).flags)
        ((getEddy s e).pc + 4#32) s)) ∧
  (∀ (s : State) (e : Fin 512) (ra : Fin 32) (imm : BitVec 16), NotPending (getEddy s e) [ra] → Issues e (encI 11 0 ra imm.toNat) s →
    let a := getG (getEddy s e) ra
    let b := imm.signExtend 64
    Gives (.eCmpi e ra imm) s (EddyGoes [.eddies] e (getG (getEddy s e))
      (BitVec.ofNat 4 (b2n (a - b).msb + 2 * b2n (a - b == 0) + 4 * b2n (decide (a.toNat < b.toNat)) +
        8 * b2n (decide (a.toInt - b.toInt < -(2 ^ 63 : Int) ∨ (2 ^ 63 : Int) ≤ a.toInt - b.toInt)))) ((getEddy s e).pc + 4#32) s))

/-- Under the conditions to issue: each immediate operation writes g[rd] (nothing for g0), leaves FLAGS and goes on; INSH replaces halfword k. BC goes to PC +
4 × sext(off22) where its condition holds, by the table of R360, and otherwise on; condition 15 raises ILLEGAL. BZ and BNZ test g[ra]. CALL writes PC + 4
to g31; JR computes its target from g[ra] before g[rd] is written. Nothing else changes but the loop buffer. -/
def Obligations.EddyImmediates : Prop :=
  (∀ (s : State) (e : Fin 512) (rd ra : Fin 32) (imm : BitVec 16), NotPending (getEddy s e) [rd, ra] →
    let a := getG (getEddy s e) ra
    ∀ p ∈ [((.eAddi e rd ra imm : Instr), 1, a + imm.signExtend 64), (.eAndi e rd ra imm, 2, a &&& imm.setWidth 64),
           (.eOri e rd ra imm, 3, a ||| imm.setWidth 64), (.eXori e rd ra imm, 4, a ^^^ imm.setWidth 64),
           (.eSlti e rd ra imm, 9, if a.toInt < (imm.signExtend 64).toInt then 1 else 0),
           (.eSltiu e rd ra imm, 10, if a.toNat < (imm.signExtend 64).toNat then 1 else 0)],
      Issues e (encI p.2.1 rd ra imm.toNat) s → Gives p.1 s (EddyGoes [.eddies] e (withG (getEddy s e) rd p.2.2) (getEddy s e).flags
        ((getEddy s e).pc + 4#32) s)) ∧
  (∀ (s : State) (e : Fin 512) (rd ra : Fin 32) (sh : Fin 64), NotPending (getEddy s e) [rd, ra] →
    let a := getG (getEddy s e) ra
    ∀ p ∈ [((.eSlli e rd ra sh : Instr), 5, a <<< sh.val), (.eSrli e rd ra sh, 6, a >>> sh.val),
           (.eSrai e rd ra sh, 7, a.sshiftRight sh.val)],
      Issues e (encI p.2.1 rd ra sh) s → Gives p.1 s (EddyGoes [.eddies] e (withG (getEddy s e) rd p.2.2) (getEddy s e).flags
        ((getEddy s e).pc + 4#32) s)) ∧
  (∀ (s : State) (e : Fin 512) (rd : Fin 32) (imm : BitVec 16) (k : Fin 4), NotPending (getEddy s e) [rd] →
    Issues e (encI 8 rd k imm.toNat) s → Gives (.eInsh e rd imm k) s (EddyGoes [.eddies] e
      (withG (getEddy s e) rd (setFld (getG (getEddy s e) rd) (16 * k) 16 imm.toNat)) (getEddy s e).flags ((getEddy s e).pc + 4#32) s)) ∧
  (∀ (s : State) (e : Fin 512) (c : Fin 15) (off : BitVec 22), Issues e (encB 0x10 c off.toNat) s →
    let fl := (getEddy s e).flags
    let n := fl.getLsbD 0
    let z := fl.getLsbD 1
    let cy := fl.getLsbD 2
    let v := fl.getLsbD 3
    let holds : List Bool := [z, !z, n != v, n == v, z || n != v, !z && n == v, cy, !cy, cy || z, !cy && !z, n, !n, v, !v, true]
    Gives (.eBc e ⟨c.val, by omega⟩ off) s (EddyGoes [.eddies] e (getG (getEddy s e)) fl
      (if holds[c.val]? = some true then (getEddy s e).pc + 4#32 * off.signExtend 32 else (getEddy s e).pc + 4#32) s)) ∧
  (∀ (s : State) (e : Fin 512) (off : BitVec 22), Issues e (encB 0x10 15 off.toNat) s → (getEddy s e).exc = false →
    Gives (.eBc e 15 off) s (EddyTraps [.eddies] e 1 (getEddy s e).pc s)) ∧
  (∀ (s : State) (e : Fin 512) (ra : Fin 32) (imm : BitVec 16), NotPending (getEddy s e) [ra] →
    (Issues e (encI 0x13 0 ra imm.toNat) s → Gives (.eBz e ra imm) s (EddyGoes [.eddies] e (getG (getEddy s e)) (getEddy s e).flags
      ((getEddy s e).pc + (if getG (getEddy s e) ra = 0 then 4#32 * imm.signExtend 32 else 4#32)) s)) ∧
    (Issues e (encI 0x14 0 ra imm.toNat) s → Gives (.eBnz e ra imm) s (EddyGoes [.eddies] e (getG (getEddy s e)) (getEddy s e).flags
      ((getEddy s e).pc + (if getG (getEddy s e) ra = 0 then 4#32 else 4#32 * imm.signExtend 32)) s))) ∧
  (∀ (s : State) (e : Fin 512) (off : BitVec 26), NotPending (getEddy s e) [31] → Issues e (encJ 0x11 off.toNat) s →
    Gives (.eCall e off) s (EddyGoes [.eddies] e (withG (getEddy s e) 31 (((getEddy s e).pc + 4#32).setWidth 64)) (getEddy s e).flags
      ((getEddy s e).pc + 4#32 * off.signExtend 32) s)) ∧
  (∀ (s : State) (e : Fin 512) (rd ra : Fin 32) (imm : BitVec 16), NotPending (getEddy s e) [rd, ra] →
    Issues e (encI 0x12 rd ra imm.toNat) s → Gives (.eJr e rd ra imm) s (EddyGoes [.eddies] e
      (withG (getEddy s e) rd (((getEddy s e).pc + 4#32).setWidth 64)) (getEddy s e).flags
      ((getG (getEddy s e) ra + imm.signExtend 64).setWidth 32) s))

/-- A load of 1, 2, 4 or 8 bytes at bits 31:0 of g[ra] + sext(imm16), wholly in the plain scratchpad, intact and unleased, writes g[rd] with those bytes, little-endian and
zero-extended, at any alignment. A store puts the low bytes of g[rd] there and changes no other byte of the scratchpad, no register and no FLAGS. An address that nothing is mapped at
freezes the eddy, recorded with cause 1, with no register written; outside secure mode one that reaches the secure part does so with cause 2; a queue or local window access of the wrong width raises ACCESS with its address.
Where the spec leaves room this states the model's own choice or reading: log entry 59. -/
def Obligations.EddyMemory : Prop :=
  (∀ (s : State) (e : Fin 512) (rd ra : Fin 32) (imm : BitVec 16), NotPending (getEddy s e) [rd, ra] → RegsOk s →
    let a := ((getG (getEddy s e) ra + imm.signExtend 64).setWidth 32 : Word)
    (∀ p ∈ [((.eLdb e rd ra imm : Instr), 0x18, 1), (.eLdh e rd ra imm, 0x19, 2), (.eLdw e rd ra imm, 0x1A, 4), (.eLdd e rd ra imm, 0x1B, 8)],
      Issues e (encI p.2.1 rd ra imm.toNat) s → a.toNat + p.2.2 ≤ 0xF000 → SpPlain s e a.toNat p.2.2 → Gives p.1 s (fun t =>
        ∃ v : BitVec 64, v.toNat < 2 ^ (8 * p.2.2) ∧ (∀ j < p.2.2, fld v (8 * j) 8 = spByte (getEddy s e) (a.toNat + j)) ∧
          EddyGoes [.eddies, .regs] e (withG (getEddy s e) rd v) (getEddy s e).flags ((getEddy s e).pc + 4#32) s t)) ∧
    (∀ p ∈ [((.eStb e rd ra imm : Instr), 0x1C, 1), (.eSth e rd ra imm, 0x1D, 2), (.eStw e rd ra imm, 0x1E, 4), (.eStd e rd ra imm, 0x1F, 8)],
      Issues e (encI p.2.1 rd ra imm.toNat) s → a.toNat + p.2.2 ≤ 0xF000 → SpPlain s e a.toNat p.2.2 → Gives p.1 s (fun t =>
        (∀ j < p.2.2, spByte (getEddy t e) (a.toNat + j) = fld (getG (getEddy s e) rd) (8 * j) 8) ∧
        (∀ b, (b < a.toNat ∨ a.toNat + p.2.2 ≤ b) → spByte (getEddy t e) b = spByte (getEddy s e) b) ∧
        getEddy t e = { getEddy s e with spad := (getEddy t e).spad, loop := (getEddy t e).loop, pc := (getEddy s e).pc + 4#32 } ∧
        (∀ d, d ≠ e.val → getEddy t d = getEddy s d) ∧ OnlyParts [.eddies, .regs] s t)) ∧
    (∀ p ∈ [((.eLdb e rd ra imm : Instr), 0x18), (.eLdh e rd ra imm, 0x19), (.eLdw e rd ra imm, 0x1A), (.eLdd e rd ra imm, 0x1B),
            (.eStb e rd ra imm, 0x1C), (.eSth e rd ra imm, 0x1D), (.eStw e rd ra imm, 0x1E), (.eStd e rd ra imm, 0x1F)],
      Issues e (encI p.2 rd ra imm.toNat) s → 0x40000 ≤ a.toNat → Gives p.1 s (fun t =>
        (getEddy t e).st = .frozen ∧ isFrozen t 2 e = true ∧ (getEddy t e).g = (getEddy s e).g ∧
        (getEddy t e).spad = (getEddy s e).spad ∧ (getEddy t e).pc = (getEddy s e).pc ∧
        (s.frz.recs.length < 64 → ∃ r ∈ t.frz.recs, r.cls = 2 ∧ r.idx = e.val ∧ r.cause = 1 ∧ r.addr = a.toNat))) ∧
    (∀ p ∈ [((.eLdb e rd ra imm : Instr), 0x18, 1), (.eLdh e rd ra imm, 0x19, 2), (.eLdw e rd ra imm, 0x1A, 4), (.eLdd e rd ra imm, 0x1B, 8),
            (.eStb e rd ra imm, 0x1C, 1), (.eSth e rd ra imm, 0x1D, 2), (.eStw e rd ra imm, 0x1E, 4), (.eStd e rd ra imm, 0x1F, 8)],
      Issues e (encI p.2.1 rd ra imm.toNat) s →
      ((getEddy s e).secure = false → a.toNat < 0x10000 → 0xF000 < a.toNat + p.2.2 → Gives p.1 s (fun t =>
        (getEddy t e).st = .frozen ∧ isFrozen t 2 e = true ∧ (getEddy t e).g = (getEddy s e).g ∧
        (getEddy t e).spad = (getEddy s e).spad ∧ (getEddy t e).pc = (getEddy s e).pc ∧
        (s.frz.recs.length < 64 → ∃ r ∈ t.frz.recs, r.cls = 2 ∧ r.idx = e.val ∧ r.cause = 2 ∧ r.addr = a.toNat))) ∧
      ((getEddy s e).exc = false →
        (p.2.2 ≠ 4 ∧ 0x10000 ≤ a.toNat ∧ a.toNat + p.2.2 ≤ 0x11000) ∨ (p.2.2 ≤ 2 ∧ 0x20000 ≤ a.toNat ∧ a.toNat + p.2.2 ≤ 0x22000) →
        Gives p.1 s (fun t => EddyTraps [.eddies] e 3 (getEddy s e).pc s t ∧ (getEddy t e).eaddr = a))))

/-- At a site that names the eddy: QPUSH of a connected queue with room stores g[rs] with its LAST bit and reports ACCEPT in g[rd]; QPOP of an intact
word puts its payload in g[rd] and its tag in g[rs], and advances rp; QPOPW does the same, and waits, changing nothing, while the queue is EMPTY; QFLUSH asks for a flush
and answers Q_OK; QSTAT puts the depth in bits 29:16 and moves nothing. At a site that does not name it, each is a violation:
the eddy is frozen with cause 3 recorded.
Where the spec leaves room this states the model's own choice or reading: log entry 57. -/
def Obligations.EddyQueues : Prop :=
  (∀ (s : State) (e : Fin 512) (rd rs : Fin 32) (i : Fin 256) (l : Bool) q, q = siteQ e i → StoresOk s → RegsOk s →
    NotPending (getEddy s e) [rd, rs] → Issues e (encQ 0x20 rd rs (b2n l) i) s → siteWrites s e i = true →
    qLinked (getQ s q) = true → (getQ s q).wr.inReset = false → (getQ s q).discarding = false →
    qDw (qCfg s q) (getQ s q) + 2 ≤ qN (qCfg s q) → Gives (.eQpush e rd rs i l) s (fun t =>
      (getQ t q).mem = mset dWord (getQ s q).mem ((getQ s q).wp % qN (qCfg s q)) { pay := getG (getEddy s e) rs, tag := b2n l } ∧
      (getQ t q).wp = ptrAdd (qCfg s q) (getQ s q).wp 1 ∧ (getQ t q).rp = (getQ s q).rp ∧
      getReg t (Reg.qresult q) = 0#32 ∧ (rd.val ≠ 0 → bitAt (getG (getEddy t e) rd) 8 = true) ∧
      (∀ r, r ≠ rd.val → getG (getEddy t e) r = getG (getEddy s e) r) ∧ (getEddy t e).pc = (getEddy s e).pc + 4#32 ∧
      (∀ p, p ≠ q → getQ t p = getQ s p) ∧ OnlyParts [.eddies, .queues, .regs, .msix] s t)) ∧
  (∀ (s : State) (e : Fin 512) (rd rs : Fin 32) (i : Fin 256) q, q = siteQ e i → StoresOk s → RegsOk s →
    NotPending (getEddy s e) [rd, rs] → siteReads s e i = true → qLinked (getQ s q) = true → (getQ s q).rd.inReset = false →
    qEmpty (qCfg s q) (getQ s q) = false → (qSlot (qCfg s q) (getQ s q) (getQ s q).rp).err = 0 →
    ∀ p ∈ [((.eQpop e rd rs i : Instr), 0x21), (.eQpopw e rd rs i, 0x22)], Issues e (encQ p.2 rd rs 0 i) s → Gives p.1 s (fun t =>
      (rd.val ≠ 0 → getG (getEddy t e) rd = (qSlot (qCfg s q) (getQ s q) (getQ s q).rp).pay) ∧
      (rs.val ≠ 0 → rs ≠ rd → fld (getG (getEddy t e) rs) 0 2 = (qSlot (qCfg s q) (getQ s q) (getQ s q).rp).tag % 4) ∧
      (∀ r, r ≠ rd.val → r ≠ rs.val → getG (getEddy t e) r = getG (getEddy s e) r) ∧
      (getQ t q).rp = ptrAdd (qCfg s q) (getQ s q).rp 1 ∧ (getQ t q).mem = (getQ s q).mem ∧
      (getEddy t e).pc = (getEddy s e).pc + 4#32 ∧ (∀ p, p ≠ q → getQ t p = getQ s p) ∧
      OnlyParts [.eddies, .queues, .regs, .msix] s t)) ∧
  (∀ (s : State) (e : Fin 512) (rd rs : Fin 32) (i : Fin 256), NotPending (getEddy s e) [rd, rs] →
    Issues e (encQ 0x22 rd rs 0 i) s → siteReads s e i = true → qEmpty (qCfg s (siteQ e i)) (getQ s (siteQ e i)) = true →
    Gives (.eQpopw e rd rs i) s (fun t => t = s)) ∧
  (∀ (s : State) (e : Fin 512) (rd : Fin 32) (i : Fin 256) q, q = siteQ e i → StoresOk s → RegsOk s →
    NotPending (getEddy s e) [rd] → Issues e (encQ 0x23 rd 0 0 i) s → siteReads s e i = true → qLinked (getQ s q) = true →
    (getQ s q).flush = .none → Gives (.eQflush e rd i) s (fun t =>
      getQ t q = { getQ s q with flush := .asked, flushing := true, above := false } ∧ getReg t (Reg.qresult q) = 0#32 ∧
      (∀ r, getG (getEddy t e) r = withG (getEddy s e) rd 0 r) ∧ (getEddy t e).pc = (getEddy s e).pc + 4#32 ∧
      (∀ p, p ≠ q → getQ t p = getQ s p) ∧ OnlyParts [.eddies, .queues, .regs] s t)) ∧
  (∀ (s : State) (e : Fin 512) (rd : Fin 32) (i : Fin 256) q, q = siteQ e i → NotPending (getEddy s e) [rd] →
    Issues e (encQ 0x24 rd 0 0 i) s → (siteReads s e i = true ∨ siteWrites s e i = true) → Gives (.eQstat e rd i) s (fun t =>
      ∃ v, EddyGoes [.eddies] e (withG (getEddy s e) rd v) (getEddy s e).flags ((getEddy s e).pc + 4#32) s t ∧
        fld v 16 14 = (if siteReads s e i then qDr (qCfg s q) (getQ s q) else qDw (qCfg s q) (getQ s q)) % 2 ^ 14)) ∧
  (∀ (s : State) (e : Fin 512) (rd rs : Fin 32) (i : Fin 256) (l : Bool), NotPending (getEddy s e) [rd, rs] →
    ∀ p ∈ [((.eQpush e rd rs i l : Instr), encQ 0x20 rd rs (b2n l) i, siteWrites s e i), (.eQpop e rd rs i, encQ 0x21 rd rs 0 i, siteReads s e i),
           (.eQpopw e rd rs i, encQ 0x22 rd rs 0 i, siteReads s e i), (.eQflush e rd i, encQ 0x23 rd 0 0 i, siteReads s e i),
           (.eQstat e rd i, encQ 0x24 rd 0 0 i, siteReads s e i || siteWrites s e i)],
      Issues e p.2.1 s → p.2.2 = false → Gives p.1 s (fun t =>
        (getEddy t e).st = .frozen ∧ isFrozen t 2 e = true ∧ (getEddy t e).g = (getEddy s e).g ∧ t.queues = s.queues ∧
        (s.frz.recs.length < 64 → ∃ r ∈ t.frz.recs, r.cls = 2 ∧ r.idx = e.val ∧ r.cause = 3)))

/-- (The section's descriptor cache looks the descriptor up without an error.) With a valid handle, a word below DEPTH, the rights, and a place among the eight outstanding operations, on a PLAIN unversioned pool: PLD, PST and PATOM join the
outstanding operations and go on. An invalid handle raises POOL_HANDLE, a word at or above DEPTH POOL_RANGE; KIND NONE and a missing right freeze the eddy. PLD_ANSWER writes the word to
its register; PST_COMPLETE writes the pool; PATOM_ANSWER writes the new word (CAS only on a match) and gives the old one. CMT outside secure
mode raises PRIVILEGED; with nothing committed and undrained it gives 0, else it issues the oldest entry's drain and gives 1, waiting while eight operations are outstanding. FENCE waits while what it
names is outstanding.
Where the spec leaves room this states the model's own choice or reading: log entries 55, 57 and 58. -/
def Obligations.EddyPools : Prop :=
  (∀ (s : State) (e : Fin 512) (rd ra rb : Fin 32) (h : Fin 8) (off : BitVec 13) ph d,
    NotPending (getEddy s e) [rd, ra, rb] → ph = mget (fun _ => 0) (getEddy s e).ph h → d = descOf s (e / 64) (fld ph 0 20) →
    DescClean s (e / 64) (fld ph 0 20) →
    let g := getG (getEddy s e)
    let at_ := (g ra).toNat
    let ops : List (Instr × Word × Nat × EOpKind × Option Nat × Bool × Bool × Bool) :=
      [(.ePld e rd ra h off, encP 0x28 rd ra h off.toNat, at_ + off.toNat, .load, if rd.val = 0 then none else some rd.val, true, false, false),
       (.ePst e rd ra h off, encP 0x29 rd ra h off.toNat, at_ + off.toNat, .store (g rd), none, false, true, false),
       (.ePatomSwap e rd ra rb h, encA 0x2A rd ra rb h 0, at_, .atomic 0 (g rb) (g rd), if rd.val = 0 then none else some rd.val, true, true, true),
       (.ePatomAdd e rd ra rb h, encA 0x2A rd ra rb h 1, at_, .atomic 1 (g rb) (g rd), if rd.val = 0 then none else some rd.val, true, true, true),
       (.ePatomAnd e rd ra rb h, encA 0x2A rd ra rb h 2, at_, .atomic 2 (g rb) (g rd), if rd.val = 0 then none else some rd.val, true, true, true),
       (.ePatomOr e rd ra rb h, encA 0x2A rd ra rb h 3, at_, .atomic 3 (g rb) (g rd), if rd.val = 0 then none else some rd.val, true, true, true),
       (.ePatomXor e rd ra rb h, encA 0x2A rd ra rb h 4, at_, .atomic 4 (g rb) (g rd), if rd.val = 0 then none else some rd.val, true, true, true),
       (.ePatomCas e rd ra rb h, encA 0x2A rd ra rb h 5, at_, .atomic 5 (g rb) (g rd), if rd.val = 0 then none else some rd.val, true, true, true)]
    ∀ p ∈ ops, Issues e p.2.1 s →
      (bitAt ph 31 = true → p.2.2.1 < dDepth d → dKind d = 1 → (p.2.2.2.2.2.1 = true → dRight d 2 = true) →
        (p.2.2.2.2.2.2.1 = true → dRight d 3 = true) → dVersioned d = false → outstanding (getEddy s e) < 8 →
        Gives p.1 s (fun t =>
          getEddy t e = { getEddy s e with pc := (getEddy s e).pc + 4#32, loop := (getEddy t e).loop, ops := (getEddy s e).ops ++
            [{ kind := p.2.2.2.1, pool := fld ph 0 20, idx := p.2.2.1, rd := p.2.2.2.2.1 }] } ∧ t.pool.hbm = s.pool.hbm ∧ OnlyParts [.eddies, .pool] s t)) ∧
      (bitAt ph 31 = false → (getEddy s e).exc = false → Gives p.1 s (EddyTraps [.eddies] e 8 (getEddy s e).pc s)) ∧
      (bitAt ph 31 = true → dDepth d ≤ p.2.2.1 → (getEddy s e).exc = false →
        Gives p.1 s (EddyTraps [.eddies, .regs, .pool] e 6 (getEddy s e).pc s)) ∧
      (bitAt ph 31 = true → p.2.2.1 < dDepth d → dKind d = 0 ∨ (p.2.2.2.2.2.1 = true ∧ dRight d 2 = false) ∨
        (p.2.2.2.2.2.2.1 = true ∧ dRight d 3 = false) → Gives p.1 s (fun t =>
        (getEddy t e).st = .frozen ∧ isFrozen t 2 e = true ∧ (getEddy t e).g = (getEddy s e).g ∧
        (getEddy t e).ops = (getEddy s e).ops ∧ t.pool.hbm = s.pool.hbm))) ∧
  (∀ (s : State) (e : Fin 512) i o d, StoresOk s → opReady s e i = some o → o.dead = false → d = descOf s (e / 64) o.pool →
    DescClean s (e / 64) o.pool → s.pool.fifo = [] → dKind d = 1 →
    dVersioned d = false → dCache d = false → (hbmAt s (poolAddr d o.idx)).err = 0 →
    (o.kind = .load → Gives (.ePldAnswer e i) s (fun t =>
      (∀ r, getG (getEddy t e) r = if o.rd = some r ∧ r ≠ 0 then (hbmAt s (poolAddr d o.idx)).data else getG (getEddy s e) r) ∧
      (getEddy t e).ops = (getEddy s e).ops.eraseIdx i ∧ (getEddy t e).perr = (getEddy s e).perr ∧ t.pool.hbm = s.pool.hbm ∧
      OnlyParts [.eddies, .pool] s t)) ∧
    (∀ v, o.kind = .store v → o.rd = none → Gives (.pstComplete e i) s (fun t =>
      hbmAt t (poolAddr d o.idx) = { data := v } ∧ (∀ a, a ≠ poolAddr d o.idx → hbmAt t a = hbmAt s a) ∧
      (getEddy t e).ops = (getEddy s e).ops.eraseIdx i ∧ (getEddy t e).g = (getEddy s e).g ∧ OnlyParts [.eddies, .pool] s t)) ∧
    (∀ afn b cas, o.kind = .atomic afn b cas → afn ≤ 5 → Gives (.ePatomAnswer e i) s (fun t =>
      let old := (hbmAt s (poolAddr d o.idx)).data
      (∀ r, getG (getEddy t e) r = if o.rd = some r ∧ r ≠ 0 then old else getG (getEddy s e) r) ∧
      hbmAt t (poolAddr d o.idx) = { data := if afn = 0 then b else if afn = 1 then old + b else if afn = 2 then old &&& b
        else if afn = 3 then old ||| b else if afn = 4 then old ^^^ b else if old = cas then b else old } ∧
      (∀ a, a ≠ poolAddr d o.idx → hbmAt t a = hbmAt s a) ∧ (getEddy t e).ops = (getEddy s e).ops.eraseIdx i ∧
      OnlyParts [.eddies, .pool] s t))) ∧
  (∀ (s : State) (e : Fin 512) (rd p : Fin 32), NotPending (getEddy s e) [rd] → Issues e (encI 0x2B rd 0 p) s →
    let port := 32 * (e.val / 64) + p.val
    let next := oldestEntry (fun w => decide (w.tick < s.ra.com) && w.draining.isNone) (getPort s port).wb
    ((getEddy s e).secure = false → (getEddy s e).exc = false → Gives (.eCmt e rd p) s (EddyTraps [.eddies] e 5 (getEddy s e).pc s)) ∧
    ((getEddy s e).secure = true → 8 ≤ outstanding (getEddy s e) → next ≠ none → Gives (.eCmt e rd p) s (fun t => t = s)) ∧
    ((getEddy s e).secure = true → next = none →
      Gives (.eCmt e rd p) s (EddyGoes [.eddies] e (withG (getEddy s e) rd 0) (getEddy s e).flags ((getEddy s e).pc + 4#32) s)) ∧
    (∀ w, StoresOk s → (getEddy s e).secure = true → outstanding (getEddy s e) < 8 → next = some w → DescClean s (e / 64) w.pool →
      dModel (descOf s (e / 64) w.pool) = false →
      Gives (.eCmt e rd p) s (fun t =>
        (∀ r, getG (getEddy t e) r = withG (getEddy s e) rd 1 r) ∧ (getEddy t e).pc = (getEddy s e).pc + 4#32 ∧
        (getEddy t e).ops = (getEddy s e).ops ++ [{ kind := .drain port, pool := w.pool, idx := w.idx }] ∧
        { w with draining := some e.val, mtag := none } ∈ (getPort t port).wb ∧ t.pool.hbm = s.pool.hbm ∧ OnlyParts [.eddies, .pool] s t))) ∧
  (∀ (s : State) (e : Fin 512) (wp wd : Bool), Issues e (encI 0x3E 0 0 (b2n wp + 2 * b2n wd)) s →
    (((wp = true ∧ outstanding (getEddy s e) ≠ 0) ∨ (wd = true ∧ (getEddy s e).dmaQ ≠ [])) →
      Gives (.eFence e wp wd) s (fun t => t = s)) ∧
    ((wp = true → outstanding (getEddy s e) = 0) → (wd = true → (getEddy s e).dmaQ = []) →
      Gives (.eFence e wp wd) s (EddyGoes [.eddies] e (getG (getEddy s e)) (getEddy s e).flags ((getEddy s e).pc + 4#32) s)))

/-- MTAKE of the oldest record (none waiting for room) puts its three words in g[rd] to g[rd+2] and clears Z; with an empty inbox it sets Z and goes on, or with W waits. MANS
of a tag not outstanding counts in POOL_MODEL_BAD; of an outstanding one it ends it. ERET restores PC, STATUS and FLAGS from EPC and ESTATUS, and
is ILLEGAL while EXC is 0. MFC reads and MTC writes a control register. TRAP enters the handler with the next address as EPC. WFI goes on once a line is pending and
enabled, else waits. BREAK and HALT stop the eddy, at their own and at the next address. An unassigned word at PC raises ILLEGAL. -/
def Obligations.EddySystem : Prop :=
  (∀ (s : State) (e : Fin 512) (rd : Fin 30) (w : Bool) (rd' : Fin 32), rd'.val = rd.val →
    NotPending (getEddy s e) [rd.val, rd.val + 1, rd.val + 2] → Issues e (encI 0x30 rd 0 (b2n w)) s →
    (mget dInbox s.pool.inbox e = [] → (w = true → Gives (.eMtake e rd' w) s (fun t => t = s)) ∧
      (w = false → Gives (.eMtake e rd' w) s (EddyGoes [.eddies] e (getG (getEddy s e)) (setBit (getEddy s e).flags 1 true)
        ((getEddy s e).pc + 4#32) s))) ∧
    (∀ r l, mget dInbox s.pool.inbox e = r :: l → s.pool.initAsk = [] → s.host.ask = [] → Gives (.eMtake e rd' w) s (fun t =>
      (∀ n, getG (getEddy t e) n = if n = 0 then 0 else if n = rd.val + 2 then r.data
        else if n = rd.val + 1 then BitVec.ofNat 64 (r.pool + r.cls * 2 ^ 20 + r.mtag * 2 ^ 32)
        else if n = rd.val then BitVec.ofNat 64 (r.idx + r.be.toNat * 2 ^ 35 + r.op * 2 ^ 43 + r.tag * 2 ^ 48)
        else getG (getEddy s e) n) ∧
      (getEddy t e).flags = setBit (getEddy s e).flags 1 false ∧ (getEddy t e).pc = (getEddy s e).pc + 4#32 ∧
      t.pool.inbox = mset dInbox s.pool.inbox e l ∧ t.pool.outst = s.pool.outst ∧ OnlyParts [.eddies, .pool] s t))) ∧
  (∀ (s : State) (e : Fin 512) (ra rb : Fin 32), NotPending (getEddy s e) [ra, rb] → Issues e (encR 0x31 0 ra rb 0 0) s → RegsOk s →
    Gives (.eMans e ra rb) s (fun t => (getEddy t e).pc = (getEddy s e).pc + 4#32 ∧
      match s.pool.outst.find? (fun o => o.tag = fld (getG (getEddy s e) ra) 0 16) with
      | none => getReg t Reg.poolModelBad = satInc (getReg s Reg.poolModelBad) ∧ OnlyParts [.eddies, .regs] s t
      | some o => t.pool.outst = s.pool.outst.erase o)) ∧
  (∀ (s : State) (e : Fin 512) (ra rb : Fin 32) o, NotPending (getEddy s e) [ra, rb] → Issues e (encR 0x31 0 ra rb 0 0) s →
    s.pool.outst.find? (fun o => o.tag = fld (getG (getEddy s e) ra) 0 16) = some o → o.who = .host 0 → o.op = 0 →
    o.fwdBe = 0#8 → s.host.ask.any (fun a => a.2.1 == some o.tag) = true → bitAt (getG (getEddy s e) ra) 16 = false → Gives (.eMans e ra rb) s (fun t =>
      t.host.data = getG (getEddy s e) rb ∧ t.host.cpl = .ok)) ∧
  (∀ (s : State) (e : Fin 512), Issues e (encR 0x3F 0 0 0 0 0) s →
    ((getEddy s e).exc = true → Gives (.eEret e) s (fun t =>
      (getEddy t e).pc = (getEddy s e).epc ∧ (getEddy t e).ie = bitAt (getEddy s e).estatus 0 ∧
      (getEddy t e).exc = bitAt (getEddy s e).estatus 1 ∧ (getEddy t e).flags = BitVec.ofNat 4 (fld (getEddy s e).estatus 8 4) ∧
      (getEddy t e).g = (getEddy s e).g ∧ (getEddy t e).secure = (getEddy s e).secure ∧ OnlyParts [.eddies] s t)) ∧
    ((getEddy s e).exc = false → Gives (.eEret e) s (EddyTraps [.eddies] e 1 (getEddy s e).pc s))) ∧
  (∀ (s : State) (e : Fin 512) (rd : Fin 32) (n : Fin 16), NotPending (getEddy s e) [rd] → Issues e (encR 0x3F rd n 0 0 1) s →
    Gives (.eMfc e rd n) s (EddyGoes [.eddies] e (withG (getEddy s e) rd ((getC e (getEddy s e) n).setWidth 64)) (getEddy s e).flags
      ((getEddy s e).pc + 4#32) s)) ∧
  (∀ (s : State) (e : Fin 512) (n : Fin 16) (rb : Fin 32), NotPending (getEddy s e) [rb] → Issues e (encR 0x3F n 0 rb 0 2) s →
    Gives (.eMtc e n rb) s (fun t =>
      let v := ((getG (getEddy s e) rb).setWidth 32 : Word)
      (n = 2 → (getEddy t e).epc = v) ∧ (n = 7 → (getEddy t e).scratch = v) ∧ (n = 6 → (getEddy t e).vbase = v &&& 0xFC00#32) ∧
      (n = 0 → (getEddy t e).ie = bitAt v 0 ∧ (getEddy t e).exc = bitAt v 1) ∧ (n = 1 → (getEddy t e).flags = v.setWidth 4) ∧
      (n = 3 → (getEddy t e).estatus = v &&& 0xF07#32) ∧ (n = 10 → (getEddy t e).perr = ((getEddy s e).perr && !bitAt v 0)) ∧
      (n = 4 ∨ n = 5 ∨ n = 8 ∨ n = 9 → (getEddy t e).cause = (getEddy s e).cause ∧ (getEddy t e).eaddr = (getEddy s e).eaddr) ∧
      (getEddy t e).g = (getEddy s e).g ∧ (getEddy t e).secure = (getEddy s e).secure ∧
      (getEddy t e).pc = (getEddy s e).pc + 4#32 ∧ (∀ d, d ≠ e.val → getEddy t d = getEddy s d))) ∧
  (∀ (s : State) (e : Fin 512) (n : Fin 32), Issues e (encR 0x3F 0 0 n 0 3) s → (getEddy s e).exc = false →
    Gives (.eTrap e n) s (fun t => EddyTraps [.eddies] e 9 ((getEddy s e).pc + 4#32) s t ∧ fld (getEddy t e).cause 16 5 = n.val)) ∧
  (∀ (s : State) (e : Fin 512), Issues e (encR 0x3F 0 0 0 0 5) s → Gives (.eWfi e) s (fun t =>
    (getEddy t e).pc = (if (getEddy s e).irqPend &&& (getEddy s e).irqEn = 0 then (getEddy s e).pc else (getEddy s e).pc + 4#32) ∧
    (getEddy t e).wfi = decide ((getEddy s e).irqPend &&& (getEddy s e).irqEn = 0) ∧ (getEddy t e).g = (getEddy s e).g ∧
    OnlyParts [.eddies] s t)) ∧
  (∀ (s : State) (e : Fin 512), (getEddy s e).ops = [] →
    (Issues e (encR 0x3F 0 0 0 0 4) s → Gives (.eBreak e) s (fun t => (getEddy t e).st = .halted ∧
      (getEddy t e).pc = (getEddy s e).pc ∧ (getEddy t e).g = (getEddy s e).g ∧ OnlyParts [.eddies] s t)) ∧
    (Issues e (encR 0x3F 0 0 0 0 6) s → Gives (.eHalt e) s (fun t => (getEddy t e).st = .halted ∧
      (getEddy t e).pc = (getEddy s e).pc + 4#32 ∧ (getEddy t e).g = (getEddy s e).g ∧ OnlyParts [.eddies] s t))) ∧
  (∀ (s : State) (e : Fin 512) w, Issues e w s → legalWord w = false → (getEddy s e).exc = false →
    Gives (.eIllegalInstruction e) s (EddyTraps [.eddies] e 1 (getEddy s e).pc s))

/-- With the management window open, a free register path and no claim: START of an eddy in OFF or HALTED, the clocked parts acting, (its secure part not to be wiped first) runs it from EDDY_ENTRY; HALT of a RUNNING one
with no pool load in progress halts it; RESET of a HALTED or RUNNING USER eddy clears its registers and halts it, line 2 latching again while its inbox holds a record; elsewhere each answers EDDY_STATE, as
a reserved command does, and a claimed eddy EDDY_OWNED. A doorbell write sets lines 4 to 11. EDDY_PIN is stored. An interrupt
is taken for the lowest enabled pending line while IE is 1. TIMER reaching TIMER_CMP sets line 3. SECURE_WIPE_DONE makes the secure part read 0.
Where the spec leaves room this states the model's own choice or reading: log entries 65, 66 and 119. -/
def Obligations.EddyControl : Prop :=
  (∀ (s : State) (e : Fin 512) cmd, mgmtOpen s = true → (getPath s (e / 64)).data = none → StoresOk s →
    Gives (.eddyCmdStart e) s (fun t => if (claimOwner s 5 e).isSome then getEddy t e = { getEddy s e with result := 0x21 }
      else if ((getEddy s e).st = .off ∨ (getEddy s e).st = .halted) ∧ clockedUp s = true then
        (getEddy t e).result = 0 ∧ (getEddy t e).pc = getReg s (Reg.eddyEntry e) ∧ (getEddy t e).ie = false ∧ (getEddy t e).exc = false ∧
        (getEddy t e).st = (if wipeDue s e = true ∨ ((getEddy s e).prevFw = true ∧ (getEddy s e).kind ≤ 1) then .wiping else .running) ∧
        (getEddy t e).g = (getEddy s e).g
      else getEddy t e = { getEddy s e with result := 6 }) ∧
    Gives (.eddyCmdHalt e) s (fun t => if (claimOwner s 5 e).isSome then getEddy t e = { getEddy s e with result := 0x21 }
      else if (getEddy s e).st = .running then (getEddy t e).result = 0 ∧ (getEddy t e).pc = (getEddy s e).pc ∧
        ((getEddy s e).ops = [] → (getEddy t e).st = .halted)
      else getEddy t e = { getEddy s e with result := 6 }) ∧
    Gives (.eddyCmdReserved e cmd) s (fun t =>
      getEddy t e = { getEddy s e with result := if (claimOwner s 5 e).isSome then 0x21 else 6 } ∧
      (∀ d, d ≠ e.val → getEddy t d = getEddy s d) ∧ OnlyParts [.eddies] s t) ∧
    Gives (.eddyCmdReset e) s (fun t => if (claimOwner s 5 e).isSome then getEddy t e = { getEddy s e with result := 0x21 }
      else if (getEddy s e).st = .halted ∨ (getEddy s e).st = .running then
        (∀ r, getG (getEddy t e) r = 0) ∧ (getEddy t e).pc = 0#32 ∧ (getEddy t e).flags = 0#4 ∧ (getEddy t e).spad = (getEddy s e).spad ∧
        bitAt (getEddy t e).irqPend 2 = !(mget dInbox s.pool.inbox e).isEmpty ∧ bitAt (getEddy t e).irqPend 0 = false ∧
        (getEddy t e).st = (if (getEddy s e).kind = 2 then .wiping else .halted)
      else getEddy t e = { getEddy s e with result := 6 })) ∧
  (∀ (s : State) (e : Fin 512) lines, mgmtOpen s = true → (getPath s (e / 64)).data = none → StoresOk s → Gives (.eddyDoorbellWrite e lines) s (fun t =>
    getEddy t e = { getEddy s e with irqPend := (getEddy s e).irqPend ||| BitVec.ofNat 16 (lines.toNat * 16) } ∧
    OnlyParts [.eddies] s t)) ∧
  (∀ (s : State) (e : Fin 512) (hi : Bool) v, mgmtOpen s = true → (getPath s (e / 64)).data = none → RegsOk s → Gives (.eddyPinWrite e hi v) s (fun t =>
    getReg t (if hi then Reg.eddyPinHi e else Reg.eddyPinLo e) = (if hi then v ||| 0xF0000000#32 else v) ∧
    (s.bg.leases = [] → OnlyParts [.regs] s t))) ∧
  (∀ (s : State) (e : Fin 512) (n : Nat), StoresOk s → (getEddy s e).st = .running → (getEddy s e).haltReq = false →
    clockedUp s = true → (getEddy s e).ie = true → n < 14 → bitAt ((getEddy s e).irqPend &&& (getEddy s e).irqEn) n = true →
    (∀ k < n, bitAt ((getEddy s e).irqPend &&& (getEddy s e).irqEn) k = false) → Gives (.irqEntry e) s (fun t =>
      (getEddy t e).pc = (getEddy s e).vbase + w32 (0x40 + 0x10 * n) ∧ (getEddy t e).cause = w32 (0x10 + n) ∧
      (getEddy t e).epc = (if (getEddy s e).wfi then (getEddy s e).pc + 4#32 else (getEddy s e).pc) ∧
      (getEddy t e).ie = false ∧ (getEddy t e).exc = true ∧ (getEddy t e).g = (getEddy s e).g ∧
      (getEddy t e).irqPend = (getEddy s e).irqPend ∧ OnlyParts [.eddies] s t)) ∧
  (∀ (s : State) (e : Fin 512), StoresOk s → Gives (.eddyTimerMatch e) s (fun t =>
    if (getEddy s e).timerCmp ≠ 0#32 ∧ ((getEddy s e).st = .running ∨ (getEddy s e).st = .wiping) then
      bitAt (getEddy t e).irqPend 3 = true ∧ (getEddy t e).timer.setWidth 32 = (getEddy s e).timerCmp ∧
      (getEddy t e).g = (getEddy s e).g ∧ OnlyParts [.eddies] s t
    else t = s)) ∧
  (∀ (s : State) (e : Fin 512), StoresOk s → RegsOk s → Gives (.secureWipeDone e) s (fun t =>
    if wipeDue s e then
      (∀ a, spByte (getEddy t e) a = if 0xF000 ≤ a then 0 else spByte (getEddy s e) a) ∧ (getEddy t e).wipe = false ∧
      getReg t (Reg.eddyWipes e) = satInc (getReg s (Reg.eddyWipes e)) ∧
      (getEddy t e).st = (if (getEddy s e).st = .wiping then (getEddy s e).afterWipe else (getEddy s e).st) ∧
      OnlyParts [.eddies, .regs] s t
    else t = s))

/-- The store to DMA_GO at PC: with eight descriptors queued DMA_STAT shows EDDY_BUSY; LEN 0 is queued with EDDY_LEN, a misaligned one with EDDY_ALIGN; an accepted one is queued
with the descriptor registers. A transfer of any length of a PLAIN pool, intact words of unleased blocks, moves every word into the scratchpad, or out of it, nothing else, and places a
completion with EDDY_OK, raising line 0; one to a VERSIONED pool that is shut writes nothing and completes with EDDY_POOL; words that waited over 1,024 cycles are counted. The load of DMA_DONE at PC takes the oldest completion, and is 0 with none; the load of TIMER_LO returns
the low half and latches the high half. A host aperture read returns the word, a write stores it; one beyond the plain part or of a claimed eddy is refused and counted, a read returning 0, and a frozen context 0 holds it; and one that waits 16,384 cycles fails, a read by Completer Abort.
Where the spec leaves room this states the model's own choice or reading: log entries 60 and 68. -/
def Obligations.EddyLocal : Prop :=
  (∀ (s : State) (e : Fin 512) (rd ra : Fin 32) (imm : BitVec 16), NotPending (getEddy s e) [rd, ra] → StoresOk s → RegsOk s →
    Issues e (encI 0x1E rd ra imm.toNat) s → (getEddy s e).loop = none →
    (getG (getEddy s e) ra + imm.signExtend 64).setWidth 32 = 0x10014#32 → Gives (.dmaGo e) s (fun t =>
      let v := ((getG (getEddy s e) rd).setWidth 32 : Word)
      let len := fld (getEddy s e).dmaLen 0 17
      let sp := fld (getEddy s e).dmaSp 0 16
      (8 ≤ (getEddy s e).dmaQ.length → (getEddy t e).dmaResult = 1 ∧ (getEddy t e).dmaQ = (getEddy s e).dmaQ) ∧
      ((getEddy s e).dmaQ.length < 8 → len = 0 → (getEddy t e).dmaResult = 0x22 ∧
        (getEddy t e).dmaQ.length = (getEddy s e).dmaQ.length + 1) ∧
      ((getEddy s e).dmaQ.length < 8 → len ≠ 0 → (len % 8 ≠ 0 ∨ sp % 8 ≠ 0 ∨ (getEddy s e).dmaIdxLo.toNat % 8 ≠ 0) →
        (getEddy t e).dmaResult = 2) ∧
      ((getEddy s e).dmaQ.length < 8 → ∀ d, (getEddy t e).dmaQ[(getEddy s e).dmaQ.length]? = some d →
        d.toPool = bitAt v 0 ∧ d.tag.toNat = fld v 8 8 ∧ d.sp = sp ∧ d.len = len ∧ d.pool = fld (getEddy s e).dmaPool 0 20) ∧
      (getEddy t e).pc = (getEddy s e).pc + 4#32 ∧ (getEddy t e).g = (getEddy s e).g)) ∧
  (∀ (s : State) (e : Fin 512) starved x l d p n, StoresOk s → RegsOk s → (getEddy s e).dmaQ = x :: l → x.started = true → (getEddy s e).dmaDone.length < 8 →
    s.dev.st ≠ .shuttingDown → x.fail = none → x.dead = false → d = x.sp / 8 → x.sp % 8 = 0 → x.len = 8 * n →
    p = descOf s (e / 64) x.pool → DescClean s (e / 64) x.pool → s.pool.fifo = [] → dKind p = 1 → s.pool.initWait.contains x.pool = false →
    (∀ i < n, leased s (.spad e ((d + i) / 128)) = false) →
    let done (t : State) : Prop := (getEddy t e).dmaDone = (getEddy s e).dmaDone ++ [(x.tag, 0, 0)] ∧ (getEddy t e).dmaQ.length = l.length ∧
      bitAt (getEddy t e).irqPend 0 = true ∧ (getEddy t e).g = (getEddy s e).g ∧
      getReg t (Reg.eddyDmaStarve e) = satAdd (getReg s (Reg.eddyDmaStarve e)) (min starved n) ∧ OnlyParts [.eddies, .regs, .pool] s t
    (x.toPool = false → dVersioned p = false → (∀ i < n, (hbmAt s (poolAddr p (x.idx + i))).err = 0) →
      Gives (.dmaTransferDone ⟨e, starved⟩) s (fun t => done t ∧ t.pool.hbm = s.pool.hbm ∧
        (∀ i < n, mget dHbm (getEddy t e).spad (d + i) = { data := (hbmAt s (poolAddr p (x.idx + i))).data }) ∧
        (∀ i, (i < d ∨ d + n ≤ i) → mget dHbm (getEddy t e).spad i = mget dHbm (getEddy s e).spad i))) ∧
    (x.toPool = true → versionedShut s p = false → (∀ i < n, (mget dHbm (getEddy s e).spad (d + i)).err = 0) →
      Gives (.dmaTransferDone ⟨e, starved⟩) s (fun t => done t ∧ (getEddy t e).spad = (getEddy s e).spad ∧
        (∀ i < n, hbmAt t (poolAddr p (x.idx + i)) = { data := (mget dHbm (getEddy s e).spad (d + i)).data }) ∧
        (∀ a, (a < poolAddr p x.idx ∨ poolAddr p x.idx + n ≤ a) → hbmAt t a = hbmAt s a))) ∧
    (x.toPool = true → versionedShut s p = true → Gives (.dmaTransferDone ⟨e, starved⟩) s (fun t =>
      (getEddy t e).dmaDone = (getEddy s e).dmaDone ++ [(x.tag, 7, 4)] ∧ (getEddy t e).spad = (getEddy s e).spad ∧ t.pool.hbm = s.pool.hbm ∧
      OnlyParts [.eddies, .pool] s t))) ∧
  (∀ (s : State) (e : Fin 512) starved, ((getEddy s e).dmaQ = [] ∨ 8 ≤ (getEddy s e).dmaDone.length) →
    Gives (.dmaTransferDone ⟨e, starved⟩) s (fun t => t = s)) ∧
  (∀ (s : State) (e : Fin 512) (rd ra : Fin 32) (imm : BitVec 16), NotPending (getEddy s e) [rd, ra] →
    Issues e (encI 0x1A rd ra imm.toNat) s → (getEddy s e).loop = none →
    (getG (getEddy s e) ra + imm.signExtend 64).setWidth 32 = 0x1001C#32 → Gives (.dmaDoneRead e) s (fun t =>
      (∀ r, getG (getEddy t e) r = withG (getEddy s e) rd (match (getEddy s e).dmaDone with
        | [] => 0
        | (tag, c, p) :: _ => (w32 (c + tag.toNat * 2 ^ 8 + p * 2 ^ 16 + 2 ^ 31)).setWidth 64) r) ∧
      (getEddy t e).dmaDone = (getEddy s e).dmaDone.drop 1 ∧ (getEddy t e).pc = (getEddy s e).pc + 4#32 ∧ OnlyParts [.eddies] s t)) ∧
  (∀ (s : State) (e : Fin 512) (rd ra : Fin 32) (imm : BitVec 16) (now : BitVec 64), NotPending (getEddy s e) [rd, ra] →
    Issues e (encI 0x1A rd ra imm.toNat) s → (getEddy s e).loop = none →
    (getG (getEddy s e) ra + imm.signExtend 64).setWidth 32 = 0x100C0#32 → Gives (.eddyTimerLoRead e now) s (fun t =>
      (∀ r, getG (getEddy t e) r = withG (getEddy s e) rd ((now.setWidth 32).setWidth 64) r) ∧
      (getEddy t e).timerHi = w32 (now.toNat / 2 ^ 32) ∧ (getEddy t e).timer = now ∧
      (getEddy t e).pc = (getEddy s e).pc + 4#32 ∧ OnlyParts [.eddies] s t)) ∧
  (∀ (s : State) (e : Fin 512) (off : BitVec 12) v a, StoresOk s → RegsOk s → hostShut s false = 0 → isFrozen s 0 0 = false →
    a = 0x4000 * fld (getReg s (Reg.eddyAperture e)) 0 2 + 4 * off.toNat →
    (0xF000 ≤ a ∨ (claimOwner s 5 e).isSome = true → Gives (.apertureAccess e true off v) s (fun t =>
      getReg t (Reg.eddyRefused e) = satInc (getReg s (Reg.eddyRefused e)) ∧ OnlyParts [.regs] s t) ∧
      Gives (.apertureAccess e false off v) s (fun t => t.host.data = 0 ∧ t.host.cpl = .ok ∧
        getReg t (Reg.eddyRefused e) = satInc (getReg s (Reg.eddyRefused e)) ∧ OnlyRegs [Reg.eddyRefused e] s t ∧
        OnlyParts [.regs, .host, .rdata] s t)) ∧
    (a < 0xF000 → claimOwner s 5 e = none → SpPlain s e a 4 →
      Gives (.apertureAccess e false off v) s (fun t =>
        (∀ j < 4, fld t.host.data (8 * j) 8 = spByte (getEddy s e) (a + j)) ∧ t.host.cpl = .ok ∧ OnlyParts [.host, .rdata] s t) ∧
      Gives (.apertureAccess e true off v) s (fun t =>
        (∀ j < 4, spByte (getEddy t e) (a + j) = fld v (8 * j) 8) ∧
        (∀ b, (b < a ∨ a + 4 ≤ b) → spByte (getEddy t e) b = spByte (getEddy s e) b) ∧ OnlyParts [.eddies] s t))) ∧
  (∀ (s : State) (e : Fin 512) (we : Bool) (off : BitVec 12) v, RegsOk s → hostShut s false = 0 → isFrozen s 0 0 = true →
    Gives (.apertureAccess e we off v) s (fun t =>
      if we = false ∨ (s.host.held.filter (fun h => h.1 = 0 && !h.2.isRead)).length < 64 then
        t.host = { s.host with held := s.host.held ++ [(0, .aperture e we off.toNat v)] } ∧ OnlyParts [.host] s t
      else getReg t Reg.hostFrozenDrop = satInc (getReg s Reg.hostFrozenDrop) ∧ OnlyRegs [Reg.hostFrozenDrop] s t ∧ OnlyParts [.regs] s t)) ∧
  (∀ (s : State) (e : Fin 512) (we : Bool), RegsOk s → Gives (.apertureStarved ⟨e, we⟩) s (fun t =>
    (we = false → t.host.cpl = .abort) ∧ (we = true → t.host = s.host) ∧ getReg t (Reg.eddyHostStarved e) = satInc (getReg s (Reg.eddyHostStarved e)) ∧
    getReg t Reg.hostNotReadyCount = satInc (getReg s Reg.hostNotReadyCount) ∧
    OnlyRegs [Reg.eddyHostStarved e, Reg.hostNotReadyCount] s t ∧ OnlyParts [.regs, .host, .rdata] s t))

/-- A context that is enabled and not frozen, served by the device state, reads and writes a word of a PLAIN, unversioned, uncached pool with its right: the word is returned, or its
enabled bytes stored. A word at or above DEPTH is refused and counted; a missing right freezes the context and is counted; a disabled context is counted in HOST_UNMAPPED; a device that does
not serve it counts HOST_NOT_READY or HOST_NA: a refused read is aborted, a refused write dropped. A frozen context's access is held, a write beyond the 64th dropped and counted; a held read is aborted
at its timeout. An offset past the slice's end belongs to a later slice, and past the last nothing answers. A claimed context's page is not written. A doorbell sets the eddy's lines. A host push stores QH_DATA with its LAST bit, a host pop
latches the payload and returns the tag; at a side that is not HOST they answer Q_SIDE. (Descriptors are looked up without an error.)
Where the spec leaves room this states the model's own choice or reading: log entry 71. -/
def Obligations.HostAccess : Prop :=
  (∀ (s : State) (c : Fin 64) (x : BitVec 29) be v d idx, x.toNat < bar2Words s → s.pool.fifo = [] → hostShut s false = 0 → isFrozen s 0 c = false → bitAt (ctxCfg s c) 31 = true →
    ctxStage s c = false → d = descOf s 8 (fld (ctxCfg s c) 0 20) → DescClean s 8 (fld (ctxCfg s c) 0 20) → idx = ctxBase s c + x.toNat → StoresOk s → RegsOk s →
    (idx < dDepth d → dKind d = 1 → dVersioned d = false → dCache d = false → s.pool.initWait.contains (fld (ctxCfg s c) 0 20) = false →
      (hbmAt s (poolAddr d idx)).err = 0 →
      (dRight d 4 = true → Gives (.bar2Read c x) s (fun t => t.host.data = (hbmAt s (poolAddr d idx)).data ∧ t.host.cpl = .ok ∧
        t.pool.hbm = s.pool.hbm ∧ OnlyParts [.host, .rdata, .pool] s t)) ∧
      (dRight d 5 = true → Gives (.bar2Write c x be v) s (fun t =>
        hbmAt t (poolAddr d idx) = { data := mergeBytes be (hbmAt s (poolAddr d idx)).data v } ∧
        (∀ a, a ≠ poolAddr d idx → hbmAt t a = hbmAt s a) ∧ OnlyParts [.pool] s t))) ∧
    (idx < dDepth d → dKind d = 1 → dRight d 5 = true → versionedShut s d = true →
      Gives (.bar2Write c x be v) s (fun t => t.pool.hbm = s.pool.hbm ∧ OnlyParts [.pool] s t)) ∧
    (dDepth d ≤ idx →
      Gives (.bar2Read c x) s (fun t => t.host.cpl = .abort ∧ getReg t Reg.hostRangeCount = satInc (getReg s Reg.hostRangeCount) ∧
        t.pool.hbm = s.pool.hbm ∧ OnlyParts [.regs, .host, .rdata, .pool] s t) ∧
      Gives (.bar2Write c x be v) s (fun t => getReg t Reg.hostRangeCount = satInc (getReg s Reg.hostRangeCount) ∧
        t.pool.hbm = s.pool.hbm ∧ OnlyParts [.regs, .pool] s t)) ∧
    (idx < dDepth d → dKind d = 1 →
      (dRight d 4 = false → Gives (.bar2Read c x) s (fun t => t.host.cpl = .abort ∧ isFrozen t 0 c = true ∧
        getReg t Reg.poolViolations = satInc (getReg s Reg.poolViolations) ∧ t.pool.hbm = s.pool.hbm)) ∧
      (dRight d 5 = false → Gives (.bar2Write c x be v) s (fun t => isFrozen t 0 c = true ∧
        getReg t Reg.poolViolations = satInc (getReg s Reg.poolViolations) ∧ t.pool.hbm = s.pool.hbm)))) ∧
  (∀ (s : State) (c : Fin 64) (x : BitVec 29) be v, bar2Words s ≤ x.toNat →
    let n := bar2Words s
    (64 ≤ c.val + x.toNat / n → Gives (.bar2Read c x) s (fun t => t = s) ∧ Gives (.bar2Write c x be v) s (fun t => t = s)) ∧
    (∀ b : Fin 64, b.val = c.val + x.toNat / n →
      Gives (.bar2Read c x) s (fun t => exec (.bar2Read b (BitVec.ofNat 29 (x.toNat % n))) s = .next t) ∧
      Gives (.bar2Write c x be v) s (fun t => exec (.bar2Write b (BitVec.ofNat 29 (x.toNat % n)) be v) s = .next t))) ∧
  (∀ (s : State) (c : Fin 64) (x : BitVec 29) be v, x.toNat < bar2Words s → RegsOk s →
    (hostShut s (ctxStage s c) = 0 → bitAt (ctxCfg s c) 31 = false →
      Gives (.bar2Read c x) s (fun t => t.host.cpl = .abort ∧ getReg t Reg.hostUnmapped = satInc (getReg s Reg.hostUnmapped)) ∧
      Gives (.bar2Write c x be v) s (fun t => getReg t Reg.hostUnmapped = satInc (getReg s Reg.hostUnmapped) ∧ OnlyParts [.regs] s t)) ∧
    (hostShut s (ctxStage s c) = 3 →
      Gives (.bar2Read c x) s (fun t => t.host.cpl = .abort ∧ getReg t Reg.hostNotReadyCount = satInc (getReg s Reg.hostNotReadyCount)) ∧
      Gives (.bar2Write c x be v) s (fun t => getReg t Reg.hostNotReadyCount = satInc (getReg s Reg.hostNotReadyCount) ∧
        OnlyParts [.regs] s t)) ∧
    (hostShut s (ctxStage s c) = 4 →
      Gives (.bar2Read c x) s (fun t => t.host.cpl = .abort ∧ getReg t Reg.hostNaCount = satInc (getReg s Reg.hostNaCount)) ∧
      Gives (.bar2Write c x be v) s (fun t => getReg t Reg.hostNaCount = satInc (getReg s Reg.hostNaCount) ∧ OnlyParts [.regs] s t)) ∧
    (hostShut s (ctxStage s c) = 0 → bitAt (ctxCfg s c) 31 = true → isFrozen s 0 c = true →
      Gives (.bar2Read c x) s (fun t => t.host.held = s.host.held ++ [(c.val, .bar2Read x.toNat)] ∧ OnlyParts [.host] s t) ∧
      Gives (.bar2Write c x be v) s (fun t => if (s.host.held.filter (fun h => h.1 = c.val && !h.2.isRead)).length < 64 then
          t.host = { s.host with held := s.host.held ++ [(c.val, .bar2Write x.toNat be v)] } ∧ OnlyParts [.host] s t
        else getReg t Reg.hostFrozenDrop = satInc (getReg s Reg.hostFrozenDrop) ∧ OnlyRegs [Reg.hostFrozenDrop] s t ∧
          OnlyParts [.regs] s t))) ∧
  (∀ (s : State) (c : Fin 64), RegsOk s → Gives (.frozenReadTimeout c) s (fun t =>
    match s.host.held.find? (fun h => h.1 = c.val && h.2.isRead) with
    | some h => t.host.held = s.host.held.erase h ∧ t.host.cpl = .abort ∧
        getReg t Reg.hostFrozenAbort = satInc (getReg s Reg.hostFrozenAbort) ∧ OnlyParts [.host, .rdata, .regs] s t
    | none => t = s)) ∧
  (∀ (s : State) (c : Fin 64) (r : Fin 3) v, mgmtOpen s = true → RegsOk s → Gives (.ctxCfgWrite c r v) s (fun t =>
    if (claimOwner s 6 c).isSome then t = s
    else getReg t (if r = 0 then Reg.ctxCfg c else if r = 1 then Reg.ctxBaseLo c else Reg.ctxBaseHi c) =
        (if r = 0 then v &&& 0xC00FFFFF#32 else if r = 1 then v else v &&& 7#32) ∧
      OnlyRegs [if r = 0 then Reg.ctxCfg c else if r = 1 then Reg.ctxBaseLo c else Reg.ctxBaseHi c] s t ∧ OnlyParts [.regs] s t)) ∧
  (∀ (s : State) (c : Fin 64) v, StoresOk s → RegsOk s → hostShut s false = 0 → isFrozen s 0 c = false →
    Gives (.ctxDoorbellWrite c v) s (fun t =>
      if (getEddy s (fld v 0 9)).st = .failed then getReg t Reg.hostUnmapped = satInc (getReg s Reg.hostUnmapped) ∧ OnlyParts [.regs] s t
      else getEddy t (fld v 0 9) = { getEddy s (fld v 0 9) with
          irqPend := (getEddy s (fld v 0 9)).irqPend ||| BitVec.ofNat 16 (fld v 16 8 * 16) } ∧
        (∀ d, d ≠ fld v 0 9 → getEddy t d = getEddy s d) ∧ OnlyParts [.eddies] s t)) ∧
  (∀ (s : State) (q : Fin 2048) v, StoresOk s → RegsOk s → hostShut s false = 0 → isFrozen s 0 0 = false → s.bg.leases = [] →
    (fld (qCfg s q) 8 2 ≠ 3 → Gives (.qhPushWrite q v) s (fun t => getReg t (Reg.qresult q) = 6#32 ∧ OnlyRegs [Reg.qresult q] s t ∧
      OnlyParts [.regs] s t)) ∧
    (fld (qCfg s q) 10 2 ≠ 3 → Gives (.qhPopRead q) s (fun t => getReg t (Reg.qresult q) = 6#32 ∧ t.host.data = 0 ∧
      OnlyRegs [Reg.qresult q] s t ∧ OnlyParts [.regs, .host, .rdata] s t)) ∧
    (fld (qCfg s q) 8 2 = 3 → qLinked (getQ s q) = true → (getQ s q).wr.inReset = false → (getQ s q).discarding = false → (getQ s q).hostPush = [] →
      qDw (qCfg s q) (getQ s q) + 2 ≤ qN (qCfg s q) → Gives (.qhPushWrite q v) s (fun t =>
        (getQ t q).mem = mset dWord (getQ s q).mem ((getQ s q).wp % qN (qCfg s q))
          { pay := BitVec.ofNat 64 ((getReg s (Reg.qhDataLo q)).toNat + (getReg s (Reg.qhDataHi q)).toNat * 2 ^ 32), tag := b2n (bitAt v 0) } ∧
        (getQ t q).wp = ptrAdd (qCfg s q) (getQ s q).wp 1 ∧ getReg t (Reg.qresult q) = 0#32)) ∧
    (fld (qCfg s q) 10 2 = 3 → qLinked (getQ s q) = true → (getQ s q).rd.inReset = false → qEmpty (qCfg s q) (getQ s q) = false →
      (qSlot (qCfg s q) (getQ s q) (getQ s q).rp).err = 0 → Gives (.qhPopRead q) s (fun t =>
        getReg t (Reg.qhPopLo q) = (qSlot (qCfg s q) (getQ s q) (getQ s q).rp).pay.setWidth 32 ∧
        getReg t (Reg.qhPopHi q) = ((qSlot (qCfg s q) (getQ s q) (getQ s q).rp).pay >>> 32).setWidth 32 ∧
        t.rdata = w32 ((qSlot (qCfg s q) (getQ s q) (getQ s q).rp).tag % 4) ∧
        (getQ t q).rp = ptrAdd (qCfg s q) (getQ s q).rp 1 ∧ (getQ t q).mem = (getQ s q).mem)))

/-- DMA_TAIL at or above the ring's size is refused with HOST_RANGE, else stored; ring registers are refused with HOST_DMA_BUSY while the engine has descriptors, a size of 0 or
above 4,096 with HOST_RANGE. A descriptor is started only where DMA_HEAD is not DMA_TAIL, the engine not frozen, none in progress; a device not serving it, LEN 0
and misalignment are the codes it will complete with. A transfer of any length, of a pool or of the staging area, writes its words and STATUS, advances DMA_HEAD, counts, and ends; one to a staging area locked meanwhile or to a VERSIONED pool that is shut writes no word. PCIE_PERST_N's release starts training once PORST_N is high; a link state that R378 has no row for changes nothing. A reset of the
port puts its registers at their reset values and drops what was held; other registers stay.
Where the spec leaves room this states the model's own choice or reading: log entry 73. -/
def Obligations.HostDma : Prop :=
  (∀ (s : State) (e : Fin 16) v, mgmtOpen s = true → RegsOk s → Gives (.dmaTailWrite e v) s (fun t =>
    if fld (getReg s (Reg.dmaRingSize e)) 0 13 ≤ fld v 0 12 then
      fld (getReg t (Reg.hostDmaStat e)) 8 8 = 0x20 ∧ getReg t Reg.hostRangeCount = satInc (getReg s Reg.hostRangeCount) ∧
      OnlyRegs [Reg.hostDmaStat e, Reg.hostRangeCount] s t ∧ OnlyParts [.regs] s t
    else getReg t (Reg.dmaTail e) = w32 (fld v 0 12) ∧ OnlyRegs [Reg.dmaTail e] s t ∧ OnlyParts [.regs] s t)) ∧
  (∀ (s : State) (e : Fin 16) (r : Fin 3) v, mgmtOpen s = true → RegsOk s → Gives (.dmaRingWrite e r v) s (fun t => OnlyParts [.regs] s t ∧
    if getReg s (Reg.dmaHead e) ≠ getReg s (Reg.dmaTail e) then
      fld (getReg t (Reg.hostDmaStat e)) 8 8 = 8 ∧ OnlyRegs [Reg.hostDmaStat e] s t
    else if r = 0 then getReg t (Reg.dmaRingLo e) = v &&& 0xFFFFFFE0#32 ∧ OnlyRegs [Reg.dmaRingLo e] s t
    else if r = 1 then getReg t (Reg.dmaRingHi e) = v ∧ OnlyRegs [Reg.dmaRingHi e] s t
    else if fld v 0 13 = 0 ∨ 4096 < fld v 0 13 then
      fld (getReg t (Reg.hostDmaStat e)) 8 8 = 0x20 ∧ getReg t Reg.hostRangeCount = satInc (getReg s Reg.hostRangeCount)
    else getReg t (Reg.dmaRingSize e) = v &&& 0x1FFF#32 ∧ OnlyRegs [Reg.dmaRingSize e] s t)) ∧
  (∀ (s : State) (e : Fin 16) (w : BitVec 256), Gives (.dmaDescriptorStart e w) s (fun t =>
    if getReg s (Reg.dmaHead e) = getReg s (Reg.dmaTail e) ∨ isFrozen s 1 e = true ∨ (s.host.cur.any (fun p => p.1 = e.val)) = true ∨
        s.dev.inReset = true then t = s
    else ∃ d, t.host.cur.find? (fun p => p.1 = e.val) = some (e.val, d) ∧ d.addr = fld w 0 64 ∧ d.off = fld w 64 38 ∧ d.len = fld w 128 32 ∧
      d.pool = fld w 160 20 ∧ d.toHost = bitAt w 184 ∧ d.stage = bitAt w 185 ∧ d.irq = bitAt w 186 ∧ (DescClean s 8 (fld w 160 20) → t.pool.hbm = s.pool.hbm) ∧
      (let shut := hostShut s (bitAt w 185)
       (shut ≠ 0 → d.fail = some (shut, 0)) ∧
       (shut = 0 → d.len = 0 → d.fail = some (0x22, 0)) ∧
       (shut = 0 → d.len ≠ 0 → (d.len % 8 ≠ 0 ∨ d.addr % 8 ≠ 0 ∨ d.off % 8 ≠ 0) → d.fail = some (1, 0))))) ∧
  (∀ (s : State) (e : Fin 16) data, s.host.cur.find? (fun p => p.1 = e.val) = none → Gives (.dmaDescriptorDone e data) s (fun t => t = s)) ∧
  (∀ (s : State) (e : Fin 16) data d, RegsOk s → s.host.cur = [(e.val, d)] →
    let ring := (getReg s (Reg.dmaRingLo e)).toNat + (getReg s (Reg.dmaRingHi e)).toNat * 2 ^ 32
    let head := (getReg s (Reg.dmaHead e)).toNat
    let ends (code pool : Nat) (words : List (Nat × BitVec 64)) (t : State) : Prop :=
      t.host.cur = [] ∧
      t.host.out = s.host.out ++ words ++ [(ring + 32 * head + 28, BitVec.ofNat 64 (code + pool * 2 ^ 16 + 2 ^ 31))] ∧
      getReg t (Reg.dmaHead e) = w32 ((head + 1) % fld (getReg s (Reg.dmaRingSize e)) 0 13) ∧
      getReg t (Reg.dmaDoneCount e) = satInc (getReg s (Reg.dmaDoneCount e)) ∧
      getReg t (Reg.dmaErrCount e) = (if code = 0 ∨ code = 0x22 then getReg s (Reg.dmaErrCount e)
        else satInc (getReg s (Reg.dmaErrCount e))) ∧ OnlyParts [.host, .regs, .pool, .msix] s t
    (∀ c p, d.fail = some (c, p) → Gives (.dmaDescriptorDone e data) s (fun t => ends c p [] t ∧ t.pool = s.pool)) ∧
    (∀ n a, d.fail = none → d.len = 8 * n → s.pool.fifo = [] →
      a = (if d.stage then stageWord + d.off / 8 else poolAddr (descOf s 8 d.pool) (d.off / 8)) →
      (d.stage = false → DescClean s 8 d.pool ∧ dKind (descOf s 8 d.pool) = 1 ∧ s.pool.initWait.contains d.pool = false) →
      (d.toHost = true → (d.stage = false → dVersioned (descOf s 8 d.pool) = false) → (∀ i < n, (hbmAt s (a + i)).err = 0) →
        Gives (.dmaDescriptorDone e data) s (fun t =>
          ends 0 0 ((upTo n).map (fun i => (d.addr + 8 * i, (hbmAt s (a + i)).data))) t ∧ t.pool.hbm = s.pool.hbm)) ∧
      (d.toHost = false → (if d.stage then stageLocked s else versionedShut s (descOf s 8 d.pool)) = false → StoresOk s →
        Gives (.dmaDescriptorDone e data) s (fun t => ends 0 0 [] t ∧ (∀ i < n, hbmAt t (a + i) = { data := data.getD i 0 }) ∧
          (∀ b, (b < a ∨ a + n ≤ b) → hbmAt t b = hbmAt s b))) ∧
      (d.toHost = false → d.stage = true → stageLocked s = true → Gives (.dmaDescriptorDone e data) s (fun t => ends 2 0 [] t ∧
        getReg t Reg.hostLockedCount = satInc (getReg s Reg.hostLockedCount) ∧ t.pool.hbm = s.pool.hbm)) ∧
      (d.toHost = false → d.stage = false → versionedShut s (descOf s 8 d.pool) = true →
        Gives (.dmaDescriptorDone e data) s (fun t => ends 5 4 [] t ∧ t.pool.hbm = s.pool.hbm)))) ∧
  (∀ s, RegsOk s → Gives .hostPortReset s (fun t =>
    (∀ o, getReg t o = if portReg o then resetOf o else getReg s o) ∧ t.host.held = [] ∧ t.host.ask = [] ∧ t.host.cur = [] ∧
    t.msix.pend = 0 ∧ t.msix.sent = s.msix.sent ∧ OnlyParts [.regs, .host, .msix] s t)) ∧
  (∀ s, Gives .pciePerstNRelease s (fun t =>
    t.host = { s.host with perstHigh := true, training := s.host.training || !s.dev.inReset } ∧ OnlyParts [.host] s t)) ∧
  (∀ s rate width flit, RegsOk s → Gives (.hostLinkUp rate width flit) s (fun t =>
    if rate.toNat ≤ 3 ∧ width.toNat ∈ [1, 2, 4, 8, 16] ∧ (flit = true ↔ rate.toNat = 3) then
      getReg t Reg.hostLink = w32 (rate.toNat + width.toNat * 2 ^ 4 + b2n flit * 2 ^ 10) ∧ t.host = { s.host with training := false } ∧
      OnlyRegs [Reg.hostLink] s t ∧ OnlyParts [.regs, .host] s t
    else t = s))

/-- While PORST_N is low nothing happens. A read of a register with access RC in the management window, outside SHUTTING_DOWN, returns its value and clears it; a read in
SHUTTING_DOWN above the blocks still served returns 0. A write to a register of the identity block that has no action of its own (DEV_EVENT_EN and DTMR_CFG have), by its access type: RW stores the writable
bits, W1C clears the bits that are 1, RO, RC and KEY stay. A write to an offset that no table names, in any block, changes nothing (a section's register path being free for it). In SHUTTING_DOWN writes outside identity, mailbox and
life cycle change nothing, but for GSR_CTL (whose refusal is counted) and EDDY_CTL, which shows EDDY_NOT_AVAILABLE. A write to a section while its register path is busy waits, counted in XING_BUSY.
Where the spec leaves room this states the model's own choice or reading: log entries 76, 115 and 159. -/
def Obligations.RegisterAccess : Prop :=
  (∀ (s : State) (o : BitVec 26) v split, s.dev.inReset = true →
    Gives (.readClear o) s (fun t => t = s) ∧ Gives (.registerWrite o v split) s (fun t => t = s)) ∧
  (∀ (s : State) (o : BitVec 26), RegsOk s → s.dev.inReset = false → s.dev.st ≠ .shuttingDown → o.toNat < 0x2000000 →
    hostRegion o.toNat = none → ueLocStack o.toNat = none → clearsOnRead o.toNat = true → Gives (.readClear o) s (fun t =>
      t.rdata = readReg s o.toNat ∧ getReg t o.toNat = 0#32 ∧ t.fab = s.fab ∧ t.tick = s.tick ∧ t.pool = s.pool ∧ t.queues = s.queues)) ∧
  (∀ (s : State) (o : BitVec 26), s.dev.inReset = false → s.dev.st = .shuttingDown → 0x40000 ≤ o.toNat → o.toNat < 0x2000000 →
    hostRegion o.toNat = none → Gives (.readClear o) s (fun t => t.rdata = 0#32 ∧ OnlyParts [.rdata] s t)) ∧
  (∀ (s : State) (o : BitVec 26) v split r, RegsOk s → s.dev.inReset = false → o.toNat < 0x10000 → o.toNat ≠ Reg.devEventEn →
    ¬ (0x200 ≤ o.toNat ∧ o.toNat < 0x300 ∧ o.toNat % 16 = 0) → regRow o.toNat = some r → Gives (.registerWrite o v split) s (fun t => OnlyParts [.regs] s t ∧ OnlyRegs [o.toNat] s t ∧
      getReg t o.toNat = (match r.acc with
        | .rw => (getReg s o.toNat &&& ~~~(w32 r.mask)) ||| (v &&& w32 r.mask)
        | .w1c => getReg s o.toNat &&& ~~~(v &&& w32 r.mask)
        | .w1s => getReg s o.toNat ||| (v &&& w32 r.mask)
        | _ => getReg s o.toNat))) ∧
  (∀ (s : State) (o : BitVec 26) v split, regRow o.toNat = none → hostRegion o.toNat = none →
    (∀ sec, sectionOf o.toNat = some sec → (getPath s sec).data = none ∧ split = false) →
    Gives (.registerWrite o v split) s (fun t => t = s)) ∧
  (∀ (s : State) (o : BitVec 26) v split, s.dev.st = .shuttingDown → 0x40000 ≤ o.toNat → hostRegion o.toNat = none →
    o.toNat ≠ Reg.gsrCtl → ¬ (0x1000000 ≤ o.toNat ∧ o.toNat < 0x2000000 ∧ o.toNat % 0x8000 = 4) →
    Gives (.registerWrite o v split) s (fun t => t = s)) ∧
  (∀ (s : State) (e : Fin 512) (o : BitVec 26) v split, StoresOk s → s.dev.inReset = false → s.dev.st = .shuttingDown →
    o.toNat = Reg.eddyCtl e → Gives (.registerWrite o v split) s (fun t => getEddy t e = { getEddy s e with result := 5 } ∧
      (∀ d, d ≠ e.val → getEddy t d = getEddy s d) ∧ OnlyParts [.eddies] s t)) ∧
  (∀ (s : State) (o : BitVec 26) v split sec, RegsOk s → s.dev.inReset = false → s.dev.st ≠ .shuttingDown → hostRegion o.toNat = none →
    sectionOf o.toNat = some sec → (getPath s sec).data.isSome = true → Gives (.registerWrite o v split) s (fun t =>
      (getPath t sec).kept = (getPath s sec).kept ++ [(o.toNat, v)] ∧ (getPath t sec).data = (getPath s sec).data ∧
      getReg t (Reg.xingBusyCount sec) = satInc (getReg s (Reg.xingBusyCount sec)) ∧
      OnlyRegs [Reg.xingBusyCount sec] s t ∧ OnlyParts [.paths, .regs] s t))

/-- LOAD_HEADER_READ, LOAD_PASS_A_END and LOAD_CHECKS_END of a load in that phase fail the attempt with the code of the first failing check, or go on: to pass A, to the idle fill, and to
the start-up with the image's claims in force. A zeroising load first zeroes HBM's descriptors, staging area and pools and erases the named slots, which completes ZEROISE. The idle fill leaves every tile and block idle; pass B unlocks the source. A failed attempt falls back to slot 0 once, then is
final. Each start-up step counts and acts (GSR deasserts, writes are enabled, balls drive their release levels; in the clocked parts, at once or at the end of lock wait, stacks show READY, pools take their INIT, eddies start and the channels of CHAN_EN are enabled); the last ends the load in OPERATIONAL or DEGRADED; a lock wait
that times out fails it. In another phase each does nothing. A running timer that expires counts, reloads, sets its event
and raises what it is to raise.
Where the spec leaves room this states the model's own choice or reading: log entries 81, 87 and 99. -/
def Obligations.LoadAndStartUp : Prop :=
  (∀ (s : State) ue, (s.ldr.phase ≠ .header ∨ s.mbx.phase = .transition) → Gives (.loadHeaderRead ue) s (fun t => t = s)) ∧
  (∀ (s : State), RegsOk s → s.ldr.phase = .header → s.mbx.phase ≠ .transition → s.ldr.zeroise = false → s.ldr.erase = 0 →
    s.mbx.phase ≠ .zeroise → s.nv.wipe = none → s.ldr.src < 4 →
    ((getSlot s s.ldr.src).len = 0 → Gives (.loadHeaderRead false) s (AttemptFailed 0x10 none s)) ∧
    (0 < (getSlot s s.ldr.src).len → (getSlot s s.ldr.src).len < 128 →
      Gives (.loadHeaderRead false) s (AttemptFailed 6 (some (getSlot s s.ldr.src).len) s)) ∧
    (128 ≤ (getSlot s s.ldr.src).len →
      Gives (.loadHeaderRead true) s (AttemptFailed 0x15 none s) ∧
      Gives (.loadHeaderRead false) s (fun t =>
        match headerRefusal s (srcBytes s (ldrSource s) 0 128) with
        | some (code, at_) => AttemptFailed code (some at_) s t
        | none => t.ldr.phase = .passA ∧ t.ldr.work.bodyLen = hdr (srcBytes s (ldrSource s) 0 128) 24 8 ∧
            t.ldr.work.keySel = hdr (srcBytes s (ldrSource s) 0 128) 40 1 ∧
            t.ldr.work.startup = hdr (srcBytes s (ldrSource s) 0 128) 42 1 ∧ OnlyParts [.ldr, .regs] s t))) ∧
  (∀ (s : State) ue, RegsOk s → TablesOk s → s.ldr.phase = .header → s.mbx.phase ≠ .transition → s.ldr.zeroise = true → s.ldr.src < 4 →
    s.nv.wipe = none → Gives (.loadHeaderRead ue) s (fun t =>
      (∀ a, hbmAt t a = if 0x400000 ≤ a ∧ a < stageWord then hbmAt s a else {}) ∧ t.ldr.zeroise = false ∧ t.ldr.erase = 0#4 ∧
      (∀ n < 4, if bitAt s.ldr.erase n then (getSlot t n).len = 0 ∧ (getSlot t n).words = [] else getSlot t n = getSlot s n) ∧
      (s.mbx.phase = .zeroise → t.mbx.phase = .idle ∧ fld (getReg t Reg.mbxStat) 0 8 = 0))) ∧
  (∀ (s : State), RegsOk s → s.ldr.phase = .passA → s.ldr.src < 4 → Gives (.loadPassAEnd false) s (fun t =>
    match passA s (ldrSource s) (srcBytes s (ldrSource s) 0 128) with
    | .error (code, at_) => AttemptFailed code (some at_) s t
    | .ok _ => t.ldr.phase = .idleFill ∧ OnlyParts [.ldr, .regs] s t)) ∧
  (∀ (s : State), Gives .loadIdleFillEnd s (fun t =>
    if s.ldr.phase = .idleFill then t.fab.tiles = [] ∧ t.bm = [] ∧ t.fab.heldLines = [] ∧ t.ldr.phase = .passB ∧
      (StoresOk s → ∀ k, (getScr t k).spare = [] ∧ (getScr t k).bmc = []) ∧ OnlyParts [.fab, .bm, .ldr, .regs, .scr] s t
    else t = s)) ∧
  (∀ (s : State), s.ldr.phase = .passB → s.ldr.src < 4 → Gives (.loadPassBEnd false) s (fun t =>
    t.ldr.phase = .checks ∧ t.ldr.locked = false ∧ t.fab.censusRunning = true ∧
    (t.ldr.tagOk = true ↔ ∃ p, passA s (ldrSource s) (srcBytes s (ldrSource s) 0 128) = .ok p))) ∧
  (∀ (s : State), RegsOk s → s.ldr.phase = .checks → Gives .loadChecksEnd s (fun t =>
    match (runChecks s).1 with
    | some (code, loc) => AttemptFailed code loc s t
    | none => t.ldr.phase = .startup ∧ t.claims = s.ldr.work.claims ∧ t.ldr.image = some s.ldr.work.keySel ∧ t.fab.tapsOn = true)) ∧
  (∀ (s : State) ue, (s.ldr.phase ≠ .passA → Gives (.loadPassAEnd ue) s (fun t => t = s)) ∧
    (s.ldr.phase ≠ .passB → Gives (.loadPassBEnd ue) s (fun t => t = s)) ∧
    (s.ldr.phase ≠ .checks → Gives .loadChecksEnd s (fun t => t = s))) ∧
  (∀ (s : State), RegsOk s →
    let steps : List (Instr × Nat × (State → Prop)) :=
      [(.lockWaitEnd, 0, fun t => t.ldr.due = []), (.setResetReleaseDone, 1, fun t => t.fab.gsr = 0#8),
       (.writeEnableDone, 2, fun t => t.fab.writesOn = true), (.outputReleaseDone, 3, fun t => t.pins.gioFirst = 0#480 ∧ t.pins.gioOe = 0#480)]
    ∀ p ∈ steps,
      (stepDue s p.2.1 = false → Gives p.1 s (fun t => t = s)) ∧
      (stepDue s p.2.1 = true → s.ldr.steps < 3 → Gives p.1 s (fun t => p.2.2 t ∧ t.ldr.steps = s.ldr.steps + 1 ∧ t.ldr.phase = .startup)) ∧
      (stepDue s p.2.1 = true → s.ldr.steps = 3 → Gives p.1 s (fun t => p.2.2 t ∧ t.ldr.phase = .done ∧ t.ldr.busy = false ∧
        t.dev.cfgDone = true ∧ t.dev.cfgErr = false ∧ (t.dev.st = .operational ∨ t.dev.st = .degraded) ∧
        getReg t Reg.ldrLoads = satInc (getReg s Reg.ldrLoads)))) ∧
  (∀ (s : State), RegsOk s → stepDue s 0 = true → Gives .lockWaitEnd s (fun t =>
    t.ldr.clkSpread = getReg s Reg.clkSpread ∧
    (∀ k < 4, bitAt (getReg t (Reg.hbmStat k)) 0 = (!stackFailed s k || bitAt (getReg s (Reg.hbmStat k)) 0)))) ∧
  (∀ (s : State), stepDone s 0 = false →
    (stepDue s 2 = true → Gives .writeEnableDone s (fun t => t.ldr.due = s.ldr.due ++ [2] ∧ t.eddies = s.eddies ∧ t.pool = s.pool)) ∧
    (stepDue s 3 = true → Gives .outputReleaseDone s (fun t => t.ldr.due = s.ldr.due ++ [3] ∧ t.chans = s.chans))) ∧
  (∀ (s : State), StoresOk s →
    let clocked (c : Nat) (Q : State → Prop) : Prop :=
      (stepDone s 0 = true → stepDue s c = true → Gives (if c = 2 then .writeEnableDone else .outputReleaseDone) s Q) ∧
      (stepDue s 0 = true → s.ldr.due = [c] → Gives .lockWaitEnd s Q)
    ((s.ldr.starts.map Prod.fst).Nodup → clocked 2 (fun t => ∀ p ∈ s.ldr.starts, (getEddy t p.1).pc = p.2 ∧
      (getEddy t p.1).st = if wipeDue s p.1 = true ∨ ((getEddy s p.1).prevFw = true ∧ (getEddy s p.1).kind ≤ 1) then .wiping else .running)) ∧
    (∀ n, listedPools s = [n] → dKind (tableDesc s n) ≠ 0 → clocked 2 (fun t =>
      (dInit (tableDesc s n) = 0 → t.pool.hbm = s.pool.hbm ∧ t.pool.initWait = s.pool.initWait) ∧
      (dInit (tableDesc s n) = 1 → ∀ i < dDepth (tableDesc s n), hbmAt t (poolAddr (tableDesc s n) i) = {}) ∧
      (dInit (tableDesc s n) = 2 → t.pool.hbm = s.pool.hbm ∧ t.pool.initWait = s.pool.initWait ++ [n]))) ∧
    clocked 3 (fun t => ∀ c < 20, if bitAt s.ldr.chanEn c = true ∧ (getChan s c).owned = false ∧ chanFailed s c = false ∧
        ((getChan s c).st = .disabled ∨ (getChan s c).st = .failed) then (getChan t c).st = .waiting ∧ (getChan t c).wresult = 1
      else (getChan t c).st = (getChan s c).st)) ∧
  (∀ (s : State), RegsOk s →
    (stepDue s 0 = true → Gives .lockWaitTimeout s (AttemptFailed 0x11 none s)) ∧
    (stepDue s 0 = false → Gives .lockWaitTimeout s (fun t => t = s))) ∧
  (∀ (s : State) (d : Fin 16), RegsOk s → StoresOk s → Gives (.deviceTimerExpire d) s (fun t =>
    let v := getReg s (Reg.dtmrCfg d)
    if bitAt v 31 = true ∧ fld v 0 20 ≠ 0 then
      getReg t (Reg.dtmrExpiries d) = satInc (getReg s (Reg.dtmrExpiries d)) ∧ getReg t (Reg.dtmrCount d) = w32 (fld v 0 20) ∧
      bitAt (getReg t (Reg.dtmrEvent d)) 0 = true ∧
      (bitAt (getReg s (Reg.dtmrEvent d)) 0 = true → bitAt (getReg t (Reg.dtmrEvent d)) 1 = true) ∧
      (bitAt v 29 = true → bitAt (getEddy t (fld v 20 9)).irqPend 13 = true) ∧
      (bitAt v 30 = true → s.msix.enable = true → s.msix.funcMask = false → bitAt (getReg s (Reg.msixCtl (144 + d))) 0 = false → t.msix.sent = s.msix.sent ++ [144 + d.val]) ∧
      OnlyRegs [Reg.dtmrExpiries d, Reg.dtmrCount d, Reg.dtmrEvent d] s t ∧ OnlyParts [.regs, .msix, .eddies] s t
    else t = s)) ∧
  (∀ (s : State) (d : Fin 16) v, RegsOk s → s.dev.inReset = false → Gives (.dtmrCfgWrite d v) s (fun t =>
    if s.bg.on = true ∧ s.bg.timer = d.val then t = s
    else getReg t (Reg.dtmrCfg d) = v ∧ getReg t (Reg.dtmrCount d) = (if bitAt v 31 then w32 (fld v 0 20) else 0#32) ∧
      OnlyRegs [Reg.dtmrCfg d, Reg.dtmrCount d] s t ∧ OnlyParts [.regs] s t)) ∧
  (∀ (s : State) v, RegsOk s → mgmtOpen s = true → Gives (.ldrClaimQWrite v) s (fun t =>
    if claimLimit (fld v 24 8) ≤ fld v 0 20 then
      getReg t Reg.ldrRangeCount = satInc (getReg s Reg.ldrRangeCount) ∧ OnlyRegs [Reg.ldrRangeCount] s t ∧ OnlyParts [.regs] s t
    else getReg t Reg.ldrClaimQ = v &&& 0xFF0FFFFF#32 ∧ OnlyRegs [Reg.ldrClaimQ] s t ∧ OnlyParts [.regs] s t))

/-- HEALTH_RECORD_READ of the newest valid record shows the outcome that the device decides: PASS (0) if the record is complete, its count of
patterns is the total, every segment's bit is set and its outcome is 0; FAIL (1) if it is complete and its outcome is 1; INCOMPLETE (2) in every other case.
In particular a record with OUTCOME 0 whose signatures all match but whose count falls short is INCOMPLETE (the FAIL of R473 comes first where OUTCOME is 1).
Where the spec leaves room this states the model's own choice or reading: log entry 217. -/
def Obligations.HealthOutcome : Prop :=
  ∀ (s : State) r, powering s = true → s.ldr.pow = .health → newestRec s = some r → Gives .healthRecordRead s (fun t =>
    t.rep.outcome = (if r.complete = true ∧ r.reached = r.total ∧ r.segDone = 0xFFFF#16 ∧ r.fail = false then 0
      else if r.complete = true ∧ r.fail = true then 1 else 2) ∧
    (r.sigOk = 0xFFFF#16 → r.fail = false → r.reached < r.total → t.rep.outcome = 2))

/-- Whatever exception an eddy raises while EXC is 1, it enters no handler: CAUSE takes the new code with DOUBLE set, the eddy is HALTED and its PC stays at the
faulting instruction, with EPC, ESTATUS, IE and the registers as they were. So for an unassigned word, TRAP, a reserved condition, CMT's check, an invalid handle and an
access of the wrong width. An interrupt, taken with EXC 1, never does: the eddy keeps running with DOUBLE 0. -/
def Obligations.EddyDoubleFault : Prop :=
  (∀ (x : Eddy) code pool trap addr epc, x.exc = true → code < 256 → pool < 256 → trap < 32 →
    let y := eddyRaise code pool trap addr epc x
    y.st = .halted ∧ y.pc = x.pc ∧ fld y.cause 0 8 = code ∧ bitAt y.cause 31 = true ∧ y.epc = x.epc ∧ y.estatus = x.estatus ∧
    y.ie = x.ie ∧ y.exc = true ∧ y.g = x.g) ∧
  (∀ (s : State) (e : Fin 512), (getEddy s e).exc = true →
    let dies (code : Nat) (t : State) : Prop :=
      (getEddy t e).st = .halted ∧ (getEddy t e).pc = (getEddy s e).pc ∧ fld (getEddy t e).cause 0 8 = code ∧
      bitAt (getEddy t e).cause 31 = true ∧ (getEddy t e).epc = (getEddy s e).epc ∧ (getEddy t e).g = (getEddy s e).g ∧
      (∀ d, d ≠ e.val → getEddy t d = getEddy s d) ∧ OnlyParts [.eddies] s t
    (∀ w, Issues e w s → legalWord w = false → Gives (.eIllegalInstruction e) s (dies 1)) ∧
    (∀ n : Fin 32, Issues e (encR 0x3F 0 0 n 0 3) s → Gives (.eTrap e n) s (dies 9)) ∧
    (∀ off : BitVec 22, Issues e (encB 0x10 15 off.toNat) s → Gives (.eBc e 15 off) s (dies 1)) ∧
    (∀ rd p : Fin 32, NotPending (getEddy s e) [rd] → Issues e (encI 0x2B rd 0 p) s → (getEddy s e).secure = false →
      Gives (.eCmt e rd p) s (dies 5)) ∧
    (∀ (rd ra : Fin 32) (h : Fin 8) (off : BitVec 13), NotPending (getEddy s e) [rd, ra] → Issues e (encP 0x28 rd ra h off.toNat) s →
      bitAt (mget (fun _ => (0 : Word)) (getEddy s e).ph h) 31 = false → Gives (.ePld e rd ra h off) s (dies 8)) ∧
    (∀ (rd ra : Fin 32) (imm : BitVec 16), NotPending (getEddy s e) [rd, ra] → Issues e (encI 0x18 rd ra imm.toNat) s →
      0x10000 ≤ ((getG (getEddy s e) ra + imm.signExtend 64).setWidth 32 : Word).toNat →
      ((getG (getEddy s e) ra + imm.signExtend 64).setWidth 32 : Word).toNat < 0x11000 → Gives (.eLdb e rd ra imm) s (dies 3))) ∧
  (∀ (s : State) (e : Fin 512), StoresOk s → (getEddy s e).exc = true → bitAt (getEddy s e).cause 31 = false → Gives (.irqEntry e) s (fun t =>
    (getEddy t e).st = (getEddy s e).st ∧ bitAt (getEddy t e).cause 31 = false))

/-- For each kind of keyed command in MBX_BUF, GO has no effect in reset or while BUSY. After 8 wrong tags it waits in LOCKOUT. Otherwise steps 1 to 4 are taken in
order: a length above 1,040 or COUNTER all ones answers SEC_RANGE, another device's serial SEC_SERIAL, a wrong tag SEC_TAG (counted, and one more in a row), a counter
not above the stored one SEC_COUNTER; each ends the command with MBX_BUF cleared and counted in MBX_REFUSED. A command that passes has its counter stored next, and nothing else changes. MBX_COUNTER_STORED then stores the counter and
counts the command; a bad format answers SEC_FORMAT, a state that does not allow it SEC_STATE or SEC_EXHAUSTED, with no other effect. In another phase it changes nothing. -/
def Obligations.KeyedChecks : Prop :=
  (∀ (s : State), RegsOk s →
    let rows : List (Instr × KClass) :=
      [(.kcLoadImage, .load), (.kcWriteSlotData, .slotData), (.kcWriteSlotErase, .slotErase), (.kcWriteSlotBoot, .slotBoot),
       (.kcSetLifecycle, .lifecycle), (.kcUnfreeze, .unfreeze), (.kcSetRoot, .root), (.kcWriteRoutesEntries, .routes),
       (.kcWriteRoutesApply, .apply), (.kcKeyLoad, .key), (.kcBgTestOn, .bgOn), (.kcBgTestOff, .bgOff), (.kcHbmSweep, .sweep),
       (.kcRawModeEnter, .rawMode), (.kcZeroise, .zeroise), (.kcShutdown, .shutdown), (.kcUnassigned, .unassigned)]
    ∀ p ∈ rows, Gives p.1 s (fun t =>
      if kcClass s ≠ p.2 ∨ s.dev.inReset = true ∨ mbxBusy s = true then t = s
      else OnlyParts [.regs, .mbx, .msix] s t ∧
        (if 8 ≤ s.mbx.tagRun then t.mbx.phase = .lockout ∧ mbxBusy t = true ∧ bitAt (getReg t Reg.mbxStat) 30 = true ∧
          t.mbx.tagRun = s.mbx.tagRun
        else MbxChecked s t))) ∧
  (∀ (s : State), RegsOk s → mbxBusy s = true → Gives .mbxLockoutEnd s (fun t =>
    if s.mbx.phase = .lockout then MbxChecked s t ∧ OnlyParts [.regs, .mbx, .msix] s t else t = s)) ∧
  (∀ (s : State) pin, s.mbx.phase ≠ .storing → Gives (.mbxCounterStored pin) s (fun t => t = s)) ∧
  (∀ (s : State) pin, RegsOk s → s.mbx.phase = .storing → Gives (.mbxCounterStored pin) s (fun t =>
    t.nv.counter = max s.nv.counter (bufN s 12 8) ∧ getReg t Reg.mbxAccepted = satInc (getReg s Reg.mbxAccepted) ∧
    (kcFormatBad s = true → MbxEnds 1 0 s t ∧ OnlyParts [.regs, .mbx, .msix, .nv] s t) ∧
    (kcFormatBad s = false → kcState s ≠ 0 → MbxEnds (kcState s) 0 s t ∧ OnlyParts [.regs, .mbx, .msix, .nv] s t)))

/-- MBX_COUNTER_STORED of a command that passes steps 1 to 7: LOAD_IMAGE starts a load, or answers the loader's code; WRITE_SLOT begins a write (to slot 0 only of an image that passes the loader's checks) or an erase (its slot's length then 0) or sets BOOT; SET_LIFECYCLE moves the state and starts the
wipes; UNFREEZE releases a master of any class, or answers SEC_NOT_FROZEN or SEC_RANGE; SET_ROOT, WRITE_ROUTES and APPLY write the fabric's registers; KEY_LOAD unwraps and stores; ZEROISE drops K_BBK and starts
the zeroising load, which completes it; SHUTDOWN enters SHUTTING_DOWN; the test programs start and stop, a stop leaving the leases as they stand, or are refused.
Where the spec leaves room this states the model's own choice or reading: log entries 94, 127, 157, 162, 163, 191 and 197. -/
def Obligations.KeyedEffects : Prop :=
  (∀ (s : State) pin, RegsOk s → mwf dSlotStore s.nv.slots = true → s.mbx.phase = .storing → kcFormatBad s = false → kcState s = 0 →
    let src := opN s 0 1
    let gives (P : State → Prop) : Prop := Gives (.mbxCounterStored pin) s P
    (mbxCmd s = 1 → 5 ≤ src → gives (MbxEnds 6 0x20 s)) ∧
    (mbxCmd s = 1 → src < 4 → s.ldr.busy = true → gives (MbxEnds 6 0x13 s)) ∧
    (mbxCmd s = 1 → src < 4 → s.ldr.busy = false → gives (fun t => MbxEnds 0 0 s t ∧ LoadStarted src t)) ∧
    (mbxCmd s = 2 → (3 < src ∨ opN s 1 1 = 0) → gives (MbxEnds 0x20 0 s)) ∧
    (mbxCmd s = 2 → src ≤ 3 → opN s 1 1 = 2 → (s.ldr.locked = false ∨ s.ldr.src ≠ src) →
      gives (fun t => MbxEnds 0 0 s t ∧ t.nv = { s.nv with boot := src, counter := t.nv.counter })) ∧
    (mbxCmd s = 2 → 1 ≤ src → src ≤ 3 → (opN s 1 1 = 1 ∨ opN s 1 1 = 3) → opN s 8 4 ≠ 0 → opN s 4 4 % 4096 = 0 →
      opN s 4 4 + opN s 8 4 ≤ 0x80000000 → (s.ldr.locked = false ∨ s.ldr.src ≠ src) → gives (fun t =>
        t.mbx.phase = .slotWrite src (opN s 4 4) (opN s 8 4) (decide (opN s 1 1 = 3)) none ∧ (getSlot t src).len = 0 ∧ mbxBusy t = mbxBusy s)) ∧
    (mbxCmd s = 2 → 1 ≤ src → src ≤ 3 → opN s 1 1 = 4 → (s.ldr.locked = false ∨ s.ldr.src ≠ src) → gives (fun t =>
        t.mbx.phase = .slotErase src false ∧ (getSlot t src).len = 0)) ∧
    (∀ l, mbxCmd s = 3 → lcOf src = some l → gives (fun t =>
      t.nv.lc = l ∧ t.nv.wipe = some l ∧ t.mbx.phase = .transition ∧ LoadStarted 0 t ∧
      t.nv.trips = (if l = .service then s.nv.trips + 1 else s.nv.trips) ∧
      t.nv.kFuse = (if l = .retired then none else s.nv.kFuse) ∧
      t.nv.kBbk = (if l = .provisioned ∨ l = .retired then none else s.nv.kBbk))) ∧
    (mbxCmd s = 2 → src = 0 → (opN s 1 1 = 1 ∨ opN s 1 1 = 3) → opN s 8 4 ≠ 0 → opN s 4 4 % 4096 = 0 →
      opN s 4 4 + opN s 8 4 ≤ 0x80000000 → (s.ldr.locked = false ∨ s.ldr.src ≠ 0) → (s.pool.hbm.all (fun p => p.2.err == 0)) = true →
      let c : Source := ⟨none, opN s 4 4, opN s 8 4⟩
      let h := srcBytes s c 0 128
      let key := hdr h 40 1
      (c.len < 128 → gives (MbxEnds 6 6 s)) ∧
      (128 ≤ c.len → gives (fun t => match headerRefusal s h, passA s c h with
        | some e, _ => MbxEnds 6 e.1 s t
        | none, .error e => MbxEnds 6 e.1 s t
        | none, .ok _ => (getSlot t 0).len = 0 ∧
          t.mbx.phase = .slotWrite 0 c.off c.len (decide (opN s 1 1 = 3)) (if key = 1 ∨ key = 2 then some (key, hdr h 32 8) else none)))) ∧
    (mbxCmd s = 4 → opN s 1 1 = 0 →
      let i := opN s 2 2
      (4 < src ∨ classSize src ≤ i → gives (fun t => MbxEnds 0x20 0 s t ∧ t.frz = s.frz)) ∧
      (src ≤ 4 → i < classSize src → isFrozen s src i = false → gives (fun t => MbxEnds 9 0 s t ∧ t.frz = s.frz)) ∧
      (src ≤ 4 → i < classSize src → isFrozen s src i = true → (src = 0 → ∀ h ∈ s.host.held, h.1 ≠ i) →
        (src = 4 → ∀ h ∈ s.pool.remHeld, h.1 ≠ i) → gives (fun t => MbxEnds 0 0 s t ∧ isFrozen t src i = false ∧
          (∀ c j, (c ≠ src ∨ j ≠ i) → isFrozen t c j = isFrozen s c j) ∧
          (src = 2 → mwf dEddy s.eddies = true → (getEddy s i).st = .frozen → (getEddy t i).st = .halted))) ∧
      (src = 0 → i < 64 → isFrozen s 0 i = true → gives (fun t => t.mbx.phase = .idle ∧
        (isFrozen t 0 i = false → ∀ h ∈ t.host.held, h.1 ≠ i)))) ∧
    (mbxCmd s = 5 → src ≤ 1 → gives (fun t => MbxEnds 0 0 s t ∧ fld (getReg t Reg.fabCfg) 9 1 = src)) ∧
    (mbxCmd s = 6 → src = 0 → opN s 4 2 = 0 → gives (fun t => MbxEnds 6 0x20 s t ∧ t.net = s.net)) ∧
    (mbxCmd s = 6 → src = 0 → opN s 4 2 = 1 → opN s 2 2 < 0x3FE → entryBad (w32 (opN s 16 4)) = false → gives (fun t => MbxEnds 0 0 s t ∧
      (mwf (fun _ => (0 : Word)) s.net.shadow = true → mget (fun _ => 0) t.net.shadow (opN s 2 2) = w32 (opN s 16 4)) ∧
      fld (getReg t Reg.fabCfg) 8 1 = 1)) ∧
    (mbxCmd s = 6 → src = 1 → flitsBuffered s = true → gives (fun t => t.mbx.phase = .apply ∧ t.net = s.net)) ∧
    (mbxCmd s = 6 → src = 1 → flitsBuffered s = false → gives (fun t => MbxEnds 0 0 s t ∧
      (∀ d < 1022, getReg t (Reg.fabRoute d) = mget (fun _ => 0) s.net.shadow d &&& 0x10FFFFFF#32) ∧ t.net.upMask = BitVec.ofNat 20 (opN s 8 4))) ∧
    (mbxCmd s = 7 → (src = 0 ∨ 2 < src) → gives (MbxEnds 0x20 0 s)) ∧
    (mbxCmd s = 7 → 1 ≤ src → src ≤ 2 → gives (fun t =>
      match kwUnwrap (derive s.nv.kFuse labelWrap) ((List.range 40).map (fun i => bufByte s (28 + i))) with
      | none => MbxEnds 7 0 s t
      | some k => t.mbx.phase = .key (decide (src = 2)) (keyOf k))) ∧
    (mbxCmd s = 8 → opN s 1 1 = 1 → src = 0 → (s.nv.lc = .manufacture ∨ s.nv.lc = .service) → s.dev.st = .starting → s.ldr.busy = false →
      gives (fun t => MbxEnds 0 0 s t ∧ t.rep.raw = true)) ∧
    (mbxCmd s = 8 → opN s 1 1 = 1 → (src ≠ 0 → gives (fun t => MbxEnds 6 0x20 s t ∧ t.rep = s.rep)) ∧
      (src = 0 → (s.nv.lc ≠ .manufacture ∧ s.nv.lc ≠ .service) ∨ s.dev.st ≠ .starting ∨ s.ldr.busy = true →
        gives (fun t => MbxEnds 6 4 s t ∧ t.rep = s.rep))) ∧
    (mbxCmd s = 8 → opN s 1 1 = 0 →
      let rate := fld (getReg s Reg.testBgCfg) 8 8
      let d := fld (getReg s Reg.testBgCfg) 0 4
      (src = 0 ∨ 3 < src → gives (fun t => MbxEnds 6 0x20 s t ∧ t.bg = s.bg ∧ t.rep = s.rep)) ∧
      (src = 1 ∨ src = 3 → deviceUp s = false → gives (fun t => MbxEnds 6 4 s t ∧ t.bg = s.bg ∧ t.rep = s.rep)) ∧
      (src = 1 → deviceUp s = true → gives (fun t =>
        if Config.testSigned 1 = false then MbxEnds 6 6 s t ∧ t.bg = s.bg
        else if s.bg.on then MbxEnds 0 0 s t ∧ t.bg = s.bg
        else if rate = 0 then MbxEnds 6 0x20 s t ∧ t.bg = s.bg
        else if (claimOwner s 11 d).isSome then MbxEnds 6 0x21 s t ∧ t.bg = s.bg
        else MbxEnds 0 0 s t ∧ t.bg = { s.bg with on := true, timer := d } ∧
          getReg t (Reg.dtmrCfg d) = w32 (2 ^ 31 + 100 * rate) ∧ getReg t (Reg.dtmrCount d) = w32 (100 * rate))) ∧
      (src = 2 → s.bg.timer < 16 → gives (fun t => if Config.testSigned 2 then MbxEnds 0 0 s t ∧
          (if s.bg.on then t.bg = { s.bg with on := false, timer := 0 } ∧ getReg t (Reg.dtmrCfg s.bg.timer) = 0#32 else t.bg = s.bg)
        else MbxEnds 6 6 s t ∧ t.bg = s.bg)) ∧
      (src = 3 → deviceUp s = true → gives (fun t => if Config.testSigned 3 then MbxEnds 0 0 s t ∧ t.rep.sweep = true
        else MbxEnds 6 6 s t ∧ t.rep.sweep = s.rep.sweep))) ∧
    (mbxCmd s = 9 → gives (fun t => t.nv.kBbk = none ∧
      if s.dev.inReset = true ∨ s.dev.st = .shuttingDown then MbxEnds 0 0 s t
      else t.mbx.phase = .zeroise ∧ mbxBusy t = mbxBusy s ∧ LoadStarted 0 t ∧ t.ldr.zeroise = true ∧
        (∀ n < 4, bitAt (w32 src) (if n = 0 then 1 else 0) = true → bitAt t.ldr.erase n = true))) ∧
    (mbxCmd s = 10 → gives (fun t => MbxEnds 0 0 s t ∧ t.dev.st = .shuttingDown ∧ t.dev.shutCmd = true ∧
      t.dev.pwrOff = (s.dev.pwrOff || pin) ∧ (s.dev.shutCmd = false → bitAt (getReg t Reg.devEvent) 6 = true))))

/-- SLOT_WRITE_DONE gives the slot its length, counts its wear and raises the floor of the image's key, never lowering it; SLOT_ERASE_DONE empties it; KEY_STORED installs the key;
LIFECYCLE_TRANSITION_DONE clears WIPE_PENDING with the wiped HBM regions 0; ROUTES_APPLY_DRAINED applies, or refuses with FAB_BUSY. A read of a low half latches the high half. Each tamper source is recorded and
counted; an armed one drops K_BBK and starts the zeroising load; in reset that load falls due at the next power-up; an unarmed one does nothing else. VBAT loss drops K_BBK; in reset it is found at power-up. REFCLK_SYS loss also retrains each ford port that is up. VCC_HUB below its range resets the device and leaves PORST_N's own level as it is. FRZ_POP removes the oldest record.
Where the spec leaves room this states the model's own choice or reading: log entries 97, 161, 172 and 197. -/
def Obligations.SecurityEvents : Prop :=
  (∀ (s : State) n off len boot fl, RegsOk s → s.mbx.phase = .slotWrite n off len boot fl →
    (s.pool.hbm.all (fun p => p.2.err == 0)) = true → Gives .slotWriteDone s (fun t =>
      MbxEnds 0 0 s t ∧ (getSlot t n).len = len ∧ (getSlot t n).wear = (getSlot s n).wear + 1 ∧
      t.nv.floor1 = (match fl with | some (1, k) => max s.nv.floor1 k | _ => s.nv.floor1) ∧
      t.nv.floor2 = (match fl with | some (2, k) => max s.nv.floor2 k | _ => s.nv.floor2) ∧
      t.nv.boot = (if boot then n else s.nv.boot) ∧ OnlyParts [.regs, .mbx, .msix, .nv] s t)) ∧
  (∀ (s : State) n boot, RegsOk s → mwf dSlotStore s.nv.slots = true → s.mbx.phase = .slotErase n boot → Gives .slotEraseDone s (fun t =>
    MbxEnds 0 0 s t ∧ (getSlot t n).len = 0 ∧ (getSlot t n).words = [] ∧ t.nv.boot = (if boot then n else s.nv.boot) ∧
    OnlyParts [.regs, .mbx, .msix, .nv] s t)) ∧
  (∀ (s : State) bbk k, RegsOk s → s.mbx.phase = .key bbk k → Gives .keyStored s (fun t =>
    MbxEnds 0 0 s t ∧ t.nv = (if bbk then { s.nv with kBbk := some k, bbkLost := false, floor2 := 0 } else { s.nv with kFuse := some k }) ∧
    OnlyParts [.regs, .mbx, .msix, .nv] s t)) ∧
  (∀ (s : State) l, RegsOk s → s.mbx.phase = .transition → s.nv.wipe = some l → Gives .lifecycleTransitionDone s (fun t =>
    MbxEnds 0 0 s t ∧ t.nv.wipe = none ∧ t.nv.lc = s.nv.lc ∧ (∀ a, (a < 0x400000 ∨ stageWord ≤ a) → hbmAt t a = {}) ∧ t.pool.gran = [])) ∧
  (∀ (s : State), (∀ n off len boot fl, s.mbx.phase ≠ .slotWrite n off len boot fl) → Gives .slotWriteDone s (fun t => t = s)) ∧
  (∀ (s : State), s.mbx.phase = .idle → Gives .slotEraseDone s (fun t => t = s) ∧ Gives .keyStored s (fun t => t = s) ∧
    Gives .lifecycleTransitionDone s (fun t => t = s) ∧ Gives .routesApplyDrained s (fun t => t = s)) ∧
  (∀ (s : State), RegsOk s → s.mbx.phase = .apply → Gives .routesApplyDrained s (fun t =>
    if flitsBuffered s then MbxEnds 6 4 s t ∧ t.net = s.net ∧ getReg t Reg.fabCause = 4#32
    else MbxEnds 0 0 s t ∧ (∀ d < 1022, getReg t (Reg.fabRoute d) = mget (fun _ => 0) s.net.shadow d &&& 0x10FFFFFF#32))) ∧
  (∀ (s : State), Gives .hbmSweepDone s (fun t => t.rep.sweep = false ∧
    ((s.rep.sweep = false ∨ (s.pool.hbm.all (fun p => p.2.err == 0)) = true) → OnlyParts [.rep] s t))) ∧
  (∀ (s : State) (two : Bool), RegsOk s → s.dev.inReset = false →
    Gives .mbxCtrLoRead s (fun t => t.rdata = w32 s.nv.counter ∧ getReg t Reg.mbxCtrHi = w32 (s.nv.counter / 2 ^ 32) ∧
      OnlyRegs [Reg.mbxCtrHi] s t ∧ OnlyParts [.regs, .rdata] s t) ∧
    Gives (.lcFloorLoRead two) s (fun t => t.rdata = w32 (if two then s.nv.floor2 else s.nv.floor1) ∧
      getReg t (if two then Reg.lcFloor2Hi else Reg.lcFloor1Hi) = w32 ((if two then s.nv.floor2 else s.nv.floor1) / 2 ^ 32) ∧
      OnlyParts [.regs, .rdata] s t)) ∧
  (∀ (s : State), RegsOk s → s.dev.inReset = false →
    let rows : List (Instr × Nat × Nv) :=
      [(.tamperNAssert, 0, s.nv), (.vbatLoss, 1, { s.nv with kBbk := none, bbkLost := true }), (.tamperTemperature, 2, s.nv),
       (.vccHubExcursion false, 3, s.nv)]
    ∀ p ∈ rows,
      (armed s p.2.1 = false → Gives p.1 s (fun t => t.nv = { p.2.2 with tamper := setBit s.nv.tamper p.2.1 true } ∧
        getReg t Reg.tamperCount = satInc (getReg s Reg.tamperCount) ∧ t.dev = { s.dev with cond := setBit s.dev.cond p.2.1 true } ∧ OnlyRegs [Reg.tamperCount] s t ∧ OnlyParts [.nv, .regs, .dev] s t)) ∧
      (armed s p.2.1 = true → s.mbx.phase = .idle → Gives p.1 s (fun t =>
        bitAt t.nv.tamper p.2.1 = true ∧ t.nv.kBbk = none ∧ getReg t Reg.tamperCount = satInc (getReg s Reg.tamperCount) ∧
        (s.dev.st ≠ .shuttingDown → LoadStarted 0 t ∧ t.ldr.zeroise = true)))) ∧
  (∀ (s : State), RegsOk s → s.dev.inReset = true → s.mbx.phase = .idle →
    ∀ p ∈ [(Instr.tamperNAssert, 0), (.tamperTemperature, 2), (.vccHubExcursion false, 3)], Gives p.1 s (fun t =>
      bitAt t.nv.tamper p.2 = true ∧ getReg t Reg.tamperCount = satInc (getReg s Reg.tamperCount) ∧ t.ldr = s.ldr ∧
      (armed s p.2 = true → t.nv.kBbk = none ∧ t.nv.zeroDue = some (s.nv.zeroDue.getD 0)) ∧
      (armed s p.2 = false → t.nv = { s.nv with tamper := setBit s.nv.tamper p.2 true }))) ∧
  (∀ (s : State), s.dev.inReset = true → Gives .vbatLoss s (fun t => OnlyParts [.nv, .dev] s t ∧
    t.dev = { s.dev with cond := setBit s.dev.cond 1 true } ∧
    t.nv = { s.nv with kBbk := none, bbkLost := true, tamper := setBit s.nv.tamper 1 true, vbatFound := true })) ∧
  (∀ (s : State), RegsOk s → StoresOk s →
    ((watched s = false ∨ armed s 4 = false) → Gives .refclkSysLoss s (fun t =>
      t.nv = (if watched s then { s.nv with tamper := setBit s.nv.tamper 4 true } else s.nv) ∧
      getReg t Reg.tamperCount = (if watched s then satInc (getReg s Reg.tamperCount) else getReg s Reg.tamperCount) ∧
      (∀ i < 4, if linkUp s (16 + i) then (getChan t (16 + i)).st = .retraining ∧
          getReg t (Reg.retrains (16 + i)) = satInc (getReg s (Reg.retrains (16 + i)))
        else getChan t (16 + i) = getChan s (16 + i)) ∧
      t.dev = { s.dev with cond := setBit s.dev.cond 4 true } ∧
      (∀ c < 16, getChan t c = getChan s c) ∧ OnlyParts [.nv, .regs, .chans, .dev] s t)) ∧
    (watched s = true → armed s 4 = true → s.mbx.phase = .idle → s.dev.inReset = false → s.dev.st ≠ .shuttingDown →
      Gives .refclkSysLoss s (fun t => bitAt t.nv.tamper 4 = true ∧ t.nv.kBbk = none ∧
        getReg t Reg.tamperCount = satInc (getReg s Reg.tamperCount) ∧ LoadStarted 0 t ∧ t.ldr.zeroise = true))) ∧
  (∀ (s : State), Gives (.vccHubExcursion true) s (fun t => t.dev.inReset = true ∧ t.dev.porstHigh = s.dev.porstHigh ∧ t.pending = s.pending ∧
    bitAt t.dev.cond 3 = true ∧ (watched s = true → bitAt t.nv.tamper 3 = true ∧
      (armed s 3 = true → t.nv.kBbk = none ∧ (s.dev.inReset = false → s.dev.st ≠ .shuttingDown → t.nv.zeroDue.isSome = true))))) ∧
  (∀ (s : State) v, mgmtOpen s = true → Gives (.frzPopWrite v) s (fun t =>
    t.frz = (if bitAt v 0 then { s.frz with recs := s.frz.recs.drop 1 } else s.frz) ∧ OnlyParts [.frz] s t))

/-- A scrubber that runs checks the next frame: a leased or clean one stays as it is; a corrected one loses the bits corrected (SCR_CE); an uncorrectable one is restored from
its shadow (SCR_UE, SCR_SHADOW_FIX, vector 13), or is lost if that is unreadable (SCR_LOST, LOST). A rewrite that waits applies once its tile has reported, under set-reset with the new INIT; a priority request is served. The peer corrects
one bit of SCR_CFG and restores it after two; the watchdog counts, and marks a scrubber failed at the third reset. SCR_CFG takes a PERIOD of 18 to 1,000 (its register path free, as REP_XLAT_Q's). Readback is denied unless
allowed. A lease starts on an idle unmarked resource and ends; two failures in a row mark it.
Where the spec leaves room this states the model's own choice or reading: log entries 103 and 106. -/
def Obligations.ScrubAndTest : Prop :=
  (∀ (s : State) (sec : Fin 8), RegsOk s → StoresOk s →
    let p := (getScr s sec).pos
    let f := framePos s sec p
    let moved (t : State) : Prop := (getScr t sec).pos = (if p + 1 = 135200 then 0 else p + 1) ∧
      getReg t (Reg.scrCycles sec) = (if p + 1 = 135200 then satInc (getReg s (Reg.scrCycles sec)) else getReg s (Reg.scrCycles sec))
    ((scrubbing s sec = false ∨ (getScr s sec).prio ≠ []) → Gives (.scrubFrame sec) s (fun t => t = s)) ∧
    (scrubbing s sec = true → (getScr s sec).prio = [] →
      ((frameErr s sec f = 0 ∨ (frameLease sec f).any (leased s) = true) → Gives (.scrubFrame sec) s (fun t =>
        moved t ∧ OnlyRegs [Reg.scrCycles sec] s t ∧ OnlyParts [.scr, .regs] s t)) ∧
      (∀ u, f = .tile u → leased s (.tile u) = false → fFree (getTile s u).frame = false → gsrOn s (tSec u) = false → s.tick.inTick = false →
        (∀ left, frameCheck (getTile s u).upset = .corrected left → Gives (.scrubFrame sec) s (fun t =>
          moved t ∧ getReg t (Reg.scrCe sec) = satInc (getReg s (Reg.scrCe sec)) ∧
          getTile t u = { getTile s u with upset := left, frame := (getTile s u).frame ^^^ ((getTile s u).upset ^^^ left).setWidth 4096 } ∧
          (∀ v, v ≠ u → getTile t v = getTile s v) ∧ OnlyRegs [Reg.scrCycles sec, Reg.scrCe sec] s t ∧ OnlyParts [.scr, .regs, .fab] s t)) ∧
        (frameCheck (getTile s u).upset = .bad → s.rep.shadowOk = true → hbmFailed s = false → mget dShadow (getScr s sec).shadow p = 0 →
          mget dBits (getScr s sec).shadowMis p = 0 → Gives (.scrubFrame sec) s (fun t =>
          moved t ∧ getReg t (Reg.scrUe sec) = satInc (getReg s (Reg.scrUe sec)) ∧
          getReg t (Reg.scrShadowFix sec) = satInc (getReg s (Reg.scrShadowFix sec)) ∧ bitAt (getReg t (Reg.scrLoc sec)) 31 = true ∧
          (getTile t u).upset = 0 ∧ (getTile t u).frame = (getTile s u).frame ^^^ (getTile s u).upset.setWidth 4096 ∧
          (s.msix.enable = true → s.msix.funcMask = false → bitAt (getReg s (Reg.msixCtl 13)) 0 = false → t.msix.sent = s.msix.sent ++ [13]) ∧ OnlyParts [.scr, .regs, .fab, .msix] s t)) ∧
        (frameCheck (getTile s u).upset = .bad → s.rep.shadowOk = false ∨ hbmFailed s = true → tileIdle (getTile s u) = true → Gives (.scrubFrame sec) s (fun t =>
          moved t ∧ getReg t (Reg.scrUe sec) = satInc (getReg s (Reg.scrUe sec)) ∧ getReg t (Reg.scrLost sec) = satInc (getReg s (Reg.scrLost sec)) ∧
          (getScr t sec).lost = true ∧ bitAt (getReg t (Reg.scrLoc sec)) 31 = true ∧ OnlyParts [.scr, .regs] s t))))) ∧
  (∀ (s : State) (sec : Fin 8), StoresOk s → Gives (.scrubPriorityRewrite sec) s (fun t =>
    if scrubbing s sec = false ∨ (getScr s sec).prio = [] then t = s else (getScr t sec).prio = [])) ∧
  (∀ (s : State) (tile : BitVec 20), StoresOk s → mwf dBits (getScr s (tSec tile.toNat)).rewrites = true →
    let m := mget dBits (getScr s (tSec tile.toNat)).rewrites tile.toNat
    let x := getTile s tile.toNat
    Gives (.frameRewriteApply tile) s (fun t =>
      if m = 0 ∨ (s.tick.inTick = true ∧ x.spacerDone = false) then t = s
      else (getTile t tile.toNat).frame = x.frame ^^^ m.setWidth 4096 ∧ (getTile t tile.toNat).upset = x.upset ^^^ m ∧
        mget dBits (getScr t (tSec tile.toNat)).rewrites tile.toNat = 0 ∧
        (fFree x.frame = false → (getTile t tile.toNat).q = (if gsrOn s (tSec tile.toNat) then initQ (x.frame ^^^ m.setWidth 4096) else x.q) ∧
          OnlyParts [.fab, .scr] s t))) ∧
  (∀ (s : State) (sec : Fin 8), RegsOk s → StoresOk s → mgmtOpen s = true →
    let e := (getScr s sec).cfgErr
    Gives (.scrCfgPeerCheck sec) s (fun t =>
      (popc 40 e.toNat = 0 → t = s) ∧
      (popc 40 e.toNat = 1 → getReg t (Reg.scrPeerFix ((sec + 1) % 8)) = satInc (getReg s (Reg.scrPeerFix ((sec + 1) % 8)))) ∧
      (popc 40 e.toNat = 2 → (getScr t sec).cfgRestored = true) ∧
      (1 ≤ popc 40 e.toNat → popc 40 e.toNat ≤ 2 → getReg t (Reg.scrCfg sec) = getReg s (Reg.scrCfg sec) ^^^ e.setWidth 32 ∧
        (getScr t sec).cfgErr = 0 ∧ OnlyParts [.regs, .scr] s t))) ∧
  (∀ (s : State) (sec : Fin 8) (recent : Fin 3), RegsOk s → StoresOk s → Gives (.scrubWatchdog sec recent) s (fun t =>
    if scrubbing s sec = false then t = s
    else getReg t (Reg.scrWdog sec) = satInc (getReg s (Reg.scrWdog sec)) ∧ (getScr t sec).resets = (getScr s sec).resets + 1 ∧
      (getScr t sec).pos = (getScr s sec).pos ∧ (getScr t sec).prio = (getScr s sec).prio ∧
      ((getScr t sec).failed = true ↔ recent = 2 ∧ 2 ≤ (getScr s sec).resets) ∧
      (recent = 2 → 2 ≤ (getScr s sec).resets → ⟨8, sec, 0⟩ ∈ allMarks t ∧ scrubbing t sec = false ∧
        getReg t Reg.testResult = 2#32 ∧ t.tick = s.tick))) ∧
  (∀ (s : State) (sec : Fin 8) v, RegsOk s → StoresOk s → mgmtOpen s = true → (getPath s sec).data = none → Gives (.scrCfgWrite sec v) s (fun t =>
    if fld v 0 10 < 18 ∨ 1000 < fld v 0 10 then
      getReg t Reg.testResult = 0x20#32 ∧ getReg t (Reg.scrRangeCount sec) = satInc (getReg s (Reg.scrRangeCount sec)) ∧
      OnlyRegs [Reg.testResult, Reg.scrRangeCount sec] s t ∧ OnlyParts [.regs] s t
    else getReg t (Reg.scrCfg sec) = v &&& 0x800003FF#32 ∧ (getScr t sec).cfgRestored = false ∧ OnlyRegs [Reg.scrCfg sec] s t ∧
      OnlyParts [.regs, .scr] s t)) ∧
  (∀ (s : State) (off : BitVec 25), RegsOk s →
    let base := (getReg s Reg.scrRbSel).toNat
    let a := base % 2 ^ 28 + off.toNat / 512
    (s.dev.inReset = true → Gives (.readbackRead off) s (fun t => t = s)) ∧
    (s.dev.inReset = false → s.dev.st = .shuttingDown → Gives (.readbackRead off) s (fun t => t = { s with rdata := 0#32 })) ∧
    (mgmtOpen s = true → rbAllowed s = false → Gives (.readbackRead off) s (fun t => t.rdata = 0#32 ∧ OnlyParts [.regs, .rdata] s t ∧
      ∃ k < 8, getReg t (Reg.scrRbDenied k) = satInc (getReg s (Reg.scrRbDenied k)) ∧ OnlyRegs [Reg.scrRbDenied k] s t)) ∧
    (mgmtOpen s = true → rbAllowed s = true → base < 2 ^ 28 → a < 2 ^ 20 → (colOf s (tSec a) (tCol a)).isSome = true →
      s.bg.leases = [] → (getTile s a).upset = 0 → Gives (.readbackRead off) s (fun t =>
        t = { s with rdata := w32 (fld (getTile s a).frame (32 * (off.toNat % 512 / 4)) 32) })) ∧
    (mgmtOpen s = true → rbAllowed s = true → ((base < 2 ^ 28 ∧ 2 ^ 20 ≤ a) ∨ (base / 2 ^ 28 = 1 ∧ 256 ≤ a)) →
      Gives (.readbackRead off) s (fun t => t = { s with rdata := 0#32 })) ∧
    (mgmtOpen s = true → rbAllowed s = true → base / 2 ^ 28 = 1 → a < 256 → mget dBits (getScr s (a / 32)).bmc (a % 32) = 0 →
      Gives (.readbackRead off) s (fun t =>
        t = { s with rdata := (getBlock s (4096 * (a / 32) + 128 * (a % 32) + off.toNat % 512 / 4)).cfg }))) ∧
  (∀ (s : State) (sec : Fin 8) v, RegsOk s → mgmtOpen s = true → (getPath s sec).data = none →
    let p := fld v 0 10
    Gives (.repXlatQWrite sec v) s (fun t =>
      getReg t (Reg.repXlatQ sec) = w32 p ∧ OnlyRegs [Reg.repXlatQ sec, Reg.repXlatA sec] s t ∧ OnlyParts [.regs] s t ∧
      (528 ≤ p → getReg t (Reg.repXlatA sec) = 0#32) ∧
      (p < 528 → (failedCols s sec).contains p = true → getReg t (Reg.repXlatA sec) = 0x40000000#32) ∧
      (p < 528 → (failedCols s sec).contains p = false → getReg t (Reg.repXlatA sec) =
        (let x := p - ((failedCols s sec).filter (· < p)).length
         if x < 512 then w32 (2 ^ 31 + x) else 0x20000000#32)))) ∧
  (∀ (s : State) (seg : Fin 16), RegsOk s → Gives (.testRawApply seg) s (fun t =>
    if mgmtOpen s = false ∨ s.rep.raw = false then t = s
    else OnlyRegs [Reg.testRawSig 0, Reg.testRawSig 1] s t ∧ OnlyParts [.regs, .free] s t)) ∧
  (∀ (s : State) (sec : Fin 8) r, StoresOk s →
    let may := s.bg.on = true ∧ deviceUp s = true ∧ leaseSec r = some sec.val ∧ s.bg.leases.lookup sec.val = none ∧ leaseIdle s r = true ∧
      leaseMark s r ∉ allMarks s
    (may → Gives (.leaseStart sec r) s (fun t => t = { s with bg := { s.bg with leases := mput s.bg.leases sec r } } ∧ leased t r = true)) ∧
    (¬ may → Gives (.leaseStart sec r) s (fun t => t = s))) ∧
  (∀ (s : State) (sec : Fin 8) pass, s.bg.leases.lookup sec.val = none → Gives (.leaseDone sec pass) s (fun t => t = s)) ∧
  (∀ (s : State) (sec : Fin 8) pass r, RegsOk s → s.bg.leases.lookup sec.val = some r → Gives (.leaseDone sec pass) s (fun t =>
    t.bg.leases = merase s.bg.leases sec ∧ getReg t Reg.testBgDone = satInc (getReg s Reg.testBgDone) ∧
    (pass = true → getReg t Reg.testResult = 0#32 ∧ r ∉ t.bg.failedOnce) ∧
    (pass = false → r ∉ s.bg.failedOnce → r ∈ t.bg.failedOnce ∧ getReg t Reg.testResult = getReg s Reg.testResult ∧ t.rep = s.rep) ∧
    (pass = false → r ∈ s.bg.failedOnce → r ∉ t.bg.failedOnce ∧ getReg t Reg.testResult = 2#32 ∧
      getReg t Reg.testBgFail = satInc (getReg s Reg.testBgFail) ∧ leaseMark s r ∈ allMarks t)))

/-- START runs trace; it is refused with TRACE_STATE while trace runs and with TRACE_MODE without a compressor or a fit ring. STOP lets the FIFOs drain, then trace stops. SNAP_NOW and SNAP_ARM are refused with
TRACE_BUSY while a snapshot waits, TRACE_STATE at a wrong tick, TRACE_MODE or TRACE_RANGE for an unfit pool; SNAPSHOT_DONE writes every word of the snapshot, of an armed one once L has reached its tick. EXPORT_ON
holds FW and enables it unless it is marked failed, EXPORT_OFF releases it in DISABLED. RESET_RING clears the indices; a reserved code is refused with TRACE_RANGE. A compressor drops an unchanged sample under CHANGE_ONLY,
writes a SAMPLE record if there is room, else counts a drop. Probes (their register path free) and the ring pool are written while stopped. START, the snapshot commands and the ring pool write first look the pool's descriptor up
in the confluence's cache; what each does is told of the state that leaves.
Where the spec leaves room this states the model's own choice or reading: log entries 79, 110, 129 and 171. -/
def Obligations.TraceUnit : Prop :=
  let refused (code : Nat) (s t : State) : Prop := t.trc = { s.trc with result := code } ∧
    (if code = 0x20 then getReg t Reg.trcRangeCount = satInc (getReg s Reg.trcRangeCount) ∧ OnlyRegs [Reg.trcRangeCount] s t ∧
      OnlyParts [.trc, .regs] s t else OnlyParts [.trc] s t)
  (∀ (s₀ : State), RegsOk s₀ → mgmtOpen s₀ = true →
    let pool := fld (getReg s₀ Reg.trcRingPool) 0 20
    let s := descTouch 8 pool s₀
    Gives .trcCmdStart s₀ (fun t =>
      if s.trc.running = true then refused 1 s t
      else if (∃ sec ∈ trcSecs s, bitAt (getReg s (Reg.trcSecCfg sec)) 31 = false) ∨ ringRefusal s pool ≠ 0 then refused 3 s t
      else t.trc.running = true ∧ t.trc.stopping = false ∧ t.trc.result = 0 ∧ (∀ sec, (getStream t false sec).key = true) ∧ OnlyParts [.trc] s t)) ∧
  (∀ (s : State), mgmtOpen s = true → Gives .trcCmdStop s (fun t =>
    if s.trc.running = false ∨ s.trc.stopping = true then refused 1 s t
    else t.trc = { s.trc with stopping := true, held := [], result := 0 } ∧ OnlyParts [.trc] s t)) ∧
  (∀ (s : State), Gives .traceStopDone s (fun t =>
    if s.trc.running = true ∧ s.trc.stopping = true ∧ fifosEmpty s = true then t.trc.running = false ∧ t.trc.stopping = false ∧
      (s.trc.words = [] → OnlyParts [.trc] s t)
    else t = s)) ∧
  (∀ (s₀ : State), RegsOk s₀ → mgmtOpen s₀ = true →
    let s := descTouch 8 (fld (getReg s₀ Reg.trcSnapPool) 0 20) s₀
    let away := s.tick.st ≠ .idle ∧ s.tick.st ≠ .halted ∧ s.tick.st ≠ .fault
    Gives .trcCmdSnapNow s₀ (fun t =>
      if s.trc.snap ≠ .off then refused 2 s t
      else if away ∨ uncommitted s = true ∨ s.tick.nowP1 = 0 then refused 1 s t
      else if snapRefusal s ≠ 0 then refused (snapRefusal s) s t
      else t.trc = { s.trc with result := 0, snap := .busy (s.tick.nowP1 - 1), snapVals := some (ringSnap (s.tick.nowP1 - 1) s) } ∧ OnlyParts [.trc] s t)) ∧
  (∀ (s₀ : State), RegsOk s₀ → mgmtOpen s₀ = true →
    let s := descTouch 8 (fld (getReg s₀ Reg.trcSnapPool) 0 20) s₀
    Gives .trcCmdSnapArm s₀ (fun t =>
    if s.trc.snap ≠ .off then refused 2 s t
    else if snapTick s ≤ s.tick.nowP1 - 1 then refused 1 s t
    else if snapRefusal s ≠ 0 then refused (snapRefusal s) s t
    else t.trc = { s.trc with result := 0, snap := .armed (snapTick s) } ∧ OnlyParts [.trc] s t)) ∧
  (∀ (s : State), s.trc.snap = .off → Gives .snapshotDone s (fun t => t = s)) ∧
  (∀ (s : State) k, RegsOk s → StoresOk s → s.pool.fifo = [] → (s.trc.snap = .armed k ∨ s.trc.snap = .busy k) → Gives .snapshotDone s (fun t =>
    if s.trc.snap = .armed k ∧ (s.tick.nowP1 ≠ k + 1 ∨ s.ra.com < k + 1 ∨ s.tick.inTick = true) then t = s
    else t.trc = { s.trc with snap := .off, snapVals := none, result := 0 } ∧ getReg t Reg.trcSnaps = satInc (getReg s Reg.trcSnaps) ∧
      bitAt (getReg t Reg.trcEvent) 0 = true ∧ OnlyParts [.trc, .regs, .pool, .msix] s t ∧
      (∀ i < 1179656, hbmAt t (poolAddr (descOf s 8 (fld (getReg s Reg.trcSnapPool) 0 20)) i) = { data := snapWord s k i }))) ∧
  (∀ (s : State), RegsOk s → StoresOk s → mgmtOpen s = true → Gives .trcCmdExportOn s (fun t =>
    let x := getChan s 19
    if (claimOwner s 3 19).isSome = true ∨ s.dev.st = .starting then refused 0x21 s t
    else if x.st ≠ .disabled ∧ x.st ≠ .failed then refused 1 s t
    else (chanFailed s 19 = false → (getChan t 19).st = .waiting) ∧ (getChan t 19).owned = true ∧ t.trc.exporting = true ∧ t.trc.result = 0 ∧
      (∀ c, c ≠ 19 → getChan t c = getChan s c) ∧ OnlyParts [.trc, .chans, .regs] s t)) ∧
  (∀ (s : State), RegsOk s → StoresOk s → mgmtOpen s = true → Gives .trcCmdExportOff s (fun t =>
    if s.trc.exporting = false then refused 1 s t
    else (getChan t 19).st = .disabled ∧ (getChan t 19).owned = false ∧ t.trc.exporting = false ∧ t.trc.result = 0)) ∧
  (∀ (s : State), RegsOk s → mgmtOpen s = true → Gives .trcCmdResetRing s (fun t =>
    if s.trc.running = true then refused 1 s t
    else t.trc = { s.trc with wp := 0, recs := [], result := 0 } ∧ trcRp t = 0 ∧ trcOldest t = 0 ∧
      OnlyRegs [Reg.trcRpLo, Reg.trcRpHi] s t ∧ OnlyParts [.trc, .regs] s t)) ∧
  (∀ (s : State) (cmd : BitVec 4), RegsOk s → mgmtOpen s = true → (cmd = 0#4 ∨ 7 < cmd.toNat) → Gives (.trcCmdReserved cmd) s (refused 0x20 s)) ∧
  (∀ (s : State) (sec : Fin 8) ex, (s.trc.running = false ∨ compressorRuns s sec = false ∨ (getStream s ex sec).fifo = []) →
    Gives (.traceRecordWrite sec ex) s (fun t => t = s)) ∧
  (∀ (s : State) (sec : Fin 8) ex k raw rest, s.trc.running = true → compressorRuns s sec = true →
    (getStream s ex sec).fifo = .sample k raw :: rest → mwf dStream s.trc.ring = true → mwf dStream s.trc.exp = true → RegsOk s → s.pool.fifo = [] →
    let x := getStream s ex sec
    let key := x.key || x.recs % 1024 = 1023
    let spec := trcEarly s && s.ra.com ≤ k
    let ws := smpRecord s sec k raw x.prev key spec
    let d := descOf s 8 (fld (getReg s Reg.trcRingPool) 0 20)
    let room := dKind d = 1 ∧ ws.length ≤ dDepth d ∧ (trcWrap s = true ∨ s.trc.wp + ws.length ≤ trcRp s + (dDepth d - 2))
    (trcChangeOnly s = true → key = false → raw = x.prev → Gives (.traceRecordWrite sec ex) s (fun t =>
      (getStream t ex sec) = { x with fifo := rest } ∧ OnlyParts [.trc] s t)) ∧
    (ex = false → (trcChangeOnly s = false ∨ key = true ∨ raw ≠ x.prev) → room → Gives (.traceRecordWrite sec ex) s (fun t =>
      getStream t false sec = { fifo := rest, prev := raw, key := false, recs := x.recs + 1 } ∧ t.trc.wp = s.trc.wp + ws.length ∧
      getReg t Reg.trcSamples = satInc (getReg s Reg.trcSamples) ∧
      (∃ w0 ∈ ws, fld w0 60 4 = 1 ∧ fld w0 59 1 = b2n spec ∧ fld w0 58 1 = b2n key ∧ fld w0 55 3 = sec) ∧ OnlyParts [.trc, .regs, .pool] s t)) ∧
    (ex = false → (trcChangeOnly s = false ∨ key = true ∨ raw ≠ x.prev) → ¬ room → Gives (.traceRecordWrite sec ex) s (fun t =>
      getReg t Reg.trcDropped = satInc (getReg s Reg.trcDropped) ∧ bitAt (getReg t Reg.trcEvent) 2 = true ∧ bitAt (getReg t Reg.trcEvent) 3 = true ∧
      t.trc.wp = s.trc.wp ∧ OnlyParts [.trc, .regs, .msix] s t))) ∧
  (∀ (s : State) (sec : Fin 8) (k : Fin 1024) v, RegsOk s → mgmtOpen s = true → (getPath s sec).data = none → Gives (.trcProbeWrite sec k v) s (fun t =>
    if s.trc.running = true then refused 1 s t
    else if (∃ w, claimOwner s 10 sec = some w ∧ w ≠ 6) then refused 0x21 s t
    else getReg t (Reg.trcProbe sec k) = v &&& 0x83FEFF3F#32 ∧ OnlyRegs [Reg.trcProbe sec k] s t ∧ OnlyParts [.regs] s t)) ∧
  (∀ (s₀ : State) v, RegsOk s₀ → mgmtOpen s₀ = true →
    let p := fld v 0 20
    let s := descTouch 8 p s₀
    let d := descOf s 8 p
    Gives (.trcRingPoolWrite v) s₀ (fun t =>
      if s.trc.running = true then refused 1 s t
      else if dKind d ≠ 1 ∨ dVersioned d = true ∨ p = fld (getReg s Reg.trcSnapPool) 0 20 then refused 3 s t
      else if 0x200000000 < dDepth d then refused 0x20 s t
      else getReg t Reg.trcRingPool = w32 p ∧ OnlyRegs [Reg.trcRingPool] s t ∧ OnlyParts [.regs] s t))

/-- THERMAL_READ stores every die's temperature, shows the hottest die and its temperature, sets WARN and CRIT at their thresholds and clears each 3 degrees below. An HBM rail out of range marks every stack failed at run time and, where that is new, takes an OPERATIONAL
device to DEGRADED with RES_LOST. The SMBus target takes an offset, returns the register there (0 elsewhere) and advances by 4, refuses any other command and never writes the device. IDCODE, BYPASS and private codes select a register, capturing its value; each instruction is decoded by its opcode;
a boundary scan captures what the balls show; EXTEST, HIGHZ, CLAMP and the pulse forms act on the balls only while PORST_N is low or CFG_ERR_N is asserted, else as SAMPLE/PRELOAD.
Where the spec leaves room this states the model's own choice or reading: log entries 98, 123, 124, 125, 203, 204 and 205. -/
def Obligations.PinsAndTap : Prop :=
  (∀ (s : State) v temps, s.dev.inReset = true →
    ∀ i ∈ [Instr.thermalRead temps, .hbmSupplyFault, .smbSetOffset v, .smbBlockRead, .smbOtherCommand], Gives i s (fun t => t = s)) ∧
  (∀ (s : State) (temps : BitVec 72), RegsOk s → s.dev.inReset = false → Gives (.thermalRead temps) s (fun t =>
    (∀ d < 9, getReg t (Reg.dieTemp d) = w32 (fld temps (8 * d) 8)) ∧
    (∃ h < 9, (∀ d < 9, dieTemp temps d ≤ dieTemp temps h) ∧ fld (getReg t Reg.thermStat) 8 8 = h ∧
      fld (getReg t Reg.thermStat) 16 8 = fld temps (8 * h) 8 ∧
      (bitAt (getReg t Reg.thermStat) 0 = true ↔ (fld (getReg s Reg.tempWarn) 0 8 : Int) ≤ dieTemp temps h ∨
        (bitAt (getReg s Reg.thermStat) 0 = true ∧ (fld (getReg s Reg.tempWarn) 0 8 : Int) - 3 < dieTemp temps h)) ∧
      (bitAt (getReg t Reg.thermStat) 1 = true ↔ critTemp ≤ dieTemp temps h ∨
        (bitAt (getReg s Reg.thermStat) 1 = true ∧ critTemp - 3 < dieTemp temps h))) ∧
    OnlyRegs (Reg.thermStat :: (upTo 9).map Reg.dieTemp) s t ∧ OnlyParts [.regs] s t)) ∧
  (∀ (s : State), RegsOk s → s.dev.inReset = false → Gives .hbmSupplyFault s (fun t =>
    (∀ k < 4, (⟨7, k, 0⟩ : Mark) ∈ allMarks t) ∧ t.nv = s.nv ∧
    (∀ k < 4, (⟨7, k, 0⟩ : Mark) ∉ allMarks s → bitAt (getReg t (Reg.hbmStat k)) 0 = false) ∧
    ((∃ k < 4, (⟨7, k, 0⟩ : Mark) ∉ allMarks s) → bitAt (getReg t Reg.devEvent) 5 = true ∧
      t.dev.st = (if s.dev.st = .operational then .degraded else s.dev.st)))) ∧
  (∀ (s : State) v, s.dev.inReset = false →
    Gives (.smbSetOffset v) s (fun t => t = { s with smb := { s.smb with off := v.toNat, nack := false } }) ∧
    Gives .smbOtherCommand s (fun t => t = { s with smb := { s.smb with nack := true } }) ∧
    Gives .smbBlockRead s (fun t =>
      t.smb.off = (s.smb.off + 4) % 2 ^ 32 ∧ t.smb.data = (if smbSees s.smb.off then readReg s s.smb.off else 0#32) ∧ t.smb.nack = false ∧
      OnlyParts [.smb, .free] s t)) ∧
  (∀ (s : State) (lvl load : BitVec 2246) (op : BitVec 8),
    let scanned (i : JtagInst) : Jtag := { s.jtag with inst := i, cap := tapCapture s lvl, upd := load, irOut := tapIrCapture }
    let held (i : JtagInst) : Jtag := { s.jtag with inst := i, irOut := tapIrCapture, drOut := 0 }
    Gives .jtagIdcode s (fun t => t.jtag = { s.jtag with inst := .idcode, irOut := tapIrCapture, drOut := tapIdcode } ∧ OnlyParts [.jtag] s t) ∧
    Gives .jtagBypass s (fun t => t.jtag = { s.jtag with inst := .bypass, irOut := tapIrCapture, drOut := 0 } ∧ OnlyParts [.jtag] s t) ∧
    Gives (.jtagSamplePreload lvl load) s (fun t => t.jtag = scanned .sample ∧ OnlyParts [.jtag] s t) ∧
    (∀ i < 2246, bitAt (tapCapture s lvl) i = cellCapture s lvl i) ∧
    (let scans : List (Instr × JtagInst) := [(.jtagExtest lvl load, .extest), (.jtagExtestPulse lvl load, .extestPulse), (.jtagExtestTrain lvl load, .extestTrain)]
     ∀ p ∈ scans, Gives p.1 s (fun t => OnlyParts [.jtag] s t ∧
      t.jtag = scanned p.2 ∧
      (if s.dev.porstHigh = false ∨ s.dev.cfgErr = true then tapDrive t = some (some load) ∧
        (∀ b o e, pinCells b = some (o, e) → ballDrive t b = if bitAt load e then .level (bitAt load o) else .released)
       else tapDrive t = none ∧ ∀ b, ballDrive t b = pinDrive s b))) ∧
    Gives (.jtagHighz lvl load) s (fun t => OnlyParts [.jtag] s t ∧
      (if s.dev.porstHigh = false ∨ s.dev.cfgErr = true then t.jtag = held .highz ∧ tapDrive t = some none ∧
        (∀ b o e, pinCells b = some (o, e) → ballDrive t b = .released)
       else t.jtag = scanned .highz ∧ tapDrive t = none)) ∧
    Gives (.jtagClamp lvl load) s (fun t => OnlyParts [.jtag] s t ∧
      (if s.dev.porstHigh = false ∨ s.dev.cfgErr = true then t.jtag = held .clamp ∧ tapDrive t = some (some s.jtag.upd)
       else t.jtag = scanned .clamp ∧ tapDrive t = none)) ∧
    Gives (.jtagPrivate op) s (fun t => OnlyParts [.jtag] s t ∧
      t.jtag.inst = ([.bypass, .idcode, .sample, .extest, .highz, .clamp, .extestPulse, .extestTrain] : List JtagInst).getD op.toNat
        (if s.rep.raw = true ∧ 0x80 ≤ op.toNat ∧ op ≠ 0xFF#8 then .priv op else .bypass) ∧
      t.jtag.cap = s.jtag.cap ∧ t.jtag.upd = s.jtag.upd))

end
end

