-- ==== Sys2Proof/Laws/SMap.lean ====
section
/-! SUPPORT. What the operations of sparse data do: a read after a write, and the canonical form they keep. -/

namespace Sys2Proof.Machine

variable {α : Type}

@[simp] theorem mget_nil (d : Nat → α) (k : Nat) : mget d [] k = d k := rfl

/-- A read after a put: the value put at its key, and what was there before at every other key. -/
theorem mget_mput (d : Nat → α) (m : SMap α) (k j : Nat) (v : α) :
    mget d (mput m k v) j = if k = j then v else mget d m j := by
  induction m with
  | nil => simp [mput, mget]
  | cons p m ih =>
    obtain ⟨i, w⟩ := p
    by_cases hlt : k < i
    · simp [mput, mget, hlt]
    · by_cases he : k = i
      · subst he; by_cases h : k = j <;> simp [mput, mget, h]
      · by_cases h : i = j
        · subst h; simp [mput, mget, hlt, he]
        · simp [mput, mget, hlt, he, h, ih]

/-- Erasing a key leaves every other key alone. -/
theorem mget_merase_ne (d : Nat → α) (m : SMap α) (k j : Nat) (h : k ≠ j) :
    mget d (merase m k) j = mget d m j := by
  induction m with
  | nil => rfl
  | cons p m ih =>
    obtain ⟨i, w⟩ := p
    by_cases hk : i = k
    · subst hk; simp [merase, mget, h]
    · simp [merase, mget, hk, ih]

theorem mrising_mono {b c : Nat} (m : SMap α) (h : b ≤ c) (hm : mrising c m = true) : mrising b m = true := by
  cases m with
  | nil => rfl
  | cons p m => simp [mrising] at *; exact ⟨by omega, hm.2⟩

/-- A key below every listed one reads its default. -/
theorem mget_low (d : Nat → α) (m : SMap α) (b k : Nat) (hm : mrising b m = true) (hk : k < b) : mget d m k = d k := by
  induction m generalizing b with
  | nil => rfl
  | cons p m ih =>
    obtain ⟨i, w⟩ := p
    simp only [mrising, Bool.and_eq_true, decide_eq_true_eq] at hm
    have : i ≠ k := by omega
    simp only [mget, this, if_false]
    exact ih (i + 1) hm.2 (by omega)

/-- An erased key reads its default, in rising data. -/
theorem mget_merase_self (d : Nat → α) (m : SMap α) (b k : Nat) (hm : mrising b m = true) : mget d (merase m k) k = d k := by
  induction m generalizing b with
  | nil => rfl
  | cons p m ih =>
    obtain ⟨i, w⟩ := p
    simp only [mrising, Bool.and_eq_true, decide_eq_true_eq] at hm
    by_cases hk : i = k
    · subst hk; simp only [merase, if_true]; exact mget_low d m (i + 1) i hm.2 (by omega)
    · simp only [merase, hk, if_false, mget]; exact ih (i + 1) hm.2

/-- A read after a write in rising data. -/
theorem mget_mset [DecidableEq α] (d : Nat → α) (m : SMap α) (k j : Nat) (v : α) (hm : mrising 0 m = true) :
    mget d (mset d m k v) j = if k = j then v else mget d m j := by
  unfold mset
  by_cases hv : v = d k
  · by_cases hj : k = j
    · subst hj; simp [hv, mget_merase_self d m 0 k hm]
    · simp [hv, hj, mget_merase_ne d m k j hj]
  · simp [hv, mget_mput]

/-- A write leaves every other key alone, in any data. -/
theorem mget_mset_ne [DecidableEq α] (d : Nat → α) (m : SMap α) (k j : Nat) (v : α) (h : k ≠ j) :
    mget d (mset d m k v) j = mget d m j := by
  unfold mset
  by_cases hv : v = d k
  · simp [hv, mget_merase_ne d m k j h]
  · simp [hv, mget_mput, h]

theorem mrising_merase (m : SMap α) (b k : Nat) (hm : mrising b m = true) : mrising b (merase m k) = true := by
  induction m generalizing b with
  | nil => rfl
  | cons p m ih =>
    obtain ⟨i, w⟩ := p
    simp only [mrising, Bool.and_eq_true, decide_eq_true_eq] at hm
    by_cases hk : i = k
    · simp only [merase, hk, if_true]; exact mrising_mono m (by omega) hm.2
    · simp only [merase, hk, if_false, mrising, Bool.and_eq_true, decide_eq_true_eq]; exact ⟨hm.1, ih _ hm.2⟩

theorem mproper_merase [DecidableEq α] (d : Nat → α) (m : SMap α) (k : Nat) (hm : mproper d m = true) :
    mproper d (merase m k) = true := by
  induction m with
  | nil => rfl
  | cons p m ih =>
    obtain ⟨i, w⟩ := p
    simp only [mproper, Bool.and_eq_true, decide_eq_true_eq] at hm
    by_cases hk : i = k
    · simp only [merase, hk, if_true]; exact hm.2
    · simp only [merase, hk, if_false, mproper, Bool.and_eq_true, decide_eq_true_eq]; exact ⟨hm.1, ih hm.2⟩

theorem mrising_mput (m : SMap α) (b k : Nat) (v : α) (hb : b ≤ k) (hm : mrising b m = true) :
    mrising b (mput m k v) = true := by
  induction m generalizing b with
  | nil => simp [mput, mrising, hb]
  | cons p m ih =>
    obtain ⟨i, w⟩ := p
    simp only [mrising, Bool.and_eq_true, decide_eq_true_eq] at hm
    by_cases hlt : k < i
    · simp only [mput, hlt, if_true, mrising, Bool.and_eq_true, decide_eq_true_eq]
      exact ⟨hb, by omega, hm.2⟩
    · by_cases he : k = i
      · subst he; simp only [mput, lt_self_iff_false, if_false, if_true, mrising, Bool.and_eq_true, decide_eq_true_eq]
        exact ⟨hb, hm.2⟩
      · simp only [mput, hlt, he, if_false, mrising, Bool.and_eq_true, decide_eq_true_eq]
        exact ⟨hm.1, ih (i + 1) (by omega) hm.2⟩

theorem mproper_mput [DecidableEq α] (d : Nat → α) (m : SMap α) (k : Nat) (v : α) (hv : v ≠ d k)
    (hm : mproper d m = true) : mproper d (mput m k v) = true := by
  induction m with
  | nil => simp [mput, mproper, hv]
  | cons p m ih =>
    obtain ⟨i, w⟩ := p
    simp only [mproper, Bool.and_eq_true, decide_eq_true_eq] at hm
    by_cases hlt : k < i
    · simp only [mput, hlt, if_true, mproper, Bool.and_eq_true, decide_eq_true_eq]; exact ⟨hv, hm.1, hm.2⟩
    · by_cases he : k = i
      · subst he; simp only [mput, lt_self_iff_false, if_false, if_true, mproper, Bool.and_eq_true, decide_eq_true_eq]
        exact ⟨hv, hm.2⟩
      · simp only [mput, hlt, he, if_false, mproper, Bool.and_eq_true, decide_eq_true_eq]; exact ⟨hm.1, ih hm.2⟩

/-- A write keeps the canonical form. -/
theorem mwf_mset [DecidableEq α] (d : Nat → α) (m : SMap α) (k : Nat) (v : α) (hm : mwf d m = true) :
    mwf d (mset d m k v) = true := by
  simp only [mwf, Bool.and_eq_true] at hm ⊢
  unfold mset
  by_cases hv : v = d k
  · simp only [hv, if_true]; exact ⟨mrising_merase m 0 k hm.1, mproper_merase d m k hm.2⟩
  · simp only [hv, if_false]; exact ⟨mrising_mput m 0 k v (by omega) hm.1, mproper_mput d m k v hv hm.2⟩

theorem mrising_mmap [DecidableEq α] (d : Nat → α) (f : Nat → α → α) (m : SMap α) (b : Nat) (hm : mrising b m = true) :
    mrising b (mmap d f m) = true := by
  induction m generalizing b with
  | nil => rfl
  | cons p m ih =>
    obtain ⟨i, w⟩ := p
    simp only [mrising, Bool.and_eq_true, decide_eq_true_eq] at hm
    by_cases hv : f i w = d i
    · simp only [mmap, hv, if_true]; exact ih b (mrising_mono m (by omega) hm.2)
    · simp only [mmap, hv, if_false, mrising, Bool.and_eq_true, decide_eq_true_eq]; exact ⟨hm.1, ih _ hm.2⟩

theorem mproper_mmap [DecidableEq α] (d : Nat → α) (f : Nat → α → α) (m : SMap α) : mproper d (mmap d f m) = true := by
  induction m with
  | nil => rfl
  | cons p m ih =>
    obtain ⟨i, w⟩ := p
    by_cases hv : f i w = d i
    · simp only [mmap, hv, if_true]; exact ih
    · simp only [mmap, hv, if_false, mproper, Bool.and_eq_true, decide_eq_true_eq]; exact ⟨hv, ih⟩

/-- Rewriting every listed value keeps the canonical form. -/
theorem mwf_mmap [DecidableEq α] (d : Nat → α) (f : Nat → α → α) (m : SMap α) (hm : mwf d m = true) :
    mwf d (mmap d f m) = true := by
  simp only [mwf, Bool.and_eq_true] at hm ⊢
  exact ⟨mrising_mmap d f m 0 hm.1, mproper_mmap d f m⟩

theorem mrising_filter (p : Nat × α → Bool) (m : SMap α) (b : Nat) (hm : mrising b m = true) :
    mrising b (m.filter p) = true := by
  induction m generalizing b with
  | nil => rfl
  | cons q m ih =>
    obtain ⟨i, w⟩ := q
    simp only [mrising, Bool.and_eq_true, decide_eq_true_eq] at hm
    by_cases hp : p (i, w) = true
    · simp only [List.filter, hp, mrising, Bool.and_eq_true, decide_eq_true_eq]; exact ⟨hm.1, ih _ hm.2⟩
    · simp only [Bool.not_eq_true] at hp
      simp only [List.filter, hp]; exact ih b (mrising_mono m (by omega) hm.2)

theorem mproper_filter [DecidableEq α] (d : Nat → α) (p : Nat × α → Bool) (m : SMap α) (hm : mproper d m = true) :
    mproper d (m.filter p) = true := by
  induction m with
  | nil => rfl
  | cons q m ih =>
    obtain ⟨i, w⟩ := q
    simp only [mproper, Bool.and_eq_true, decide_eq_true_eq] at hm
    by_cases hp : p (i, w) = true
    · simp only [List.filter, hp, mproper, Bool.and_eq_true, decide_eq_true_eq]; exact ⟨hm.1, ih hm.2⟩
    · simp only [Bool.not_eq_true] at hp
      simp only [List.filter, hp]; exact ih hm.2

/-- Dropping pairs keeps the canonical form. -/
theorem mwf_filter [DecidableEq α] (d : Nat → α) (p : Nat × α → Bool) (m : SMap α) (hm : mwf d m = true) :
    mwf d (m.filter p) = true := by
  simp only [mwf, Bool.and_eq_true] at hm ⊢
  exact ⟨mrising_filter p m 0 hm.1, mproper_filter d p m hm.2⟩

/-! ### A spliced range -/

theorem mrising_below (m r : SMap α) (b c lo : Nat) (hc : c ≤ lo) (hb : b ≤ c) (hm : mrising b m = true) (hr : mrising lo r = true) :
    mrising c (m.filter (fun p => decide (p.1 < lo) && decide (c ≤ p.1)) ++ r) = true := by
  induction m generalizing b c with
  | nil => exact mrising_mono r hc hr
  | cons p m ih =>
    obtain ⟨i, w⟩ := p
    simp only [mrising, Bool.and_eq_true, decide_eq_true_eq] at hm
    by_cases h : i < lo ∧ c ≤ i
    · have e : (m.filter fun p => decide (p.1 < lo) && decide (c ≤ p.1)) = m.filter fun p => decide (p.1 < lo) && decide (i + 1 ≤ p.1) := by
        have aux : ∀ (m : SMap α) (b : Nat), i + 1 ≤ b → mrising b m = true →
            (m.filter fun p => decide (p.1 < lo) && decide (c ≤ p.1)) = m.filter fun p => decide (p.1 < lo) && decide (i + 1 ≤ p.1) := by
          intro m
          induction m with
          | nil => intros; rfl
          | cons q m ih =>
            intro b hb hm
            obtain ⟨j, u⟩ := q
            simp only [mrising, Bool.and_eq_true, decide_eq_true_eq] at hm
            have h1 : c ≤ j := by omega
            have h2 : i + 1 ≤ j := by omega
            simp only [List.filter, h1, h2, ih (j + 1) (by omega) hm.2]
        exact aux m (i + 1) (le_refl _) hm.2
      have hd : (decide (i < lo) && decide (c ≤ i)) = true := by simp [h]
      simp only [List.filter, hd, List.cons_append, mrising, Bool.and_eq_true, decide_eq_true_eq]
      rw [e]
      exact ⟨h.2, ih (i + 1) (i + 1) (by omega) (le_refl _) hm.2⟩
    · have hd : (decide (i < lo) && decide (c ≤ i)) = false := by simp only [Bool.and_eq_false_iff, decide_eq_false_iff_not]; omega
      simp only [List.filter, hd]
      by_cases hi : i + 1 ≤ c
      · exact ih (i + 1) c hc hi hm.2
      · exact ih b c hc hb (mrising_mono m (by omega) hm.2)

theorem mrising_mtab [DecidableEq α] (d f : Nat → α) (lo n b : Nat) (r : SMap α) (hb : b ≤ lo) (hr : mrising (lo + n) r = true) :
    mrising b (mtab d f lo n ++ r) = true := by
  induction n generalizing lo b with
  | zero => exact mrising_mono r (by omega) hr
  | succ n ih =>
    have hr' : mrising (lo + 1 + n) r = true := by rwa [show lo + 1 + n = lo + (n + 1) by omega]
    simp only [mtab]
    split
    · exact ih (lo + 1) b (by omega) hr'
    · simp only [List.cons_append, mrising, Bool.and_eq_true, decide_eq_true_eq]
      exact ⟨hb, ih (lo + 1) (lo + 1) (le_refl _) hr'⟩

theorem mrising_above (m : SMap α) (b lo : Nat) (hm : mrising b m = true) :
    mrising lo (m.filter (fun p => decide (lo ≤ p.1))) = true := by
  induction m generalizing b lo with
  | nil => rfl
  | cons p m ih =>
    obtain ⟨i, w⟩ := p
    simp only [mrising, Bool.and_eq_true, decide_eq_true_eq] at hm
    by_cases h : lo ≤ i
    · simp only [List.filter, h, decide_true, mrising, Bool.and_eq_true, true_and]
      exact mrising_filter _ m (i + 1) hm.2
    · simp only [List.filter, h, decide_false]
      exact ih (i + 1) lo hm.2

theorem mproper_append [DecidableEq α] (d : Nat → α) (m r : SMap α) (hm : mproper d m = true) (hr : mproper d r = true) :
    mproper d (m ++ r) = true := by
  induction m with
  | nil => exact hr
  | cons p m ih =>
    obtain ⟨i, w⟩ := p
    simp only [mproper, List.cons_append, Bool.and_eq_true, decide_eq_true_eq] at hm ⊢
    exact ⟨hm.1, ih hm.2⟩

theorem mproper_mtab [DecidableEq α] (d f : Nat → α) (lo n : Nat) : mproper d (mtab d f lo n) = true := by
  induction n generalizing lo with
  | zero => rfl
  | succ n ih =>
    simp only [mtab]
    split
    · exact ih (lo + 1)
    · rename_i h
      simp only [mproper, Bool.and_eq_true, decide_eq_true_eq]
      exact ⟨h, ih (lo + 1)⟩

/-- Rewriting a range of keys keeps the canonical form. -/
theorem mwf_msplice [DecidableEq α] (d f : Nat → α) (lo n : Nat) (m : SMap α) (hm : mwf d m = true) :
    mwf d (msplice d f lo n m) = true := by
  simp only [mwf, Bool.and_eq_true] at hm ⊢
  refine ⟨?_, ?_⟩
  · have h := mrising_below m (mtab d f lo n ++ m.filter (fun p => decide (lo + n ≤ p.1))) 0 0 lo (Nat.zero_le _) (le_refl _) hm.1
      (mrising_mtab d f lo n lo _ (le_refl _) (mrising_above m 0 (lo + n) hm.1))
    simpa [msplice, List.append_assoc] using h
  · unfold msplice
    exact mproper_append d _ _ (mproper_append d _ _ (mproper_filter d _ m hm.2) (mproper_mtab d f lo n)) (mproper_filter d _ m hm.2)

theorem mget_append (d : Nat → α) (m r : SMap α) (k : Nat) : mget d (m ++ r) k = mget (mget d r) m k := by
  induction m with
  | nil => rfl
  | cons p m ih => obtain ⟨i, w⟩ := p; by_cases h : i = k <;> simp [mget, h, ih]

theorem mget_default (d D : Nat → α) (m : SMap α) (k : Nat) (h : D k = d k) : mget D m k = mget d m k := by
  induction m with
  | nil => exact h
  | cons p m ih => obtain ⟨i, w⟩ := p; by_cases hk : i = k <;> simp [mget, hk, ih]

theorem mget_filter (d : Nat → α) (p : Nat → Bool) (m : SMap α) (k : Nat) :
    mget d (m.filter (fun q => p q.1)) k = if p k then mget d m k else d k := by
  induction m with
  | nil => simp [mget]
  | cons q m ih =>
    obtain ⟨i, w⟩ := q
    by_cases hp : p i = true
    · by_cases h : i = k
      · subst h; simp [List.filter, mget, hp]
      · simp [List.filter, mget, hp, h, ih]
    · simp only [Bool.not_eq_true] at hp
      by_cases h : i = k
      · subst h; simp [List.filter, hp, ih]
      · simp [List.filter, mget, hp, h, ih]

theorem mget_mtab [DecidableEq α] (d f D : Nat → α) (lo n k : Nat) (h : lo ≤ k → k < lo + n → D k = d k) :
    mget D (mtab d f lo n) k = if lo ≤ k ∧ k < lo + n then f k else D k := by
  induction n generalizing lo with
  | zero => have : ¬ (lo ≤ k ∧ k < lo + 0) := by omega
            simp only [mtab, mget, this, if_false]
  | succ n ih =>
    have hi := ih (lo + 1) (fun h1 h2 => h (by omega) (by omega))
    by_cases hk : lo = k
    · subst hk
      have : ¬ (lo + 1 ≤ lo ∧ lo < lo + 1 + n) := by omega
      simp only [this, if_false] at hi
      have hy : lo ≤ lo ∧ lo < lo + (n + 1) := by omega
      simp only [mtab, hy]
      split
      · next he => simp [hi, h (le_refl _) (by omega), he]
      · simp [mget]
    · have hc : (lo ≤ k ∧ k < lo + (n + 1)) ↔ (lo + 1 ≤ k ∧ k < lo + 1 + n) := by omega
      simp only [hc]
      simp only [mtab]
      split
      · exact hi
      · simp only [mget, hk, if_false]; exact hi

/-- A read of spliced data: what the splice gives inside its range, what was there outside it. -/
theorem mget_msplice [DecidableEq α] (d f : Nat → α) (lo n k : Nat) (m : SMap α) :
    mget d (msplice d f lo n m) k = if lo ≤ k ∧ k < lo + n then f k else mget d m k := by
  have ha := mget_filter d (fun j => decide (lo + n ≤ j)) m
  have hb := mget_filter (mget (mget d (m.filter fun p => decide (lo + n ≤ p.1))) (mtab d f lo n)) (fun j => decide (j < lo)) m k
  unfold msplice
  rw [List.append_assoc, mget_append]
  have e : mget (mget d (m.filter fun p => decide (lo + n ≤ p.1))) (mtab d f lo n) k
      = if lo ≤ k ∧ k < lo + n then f k else mget d (m.filter fun p => decide (lo + n ≤ p.1)) k :=
    mget_mtab d f _ lo n k (fun _ h2 => by rw [ha k]; simp [h2])
  have hd : mget d (mtab d f lo n ++ m.filter fun p => decide (lo + n ≤ p.1))
      = mget (mget d (m.filter fun p => decide (lo + n ≤ p.1))) (mtab d f lo n) := funext fun j => mget_append d _ _ j
  rw [hd, hb, e, ha k]
  by_cases h1 : k < lo
  · have h2 : ¬ (lo ≤ k ∧ k < lo + n) := by omega
    simp only [h1, h2, decide_true, if_true, if_false]
    apply mget_default
    rw [e, if_neg h2, ha k]; simp; omega
  · by_cases h3 : k < lo + n
    · have : lo ≤ k ∧ k < lo + n := by omega
      simp [h1, this]
    · have h2 : ¬ (lo ≤ k ∧ k < lo + n) := by omega
      have h4 : lo + n ≤ k := by omega
      simp [h1, h2, h4]

end Sys2Proof.Machine
end

