-- ==== Sys2Proof/Laws/State.lean ====
section
/-! SUPPORT. The parts of the state that each named update leaves alone: one lemma for each update and part, so that no
proof unfolds a record update. -/

namespace Sys2Proof.Machine

variable (s : State)


/-! setReg -/

@[simp] theorem setReg_pending (o : Nat) (v : Word) : (setReg o v s).pending = s.pending := rfl
@[simp] theorem setReg_dev (o : Nat) (v : Word) : (setReg o v s).dev = s.dev := rfl
@[simp] theorem setReg_fab (o : Nat) (v : Word) : (setReg o v s).fab = s.fab := rfl
@[simp] theorem setReg_bm (o : Nat) (v : Word) : (setReg o v s).bm = s.bm := rfl
@[simp] theorem setReg_tick (o : Nat) (v : Word) : (setReg o v s).tick = s.tick := rfl
@[simp] theorem setReg_ra (o : Nat) (v : Word) : (setReg o v s).ra = s.ra := rfl
@[simp] theorem setReg_chans (o : Nat) (v : Word) : (setReg o v s).chans = s.chans := rfl
@[simp] theorem setReg_net (o : Nat) (v : Word) : (setReg o v s).net = s.net := rfl
@[simp] theorem setReg_paths (o : Nat) (v : Word) : (setReg o v s).paths = s.paths := rfl
@[simp] theorem setReg_queues (o : Nat) (v : Word) : (setReg o v s).queues = s.queues := rfl
@[simp] theorem setReg_pool (o : Nat) (v : Word) : (setReg o v s).pool = s.pool := rfl
@[simp] theorem setReg_eddies (o : Nat) (v : Word) : (setReg o v s).eddies = s.eddies := rfl
@[simp] theorem setReg_msix (o : Nat) (v : Word) : (setReg o v s).msix = s.msix := rfl
@[simp] theorem setReg_host (o : Nat) (v : Word) : (setReg o v s).host = s.host := rfl
@[simp] theorem setReg_rdata (o : Nat) (v : Word) : (setReg o v s).rdata = s.rdata := rfl
@[simp] theorem setReg_claims (o : Nat) (v : Word) : (setReg o v s).claims = s.claims := rfl
@[simp] theorem setReg_ldr (o : Nat) (v : Word) : (setReg o v s).ldr = s.ldr := rfl
@[simp] theorem setReg_nv (o : Nat) (v : Word) : (setReg o v s).nv = s.nv := rfl
@[simp] theorem setReg_mbx (o : Nat) (v : Word) : (setReg o v s).mbx = s.mbx := rfl
@[simp] theorem setReg_frz (o : Nat) (v : Word) : (setReg o v s).frz = s.frz := rfl
@[simp] theorem setReg_scr (o : Nat) (v : Word) : (setReg o v s).scr = s.scr := rfl
@[simp] theorem setReg_bg (o : Nat) (v : Word) : (setReg o v s).bg = s.bg := rfl
@[simp] theorem setReg_rep (o : Nat) (v : Word) : (setReg o v s).rep = s.rep := rfl
@[simp] theorem setReg_trc (o : Nat) (v : Word) : (setReg o v s).trc = s.trc := rfl
@[simp] theorem setReg_jtag (o : Nat) (v : Word) : (setReg o v s).jtag = s.jtag := rfl
@[simp] theorem setReg_smb (o : Nat) (v : Word) : (setReg o v s).smb = s.smb := rfl
@[simp] theorem setReg_pins (o : Nat) (v : Word) : (setReg o v s).pins = s.pins := rfl
@[simp] theorem setReg_free (o : Nat) (v : Word) : (setReg o v s).free = s.free := rfl

/-! bump -/

@[simp] theorem bump_pending (o : Nat) : (bump o s).pending = s.pending := rfl
@[simp] theorem bump_dev (o : Nat) : (bump o s).dev = s.dev := rfl
@[simp] theorem bump_fab (o : Nat) : (bump o s).fab = s.fab := rfl
@[simp] theorem bump_bm (o : Nat) : (bump o s).bm = s.bm := rfl
@[simp] theorem bump_tick (o : Nat) : (bump o s).tick = s.tick := rfl
@[simp] theorem bump_ra (o : Nat) : (bump o s).ra = s.ra := rfl
@[simp] theorem bump_chans (o : Nat) : (bump o s).chans = s.chans := rfl
@[simp] theorem bump_net (o : Nat) : (bump o s).net = s.net := rfl
@[simp] theorem bump_paths (o : Nat) : (bump o s).paths = s.paths := rfl
@[simp] theorem bump_queues (o : Nat) : (bump o s).queues = s.queues := rfl
@[simp] theorem bump_pool (o : Nat) : (bump o s).pool = s.pool := rfl
@[simp] theorem bump_eddies (o : Nat) : (bump o s).eddies = s.eddies := rfl
@[simp] theorem bump_msix (o : Nat) : (bump o s).msix = s.msix := rfl
@[simp] theorem bump_host (o : Nat) : (bump o s).host = s.host := rfl
@[simp] theorem bump_rdata (o : Nat) : (bump o s).rdata = s.rdata := rfl
@[simp] theorem bump_claims (o : Nat) : (bump o s).claims = s.claims := rfl
@[simp] theorem bump_ldr (o : Nat) : (bump o s).ldr = s.ldr := rfl
@[simp] theorem bump_nv (o : Nat) : (bump o s).nv = s.nv := rfl
@[simp] theorem bump_mbx (o : Nat) : (bump o s).mbx = s.mbx := rfl
@[simp] theorem bump_frz (o : Nat) : (bump o s).frz = s.frz := rfl
@[simp] theorem bump_scr (o : Nat) : (bump o s).scr = s.scr := rfl
@[simp] theorem bump_bg (o : Nat) : (bump o s).bg = s.bg := rfl
@[simp] theorem bump_rep (o : Nat) : (bump o s).rep = s.rep := rfl
@[simp] theorem bump_trc (o : Nat) : (bump o s).trc = s.trc := rfl
@[simp] theorem bump_jtag (o : Nat) : (bump o s).jtag = s.jtag := rfl
@[simp] theorem bump_smb (o : Nat) : (bump o s).smb = s.smb := rfl
@[simp] theorem bump_pins (o : Nat) : (bump o s).pins = s.pins := rfl
@[simp] theorem bump_free (o : Nat) : (bump o s).free = s.free := rfl

/-! bumpBy -/

@[simp] theorem bumpBy_pending (o n : Nat) : (bumpBy o n s).pending = s.pending := by unfold bumpBy; split <;> rfl
@[simp] theorem bumpBy_dev (o n : Nat) : (bumpBy o n s).dev = s.dev := by unfold bumpBy; split <;> rfl
@[simp] theorem bumpBy_fab (o n : Nat) : (bumpBy o n s).fab = s.fab := by unfold bumpBy; split <;> rfl
@[simp] theorem bumpBy_bm (o n : Nat) : (bumpBy o n s).bm = s.bm := by unfold bumpBy; split <;> rfl
@[simp] theorem bumpBy_tick (o n : Nat) : (bumpBy o n s).tick = s.tick := by unfold bumpBy; split <;> rfl
@[simp] theorem bumpBy_ra (o n : Nat) : (bumpBy o n s).ra = s.ra := by unfold bumpBy; split <;> rfl
@[simp] theorem bumpBy_chans (o n : Nat) : (bumpBy o n s).chans = s.chans := by unfold bumpBy; split <;> rfl
@[simp] theorem bumpBy_net (o n : Nat) : (bumpBy o n s).net = s.net := by unfold bumpBy; split <;> rfl
@[simp] theorem bumpBy_paths (o n : Nat) : (bumpBy o n s).paths = s.paths := by unfold bumpBy; split <;> rfl
@[simp] theorem bumpBy_queues (o n : Nat) : (bumpBy o n s).queues = s.queues := by unfold bumpBy; split <;> rfl
@[simp] theorem bumpBy_pool (o n : Nat) : (bumpBy o n s).pool = s.pool := by unfold bumpBy; split <;> rfl
@[simp] theorem bumpBy_eddies (o n : Nat) : (bumpBy o n s).eddies = s.eddies := by unfold bumpBy; split <;> rfl
@[simp] theorem bumpBy_msix (o n : Nat) : (bumpBy o n s).msix = s.msix := by unfold bumpBy; split <;> rfl
@[simp] theorem bumpBy_host (o n : Nat) : (bumpBy o n s).host = s.host := by unfold bumpBy; split <;> rfl
@[simp] theorem bumpBy_rdata (o n : Nat) : (bumpBy o n s).rdata = s.rdata := by unfold bumpBy; split <;> rfl
@[simp] theorem bumpBy_claims (o n : Nat) : (bumpBy o n s).claims = s.claims := by unfold bumpBy; split <;> rfl
@[simp] theorem bumpBy_ldr (o n : Nat) : (bumpBy o n s).ldr = s.ldr := by unfold bumpBy; split <;> rfl
@[simp] theorem bumpBy_nv (o n : Nat) : (bumpBy o n s).nv = s.nv := by unfold bumpBy; split <;> rfl
@[simp] theorem bumpBy_mbx (o n : Nat) : (bumpBy o n s).mbx = s.mbx := by unfold bumpBy; split <;> rfl
@[simp] theorem bumpBy_frz (o n : Nat) : (bumpBy o n s).frz = s.frz := by unfold bumpBy; split <;> rfl
@[simp] theorem bumpBy_scr (o n : Nat) : (bumpBy o n s).scr = s.scr := by unfold bumpBy; split <;> rfl
@[simp] theorem bumpBy_bg (o n : Nat) : (bumpBy o n s).bg = s.bg := by unfold bumpBy; split <;> rfl
@[simp] theorem bumpBy_rep (o n : Nat) : (bumpBy o n s).rep = s.rep := by unfold bumpBy; split <;> rfl
@[simp] theorem bumpBy_trc (o n : Nat) : (bumpBy o n s).trc = s.trc := by unfold bumpBy; split <;> rfl
@[simp] theorem bumpBy_jtag (o n : Nat) : (bumpBy o n s).jtag = s.jtag := by unfold bumpBy; split <;> rfl
@[simp] theorem bumpBy_smb (o n : Nat) : (bumpBy o n s).smb = s.smb := by unfold bumpBy; split <;> rfl
@[simp] theorem bumpBy_pins (o n : Nat) : (bumpBy o n s).pins = s.pins := by unfold bumpBy; split <;> rfl
@[simp] theorem bumpBy_free (o n : Nat) : (bumpBy o n s).free = s.free := by unfold bumpBy; split <;> rfl

/-! orReg -/

@[simp] theorem orReg_pending (o : Nat) (m : Word) : (orReg o m s).pending = s.pending := rfl
@[simp] theorem orReg_dev (o : Nat) (m : Word) : (orReg o m s).dev = s.dev := rfl
@[simp] theorem orReg_fab (o : Nat) (m : Word) : (orReg o m s).fab = s.fab := rfl
@[simp] theorem orReg_bm (o : Nat) (m : Word) : (orReg o m s).bm = s.bm := rfl
@[simp] theorem orReg_tick (o : Nat) (m : Word) : (orReg o m s).tick = s.tick := rfl
@[simp] theorem orReg_ra (o : Nat) (m : Word) : (orReg o m s).ra = s.ra := rfl
@[simp] theorem orReg_chans (o : Nat) (m : Word) : (orReg o m s).chans = s.chans := rfl
@[simp] theorem orReg_net (o : Nat) (m : Word) : (orReg o m s).net = s.net := rfl
@[simp] theorem orReg_paths (o : Nat) (m : Word) : (orReg o m s).paths = s.paths := rfl
@[simp] theorem orReg_queues (o : Nat) (m : Word) : (orReg o m s).queues = s.queues := rfl
@[simp] theorem orReg_pool (o : Nat) (m : Word) : (orReg o m s).pool = s.pool := rfl
@[simp] theorem orReg_eddies (o : Nat) (m : Word) : (orReg o m s).eddies = s.eddies := rfl
@[simp] theorem orReg_msix (o : Nat) (m : Word) : (orReg o m s).msix = s.msix := rfl
@[simp] theorem orReg_host (o : Nat) (m : Word) : (orReg o m s).host = s.host := rfl
@[simp] theorem orReg_rdata (o : Nat) (m : Word) : (orReg o m s).rdata = s.rdata := rfl
@[simp] theorem orReg_claims (o : Nat) (m : Word) : (orReg o m s).claims = s.claims := rfl
@[simp] theorem orReg_ldr (o : Nat) (m : Word) : (orReg o m s).ldr = s.ldr := rfl
@[simp] theorem orReg_nv (o : Nat) (m : Word) : (orReg o m s).nv = s.nv := rfl
@[simp] theorem orReg_mbx (o : Nat) (m : Word) : (orReg o m s).mbx = s.mbx := rfl
@[simp] theorem orReg_frz (o : Nat) (m : Word) : (orReg o m s).frz = s.frz := rfl
@[simp] theorem orReg_scr (o : Nat) (m : Word) : (orReg o m s).scr = s.scr := rfl
@[simp] theorem orReg_bg (o : Nat) (m : Word) : (orReg o m s).bg = s.bg := rfl
@[simp] theorem orReg_rep (o : Nat) (m : Word) : (orReg o m s).rep = s.rep := rfl
@[simp] theorem orReg_trc (o : Nat) (m : Word) : (orReg o m s).trc = s.trc := rfl
@[simp] theorem orReg_jtag (o : Nat) (m : Word) : (orReg o m s).jtag = s.jtag := rfl
@[simp] theorem orReg_smb (o : Nat) (m : Word) : (orReg o m s).smb = s.smb := rfl
@[simp] theorem orReg_pins (o : Nat) (m : Word) : (orReg o m s).pins = s.pins := rfl
@[simp] theorem orReg_free (o : Nat) (m : Word) : (orReg o m s).free = s.free := rfl

/-! andNotReg -/

@[simp] theorem andNotReg_pending (o : Nat) (m : Word) : (andNotReg o m s).pending = s.pending := rfl
@[simp] theorem andNotReg_dev (o : Nat) (m : Word) : (andNotReg o m s).dev = s.dev := rfl
@[simp] theorem andNotReg_fab (o : Nat) (m : Word) : (andNotReg o m s).fab = s.fab := rfl
@[simp] theorem andNotReg_bm (o : Nat) (m : Word) : (andNotReg o m s).bm = s.bm := rfl
@[simp] theorem andNotReg_tick (o : Nat) (m : Word) : (andNotReg o m s).tick = s.tick := rfl
@[simp] theorem andNotReg_ra (o : Nat) (m : Word) : (andNotReg o m s).ra = s.ra := rfl
@[simp] theorem andNotReg_chans (o : Nat) (m : Word) : (andNotReg o m s).chans = s.chans := rfl
@[simp] theorem andNotReg_net (o : Nat) (m : Word) : (andNotReg o m s).net = s.net := rfl
@[simp] theorem andNotReg_paths (o : Nat) (m : Word) : (andNotReg o m s).paths = s.paths := rfl
@[simp] theorem andNotReg_queues (o : Nat) (m : Word) : (andNotReg o m s).queues = s.queues := rfl
@[simp] theorem andNotReg_pool (o : Nat) (m : Word) : (andNotReg o m s).pool = s.pool := rfl
@[simp] theorem andNotReg_eddies (o : Nat) (m : Word) : (andNotReg o m s).eddies = s.eddies := rfl
@[simp] theorem andNotReg_msix (o : Nat) (m : Word) : (andNotReg o m s).msix = s.msix := rfl
@[simp] theorem andNotReg_host (o : Nat) (m : Word) : (andNotReg o m s).host = s.host := rfl
@[simp] theorem andNotReg_rdata (o : Nat) (m : Word) : (andNotReg o m s).rdata = s.rdata := rfl
@[simp] theorem andNotReg_claims (o : Nat) (m : Word) : (andNotReg o m s).claims = s.claims := rfl
@[simp] theorem andNotReg_ldr (o : Nat) (m : Word) : (andNotReg o m s).ldr = s.ldr := rfl
@[simp] theorem andNotReg_nv (o : Nat) (m : Word) : (andNotReg o m s).nv = s.nv := rfl
@[simp] theorem andNotReg_mbx (o : Nat) (m : Word) : (andNotReg o m s).mbx = s.mbx := rfl
@[simp] theorem andNotReg_frz (o : Nat) (m : Word) : (andNotReg o m s).frz = s.frz := rfl
@[simp] theorem andNotReg_scr (o : Nat) (m : Word) : (andNotReg o m s).scr = s.scr := rfl
@[simp] theorem andNotReg_bg (o : Nat) (m : Word) : (andNotReg o m s).bg = s.bg := rfl
@[simp] theorem andNotReg_rep (o : Nat) (m : Word) : (andNotReg o m s).rep = s.rep := rfl
@[simp] theorem andNotReg_trc (o : Nat) (m : Word) : (andNotReg o m s).trc = s.trc := rfl
@[simp] theorem andNotReg_jtag (o : Nat) (m : Word) : (andNotReg o m s).jtag = s.jtag := rfl
@[simp] theorem andNotReg_smb (o : Nat) (m : Word) : (andNotReg o m s).smb = s.smb := rfl
@[simp] theorem andNotReg_pins (o : Nat) (m : Word) : (andNotReg o m s).pins = s.pins := rfl
@[simp] theorem andNotReg_free (o : Nat) (m : Word) : (andNotReg o m s).free = s.free := rfl

/-! setRegFld -/

@[simp] theorem setRegFld_pending (o lo len v : Nat) : (setRegFld o lo len v s).pending = s.pending := rfl
@[simp] theorem setRegFld_dev (o lo len v : Nat) : (setRegFld o lo len v s).dev = s.dev := rfl
@[simp] theorem setRegFld_fab (o lo len v : Nat) : (setRegFld o lo len v s).fab = s.fab := rfl
@[simp] theorem setRegFld_bm (o lo len v : Nat) : (setRegFld o lo len v s).bm = s.bm := rfl
@[simp] theorem setRegFld_tick (o lo len v : Nat) : (setRegFld o lo len v s).tick = s.tick := rfl
@[simp] theorem setRegFld_ra (o lo len v : Nat) : (setRegFld o lo len v s).ra = s.ra := rfl
@[simp] theorem setRegFld_chans (o lo len v : Nat) : (setRegFld o lo len v s).chans = s.chans := rfl
@[simp] theorem setRegFld_net (o lo len v : Nat) : (setRegFld o lo len v s).net = s.net := rfl
@[simp] theorem setRegFld_paths (o lo len v : Nat) : (setRegFld o lo len v s).paths = s.paths := rfl
@[simp] theorem setRegFld_queues (o lo len v : Nat) : (setRegFld o lo len v s).queues = s.queues := rfl
@[simp] theorem setRegFld_pool (o lo len v : Nat) : (setRegFld o lo len v s).pool = s.pool := rfl
@[simp] theorem setRegFld_eddies (o lo len v : Nat) : (setRegFld o lo len v s).eddies = s.eddies := rfl
@[simp] theorem setRegFld_msix (o lo len v : Nat) : (setRegFld o lo len v s).msix = s.msix := rfl
@[simp] theorem setRegFld_host (o lo len v : Nat) : (setRegFld o lo len v s).host = s.host := rfl
@[simp] theorem setRegFld_rdata (o lo len v : Nat) : (setRegFld o lo len v s).rdata = s.rdata := rfl
@[simp] theorem setRegFld_claims (o lo len v : Nat) : (setRegFld o lo len v s).claims = s.claims := rfl
@[simp] theorem setRegFld_ldr (o lo len v : Nat) : (setRegFld o lo len v s).ldr = s.ldr := rfl
@[simp] theorem setRegFld_nv (o lo len v : Nat) : (setRegFld o lo len v s).nv = s.nv := rfl
@[simp] theorem setRegFld_mbx (o lo len v : Nat) : (setRegFld o lo len v s).mbx = s.mbx := rfl
@[simp] theorem setRegFld_frz (o lo len v : Nat) : (setRegFld o lo len v s).frz = s.frz := rfl
@[simp] theorem setRegFld_scr (o lo len v : Nat) : (setRegFld o lo len v s).scr = s.scr := rfl
@[simp] theorem setRegFld_bg (o lo len v : Nat) : (setRegFld o lo len v s).bg = s.bg := rfl
@[simp] theorem setRegFld_rep (o lo len v : Nat) : (setRegFld o lo len v s).rep = s.rep := rfl
@[simp] theorem setRegFld_trc (o lo len v : Nat) : (setRegFld o lo len v s).trc = s.trc := rfl
@[simp] theorem setRegFld_jtag (o lo len v : Nat) : (setRegFld o lo len v s).jtag = s.jtag := rfl
@[simp] theorem setRegFld_smb (o lo len v : Nat) : (setRegFld o lo len v s).smb = s.smb := rfl
@[simp] theorem setRegFld_pins (o lo len v : Nat) : (setRegFld o lo len v s).pins = s.pins := rfl
@[simp] theorem setRegFld_free (o lo len v : Nat) : (setRegFld o lo len v s).free = s.free := rfl

/-! latchFirst -/

@[simp] theorem latchFirst_pending (o : Nat) (v : Word) : (latchFirst o v s).pending = s.pending := by unfold latchFirst; split <;> rfl
@[simp] theorem latchFirst_dev (o : Nat) (v : Word) : (latchFirst o v s).dev = s.dev := by unfold latchFirst; split <;> rfl
@[simp] theorem latchFirst_fab (o : Nat) (v : Word) : (latchFirst o v s).fab = s.fab := by unfold latchFirst; split <;> rfl
@[simp] theorem latchFirst_bm (o : Nat) (v : Word) : (latchFirst o v s).bm = s.bm := by unfold latchFirst; split <;> rfl
@[simp] theorem latchFirst_tick (o : Nat) (v : Word) : (latchFirst o v s).tick = s.tick := by unfold latchFirst; split <;> rfl
@[simp] theorem latchFirst_ra (o : Nat) (v : Word) : (latchFirst o v s).ra = s.ra := by unfold latchFirst; split <;> rfl
@[simp] theorem latchFirst_chans (o : Nat) (v : Word) : (latchFirst o v s).chans = s.chans := by unfold latchFirst; split <;> rfl
@[simp] theorem latchFirst_net (o : Nat) (v : Word) : (latchFirst o v s).net = s.net := by unfold latchFirst; split <;> rfl
@[simp] theorem latchFirst_paths (o : Nat) (v : Word) : (latchFirst o v s).paths = s.paths := by unfold latchFirst; split <;> rfl
@[simp] theorem latchFirst_queues (o : Nat) (v : Word) : (latchFirst o v s).queues = s.queues := by unfold latchFirst; split <;> rfl
@[simp] theorem latchFirst_pool (o : Nat) (v : Word) : (latchFirst o v s).pool = s.pool := by unfold latchFirst; split <;> rfl
@[simp] theorem latchFirst_eddies (o : Nat) (v : Word) : (latchFirst o v s).eddies = s.eddies := by unfold latchFirst; split <;> rfl
@[simp] theorem latchFirst_msix (o : Nat) (v : Word) : (latchFirst o v s).msix = s.msix := by unfold latchFirst; split <;> rfl
@[simp] theorem latchFirst_host (o : Nat) (v : Word) : (latchFirst o v s).host = s.host := by unfold latchFirst; split <;> rfl
@[simp] theorem latchFirst_rdata (o : Nat) (v : Word) : (latchFirst o v s).rdata = s.rdata := by unfold latchFirst; split <;> rfl
@[simp] theorem latchFirst_claims (o : Nat) (v : Word) : (latchFirst o v s).claims = s.claims := by unfold latchFirst; split <;> rfl
@[simp] theorem latchFirst_ldr (o : Nat) (v : Word) : (latchFirst o v s).ldr = s.ldr := by unfold latchFirst; split <;> rfl
@[simp] theorem latchFirst_nv (o : Nat) (v : Word) : (latchFirst o v s).nv = s.nv := by unfold latchFirst; split <;> rfl
@[simp] theorem latchFirst_mbx (o : Nat) (v : Word) : (latchFirst o v s).mbx = s.mbx := by unfold latchFirst; split <;> rfl
@[simp] theorem latchFirst_frz (o : Nat) (v : Word) : (latchFirst o v s).frz = s.frz := by unfold latchFirst; split <;> rfl
@[simp] theorem latchFirst_scr (o : Nat) (v : Word) : (latchFirst o v s).scr = s.scr := by unfold latchFirst; split <;> rfl
@[simp] theorem latchFirst_bg (o : Nat) (v : Word) : (latchFirst o v s).bg = s.bg := by unfold latchFirst; split <;> rfl
@[simp] theorem latchFirst_rep (o : Nat) (v : Word) : (latchFirst o v s).rep = s.rep := by unfold latchFirst; split <;> rfl
@[simp] theorem latchFirst_trc (o : Nat) (v : Word) : (latchFirst o v s).trc = s.trc := by unfold latchFirst; split <;> rfl
@[simp] theorem latchFirst_jtag (o : Nat) (v : Word) : (latchFirst o v s).jtag = s.jtag := by unfold latchFirst; split <;> rfl
@[simp] theorem latchFirst_smb (o : Nat) (v : Word) : (latchFirst o v s).smb = s.smb := by unfold latchFirst; split <;> rfl
@[simp] theorem latchFirst_pins (o : Nat) (v : Word) : (latchFirst o v s).pins = s.pins := by unfold latchFirst; split <;> rfl
@[simp] theorem latchFirst_free (o : Nat) (v : Word) : (latchFirst o v s).free = s.free := by unfold latchFirst; split <;> rfl

/-! drawFree -/

@[simp] theorem drawFree_pending : (drawFree s).pending = s.pending := rfl
@[simp] theorem drawFree_regs : (drawFree s).regs = s.regs := rfl
@[simp] theorem drawFree_dev : (drawFree s).dev = s.dev := rfl
@[simp] theorem drawFree_fab : (drawFree s).fab = s.fab := rfl
@[simp] theorem drawFree_bm : (drawFree s).bm = s.bm := rfl
@[simp] theorem drawFree_tick : (drawFree s).tick = s.tick := rfl
@[simp] theorem drawFree_ra : (drawFree s).ra = s.ra := rfl
@[simp] theorem drawFree_chans : (drawFree s).chans = s.chans := rfl
@[simp] theorem drawFree_net : (drawFree s).net = s.net := rfl
@[simp] theorem drawFree_paths : (drawFree s).paths = s.paths := rfl
@[simp] theorem drawFree_queues : (drawFree s).queues = s.queues := rfl
@[simp] theorem drawFree_pool : (drawFree s).pool = s.pool := rfl
@[simp] theorem drawFree_eddies : (drawFree s).eddies = s.eddies := rfl
@[simp] theorem drawFree_msix : (drawFree s).msix = s.msix := rfl
@[simp] theorem drawFree_host : (drawFree s).host = s.host := rfl
@[simp] theorem drawFree_rdata : (drawFree s).rdata = s.rdata := rfl
@[simp] theorem drawFree_claims : (drawFree s).claims = s.claims := rfl
@[simp] theorem drawFree_ldr : (drawFree s).ldr = s.ldr := rfl
@[simp] theorem drawFree_nv : (drawFree s).nv = s.nv := rfl
@[simp] theorem drawFree_mbx : (drawFree s).mbx = s.mbx := rfl
@[simp] theorem drawFree_frz : (drawFree s).frz = s.frz := rfl
@[simp] theorem drawFree_scr : (drawFree s).scr = s.scr := rfl
@[simp] theorem drawFree_bg : (drawFree s).bg = s.bg := rfl
@[simp] theorem drawFree_rep : (drawFree s).rep = s.rep := rfl
@[simp] theorem drawFree_trc : (drawFree s).trc = s.trc := rfl
@[simp] theorem drawFree_jtag : (drawFree s).jtag = s.jtag := rfl
@[simp] theorem drawFree_smb : (drawFree s).smb = s.smb := rfl
@[simp] theorem drawFree_pins : (drawFree s).pins = s.pins := rfl
@[simp] theorem getReg_drawFree (r : Nat) : getReg (drawFree s) r = getReg s r := by simp [getReg]

/-! raiseVec -/

@[simp] theorem raiseVec_pending (v : Nat) : (raiseVec v s).pending = s.pending := by unfold raiseVec; split <;> rfl
@[simp] theorem raiseVec_regs (v : Nat) : (raiseVec v s).regs = s.regs := by unfold raiseVec; split <;> rfl
@[simp] theorem raiseVec_dev (v : Nat) : (raiseVec v s).dev = s.dev := by unfold raiseVec; split <;> rfl
@[simp] theorem raiseVec_fab (v : Nat) : (raiseVec v s).fab = s.fab := by unfold raiseVec; split <;> rfl
@[simp] theorem raiseVec_bm (v : Nat) : (raiseVec v s).bm = s.bm := by unfold raiseVec; split <;> rfl
@[simp] theorem raiseVec_tick (v : Nat) : (raiseVec v s).tick = s.tick := by unfold raiseVec; split <;> rfl
@[simp] theorem raiseVec_ra (v : Nat) : (raiseVec v s).ra = s.ra := by unfold raiseVec; split <;> rfl
@[simp] theorem raiseVec_chans (v : Nat) : (raiseVec v s).chans = s.chans := by unfold raiseVec; split <;> rfl
@[simp] theorem raiseVec_net (v : Nat) : (raiseVec v s).net = s.net := by unfold raiseVec; split <;> rfl
@[simp] theorem raiseVec_paths (v : Nat) : (raiseVec v s).paths = s.paths := by unfold raiseVec; split <;> rfl
@[simp] theorem raiseVec_queues (v : Nat) : (raiseVec v s).queues = s.queues := by unfold raiseVec; split <;> rfl
@[simp] theorem raiseVec_pool (v : Nat) : (raiseVec v s).pool = s.pool := by unfold raiseVec; split <;> rfl
@[simp] theorem raiseVec_eddies (v : Nat) : (raiseVec v s).eddies = s.eddies := by unfold raiseVec; split <;> rfl
@[simp] theorem raiseVec_host (v : Nat) : (raiseVec v s).host = s.host := by unfold raiseVec; split <;> rfl
@[simp] theorem raiseVec_rdata (v : Nat) : (raiseVec v s).rdata = s.rdata := by unfold raiseVec; split <;> rfl
@[simp] theorem raiseVec_claims (v : Nat) : (raiseVec v s).claims = s.claims := by unfold raiseVec; split <;> rfl
@[simp] theorem raiseVec_ldr (v : Nat) : (raiseVec v s).ldr = s.ldr := by unfold raiseVec; split <;> rfl
@[simp] theorem raiseVec_nv (v : Nat) : (raiseVec v s).nv = s.nv := by unfold raiseVec; split <;> rfl
@[simp] theorem raiseVec_mbx (v : Nat) : (raiseVec v s).mbx = s.mbx := by unfold raiseVec; split <;> rfl
@[simp] theorem raiseVec_frz (v : Nat) : (raiseVec v s).frz = s.frz := by unfold raiseVec; split <;> rfl
@[simp] theorem raiseVec_scr (v : Nat) : (raiseVec v s).scr = s.scr := by unfold raiseVec; split <;> rfl
@[simp] theorem raiseVec_bg (v : Nat) : (raiseVec v s).bg = s.bg := by unfold raiseVec; split <;> rfl
@[simp] theorem raiseVec_rep (v : Nat) : (raiseVec v s).rep = s.rep := by unfold raiseVec; split <;> rfl
@[simp] theorem raiseVec_trc (v : Nat) : (raiseVec v s).trc = s.trc := by unfold raiseVec; split <;> rfl
@[simp] theorem raiseVec_jtag (v : Nat) : (raiseVec v s).jtag = s.jtag := by unfold raiseVec; split <;> rfl
@[simp] theorem raiseVec_smb (v : Nat) : (raiseVec v s).smb = s.smb := by unfold raiseVec; split <;> rfl
@[simp] theorem raiseVec_pins (v : Nat) : (raiseVec v s).pins = s.pins := by unfold raiseVec; split <;> rfl
@[simp] theorem raiseVec_free (v : Nat) : (raiseVec v s).free = s.free := by unfold raiseVec; split <;> rfl
@[simp] theorem getReg_raiseVec (r : Nat) (v : Nat) : getReg (raiseVec v s) r = getReg s r := by simp [getReg]

/-! devEvent -/

@[simp] theorem devEvent_pending (b : Nat) : (devEvent b s).pending = s.pending := by unfold devEvent; dsimp only; split <;> simp
@[simp] theorem devEvent_dev (b : Nat) : (devEvent b s).dev = s.dev := by unfold devEvent; dsimp only; split <;> simp
@[simp] theorem devEvent_fab (b : Nat) : (devEvent b s).fab = s.fab := by unfold devEvent; dsimp only; split <;> simp
@[simp] theorem devEvent_bm (b : Nat) : (devEvent b s).bm = s.bm := by unfold devEvent; dsimp only; split <;> simp
@[simp] theorem devEvent_tick (b : Nat) : (devEvent b s).tick = s.tick := by unfold devEvent; dsimp only; split <;> simp
@[simp] theorem devEvent_ra (b : Nat) : (devEvent b s).ra = s.ra := by unfold devEvent; dsimp only; split <;> simp
@[simp] theorem devEvent_chans (b : Nat) : (devEvent b s).chans = s.chans := by unfold devEvent; dsimp only; split <;> simp
@[simp] theorem devEvent_net (b : Nat) : (devEvent b s).net = s.net := by unfold devEvent; dsimp only; split <;> simp
@[simp] theorem devEvent_paths (b : Nat) : (devEvent b s).paths = s.paths := by unfold devEvent; dsimp only; split <;> simp
@[simp] theorem devEvent_queues (b : Nat) : (devEvent b s).queues = s.queues := by unfold devEvent; dsimp only; split <;> simp
@[simp] theorem devEvent_pool (b : Nat) : (devEvent b s).pool = s.pool := by unfold devEvent; dsimp only; split <;> simp
@[simp] theorem devEvent_eddies (b : Nat) : (devEvent b s).eddies = s.eddies := by unfold devEvent; dsimp only; split <;> simp
@[simp] theorem devEvent_host (b : Nat) : (devEvent b s).host = s.host := by unfold devEvent; dsimp only; split <;> simp
@[simp] theorem devEvent_rdata (b : Nat) : (devEvent b s).rdata = s.rdata := by unfold devEvent; dsimp only; split <;> simp
@[simp] theorem devEvent_claims (b : Nat) : (devEvent b s).claims = s.claims := by unfold devEvent; dsimp only; split <;> simp
@[simp] theorem devEvent_ldr (b : Nat) : (devEvent b s).ldr = s.ldr := by unfold devEvent; dsimp only; split <;> simp
@[simp] theorem devEvent_nv (b : Nat) : (devEvent b s).nv = s.nv := by unfold devEvent; dsimp only; split <;> simp
@[simp] theorem devEvent_mbx (b : Nat) : (devEvent b s).mbx = s.mbx := by unfold devEvent; dsimp only; split <;> simp
@[simp] theorem devEvent_frz (b : Nat) : (devEvent b s).frz = s.frz := by unfold devEvent; dsimp only; split <;> simp
@[simp] theorem devEvent_scr (b : Nat) : (devEvent b s).scr = s.scr := by unfold devEvent; dsimp only; split <;> simp
@[simp] theorem devEvent_bg (b : Nat) : (devEvent b s).bg = s.bg := by unfold devEvent; dsimp only; split <;> simp
@[simp] theorem devEvent_rep (b : Nat) : (devEvent b s).rep = s.rep := by unfold devEvent; dsimp only; split <;> simp
@[simp] theorem devEvent_trc (b : Nat) : (devEvent b s).trc = s.trc := by unfold devEvent; dsimp only; split <;> simp
@[simp] theorem devEvent_jtag (b : Nat) : (devEvent b s).jtag = s.jtag := by unfold devEvent; dsimp only; split <;> simp
@[simp] theorem devEvent_smb (b : Nat) : (devEvent b s).smb = s.smb := by unfold devEvent; dsimp only; split <;> simp
@[simp] theorem devEvent_pins (b : Nat) : (devEvent b s).pins = s.pins := by unfold devEvent; dsimp only; split <;> simp
@[simp] theorem devEvent_free (b : Nat) : (devEvent b s).free = s.free := by unfold devEvent; dsimp only; split <;> simp

/-! devGo -/

@[simp] theorem devGo_pending (st : DevState) (c : Nat) : (devGo st c s).pending = s.pending := by unfold devGo; dsimp only; split <;> simp
@[simp] theorem devGo_fab (st : DevState) (c : Nat) : (devGo st c s).fab = s.fab := by unfold devGo; dsimp only; split <;> simp
@[simp] theorem devGo_bm (st : DevState) (c : Nat) : (devGo st c s).bm = s.bm := by unfold devGo; dsimp only; split <;> simp
@[simp] theorem devGo_tick (st : DevState) (c : Nat) : (devGo st c s).tick = s.tick := by unfold devGo; dsimp only; split <;> simp
@[simp] theorem devGo_ra (st : DevState) (c : Nat) : (devGo st c s).ra = s.ra := by unfold devGo; dsimp only; split <;> simp
@[simp] theorem devGo_chans (st : DevState) (c : Nat) : (devGo st c s).chans = s.chans := by unfold devGo; dsimp only; split <;> simp
@[simp] theorem devGo_net (st : DevState) (c : Nat) : (devGo st c s).net = s.net := by unfold devGo; dsimp only; split <;> simp
@[simp] theorem devGo_paths (st : DevState) (c : Nat) : (devGo st c s).paths = s.paths := by unfold devGo; dsimp only; split <;> simp
@[simp] theorem devGo_queues (st : DevState) (c : Nat) : (devGo st c s).queues = s.queues := by unfold devGo; dsimp only; split <;> simp
@[simp] theorem devGo_pool (st : DevState) (c : Nat) : (devGo st c s).pool = s.pool := by unfold devGo; dsimp only; split <;> simp
@[simp] theorem devGo_eddies (st : DevState) (c : Nat) : (devGo st c s).eddies = s.eddies := by unfold devGo; dsimp only; split <;> simp
@[simp] theorem devGo_msix (st : DevState) (c : Nat) : (devGo st c s).msix = s.msix := by unfold devGo; dsimp only; split <;> simp
@[simp] theorem devGo_host (st : DevState) (c : Nat) : (devGo st c s).host = s.host := by unfold devGo; dsimp only; split <;> simp
@[simp] theorem devGo_rdata (st : DevState) (c : Nat) : (devGo st c s).rdata = s.rdata := by unfold devGo; dsimp only; split <;> simp
@[simp] theorem devGo_claims (st : DevState) (c : Nat) : (devGo st c s).claims = s.claims := by unfold devGo; dsimp only; split <;> simp
@[simp] theorem devGo_ldr (st : DevState) (c : Nat) : (devGo st c s).ldr = s.ldr := by unfold devGo; dsimp only; split <;> simp
@[simp] theorem devGo_nv (st : DevState) (c : Nat) : (devGo st c s).nv = s.nv := by unfold devGo; dsimp only; split <;> simp
@[simp] theorem devGo_mbx (st : DevState) (c : Nat) : (devGo st c s).mbx = s.mbx := by unfold devGo; dsimp only; split <;> simp
@[simp] theorem devGo_frz (st : DevState) (c : Nat) : (devGo st c s).frz = s.frz := by unfold devGo; dsimp only; split <;> simp
@[simp] theorem devGo_scr (st : DevState) (c : Nat) : (devGo st c s).scr = s.scr := by unfold devGo; dsimp only; split <;> simp
@[simp] theorem devGo_bg (st : DevState) (c : Nat) : (devGo st c s).bg = s.bg := by unfold devGo; dsimp only; split <;> simp
@[simp] theorem devGo_rep (st : DevState) (c : Nat) : (devGo st c s).rep = s.rep := by unfold devGo; dsimp only; split <;> simp
@[simp] theorem devGo_trc (st : DevState) (c : Nat) : (devGo st c s).trc = s.trc := by unfold devGo; dsimp only; split <;> simp
@[simp] theorem devGo_jtag (st : DevState) (c : Nat) : (devGo st c s).jtag = s.jtag := by unfold devGo; dsimp only; split <;> simp
@[simp] theorem devGo_smb (st : DevState) (c : Nat) : (devGo st c s).smb = s.smb := by unfold devGo; dsimp only; split <;> simp
@[simp] theorem devGo_pins (st : DevState) (c : Nat) : (devGo st c s).pins = s.pins := by unfold devGo; dsimp only; split <;> simp
@[simp] theorem devGo_free (st : DevState) (c : Nat) : (devGo st c s).free = s.free := by unfold devGo; dsimp only; split <;> simp

/-! setCause -/

@[simp] theorem setCause_pending (c : Nat) (b : Bool) : (setCause c b s).pending = s.pending := rfl
@[simp] theorem setCause_dev (c : Nat) (b : Bool) : (setCause c b s).dev = s.dev := rfl
@[simp] theorem setCause_fab (c : Nat) (b : Bool) : (setCause c b s).fab = s.fab := rfl
@[simp] theorem setCause_bm (c : Nat) (b : Bool) : (setCause c b s).bm = s.bm := rfl
@[simp] theorem setCause_tick (c : Nat) (b : Bool) : (setCause c b s).tick = s.tick := rfl
@[simp] theorem setCause_ra (c : Nat) (b : Bool) : (setCause c b s).ra = s.ra := rfl
@[simp] theorem setCause_chans (c : Nat) (b : Bool) : (setCause c b s).chans = s.chans := rfl
@[simp] theorem setCause_net (c : Nat) (b : Bool) : (setCause c b s).net = s.net := rfl
@[simp] theorem setCause_paths (c : Nat) (b : Bool) : (setCause c b s).paths = s.paths := rfl
@[simp] theorem setCause_queues (c : Nat) (b : Bool) : (setCause c b s).queues = s.queues := rfl
@[simp] theorem setCause_pool (c : Nat) (b : Bool) : (setCause c b s).pool = s.pool := rfl
@[simp] theorem setCause_eddies (c : Nat) (b : Bool) : (setCause c b s).eddies = s.eddies := rfl
@[simp] theorem setCause_msix (c : Nat) (b : Bool) : (setCause c b s).msix = s.msix := rfl
@[simp] theorem setCause_host (c : Nat) (b : Bool) : (setCause c b s).host = s.host := rfl
@[simp] theorem setCause_rdata (c : Nat) (b : Bool) : (setCause c b s).rdata = s.rdata := rfl
@[simp] theorem setCause_claims (c : Nat) (b : Bool) : (setCause c b s).claims = s.claims := rfl
@[simp] theorem setCause_ldr (c : Nat) (b : Bool) : (setCause c b s).ldr = s.ldr := rfl
@[simp] theorem setCause_nv (c : Nat) (b : Bool) : (setCause c b s).nv = s.nv := rfl
@[simp] theorem setCause_mbx (c : Nat) (b : Bool) : (setCause c b s).mbx = s.mbx := rfl
@[simp] theorem setCause_frz (c : Nat) (b : Bool) : (setCause c b s).frz = s.frz := rfl
@[simp] theorem setCause_scr (c : Nat) (b : Bool) : (setCause c b s).scr = s.scr := rfl
@[simp] theorem setCause_bg (c : Nat) (b : Bool) : (setCause c b s).bg = s.bg := rfl
@[simp] theorem setCause_rep (c : Nat) (b : Bool) : (setCause c b s).rep = s.rep := rfl
@[simp] theorem setCause_trc (c : Nat) (b : Bool) : (setCause c b s).trc = s.trc := rfl
@[simp] theorem setCause_jtag (c : Nat) (b : Bool) : (setCause c b s).jtag = s.jtag := rfl
@[simp] theorem setCause_smb (c : Nat) (b : Bool) : (setCause c b s).smb = s.smb := rfl
@[simp] theorem setCause_pins (c : Nat) (b : Bool) : (setCause c b s).pins = s.pins := rfl
@[simp] theorem setCause_free (c : Nat) (b : Bool) : (setCause c b s).free = s.free := rfl

/-! enterHalt -/

@[simp] theorem enterHalt_pending (c : Nat) (b : Bool) : (enterHalt c b s).pending = s.pending := rfl
@[simp] theorem enterHalt_dev (c : Nat) (b : Bool) : (enterHalt c b s).dev = s.dev := rfl
@[simp] theorem enterHalt_fab (c : Nat) (b : Bool) : (enterHalt c b s).fab = s.fab := rfl
@[simp] theorem enterHalt_bm (c : Nat) (b : Bool) : (enterHalt c b s).bm = s.bm := rfl
@[simp] theorem enterHalt_ra (c : Nat) (b : Bool) : (enterHalt c b s).ra = s.ra := rfl
@[simp] theorem enterHalt_chans (c : Nat) (b : Bool) : (enterHalt c b s).chans = s.chans := rfl
@[simp] theorem enterHalt_net (c : Nat) (b : Bool) : (enterHalt c b s).net = s.net := rfl
@[simp] theorem enterHalt_paths (c : Nat) (b : Bool) : (enterHalt c b s).paths = s.paths := rfl
@[simp] theorem enterHalt_queues (c : Nat) (b : Bool) : (enterHalt c b s).queues = s.queues := rfl
@[simp] theorem enterHalt_pool (c : Nat) (b : Bool) : (enterHalt c b s).pool = s.pool := rfl
@[simp] theorem enterHalt_eddies (c : Nat) (b : Bool) : (enterHalt c b s).eddies = s.eddies := rfl
@[simp] theorem enterHalt_msix (c : Nat) (b : Bool) : (enterHalt c b s).msix = s.msix := rfl
@[simp] theorem enterHalt_host (c : Nat) (b : Bool) : (enterHalt c b s).host = s.host := rfl
@[simp] theorem enterHalt_rdata (c : Nat) (b : Bool) : (enterHalt c b s).rdata = s.rdata := rfl
@[simp] theorem enterHalt_claims (c : Nat) (b : Bool) : (enterHalt c b s).claims = s.claims := rfl
@[simp] theorem enterHalt_ldr (c : Nat) (b : Bool) : (enterHalt c b s).ldr = s.ldr := rfl
@[simp] theorem enterHalt_nv (c : Nat) (b : Bool) : (enterHalt c b s).nv = s.nv := rfl
@[simp] theorem enterHalt_mbx (c : Nat) (b : Bool) : (enterHalt c b s).mbx = s.mbx := rfl
@[simp] theorem enterHalt_frz (c : Nat) (b : Bool) : (enterHalt c b s).frz = s.frz := rfl
@[simp] theorem enterHalt_scr (c : Nat) (b : Bool) : (enterHalt c b s).scr = s.scr := rfl
@[simp] theorem enterHalt_bg (c : Nat) (b : Bool) : (enterHalt c b s).bg = s.bg := rfl
@[simp] theorem enterHalt_rep (c : Nat) (b : Bool) : (enterHalt c b s).rep = s.rep := rfl
@[simp] theorem enterHalt_trc (c : Nat) (b : Bool) : (enterHalt c b s).trc = s.trc := rfl
@[simp] theorem enterHalt_jtag (c : Nat) (b : Bool) : (enterHalt c b s).jtag = s.jtag := rfl
@[simp] theorem enterHalt_smb (c : Nat) (b : Bool) : (enterHalt c b s).smb = s.smb := rfl
@[simp] theorem enterHalt_pins (c : Nat) (b : Bool) : (enterHalt c b s).pins = s.pins := rfl
@[simp] theorem enterHalt_free (c : Nat) (b : Bool) : (enterHalt c b s).free = s.free := rfl

/-! setEddy -/

@[simp] theorem setEddy_pending (e : Nat) (x : Eddy) : (setEddy e x s).pending = s.pending := rfl
@[simp] theorem setEddy_regs (e : Nat) (x : Eddy) : (setEddy e x s).regs = s.regs := rfl
@[simp] theorem setEddy_dev (e : Nat) (x : Eddy) : (setEddy e x s).dev = s.dev := rfl
@[simp] theorem setEddy_fab (e : Nat) (x : Eddy) : (setEddy e x s).fab = s.fab := rfl
@[simp] theorem setEddy_bm (e : Nat) (x : Eddy) : (setEddy e x s).bm = s.bm := rfl
@[simp] theorem setEddy_tick (e : Nat) (x : Eddy) : (setEddy e x s).tick = s.tick := rfl
@[simp] theorem setEddy_ra (e : Nat) (x : Eddy) : (setEddy e x s).ra = s.ra := rfl
@[simp] theorem setEddy_chans (e : Nat) (x : Eddy) : (setEddy e x s).chans = s.chans := rfl
@[simp] theorem setEddy_net (e : Nat) (x : Eddy) : (setEddy e x s).net = s.net := rfl
@[simp] theorem setEddy_paths (e : Nat) (x : Eddy) : (setEddy e x s).paths = s.paths := rfl
@[simp] theorem setEddy_queues (e : Nat) (x : Eddy) : (setEddy e x s).queues = s.queues := rfl
@[simp] theorem setEddy_pool (e : Nat) (x : Eddy) : (setEddy e x s).pool = s.pool := rfl
@[simp] theorem setEddy_msix (e : Nat) (x : Eddy) : (setEddy e x s).msix = s.msix := rfl
@[simp] theorem setEddy_host (e : Nat) (x : Eddy) : (setEddy e x s).host = s.host := rfl
@[simp] theorem setEddy_rdata (e : Nat) (x : Eddy) : (setEddy e x s).rdata = s.rdata := rfl
@[simp] theorem setEddy_claims (e : Nat) (x : Eddy) : (setEddy e x s).claims = s.claims := rfl
@[simp] theorem setEddy_ldr (e : Nat) (x : Eddy) : (setEddy e x s).ldr = s.ldr := rfl
@[simp] theorem setEddy_nv (e : Nat) (x : Eddy) : (setEddy e x s).nv = s.nv := rfl
@[simp] theorem setEddy_mbx (e : Nat) (x : Eddy) : (setEddy e x s).mbx = s.mbx := rfl
@[simp] theorem setEddy_frz (e : Nat) (x : Eddy) : (setEddy e x s).frz = s.frz := rfl
@[simp] theorem setEddy_scr (e : Nat) (x : Eddy) : (setEddy e x s).scr = s.scr := rfl
@[simp] theorem setEddy_bg (e : Nat) (x : Eddy) : (setEddy e x s).bg = s.bg := rfl
@[simp] theorem setEddy_rep (e : Nat) (x : Eddy) : (setEddy e x s).rep = s.rep := rfl
@[simp] theorem setEddy_trc (e : Nat) (x : Eddy) : (setEddy e x s).trc = s.trc := rfl
@[simp] theorem setEddy_jtag (e : Nat) (x : Eddy) : (setEddy e x s).jtag = s.jtag := rfl
@[simp] theorem setEddy_smb (e : Nat) (x : Eddy) : (setEddy e x s).smb = s.smb := rfl
@[simp] theorem setEddy_pins (e : Nat) (x : Eddy) : (setEddy e x s).pins = s.pins := rfl
@[simp] theorem setEddy_free (e : Nat) (x : Eddy) : (setEddy e x s).free = s.free := rfl
@[simp] theorem getReg_setEddy (r : Nat) (e : Nat) (x : Eddy) : getReg (setEddy e x s) r = getReg s r := by simp [getReg]

/-! latchIrq -/

@[simp] theorem latchIrq_pending (e n : Nat) : (latchIrq e n s).pending = s.pending := rfl
@[simp] theorem latchIrq_regs (e n : Nat) : (latchIrq e n s).regs = s.regs := rfl
@[simp] theorem latchIrq_dev (e n : Nat) : (latchIrq e n s).dev = s.dev := rfl
@[simp] theorem latchIrq_fab (e n : Nat) : (latchIrq e n s).fab = s.fab := rfl
@[simp] theorem latchIrq_bm (e n : Nat) : (latchIrq e n s).bm = s.bm := rfl
@[simp] theorem latchIrq_tick (e n : Nat) : (latchIrq e n s).tick = s.tick := rfl
@[simp] theorem latchIrq_ra (e n : Nat) : (latchIrq e n s).ra = s.ra := rfl
@[simp] theorem latchIrq_chans (e n : Nat) : (latchIrq e n s).chans = s.chans := rfl
@[simp] theorem latchIrq_net (e n : Nat) : (latchIrq e n s).net = s.net := rfl
@[simp] theorem latchIrq_paths (e n : Nat) : (latchIrq e n s).paths = s.paths := rfl
@[simp] theorem latchIrq_queues (e n : Nat) : (latchIrq e n s).queues = s.queues := rfl
@[simp] theorem latchIrq_pool (e n : Nat) : (latchIrq e n s).pool = s.pool := rfl
@[simp] theorem latchIrq_msix (e n : Nat) : (latchIrq e n s).msix = s.msix := rfl
@[simp] theorem latchIrq_host (e n : Nat) : (latchIrq e n s).host = s.host := rfl
@[simp] theorem latchIrq_rdata (e n : Nat) : (latchIrq e n s).rdata = s.rdata := rfl
@[simp] theorem latchIrq_claims (e n : Nat) : (latchIrq e n s).claims = s.claims := rfl
@[simp] theorem latchIrq_ldr (e n : Nat) : (latchIrq e n s).ldr = s.ldr := rfl
@[simp] theorem latchIrq_nv (e n : Nat) : (latchIrq e n s).nv = s.nv := rfl
@[simp] theorem latchIrq_mbx (e n : Nat) : (latchIrq e n s).mbx = s.mbx := rfl
@[simp] theorem latchIrq_frz (e n : Nat) : (latchIrq e n s).frz = s.frz := rfl
@[simp] theorem latchIrq_scr (e n : Nat) : (latchIrq e n s).scr = s.scr := rfl
@[simp] theorem latchIrq_bg (e n : Nat) : (latchIrq e n s).bg = s.bg := rfl
@[simp] theorem latchIrq_rep (e n : Nat) : (latchIrq e n s).rep = s.rep := rfl
@[simp] theorem latchIrq_trc (e n : Nat) : (latchIrq e n s).trc = s.trc := rfl
@[simp] theorem latchIrq_jtag (e n : Nat) : (latchIrq e n s).jtag = s.jtag := rfl
@[simp] theorem latchIrq_smb (e n : Nat) : (latchIrq e n s).smb = s.smb := rfl
@[simp] theorem latchIrq_pins (e n : Nat) : (latchIrq e n s).pins = s.pins := rfl
@[simp] theorem latchIrq_free (e n : Nat) : (latchIrq e n s).free = s.free := rfl
@[simp] theorem getReg_latchIrq (r : Nat) (e n : Nat) : getReg (latchIrq e n s) r = getReg s r := by simp [getReg]

/-! setTile -/

@[simp] theorem setTile_pending (t : Nat) (x : Tile) : (setTile t x s).pending = s.pending := rfl
@[simp] theorem setTile_regs (t : Nat) (x : Tile) : (setTile t x s).regs = s.regs := rfl
@[simp] theorem setTile_dev (t : Nat) (x : Tile) : (setTile t x s).dev = s.dev := rfl
@[simp] theorem setTile_bm (t : Nat) (x : Tile) : (setTile t x s).bm = s.bm := rfl
@[simp] theorem setTile_tick (t : Nat) (x : Tile) : (setTile t x s).tick = s.tick := rfl
@[simp] theorem setTile_ra (t : Nat) (x : Tile) : (setTile t x s).ra = s.ra := rfl
@[simp] theorem setTile_chans (t : Nat) (x : Tile) : (setTile t x s).chans = s.chans := rfl
@[simp] theorem setTile_net (t : Nat) (x : Tile) : (setTile t x s).net = s.net := rfl
@[simp] theorem setTile_paths (t : Nat) (x : Tile) : (setTile t x s).paths = s.paths := rfl
@[simp] theorem setTile_queues (t : Nat) (x : Tile) : (setTile t x s).queues = s.queues := rfl
@[simp] theorem setTile_pool (t : Nat) (x : Tile) : (setTile t x s).pool = s.pool := rfl
@[simp] theorem setTile_eddies (t : Nat) (x : Tile) : (setTile t x s).eddies = s.eddies := rfl
@[simp] theorem setTile_msix (t : Nat) (x : Tile) : (setTile t x s).msix = s.msix := rfl
@[simp] theorem setTile_host (t : Nat) (x : Tile) : (setTile t x s).host = s.host := rfl
@[simp] theorem setTile_rdata (t : Nat) (x : Tile) : (setTile t x s).rdata = s.rdata := rfl
@[simp] theorem setTile_claims (t : Nat) (x : Tile) : (setTile t x s).claims = s.claims := rfl
@[simp] theorem setTile_ldr (t : Nat) (x : Tile) : (setTile t x s).ldr = s.ldr := rfl
@[simp] theorem setTile_nv (t : Nat) (x : Tile) : (setTile t x s).nv = s.nv := rfl
@[simp] theorem setTile_mbx (t : Nat) (x : Tile) : (setTile t x s).mbx = s.mbx := rfl
@[simp] theorem setTile_frz (t : Nat) (x : Tile) : (setTile t x s).frz = s.frz := rfl
@[simp] theorem setTile_scr (t : Nat) (x : Tile) : (setTile t x s).scr = s.scr := rfl
@[simp] theorem setTile_bg (t : Nat) (x : Tile) : (setTile t x s).bg = s.bg := rfl
@[simp] theorem setTile_rep (t : Nat) (x : Tile) : (setTile t x s).rep = s.rep := rfl
@[simp] theorem setTile_trc (t : Nat) (x : Tile) : (setTile t x s).trc = s.trc := rfl
@[simp] theorem setTile_jtag (t : Nat) (x : Tile) : (setTile t x s).jtag = s.jtag := rfl
@[simp] theorem setTile_smb (t : Nat) (x : Tile) : (setTile t x s).smb = s.smb := rfl
@[simp] theorem setTile_pins (t : Nat) (x : Tile) : (setTile t x s).pins = s.pins := rfl
@[simp] theorem setTile_free (t : Nat) (x : Tile) : (setTile t x s).free = s.free := rfl
@[simp] theorem getReg_setTile (r : Nat) (t : Nat) (x : Tile) : getReg (setTile t x s) r = getReg s r := by simp [getReg]

/-! setBlock -/

@[simp] theorem setBlock_pending (m : Nat) (x : Block) : (setBlock m x s).pending = s.pending := rfl
@[simp] theorem setBlock_regs (m : Nat) (x : Block) : (setBlock m x s).regs = s.regs := rfl
@[simp] theorem setBlock_dev (m : Nat) (x : Block) : (setBlock m x s).dev = s.dev := rfl
@[simp] theorem setBlock_fab (m : Nat) (x : Block) : (setBlock m x s).fab = s.fab := rfl
@[simp] theorem setBlock_tick (m : Nat) (x : Block) : (setBlock m x s).tick = s.tick := rfl
@[simp] theorem setBlock_ra (m : Nat) (x : Block) : (setBlock m x s).ra = s.ra := rfl
@[simp] theorem setBlock_chans (m : Nat) (x : Block) : (setBlock m x s).chans = s.chans := rfl
@[simp] theorem setBlock_net (m : Nat) (x : Block) : (setBlock m x s).net = s.net := rfl
@[simp] theorem setBlock_paths (m : Nat) (x : Block) : (setBlock m x s).paths = s.paths := rfl
@[simp] theorem setBlock_queues (m : Nat) (x : Block) : (setBlock m x s).queues = s.queues := rfl
@[simp] theorem setBlock_pool (m : Nat) (x : Block) : (setBlock m x s).pool = s.pool := rfl
@[simp] theorem setBlock_eddies (m : Nat) (x : Block) : (setBlock m x s).eddies = s.eddies := rfl
@[simp] theorem setBlock_msix (m : Nat) (x : Block) : (setBlock m x s).msix = s.msix := rfl
@[simp] theorem setBlock_host (m : Nat) (x : Block) : (setBlock m x s).host = s.host := rfl
@[simp] theorem setBlock_rdata (m : Nat) (x : Block) : (setBlock m x s).rdata = s.rdata := rfl
@[simp] theorem setBlock_claims (m : Nat) (x : Block) : (setBlock m x s).claims = s.claims := rfl
@[simp] theorem setBlock_ldr (m : Nat) (x : Block) : (setBlock m x s).ldr = s.ldr := rfl
@[simp] theorem setBlock_nv (m : Nat) (x : Block) : (setBlock m x s).nv = s.nv := rfl
@[simp] theorem setBlock_mbx (m : Nat) (x : Block) : (setBlock m x s).mbx = s.mbx := rfl
@[simp] theorem setBlock_frz (m : Nat) (x : Block) : (setBlock m x s).frz = s.frz := rfl
@[simp] theorem setBlock_scr (m : Nat) (x : Block) : (setBlock m x s).scr = s.scr := rfl
@[simp] theorem setBlock_bg (m : Nat) (x : Block) : (setBlock m x s).bg = s.bg := rfl
@[simp] theorem setBlock_rep (m : Nat) (x : Block) : (setBlock m x s).rep = s.rep := rfl
@[simp] theorem setBlock_trc (m : Nat) (x : Block) : (setBlock m x s).trc = s.trc := rfl
@[simp] theorem setBlock_jtag (m : Nat) (x : Block) : (setBlock m x s).jtag = s.jtag := rfl
@[simp] theorem setBlock_smb (m : Nat) (x : Block) : (setBlock m x s).smb = s.smb := rfl
@[simp] theorem setBlock_pins (m : Nat) (x : Block) : (setBlock m x s).pins = s.pins := rfl
@[simp] theorem setBlock_free (m : Nat) (x : Block) : (setBlock m x s).free = s.free := rfl
@[simp] theorem getReg_setBlock (r : Nat) (m : Nat) (x : Block) : getReg (setBlock m x s) r = getReg s r := by simp [getReg]

/-! setChan -/

@[simp] theorem setChan_pending (c : Nat) (x : Chan) : (setChan c x s).pending = s.pending := rfl
@[simp] theorem setChan_regs (c : Nat) (x : Chan) : (setChan c x s).regs = s.regs := rfl
@[simp] theorem setChan_dev (c : Nat) (x : Chan) : (setChan c x s).dev = s.dev := rfl
@[simp] theorem setChan_fab (c : Nat) (x : Chan) : (setChan c x s).fab = s.fab := rfl
@[simp] theorem setChan_bm (c : Nat) (x : Chan) : (setChan c x s).bm = s.bm := rfl
@[simp] theorem setChan_tick (c : Nat) (x : Chan) : (setChan c x s).tick = s.tick := rfl
@[simp] theorem setChan_ra (c : Nat) (x : Chan) : (setChan c x s).ra = s.ra := rfl
@[simp] theorem setChan_net (c : Nat) (x : Chan) : (setChan c x s).net = s.net := rfl
@[simp] theorem setChan_paths (c : Nat) (x : Chan) : (setChan c x s).paths = s.paths := rfl
@[simp] theorem setChan_queues (c : Nat) (x : Chan) : (setChan c x s).queues = s.queues := rfl
@[simp] theorem setChan_pool (c : Nat) (x : Chan) : (setChan c x s).pool = s.pool := rfl
@[simp] theorem setChan_eddies (c : Nat) (x : Chan) : (setChan c x s).eddies = s.eddies := rfl
@[simp] theorem setChan_msix (c : Nat) (x : Chan) : (setChan c x s).msix = s.msix := rfl
@[simp] theorem setChan_host (c : Nat) (x : Chan) : (setChan c x s).host = s.host := rfl
@[simp] theorem setChan_rdata (c : Nat) (x : Chan) : (setChan c x s).rdata = s.rdata := rfl
@[simp] theorem setChan_claims (c : Nat) (x : Chan) : (setChan c x s).claims = s.claims := rfl
@[simp] theorem setChan_ldr (c : Nat) (x : Chan) : (setChan c x s).ldr = s.ldr := rfl
@[simp] theorem setChan_nv (c : Nat) (x : Chan) : (setChan c x s).nv = s.nv := rfl
@[simp] theorem setChan_mbx (c : Nat) (x : Chan) : (setChan c x s).mbx = s.mbx := rfl
@[simp] theorem setChan_frz (c : Nat) (x : Chan) : (setChan c x s).frz = s.frz := rfl
@[simp] theorem setChan_scr (c : Nat) (x : Chan) : (setChan c x s).scr = s.scr := rfl
@[simp] theorem setChan_bg (c : Nat) (x : Chan) : (setChan c x s).bg = s.bg := rfl
@[simp] theorem setChan_rep (c : Nat) (x : Chan) : (setChan c x s).rep = s.rep := rfl
@[simp] theorem setChan_trc (c : Nat) (x : Chan) : (setChan c x s).trc = s.trc := rfl
@[simp] theorem setChan_jtag (c : Nat) (x : Chan) : (setChan c x s).jtag = s.jtag := rfl
@[simp] theorem setChan_smb (c : Nat) (x : Chan) : (setChan c x s).smb = s.smb := rfl
@[simp] theorem setChan_pins (c : Nat) (x : Chan) : (setChan c x s).pins = s.pins := rfl
@[simp] theorem setChan_free (c : Nat) (x : Chan) : (setChan c x s).free = s.free := rfl
@[simp] theorem getReg_setChan (r : Nat) (c : Nat) (x : Chan) : getReg (setChan c x s) r = getReg s r := by simp [getReg]

/-! setPort -/

@[simp] theorem setPort_pending (p : Nat) (x : Port) : (setPort p x s).pending = s.pending := rfl
@[simp] theorem setPort_regs (p : Nat) (x : Port) : (setPort p x s).regs = s.regs := rfl
@[simp] theorem setPort_dev (p : Nat) (x : Port) : (setPort p x s).dev = s.dev := rfl
@[simp] theorem setPort_fab (p : Nat) (x : Port) : (setPort p x s).fab = s.fab := rfl
@[simp] theorem setPort_bm (p : Nat) (x : Port) : (setPort p x s).bm = s.bm := rfl
@[simp] theorem setPort_tick (p : Nat) (x : Port) : (setPort p x s).tick = s.tick := rfl
@[simp] theorem setPort_ra (p : Nat) (x : Port) : (setPort p x s).ra = s.ra := rfl
@[simp] theorem setPort_chans (p : Nat) (x : Port) : (setPort p x s).chans = s.chans := rfl
@[simp] theorem setPort_net (p : Nat) (x : Port) : (setPort p x s).net = s.net := rfl
@[simp] theorem setPort_paths (p : Nat) (x : Port) : (setPort p x s).paths = s.paths := rfl
@[simp] theorem setPort_queues (p : Nat) (x : Port) : (setPort p x s).queues = s.queues := rfl
@[simp] theorem setPort_eddies (p : Nat) (x : Port) : (setPort p x s).eddies = s.eddies := rfl
@[simp] theorem setPort_msix (p : Nat) (x : Port) : (setPort p x s).msix = s.msix := rfl
@[simp] theorem setPort_host (p : Nat) (x : Port) : (setPort p x s).host = s.host := rfl
@[simp] theorem setPort_rdata (p : Nat) (x : Port) : (setPort p x s).rdata = s.rdata := rfl
@[simp] theorem setPort_claims (p : Nat) (x : Port) : (setPort p x s).claims = s.claims := rfl
@[simp] theorem setPort_ldr (p : Nat) (x : Port) : (setPort p x s).ldr = s.ldr := rfl
@[simp] theorem setPort_nv (p : Nat) (x : Port) : (setPort p x s).nv = s.nv := rfl
@[simp] theorem setPort_mbx (p : Nat) (x : Port) : (setPort p x s).mbx = s.mbx := rfl
@[simp] theorem setPort_frz (p : Nat) (x : Port) : (setPort p x s).frz = s.frz := rfl
@[simp] theorem setPort_scr (p : Nat) (x : Port) : (setPort p x s).scr = s.scr := rfl
@[simp] theorem setPort_bg (p : Nat) (x : Port) : (setPort p x s).bg = s.bg := rfl
@[simp] theorem setPort_rep (p : Nat) (x : Port) : (setPort p x s).rep = s.rep := rfl
@[simp] theorem setPort_trc (p : Nat) (x : Port) : (setPort p x s).trc = s.trc := rfl
@[simp] theorem setPort_jtag (p : Nat) (x : Port) : (setPort p x s).jtag = s.jtag := rfl
@[simp] theorem setPort_smb (p : Nat) (x : Port) : (setPort p x s).smb = s.smb := rfl
@[simp] theorem setPort_pins (p : Nat) (x : Port) : (setPort p x s).pins = s.pins := rfl
@[simp] theorem setPort_free (p : Nat) (x : Port) : (setPort p x s).free = s.free := rfl
@[simp] theorem getReg_setPort (r : Nat) (p : Nat) (x : Port) : getReg (setPort p x s) r = getReg s r := by simp [getReg]

/-! setHbm -/

@[simp] theorem setHbm_pending (a : Nat) (x : HWord) : (setHbm a x s).pending = s.pending := rfl
@[simp] theorem setHbm_regs (a : Nat) (x : HWord) : (setHbm a x s).regs = s.regs := rfl
@[simp] theorem setHbm_dev (a : Nat) (x : HWord) : (setHbm a x s).dev = s.dev := rfl
@[simp] theorem setHbm_fab (a : Nat) (x : HWord) : (setHbm a x s).fab = s.fab := rfl
@[simp] theorem setHbm_bm (a : Nat) (x : HWord) : (setHbm a x s).bm = s.bm := rfl
@[simp] theorem setHbm_tick (a : Nat) (x : HWord) : (setHbm a x s).tick = s.tick := rfl
@[simp] theorem setHbm_ra (a : Nat) (x : HWord) : (setHbm a x s).ra = s.ra := rfl
@[simp] theorem setHbm_chans (a : Nat) (x : HWord) : (setHbm a x s).chans = s.chans := rfl
@[simp] theorem setHbm_net (a : Nat) (x : HWord) : (setHbm a x s).net = s.net := rfl
@[simp] theorem setHbm_paths (a : Nat) (x : HWord) : (setHbm a x s).paths = s.paths := rfl
@[simp] theorem setHbm_queues (a : Nat) (x : HWord) : (setHbm a x s).queues = s.queues := rfl
@[simp] theorem setHbm_eddies (a : Nat) (x : HWord) : (setHbm a x s).eddies = s.eddies := rfl
@[simp] theorem setHbm_msix (a : Nat) (x : HWord) : (setHbm a x s).msix = s.msix := rfl
@[simp] theorem setHbm_host (a : Nat) (x : HWord) : (setHbm a x s).host = s.host := rfl
@[simp] theorem setHbm_rdata (a : Nat) (x : HWord) : (setHbm a x s).rdata = s.rdata := rfl
@[simp] theorem setHbm_claims (a : Nat) (x : HWord) : (setHbm a x s).claims = s.claims := rfl
@[simp] theorem setHbm_ldr (a : Nat) (x : HWord) : (setHbm a x s).ldr = s.ldr := rfl
@[simp] theorem setHbm_nv (a : Nat) (x : HWord) : (setHbm a x s).nv = s.nv := rfl
@[simp] theorem setHbm_mbx (a : Nat) (x : HWord) : (setHbm a x s).mbx = s.mbx := rfl
@[simp] theorem setHbm_frz (a : Nat) (x : HWord) : (setHbm a x s).frz = s.frz := rfl
@[simp] theorem setHbm_scr (a : Nat) (x : HWord) : (setHbm a x s).scr = s.scr := rfl
@[simp] theorem setHbm_bg (a : Nat) (x : HWord) : (setHbm a x s).bg = s.bg := rfl
@[simp] theorem setHbm_rep (a : Nat) (x : HWord) : (setHbm a x s).rep = s.rep := rfl
@[simp] theorem setHbm_trc (a : Nat) (x : HWord) : (setHbm a x s).trc = s.trc := rfl
@[simp] theorem setHbm_jtag (a : Nat) (x : HWord) : (setHbm a x s).jtag = s.jtag := rfl
@[simp] theorem setHbm_smb (a : Nat) (x : HWord) : (setHbm a x s).smb = s.smb := rfl
@[simp] theorem setHbm_pins (a : Nat) (x : HWord) : (setHbm a x s).pins = s.pins := rfl
@[simp] theorem setHbm_free (a : Nat) (x : HWord) : (setHbm a x s).free = s.free := rfl
@[simp] theorem getReg_setHbm (r : Nat) (a : Nat) (x : HWord) : getReg (setHbm a x s) r = getReg s r := by simp [getReg]

/-! setScr -/

@[simp] theorem setScr_pending (c : Nat) (x : Scrubber) : (setScr c x s).pending = s.pending := rfl
@[simp] theorem setScr_regs (c : Nat) (x : Scrubber) : (setScr c x s).regs = s.regs := rfl
@[simp] theorem setScr_dev (c : Nat) (x : Scrubber) : (setScr c x s).dev = s.dev := rfl
@[simp] theorem setScr_fab (c : Nat) (x : Scrubber) : (setScr c x s).fab = s.fab := rfl
@[simp] theorem setScr_bm (c : Nat) (x : Scrubber) : (setScr c x s).bm = s.bm := rfl
@[simp] theorem setScr_tick (c : Nat) (x : Scrubber) : (setScr c x s).tick = s.tick := rfl
@[simp] theorem setScr_ra (c : Nat) (x : Scrubber) : (setScr c x s).ra = s.ra := rfl
@[simp] theorem setScr_chans (c : Nat) (x : Scrubber) : (setScr c x s).chans = s.chans := rfl
@[simp] theorem setScr_net (c : Nat) (x : Scrubber) : (setScr c x s).net = s.net := rfl
@[simp] theorem setScr_paths (c : Nat) (x : Scrubber) : (setScr c x s).paths = s.paths := rfl
@[simp] theorem setScr_queues (c : Nat) (x : Scrubber) : (setScr c x s).queues = s.queues := rfl
@[simp] theorem setScr_pool (c : Nat) (x : Scrubber) : (setScr c x s).pool = s.pool := rfl
@[simp] theorem setScr_eddies (c : Nat) (x : Scrubber) : (setScr c x s).eddies = s.eddies := rfl
@[simp] theorem setScr_msix (c : Nat) (x : Scrubber) : (setScr c x s).msix = s.msix := rfl
@[simp] theorem setScr_host (c : Nat) (x : Scrubber) : (setScr c x s).host = s.host := rfl
@[simp] theorem setScr_rdata (c : Nat) (x : Scrubber) : (setScr c x s).rdata = s.rdata := rfl
@[simp] theorem setScr_claims (c : Nat) (x : Scrubber) : (setScr c x s).claims = s.claims := rfl
@[simp] theorem setScr_ldr (c : Nat) (x : Scrubber) : (setScr c x s).ldr = s.ldr := rfl
@[simp] theorem setScr_nv (c : Nat) (x : Scrubber) : (setScr c x s).nv = s.nv := rfl
@[simp] theorem setScr_mbx (c : Nat) (x : Scrubber) : (setScr c x s).mbx = s.mbx := rfl
@[simp] theorem setScr_frz (c : Nat) (x : Scrubber) : (setScr c x s).frz = s.frz := rfl
@[simp] theorem setScr_bg (c : Nat) (x : Scrubber) : (setScr c x s).bg = s.bg := rfl
@[simp] theorem setScr_rep (c : Nat) (x : Scrubber) : (setScr c x s).rep = s.rep := rfl
@[simp] theorem setScr_trc (c : Nat) (x : Scrubber) : (setScr c x s).trc = s.trc := rfl
@[simp] theorem setScr_jtag (c : Nat) (x : Scrubber) : (setScr c x s).jtag = s.jtag := rfl
@[simp] theorem setScr_smb (c : Nat) (x : Scrubber) : (setScr c x s).smb = s.smb := rfl
@[simp] theorem setScr_pins (c : Nat) (x : Scrubber) : (setScr c x s).pins = s.pins := rfl
@[simp] theorem setScr_free (c : Nat) (x : Scrubber) : (setScr c x s).free = s.free := rfl
@[simp] theorem getReg_setScr (r : Nat) (c : Nat) (x : Scrubber) : getReg (setScr c x s) r = getReg s r := by simp [getReg]

/-! setPath -/

@[simp] theorem setPath_pending (c : Nat) (x : RegPath) : (setPath c x s).pending = s.pending := rfl
@[simp] theorem setPath_regs (c : Nat) (x : RegPath) : (setPath c x s).regs = s.regs := rfl
@[simp] theorem setPath_dev (c : Nat) (x : RegPath) : (setPath c x s).dev = s.dev := rfl
@[simp] theorem setPath_fab (c : Nat) (x : RegPath) : (setPath c x s).fab = s.fab := rfl
@[simp] theorem setPath_bm (c : Nat) (x : RegPath) : (setPath c x s).bm = s.bm := rfl
@[simp] theorem setPath_tick (c : Nat) (x : RegPath) : (setPath c x s).tick = s.tick := rfl
@[simp] theorem setPath_ra (c : Nat) (x : RegPath) : (setPath c x s).ra = s.ra := rfl
@[simp] theorem setPath_chans (c : Nat) (x : RegPath) : (setPath c x s).chans = s.chans := rfl
@[simp] theorem setPath_net (c : Nat) (x : RegPath) : (setPath c x s).net = s.net := rfl
@[simp] theorem setPath_queues (c : Nat) (x : RegPath) : (setPath c x s).queues = s.queues := rfl
@[simp] theorem setPath_pool (c : Nat) (x : RegPath) : (setPath c x s).pool = s.pool := rfl
@[simp] theorem setPath_eddies (c : Nat) (x : RegPath) : (setPath c x s).eddies = s.eddies := rfl
@[simp] theorem setPath_msix (c : Nat) (x : RegPath) : (setPath c x s).msix = s.msix := rfl
@[simp] theorem setPath_host (c : Nat) (x : RegPath) : (setPath c x s).host = s.host := rfl
@[simp] theorem setPath_rdata (c : Nat) (x : RegPath) : (setPath c x s).rdata = s.rdata := rfl
@[simp] theorem setPath_claims (c : Nat) (x : RegPath) : (setPath c x s).claims = s.claims := rfl
@[simp] theorem setPath_ldr (c : Nat) (x : RegPath) : (setPath c x s).ldr = s.ldr := rfl
@[simp] theorem setPath_nv (c : Nat) (x : RegPath) : (setPath c x s).nv = s.nv := rfl
@[simp] theorem setPath_mbx (c : Nat) (x : RegPath) : (setPath c x s).mbx = s.mbx := rfl
@[simp] theorem setPath_frz (c : Nat) (x : RegPath) : (setPath c x s).frz = s.frz := rfl
@[simp] theorem setPath_scr (c : Nat) (x : RegPath) : (setPath c x s).scr = s.scr := rfl
@[simp] theorem setPath_bg (c : Nat) (x : RegPath) : (setPath c x s).bg = s.bg := rfl
@[simp] theorem setPath_rep (c : Nat) (x : RegPath) : (setPath c x s).rep = s.rep := rfl
@[simp] theorem setPath_trc (c : Nat) (x : RegPath) : (setPath c x s).trc = s.trc := rfl
@[simp] theorem setPath_jtag (c : Nat) (x : RegPath) : (setPath c x s).jtag = s.jtag := rfl
@[simp] theorem setPath_smb (c : Nat) (x : RegPath) : (setPath c x s).smb = s.smb := rfl
@[simp] theorem setPath_pins (c : Nat) (x : RegPath) : (setPath c x s).pins = s.pins := rfl
@[simp] theorem setPath_free (c : Nat) (x : RegPath) : (setPath c x s).free = s.free := rfl
@[simp] theorem getReg_setPath (r : Nat) (c : Nat) (x : RegPath) : getReg (setPath c x s) r = getReg s r := by simp [getReg]

/-! setSlot -/

@[simp] theorem setSlot_pending (n : Nat) (x : Slot) : (setSlot n x s).pending = s.pending := rfl
@[simp] theorem setSlot_regs (n : Nat) (x : Slot) : (setSlot n x s).regs = s.regs := rfl
@[simp] theorem setSlot_dev (n : Nat) (x : Slot) : (setSlot n x s).dev = s.dev := rfl
@[simp] theorem setSlot_fab (n : Nat) (x : Slot) : (setSlot n x s).fab = s.fab := rfl
@[simp] theorem setSlot_bm (n : Nat) (x : Slot) : (setSlot n x s).bm = s.bm := rfl
@[simp] theorem setSlot_tick (n : Nat) (x : Slot) : (setSlot n x s).tick = s.tick := rfl
@[simp] theorem setSlot_ra (n : Nat) (x : Slot) : (setSlot n x s).ra = s.ra := rfl
@[simp] theorem setSlot_chans (n : Nat) (x : Slot) : (setSlot n x s).chans = s.chans := rfl
@[simp] theorem setSlot_net (n : Nat) (x : Slot) : (setSlot n x s).net = s.net := rfl
@[simp] theorem setSlot_paths (n : Nat) (x : Slot) : (setSlot n x s).paths = s.paths := rfl
@[simp] theorem setSlot_queues (n : Nat) (x : Slot) : (setSlot n x s).queues = s.queues := rfl
@[simp] theorem setSlot_pool (n : Nat) (x : Slot) : (setSlot n x s).pool = s.pool := rfl
@[simp] theorem setSlot_eddies (n : Nat) (x : Slot) : (setSlot n x s).eddies = s.eddies := rfl
@[simp] theorem setSlot_msix (n : Nat) (x : Slot) : (setSlot n x s).msix = s.msix := rfl
@[simp] theorem setSlot_host (n : Nat) (x : Slot) : (setSlot n x s).host = s.host := rfl
@[simp] theorem setSlot_rdata (n : Nat) (x : Slot) : (setSlot n x s).rdata = s.rdata := rfl
@[simp] theorem setSlot_claims (n : Nat) (x : Slot) : (setSlot n x s).claims = s.claims := rfl
@[simp] theorem setSlot_ldr (n : Nat) (x : Slot) : (setSlot n x s).ldr = s.ldr := rfl
@[simp] theorem setSlot_mbx (n : Nat) (x : Slot) : (setSlot n x s).mbx = s.mbx := rfl
@[simp] theorem setSlot_frz (n : Nat) (x : Slot) : (setSlot n x s).frz = s.frz := rfl
@[simp] theorem setSlot_scr (n : Nat) (x : Slot) : (setSlot n x s).scr = s.scr := rfl
@[simp] theorem setSlot_bg (n : Nat) (x : Slot) : (setSlot n x s).bg = s.bg := rfl
@[simp] theorem setSlot_rep (n : Nat) (x : Slot) : (setSlot n x s).rep = s.rep := rfl
@[simp] theorem setSlot_trc (n : Nat) (x : Slot) : (setSlot n x s).trc = s.trc := rfl
@[simp] theorem setSlot_jtag (n : Nat) (x : Slot) : (setSlot n x s).jtag = s.jtag := rfl
@[simp] theorem setSlot_smb (n : Nat) (x : Slot) : (setSlot n x s).smb = s.smb := rfl
@[simp] theorem setSlot_pins (n : Nat) (x : Slot) : (setSlot n x s).pins = s.pins := rfl
@[simp] theorem setSlot_free (n : Nat) (x : Slot) : (setSlot n x s).free = s.free := rfl
@[simp] theorem getReg_setSlot (r : Nat) (n : Nat) (x : Slot) : getReg (setSlot n x s) r = getReg s r := by simp [getReg]

/-! setQ -/

@[simp] theorem setQ_pending (q : Nat) (x : Queue) : (setQ q x s).pending = s.pending := by unfold setQ; dsimp only; split <;> rfl
@[simp] theorem setQ_regs (q : Nat) (x : Queue) : (setQ q x s).regs = s.regs := by unfold setQ; dsimp only; split <;> rfl
@[simp] theorem setQ_dev (q : Nat) (x : Queue) : (setQ q x s).dev = s.dev := by unfold setQ; dsimp only; split <;> rfl
@[simp] theorem setQ_fab (q : Nat) (x : Queue) : (setQ q x s).fab = s.fab := by unfold setQ; dsimp only; split <;> rfl
@[simp] theorem setQ_bm (q : Nat) (x : Queue) : (setQ q x s).bm = s.bm := by unfold setQ; dsimp only; split <;> rfl
@[simp] theorem setQ_tick (q : Nat) (x : Queue) : (setQ q x s).tick = s.tick := by unfold setQ; dsimp only; split <;> rfl
@[simp] theorem setQ_ra (q : Nat) (x : Queue) : (setQ q x s).ra = s.ra := by unfold setQ; dsimp only; split <;> rfl
@[simp] theorem setQ_chans (q : Nat) (x : Queue) : (setQ q x s).chans = s.chans := by unfold setQ; dsimp only; split <;> rfl
@[simp] theorem setQ_net (q : Nat) (x : Queue) : (setQ q x s).net = s.net := by unfold setQ; dsimp only; split <;> rfl
@[simp] theorem setQ_paths (q : Nat) (x : Queue) : (setQ q x s).paths = s.paths := by unfold setQ; dsimp only; split <;> rfl
@[simp] theorem setQ_pool (q : Nat) (x : Queue) : (setQ q x s).pool = s.pool := by unfold setQ; dsimp only; split <;> rfl
@[simp] theorem setQ_msix (q : Nat) (x : Queue) : (setQ q x s).msix = s.msix := by unfold setQ; dsimp only; split <;> rfl
@[simp] theorem setQ_host (q : Nat) (x : Queue) : (setQ q x s).host = s.host := by unfold setQ; dsimp only; split <;> rfl
@[simp] theorem setQ_rdata (q : Nat) (x : Queue) : (setQ q x s).rdata = s.rdata := by unfold setQ; dsimp only; split <;> rfl
@[simp] theorem setQ_claims (q : Nat) (x : Queue) : (setQ q x s).claims = s.claims := by unfold setQ; dsimp only; split <;> rfl
@[simp] theorem setQ_ldr (q : Nat) (x : Queue) : (setQ q x s).ldr = s.ldr := by unfold setQ; dsimp only; split <;> rfl
@[simp] theorem setQ_nv (q : Nat) (x : Queue) : (setQ q x s).nv = s.nv := by unfold setQ; dsimp only; split <;> rfl
@[simp] theorem setQ_mbx (q : Nat) (x : Queue) : (setQ q x s).mbx = s.mbx := by unfold setQ; dsimp only; split <;> rfl
@[simp] theorem setQ_frz (q : Nat) (x : Queue) : (setQ q x s).frz = s.frz := by unfold setQ; dsimp only; split <;> rfl
@[simp] theorem setQ_scr (q : Nat) (x : Queue) : (setQ q x s).scr = s.scr := by unfold setQ; dsimp only; split <;> rfl
@[simp] theorem setQ_bg (q : Nat) (x : Queue) : (setQ q x s).bg = s.bg := by unfold setQ; dsimp only; split <;> rfl
@[simp] theorem setQ_rep (q : Nat) (x : Queue) : (setQ q x s).rep = s.rep := by unfold setQ; dsimp only; split <;> rfl
@[simp] theorem setQ_trc (q : Nat) (x : Queue) : (setQ q x s).trc = s.trc := by unfold setQ; dsimp only; split <;> rfl
@[simp] theorem setQ_jtag (q : Nat) (x : Queue) : (setQ q x s).jtag = s.jtag := by unfold setQ; dsimp only; split <;> rfl
@[simp] theorem setQ_smb (q : Nat) (x : Queue) : (setQ q x s).smb = s.smb := by unfold setQ; dsimp only; split <;> rfl
@[simp] theorem setQ_pins (q : Nat) (x : Queue) : (setQ q x s).pins = s.pins := by unfold setQ; dsimp only; split <;> rfl
@[simp] theorem setQ_free (q : Nat) (x : Queue) : (setQ q x s).free = s.free := by unfold setQ; dsimp only; split <;> rfl
@[simp] theorem getReg_setQ (r : Nat) (q : Nat) (x : Queue) : getReg (setQ q x s) r = getReg s r := by simp [getReg]

end Sys2Proof.Machine
end

