-- ==== Sys2Proof/Laws/Ops.lean ====
section
/-! SUPPORT. What the shared operations over registers and stores do: what is read back, what stays as it was, and the
canonical form of the register file. -/

namespace Sys2Proof.Machine

variable (s : State)

/-! ### Registers -/

/-- A register read after a write, in a register file in its canonical form. -/
theorem getReg_setReg (o r : Nat) (v : Word) (h : mwf resetOf s.regs = true) :
    getReg (setReg o v s) r = if o = r then v else getReg s r := by
  simp only [mwf, Bool.and_eq_true] at h
  exact mget_mset resetOf s.regs o r v h.1

/-- A write of one register leaves every other register alone. -/
theorem getReg_setReg_ne (o r : Nat) (v : Word) (h : o ≠ r) : getReg (setReg o v s) r = getReg s r :=
  mget_mset_ne resetOf s.regs o r v h

/-- A register write keeps the register file's canonical form. -/
theorem setReg_ok (o : Nat) (v : Word) (h : mwf resetOf s.regs = true) : mwf resetOf (setReg o v s).regs = true :=
  mwf_mset resetOf s.regs o v h

theorem bump_eq (o : Nat) : bump o s = setReg o (satInc (getReg s o)) s := rfl
theorem orReg_eq (o : Nat) (m : Word) : orReg o m s = setReg o (getReg s o ||| m) s := rfl
theorem andNotReg_eq (o : Nat) (m : Word) : andNotReg o m s = setReg o (getReg s o &&& ~~~m) s := rfl

theorem bump_ok (o : Nat) (h : mwf resetOf s.regs = true) : mwf resetOf (bump o s).regs = true := setReg_ok s _ _ h
theorem orReg_ok (o : Nat) (m : Word) (h : mwf resetOf s.regs = true) : mwf resetOf (orReg o m s).regs = true :=
  setReg_ok s _ _ h
theorem andNotReg_ok (o : Nat) (m : Word) (h : mwf resetOf s.regs = true) : mwf resetOf (andNotReg o m s).regs = true :=
  setReg_ok s _ _ h

theorem bumpBy_ok (o n : Nat) (h : mwf resetOf s.regs = true) : mwf resetOf (bumpBy o n s).regs = true := by
  unfold bumpBy; split
  · exact h
  · exact setReg_ok s _ _ h

theorem latchFirst_ok (o : Nat) (v : Word) (h : mwf resetOf s.regs = true) :
    mwf resetOf (latchFirst o v s).regs = true := by
  unfold latchFirst; split
  · exact h
  · exact setReg_ok s _ _ h

/-- A latch that holds a value keeps it (R76, R100, R127). -/
theorem latchFirst_held (o : Nat) (v : Word) (h : bitAt (getReg s o) 31 = true) : latchFirst o v s = s := by
  simp [latchFirst, h]

/-- A saturating counter never falls (R15). -/
theorem satInc_le (w : Word) : w.toNat ≤ (satInc w).toNat := by
  unfold satInc; split
  · exact le_refl _
  · rename_i h
    have h1 : w.toNat ≠ 4294967295 := fun e => h (BitVec.eq_of_toNat_eq (by simpa using e))
    have h2 := w.isLt
    rw [BitVec.toNat_add]
    simp only [BitVec.reduceToNat]
    omega

/-- A bank of stores read after a write of it. -/
theorem getEddy_setEddy_ne (e f : Nat) (x : Eddy) (h : e ≠ f) : getEddy (setEddy e x s) f = getEddy s f :=
  mget_mset_ne dEddy s.eddies e f x h

theorem getChan_setChan_ne (c d : Nat) (x : Chan) (h : c ≠ d) : getChan (setChan c x s) d = getChan s d :=
  mget_mset_ne dChan s.chans c d x h

theorem getTile_setTile_ne (t u : Nat) (x : Tile) (h : t ≠ u) : getTile (setTile t x s) u = getTile s u :=
  mget_mset_ne dTile s.fab.tiles t u x h

theorem getBlock_setBlock_ne (m n : Nat) (x : Block) (h : m ≠ n) : getBlock (setBlock m x s) n = getBlock s n :=
  mget_mset_ne dBlock s.bm m n x h

theorem hbmAt_setHbm_ne (a b : Nat) (x : HWord) (h : a ≠ b) : hbmAt (setHbm a x s) b = hbmAt s b :=
  mget_mset_ne dHbm s.pool.hbm a b x h

/-- The eddy bank after a write of it, in its canonical form. -/
theorem getEddy_setEddy (e f : Nat) (x : Eddy) (h : mwf dEddy s.eddies = true) :
    getEddy (setEddy e x s) f = if e = f then x else getEddy s f := by
  simp only [mwf, Bool.and_eq_true] at h
  exact mget_mset dEddy s.eddies e f x h.1

/-! ### Writes in the management window -/

theorem mgmt_run (f : State → State) (h : mgmtOpen s = true) : mgmt f s = f s := by simp [mgmt, h]
theorem mgmt_shut (f : State → State) (h : mgmtOpen s = false) : mgmt f s = s := by simp [mgmt, h]
theorem awake_run (f : State → State) (h : s.dev.inReset = false) : awake f s = f s := by simp [awake, h]
theorem awake_reset (f : State → State) (h : s.dev.inReset = true) : awake f s = s := by simp [awake, h]

/-- Running a list of updates keeps whatever each of them keeps. -/
theorem forEach_keeps {α : Type} (P : State → Prop) (f : α → State → State) (hf : ∀ a t, P t → P (f a t))
    (l : List α) (t : State) (h : P t) : P (forEach f l t) := by
  induction l generalizing t with
  | nil => exact h
  | cons a l ih => exact ih (f a t) (hf a t h)

end Sys2Proof.Machine
end

