-- ==== Sys2Proof/Laws/Repair.lean ====
section
/-! SUPPORT. Column mapping of a device without marks: every logical column lies in the physical one of its number. -/

namespace Sys2Proof.Machine

theorem upTo_eq_range (n : Nat) : upTo n = List.range n := rfl

variable {s : State} {sec : Nat}

theorem failedCols_unmarked (h : s.rep.marks = []) : failedCols s sec = [] := by
  simp [failedCols, markedIdx, h]

theorem mem_upTo {n i : Nat} : i ∈ upTo n ↔ i < n := by simp [upTo_eq_range]

/-- A failed column is one that a mark of KIND 1 names. -/
theorem mem_failedCols {p : Nat} : p ∈ failedCols s sec ↔ p < 528 ∧ ∃ m ∈ s.rep.marks, m.kind = 1 ∧ m.sec = sec ∧ m.idx = p := by
  simp [failedCols, markedIdx, mem_upTo, and_assoc]

theorem goodCols_unmarked (h : s.rep.marks = []) : goodCols s sec = List.range 528 := by
  simp [goodCols, failedCols_unmarked h, upTo_eq_range]

theorem colOf_unmarked (h : s.rep.marks = []) (x : Nat) (hx : x < 528) : colOf s sec x = some x := by
  rw [colOf, goodCols_unmarked h, List.getElem?_range hx]

theorem logCol_unmarked (h : s.rep.marks = []) (p : Nat) : logCol s sec p = if p < 512 then some p else none := by
  simp [logCol, failedCols_unmarked h]

end Sys2Proof.Machine
end

