-- ==== Sys2Proof/Tests/Slice0.lean ====
section
/-! SUPPORT. Tests: ill-formed commands are refused, single steps against the spec's words, and states and operands that
meet the hypotheses of the statements. -/

namespace Sys2Proof.Tests
open Sys2Proof.Machine
set_option Elab.async false

/-! ### Small states -/

/-- A device that runs an image, outside GSR. -/
def sUp : State :=
  { State.reset with dev := { State.reset.dev with st := .operational }, fab := { State.reset.fab with gsr := 0 } }

/-- The same in the data wave of a tick. -/
def sWave : State := { sUp with tick := { sUp.tick with st := .run, inTick := true, spacer := false, nowP1 := 1 } }

/-- The same in the spacer wave. -/
def sSpacer : State := { sUp with tick := { sUp.tick with st := .run, inTick := true, spacer := true, nowP1 := 1 } }

/-- Tile 0 with the bits of `m` put over the idle frame's, in a state. -/
def withTile (x : Tile) (s : State) : State := setTile 0 x s

/-! ### Witnesses: the queue, reset, power -/

theorem witness_StepRunsFront : ({ State.reset with pending := [.porstNAssert, .pwrOffReqNRelease] } : State).pending =
    .porstNAssert :: [.pwrOffReqNRelease] := by decide

theorem witness_IdleKeepsState : State.reset.pending = [] := by decide

theorem witness_RegisterFileInvariant : RegsOk State.reset ∧ step State.reset = .next State.reset := ⟨rfl, rfl⟩

theorem witness_StoresInvariant : StoresOk State.reset ∧ TablesOk State.reset ∧ step State.reset = .next State.reset := by
  unfold StoresOk TablesOk; and_intros <;> rfl

theorem witness_LifeCycleTable : step State.reset = .next State.reset := rfl

theorem witness_CountersNeverFall : step State.reset = .next State.reset ∧ State.reset.pending.head? ≠ some .keyStored :=
  ⟨rfl, by decide⟩

/-- PORST_N low, and PORST_N high with the rails out of range. -/
def sLow : State := { State.reset with dev := { State.reset.dev with inReset := true, porstHigh := false } }
def sRails : State := { State.reset with dev := { State.reset.dev with inReset := true } }

theorem witness_ResetPins : State.reset.mbx.phase = .idle ∧ State.reset.ldr.zeroise = false ∧ sLow.dev.porstHigh = false ∧ State.reset.dev.porstHigh = true ∧
    sRails.dev.inReset = true ∧ sRails.dev.porstHigh = true := by decide +kernel

/-- SHUTTING_DOWN with `n` segments tested. -/
def sShut (n : Nat) : State :=
  { State.reset with dev := { State.reset.dev with st := .shuttingDown }, rep := { State.reset.rep with seg := n } }

theorem witness_ShutdownEntry :
    (RegsOk State.reset ∧ State.reset.dev.inReset = false ∧ State.reset.dev.pwrOff = false ∧
      State.reset.dev.st ≠ .shuttingDown ∧ newestRec State.reset = none) ∧
    (let s : State := { State.reset with ldr := { State.reset.ldr with pow := .over } }
     s.ldr.busy = true ∧ s.ldr.pow = .over ∧ RegsOk s ∧ newestRec s = none) ∧
    (RegsOk (sShut 0) ∧ (sShut 0).dev.pwrOff = false ∧ (sShut 0).mbx.phase = .idle) ∧
    ((sShut 15).dev.inReset = false ∧ (sShut 15).dev.st = .shuttingDown ∧ (sShut 15).rep.seg < 16 ∧ newestRec (sShut 15) = none) ∧
    ((sShut 16).rep.seg = 16 ∧ (sShut 16).dev.shdnDone = false ∧ newestRec (sShut 16) = none) := by
  unfold RegsOk; decide +kernel

/-- Power-up at a point of R413. -/
def sPow (p : PowerUp) : State := { State.reset with ldr := { State.reset.ldr with pow := p } }
/-- A complete health record that passed. -/
def passRec : HealthRec := ⟨1, 1, false, 0xFFFF, 0, [], 0x100000, 0x100000, true, false, 0xFFFF⟩
/-- One that failed, and one that was cut short. -/
def failRec : HealthRec := ⟨1, 1, true, 0xFFFF, 4, [⟨2, 0, 7⟩], 0x100000, 0x100000, true, false, 0xFFFB⟩
def cutRec : HealthRec := ⟨1, 1, false, 3, 0, [], 0x100000, 0x20000, false, false, 3⟩
def withRec (r : HealthRec) (s : State) : State := { s with nv := { s.nv with healthA := some r } }

theorem seqRoom_of_none {s : State} (h : newestRec s = none) : SeqRoom s := by
  intro r hr; rw [h] at hr; cases hr

theorem witness_PowerUpOrder :
    (powering (sPow .fuses) = true ∧ (sPow .fuses).ldr.pow = .fuses ∧ (sPow .fuses).nv.wipe = none ∧
      (sPow .fuses).nv.vbatFound = false ∧ (sPow .fuses).nv.zeroDue = none) ∧
    (let s : State := { sPow .fuses with nv := { State.reset.nv with zeroDue := some 2 } }
     powering s = true ∧ s.ldr.pow = .fuses ∧ s.nv.zeroDue = some 2 ∧ s.nv.wipe = none) ∧
    (let s : State := { sPow .fuses with nv := { State.reset.nv with vbatFound := true } }
     RegsOk s ∧ powering s = true ∧ s.ldr.pow = .fuses ∧ s.nv.vbatFound = true ∧ s.nv.wipe = none) ∧
    (powering (sPow .health) = true ∧ newestRec (sPow .health) = none) ∧
    (newestRec (withRec passRec (sPow .health)) = some passRec ∧ recOutcome passRec = 0) ∧
    (RegsOk (withRec failRec (sPow .health)) ∧ powering (withRec failRec (sPow .health)) = true ∧
      newestRec (withRec failRec (sPow .health)) = some failRec ∧ recOutcome failRec = 1) ∧
    (RegsOk (withRec cutRec (sPow .health)) ∧ powering (withRec cutRec (sPow .health)) = true ∧
      newestRec (withRec cutRec (sPow .health)) = some cutRec ∧ recOutcome cutRec = 2 ∧ segsLeft cutRec.segDone = 2 :: (upTo 16).drop 3) ∧
    (powering (sPow (.abbrev [3, 4])) = true ∧ (sPow (.abbrev [3, 4])).ldr.pow = .abbrev (3 :: 4 :: [])) ∧
    (powering (sPow (.abbrev [15])) = true ∧ (sPow (.abbrev [15])).ldr.pow = .abbrev [15] ∧ newestRec (sPow (.abbrev [15])) = none) := by
  unfold RegsOk; decide +kernel

/-! ### Witnesses: the fabric -/

/-- The idle frame with the bits of `m` changed. -/
def frameWith (m : Nat) : Frame := idleFrame ^^^ BitVec.ofNat 4096 m

/-- Tile 0 a LUT6 cell; a free-running tile with element 0 in use, its stage empty or full; tick-bound tiles. -/
def tLut : Tile := { frame := frameWith (2 ^ 2816 + 0xFFFFFF * 2 ^ 2048 + 1) }
/-- LC 0 in a mode, with a truth table and its six input selects; LC 6 a LUT6. -/
def tMode (mode lut sel : Nat) : Tile := { frame := frameWith (mode * 2 ^ 2816 + 2 ^ 2828 + sel * 2 ^ 2048 + lut) }
def tFree (full ack : Nat) : Tile :=
  { frame := frameWith (2 ^ 3328 + 3 * 2 ^ 2880), frFull := BitVec.ofNat 4 full, ackC := BitVec.ofNat 4 ack }

theorem witness_LogicCell :
    let s := withTile tLut sWave
    (StoresOk s ∧ hostOf s 0 = .none ∧ gsrOn s 0 = false ∧ fFree (frameOf s 0) = false) ∧
    (fMode (frameOf s 0) 0 = 1 ∧ (lcIns s 0 0).all Rail.valid = true ∧ bitAt (getTile s 0).oaT 0 = false ∧
      bitAt (getTile s 0).oaF 0 = false ∧ fLut (frameOf s 0) 0 (lutIdx (lcIns s 0 0)) = true) ∧
    (lcIns (withTile tLut sUp) 0 0).all Rail.valid = false ∧
    (∀ mode ∈ [2, 3], ∀ lut ∈ [0, 1],
      let s := withTile (tMode mode lut 0xFFFFFF) sWave
      StoresOk s ∧ hostOf s 0 = .none ∧ gsrOn s 0 = false ∧ fFree (frameOf s 0) = false ∧ fMode (frameOf s 0) 0 = mode ∧
      (lcIns s 0 0).all Rail.valid = true ∧ (cinRail s 0 0).valid = true ∧ fLut (frameOf s 0) 0 0 = (lut == 1) ∧
      (getTile s 0).oaT = 0 ∧ (getTile s 0).oaF = 0 ∧ (getTile s 0).obT = 0 ∧ (getTile s 0).obF = 0 ∧
      (getTile s 0).coT = 0 ∧ (getTile s 0).coF = 0 ∧
      ((lcIns (withTile (tMode mode lut 0xFFFFFF) sUp) 0 0).getD 0 .spacer).valid = false) ∧
    (let s := withTile (tMode 3 0 0xCFFFFF) sWave
     ((lcIns s 0 0).take 5).all Rail.valid = true ∧ ((lcIns s 0 0).getD 5 .spacer).valid = false) ∧
    (fMode (frameOf (withTile (tMode 3 0 0xFFFFFF) sWave) 0) 0 = 3 ∧ lcIllegal (getTile (withTile (tMode 3 0 0xFFFFFF) sWave) 0) 0 = false) ∧
    (bitAt (getTile (withTile { tLut with oaT := 1 } sWave) 0).oaT 0 = true) := by
  unfold StoresOk; decide +kernel

theorem witness_TileReports :
    (waveOn sWave = true ∧ fFree (frameOf sWave 5) = false ∧ hostOf sWave 5 = .none ∧
      (upTo 4).all (dataComplete sWave 5) = true ∧ (getTile sWave 5).settled = false ∧ gsrOn sWave (tSec 5) = false ∧ bitAt sWave.fab.uv (tSec 5) = false) ∧
    gsrOn State.reset (tSec 5) = true ∧
    (sSpacer.tick.inTick = true ∧ sSpacer.tick.spacer = true ∧ fFree (frameOf sSpacer 5) = false ∧ gsrOn sSpacer (tSec 5) = false ∧
      ∀ c < 4, ∀ r ∈ clusterPoints sSpacer 5 c, r = Rail.spacer) := by decide +kernel

/-- Element 0 of a free-running tile takes OA of cell 0, which is valid 1 or at spacer. -/
def tStage (full ack oa : Nat) : Tile :=
  { frame := frameWith (2 ^ 3328 + 3 * 2 ^ 2880), frFull := BitVec.ofNat 4 full, ackC := BitVec.ofNat 4 ack, oaT := BitVec.ofNat 32 oa }

theorem witness_FreeRunningStage :
    (let s := withTile (tStage 0 0 1) sUp
     StoresOk s ∧ fFree (frameOf s 0) = true ∧ hostOf s 0 = .none ∧ gsrOn s (tSec 0) = false ∧ bitAt (getTile s 0).frFull 0 = false ∧
       ackIn s 0 0 = false ∧ stageElems (frameOf s 0) 0 ≠ [] ∧ ∀ e ∈ stageElems (frameOf s 0) 0, (elemIn s 0 e).valid = true) ∧
    gsrOn State.reset (tSec 0) = true ∧
    (let s := withTile (tStage 1 0 0) sUp
     StoresOk s ∧ fFree (frameOf s 0) = true ∧ hostOf s 0 = .none ∧ bitAt (getTile s 0).frFull 0 = true ∧ ackIn s 0 0 = true ∧
       ∀ e ∈ stageElems (frameOf s 0) 0, elemIn s 0 e = .spacer) := by
  unfold StoresOk; decide +kernel

/-- A set-reset pulse in progress. -/
def sPulse : State := { sUp with fab := { sUp.fab with gsrBusy := true, gsr := 0xFF } }

theorem witness_SetResetPulse :
    (mgmtOpen sUp = true ∧ RegsOk sUp ∧ StoresOk sUp ∧ bitAt (1#32) 0 = true ∧ sUp.fab.gsrBusy = false ∧ gsrRefusal sUp = none) ∧
    (gsrRefusal State.reset = some 4 ∧ gsrRefusal sWave = some 2) ∧ bitAt (0#32) 0 = false ∧
    (sPulse.fab.gsrBusy = true ∧ deviceUp sPulse = true ∧ StoresOk sPulse ∧ sPulse.tick.heldStart = none) ∧
    (let s : State := { sPulse with tick := { sPulse.tick with heldStart := some (1, 0) } }
     RegsOk s ∧ s.fab.gsrBusy = true ∧ s.tick.heldStart = some (1, 0) ∧ deviceUp s = true ∧ engineStill s = true ∧ s.tick.pend = none ∧
       s.tick.numberEnd = false ∧ bndUnreachable s = false) := by
  unfold RegsOk StoresOk; decide +kernel

/-- Row line 3 of section 0, row 0 with the taps of two of its eight tiles set, or of none. -/
def sTaps : State :=
  setTile (256 * 3) { frame := frameWith (2 ^ 4064) }
    (setTile (256 * 67) { frame := frameWith (2 ^ 4064) } { sUp with fab := { sUp.fab with tapsOn := true } })

theorem witness_UpsetsAndSensors :
    (StoresOk sUp ∧ RegsOk sUp ∧ gsrOn sUp 7 = false) ∧
    (RegsOk sTaps ∧ sTaps.fab.tapsOn = true ∧ Instr.wf (.oneHotConflict 0 false 0 3) = true ∧
      2 ≤ (tapsSet sTaps ⟨0, false, 0, 3⟩).length ∧ sTaps.fab.heldLines.contains ⟨0, false, 0, 3⟩ = false) := by
  unfold RegsOk StoresOk; decide +kernel

/-- The host tile of port A of block 255, every line at constant valid 0. -/
def tBm (free : Nat) : Tile :=
  { frame := frameWith (0xEE * ((2 ^ 512 - 1) / 255) * 2 ^ 3360 + free * 2 ^ 3328) }
/-- Block 255 of section 0 with this configuration. -/
def sBlock (cfg : Word) (free : Nat) : State := setBlock 255 { cfg := cfg } (setTile (bmTile 255 false) (tBm free) sWave)

theorem witness_BlockMemory_async :
    let s := sBlock 0x41#32 0
    let b := getBlock s 255
    StoresOk s ∧ bmHasPort b.cfg false = true ∧ bmFree s 255 = false ∧ bmAsync b.cfg false = true ∧ bmReads b.cfg false = true ∧
    waveOn s = true ∧ bmRdw b.cfg = 0 ∧ linesValid s (bmTile 255 false) (upTo (bmABits b.cfg)) = true ∧ b.outA = none ∧ b.chkB = none ∧
    bmErr b (linesVal s (bmTile 255 false) 0 (bmABits b.cfg) / bmPerRow b.cfg) = 0#80 := by
  unfold StoresOk; decide +kernel

theorem witness_BlockMemory_free :
    let s := sBlock 0x01#32 1
    let b := getBlock s 255
    StoresOk s ∧ bmHasPort b.cfg false = true ∧ bmFree s 255 = true ∧ gsrOn s (255 / 4096) = false ∧
    linesValid s (bmTile 255 false) (hostLines s (bmTile 255 false)) = true ∧ ackIn s (bmTile 255 false) 0 = false ∧ b.outA = none ∧ b.chkB = none ∧
    bitAt (getTile s (bmTile 255 false)).frFull 0 = false ∧
    bmErr (getBlock (bmFrReport 255 true s) 255) ((portPins s 255 false).addr / bmPerRow b.cfg) = 0#80 := by
  unfold StoresOk; decide +kernel

/-- Block 0 with PATROL, one bit of row 511 in error and waiting to be written back. -/
def sPatrol (err : Nat) : State :=
  setBlock 0 { cfg := 0x10001, errs := [(511, BitVec.ofNat 80 err)], wb := [511], patrol := 511 } sUp

theorem witness_BlockMemory :
    (StoresOk (sPatrol 1) ∧ (getBlock (sPatrol 1) 0).wb.contains 511 = true ∧ errCount (bmErr (getBlock (sPatrol 1) 0) 511) = 1) ∧
    (RegsOk (sPatrol 3) ∧ bmUse (getBlock (sPatrol 3) 0).cfg = true ∧ bmPatrol (getBlock (sPatrol 3) 0).cfg = true ∧
      errCount (bmErr (getBlock (sPatrol 3) 0) (getBlock (sPatrol 3) 0).patrol) = 2) := by
  unfold RegsOk StoresOk; decide +kernel

/-! ### Witnesses: the tick engine -/

theorem witness_TickCommands :
    (mgmtOpen sUp = true ∧ RegsOk sUp ∧ deviceUp sUp = true ∧ engineStill sUp = true ∧ sUp.tick.pend = none ∧
      sUp.tick.numberEnd = false ∧ bndUnreachable sUp = false ∧ startHeld sUp = false) ∧
    (let s : State := { sUp with fab := { sUp.fab with gsrBusy := true } }
     mgmtOpen s = true ∧ deviceUp s = true ∧ startHeld s = true) ∧
    (mgmtOpen State.reset = true ∧ RegsOk State.reset ∧ deviceUp State.reset = false) ∧
    (let s : State := { sUp with tick := { sUp.tick with st := .fault } }
     mgmtOpen s = true ∧ RegsOk s ∧ deviceUp s = true ∧ s.tick.st = .fault) := by
  unfold RegsOk; decide +kernel

theorem witness_TickRegisters :
    mgmtOpen State.reset = true ∧ RegsOk State.reset ∧ ((0#32) &&& 0xFFFFF#32 = 0#32) ∧ (7#32 ≤ (0xFFF00007#32 &&& 0xFFFFF#32)) := by
  unfold RegsOk; decide +kernel

/-- RUN, with ticks up to `n` issued and `k` of them committed. -/
def sRun (n k : Nat) : State :=
  { sUp with tick := { sUp.tick with st := .run, nowP1 := n, hiP1 := n }, ra := { sUp.ra with com := k, gio := k } }

theorem witness_TickCycle :
    (StoresOk (sRun 0 0) ∧ mayIssue (sRun 0 0) = true ∧ windowOpen (sRun 0 0) = true ∧ windowOpen (sRun 7 7) = true) ∧
    (RegsOk (sRun 1 0) ∧ mayIssue (sRun 1 0) = true ∧ windowOpen (sRun 1 0) = false) ∧ mayIssue State.reset = false ∧
    (StoresOk sWave ∧ allSettled sWave = true) ∧
    (RegsOk sSpacer ∧ sSpacer.tick.inTick = true ∧ sSpacer.tick.spacer = true ∧ sSpacer.tick.lastCls < 5 ∧ tilesReported Tile.spacerDone sSpacer = true ∧
      ctPending sSpacer = false ∧ haltCodes { sSpacer with tick := { sSpacer.tick with inTick := false, spacer := false } } = [] ∧
      localL sSpacer = true ∧ sSpacer.ra.vals = [] ∧ sSpacer.ra.rb = none ∧ sSpacer.ra.lwmHeld = false ∧ sSpacer.tick.redo = false) := by
  unfold RegsOk StoresOk; decide +kernel

/-- PACED, with these TICK_CFG bits and pace events due. -/
def sPaced (cfg : Word) (due : Nat) : State :=
  setReg Reg.tickCfg cfg { sUp with tick := { sUp.tick with st := .paced, due := due } }
/-- The data wave of tick 0 at depth 1 with input group 4095 in the map. -/
def sWait : State := setReg (Reg.bndInMap 4095) 0x80000000#32 (setReg Reg.raCfg 1#32 sWave)

theorem witness_TickEvents :
    (RegsOk (sPaced 0#32 254) ∧ (sPaced 0#32 254).tick.st = .paced ∧ bitAt (getReg (sPaced 0#32 254) Reg.tickCfg) 2 = false) ∧
    (RegsOk (sPaced 4#32 255) ∧ (sPaced 4#32 255).tick.st = .paced ∧ bitAt (getReg (sPaced 4#32 255) Reg.tickCfg) 2 = true) ∧
    sUp.tick.st ≠ .paced ∧
    (RegsOk sWait ∧ sWait.tick.inTick = true ∧ getReg sWait Reg.tickTimeout ≠ 0#32 ∧ sWait.tick.st = .run ∧ phaseDone sWait = false ∧
      sWait.tick.haltSame = false) ∧ phaseDone sSpacer = true ∧
    (let s : State := { sUp with tick := { sUp.tick with toLoc := some (1#32, 2#32) } }
     RegsOk s ∧ s.tick.toLoc = some (1#32, 2#32)) ∧
    (let s : State := { sRun 2 2 with ra := { (sRun 2 2).ra with rel := 1, gio := 1, toggles := [(1, 3)], gioOut := [(1, 5, 7)] } }
     s.ra.rel < s.ra.com ∧ s.ra.gio < s.ra.com ∧ s.ra.gioHold = false ∧
       s.ra.gioOut.find? (fun p => p.1 = s.ra.gio) = some (s.ra.gio, 5, 7)) ∧
    ((sRun 2 2).ra.com ≤ (sRun 2 2).ra.gio) ∧ (sPaced 0#32 255).tick.due = 255 ∧
    (waveOn sWait = true ∧ 0 < raDepth sWait ∧ (inGroups sWait).contains 4095 = true ∧ findVal sWait (sWait.tick.nowP1 - 1) 4095 = none) := by
  unfold RegsOk; decide +kernel

/-- The AVSBus master with these rails to write and repeats made. -/
def sAvs (todo : List AvsFrame) (n : Nat) : State :=
  { sUp with tick := { sUp.tick with avs := { sUp.tick.avs with todo := todo, busy := true, repeats := n } } }

theorem witness_Voltage :
    (mgmtOpen sUp = true ∧ RegsOk sUp) ∧
    (let f : AvsFrame := ⟨0, true, 7, 800⟩
     (sAvs [f] 3).tick.avs.todo = f :: [] ∧ (sAvs [f] 3).tick.avs.modeNext = none ∧ RegsOk (sAvs [f] 3) ∧ (sAvs [f] 0).tick.avs.repeats < 3) ∧
    (let s : State := { sUp with tick := { sUp.tick with avs := { sUp.tick.avs with mode := 2 } } }
     RegsOk s ∧ avsMode s = 2) ∧ avsMode sUp ≠ 2 := by
  unfold RegsOk; decide +kernel

/-! ### Witnesses: run-ahead -/

theorem witness_RunAheadRegisters : mgmtOpen sUp = true ∧ RegsOk sUp := by unfold RegsOk; decide +kernel

/-- A boundary frame of `n` groups from group `f`, of device 5, for the tick with this tag. -/
def frame (tag f n v : Nat) : Payload := payPut (payPut (payPut (mkMsg 0x20 tag 5 0) 1 1 n) 8 2 f) 16 8 v
/-- A recall of group `f`. -/
def recallOf (tag f v : Nat) : Payload := payPut (payPut (payPut (mkMsg 0x21 tag 5 0) 1 1 1) 16 2 f) 18 8 v
/-- The data wave of tick 0 at depth 1; group 4095 comes from device 5, output group 3 goes out. -/
def sBnd (vals : List BVal) (outs : List BOut) : State :=
  setReg (Reg.bndInMap 4095) 0x80000005#32 (setReg (Reg.bndOutMap 3) 0x80000000#32 (setReg Reg.raCfg 1#32
    { sWave with ra := { sWave.ra with vals := vals, outHist := outs } }))
/-- A rollback decided, no tick in progress, the target in the backwater ring. -/
def sRoll : State :=
  { sRun 2 1 with ra := { (sRun 2 1).ra with rb := some ⟨1, false, 16⟩, ring := [⟨1, [(0, 1)], []⟩] } }

theorem witness_BoundaryValues :
    (RegsOk (sBnd [] []) ∧ frameBad (sBnd [] []) (frame 0 4095 2 0) = true) ∧
    (frameBad (sBnd [] []) (frame 0 4095 1 9) = false ∧ (sBnd [] []).net.ct = []) ∧
    (let s := sBnd [{ tick := 0, g := 4095, pred := some 9, used := true }] []
     RegsOk s ∧ frameBad s (frame 0 4095 1 7) = false ∧ s.net.ct = [] ∧ payN (frame 0 4095 1 7) 1 1 = 1 ∧ s.ra.rb = none ∧
       findVal s (tagTick s (payN (frame 0 4095 1 7) 2 2)) (payN (frame 0 4095 1 7) 8 2 % 4096) =
         some { tick := 0, g := 4095, pred := some 9, used := true }) ∧
    (waveOn (sBnd [] []) = true ∧ (outFrames (sBnd [] [])).find? (fun p => p.1 = 3) = some (3, 1) ∧
      (∀ h ∈ (sBnd [] []).ra.outHist, ¬ (h.tick = (sBnd [] []).tick.nowP1 - 1 ∧ h.g = 3)) ∧
      (∀ p ∈ (sBnd [] []).ra.outPend, p.2 ≠ 3) ∧ (sBnd [] []).ra.com ≤ (sBnd [] []).tick.nowP1 - 1) ∧
    (let s := { sBnd [] [] with ra := { (sBnd [] []).ra with outPend := [(0, 3)], com := 1 } }
     (outFrames s).find? (fun p => p.1 = 3) = some (3, 1) ∧ s.ra.outPend.find? (fun p => p.2 = 3) = some (0, 3) ∧ 0 < s.ra.com) ∧
    (StoresOk sRoll ∧ sRoll.ra.rb = some ⟨1, false, 16⟩ ∧ sRoll.tick.inTick = false ∧ sRoll.ra.restored = false ∧
      sRoll.tick.st ≠ .fault ∧ sRoll.ra.ring.find? (fun q => q.tick = 1) = some ⟨1, [(0, 1)], []⟩ ∧
      frameOf (withTile tLut sRoll) 0 ≠ idleFrame ∧ fFree (frameOf (withTile tLut sRoll) 0) = false) ∧
    (let s := sBnd [] [⟨0, 3, 8⟩]
     RegsOk s ∧ waveOn s = true ∧ s.ra.outHist.find? (fun h => h.tick = s.tick.nowP1 - 1 && h.g = 3) = some ⟨0, 3, 8⟩ ∧
       (8 : BitVec 64) ≠ 9) ∧
    (let s := sBnd [{ tick := 0, g := 4095, real := some 9, used := true }] []
     payN (recallOf 0 4095 7) 1 1 = 1 ∧ tagHeld s (tagTick s (payN (recallOf 0 4095 7) 2 2)) = true ∧
       (inGroups s).contains (payN (recallOf 0 4095 7) 16 2 % 4096) = true ∧
       groupSrc s (payN (recallOf 0 4095 7) 16 2 % 4096) = msgSrc (recallOf 0 4095 7) ∧
       findVal s (tagTick s (payN (recallOf 0 4095 7) 2 2)) (payN (recallOf 0 4095 7) 16 2 % 4096) =
         some { tick := 0, g := 4095, real := some 9, used := true } ∧
       (9 : BitVec 64) ≠ BitVec.ofNat 64 (payN (recallOf 0 4095 7) 18 8) ∧
       tagTick s (payN (recallOf 0 4095 7) 2 2) < s.tick.nowP1 ∧ s.ra.rb = none) := by
  unfold RegsOk StoresOk; decide +kernel

theorem witness_BoundaryValues_kept :
    let s := { sBnd [] [] with ra := { (sBnd [] []).ra with outPend := [(0, 3)], outReg := [⟨0, 3, 8⟩] } }
    (outFrames s).find? (fun p => p.1 = 3) = some (3, 1) ∧ s.ra.outPend.find? (fun p => p.2 = 3) = some (0, 3) ∧ s.ra.com ≤ 0 ∧
      s.ra.outReg.find? (fun r => r.tick = 0 && r.g = 3 + 0) = some ⟨0, 3, 8⟩ := by decide +kernel

/-- A root, or another device, with a wave in progress. -/
def sFab (id : Nat) (w : Wave) : State :=
  { sUp with net := { sUp.net with id := id, parent := some 16, dstate := .ready }, ra := { sUp.ra with wave := w, alone := false } }

theorem witness_LowWaterWave :
    (isRoot (sFab 0 {}) = true ∧ (sFab 0 {}).ra.wave.busy = false) ∧ RegsOk (sFab 0 {}) ∧
    (let s := sFab 7 { cur := some 0xFFFF, busy := true }
     waveAct s 0xFFFF = .now ∧ waveAct s 5 ≠ .now ∧ waveAct s 5 ≠ .begins ∧ waveAct (sFab 7 { cur := some 0xFFFF }) 0 = .begins) ∧
    (let s := { sFab 7 { cur := some 0xFFFF, busy := true } with net := { sUp.net with children := 8 } }
     RegsOk s ∧ s.ra.wave.cur = some 0xFFFF ∧ (childChans s).contains 3 = true) ∧
    (let s := sFab 7 { cur := some 0xFFFF, busy := true }
     waveReady s = true ∧ isRoot s = false ∧ parentChan s = some 16) ∧
    (let s := sFab 0 { cur := some 0xFFFF, busy := true }
     RegsOk s ∧ waveReady s = true ∧ isRoot s = true ∧ s.ra.alone = false) ∧
    (let s := sFab 7 { cur := some 0xFFFF }
     let pay := payPut (mkMsg 0x32 0xFFFF 0 7) 1 1 1
     RegsOk s ∧ s.ra.wave.cur = some 0xFFFF ∧ payN pay 2 2 = 0xFFFF ∧ s.ra.alone = false ∧ bitAt pay 8 = true) := by
  unfold RegsOk; decide +kernel

/-! ### Witnesses: links and the device fabric -/

/-- Channel 19, or another one, in this state. -/
def sChan (c : Nat) (x : Chan) : State := setChan c x sUp

theorem witness_LinkCommands :
    (mgmtOpen sUp = true ∧ RegsOk sUp ∧ StoresOk sUp ∧ (getChan sUp 19).owned = false ∧
      chansOpen sUp = true ∧ chanFailed sUp 19 = false ∧ (getChan sUp 19).st = .disabled) ∧
    (mgmtOpen State.reset = true ∧ RegsOk State.reset ∧ StoresOk State.reset ∧ (getChan State.reset 0).owned = false ∧
      chansOpen State.reset = false) ∧
    linkUp (sChan 0 { st := .up }) 0 = true ∧
    (let s := sChan 19 { owned := true }
     mgmtOpen s = true ∧ RegsOk s ∧ StoresOk s ∧ (getChan s 19).owned = true) := by
  unfold RegsOk StoresOk; decide +kernel

theorem witness_LinkTraining :
    (let s := sChan 15 { st := .training, attempts := 2, partner := some 0, lanesUp := 1 }
     RegsOk s ∧ StoresOk s ∧ inTraining s 15 = true ∧ (getChan s 15).partner = some 0 ∧ nextLanes s 15 ≠ 0#4 ∧
       (getChan s 15).retry = [] ∧ 2 ≤ (getChan s 15).attempts) ∧
    (let s := setReg (Reg.lnkCfg 15) 0x20#32 (sChan 15 { st := .retraining, lanesUp := 0xF })
     let p := payPut (payPut (payPut 0 2 1 (lnkRate s 15)) 3 1 (lnkLanes s 15)) 20 1 7
     RegsOk s ∧ StoresOk s ∧ inTraining s 15 = true ∧ payN p 2 1 = lnkRate s 15 ∧ payN p 3 1 = lnkLanes s 15 ∧
       payN p 4 1 = b2n (lnkFec s 15) ∧ partnerLost s 15 p = true) ∧
    (let s := sChan 0 { st := .up, resetting := true }
     StoresOk s ∧ (getChan s 0).resetting = true ∧ ∀ p ∈ s.chans, ∀ o ∈ p.2.outq, ¬ (o.f.slot = true ∧ o.f.arr = some 0) ∧
       ∀ h ∈ s.net.held, ¬ (h.f.slot = true ∧ h.f.arr = some 0 ∧ h.stalled = false)) ∧
    (let s := sChan 15 { st := .up, lanesUp := 0xF }
     RegsOk s ∧ linkUp s 15 = true ∧ bitAt (getChan s 15).lanesUp 3 = true ∧ bitAt (getChan s 15).lanesOk 3 = true) ∧
    (let s := sChan 15 { st := .retraining, lanesUp := 0xF }
     RegsOk s ∧ (getChan s 15).st = .retraining ∧ (getChan s 15).resetting = false ∧ bitAt (getChan s 15).lanesUp 3 = true ∧
       bitAt (getChan s 15).lanesOk 3 = true) ∧
    (RegsOk (sChan 19 { st := .up }) ∧ linkUp (sChan 19 { st := .up }) (16 + 3) = true) ∧
    linkUp (sChan 15 { st := .up }) (4 * 3 + 3) = true := by
  unfold RegsOk StoresOk; decide +kernel

/-- A flit on VL0, queued or kept for replay. -/
def flit0 : Flit := { vl := 0, dl := 0, pay := 5 }
def cSend : Chan := { st := .up, credits := [1, 0, 0, 0, 0, 0], outq := [⟨0, flit0⟩], nextTx := 1023 }
def cKeep : Chan := { st := .up, retry := [⟨1023, 0, flit0⟩], replays := 15, unret := [0, 0, 0, 0, 0, 3] }
/-- A header of VL0 with this SEQ. -/
def hdr0 (seq : Nat) : BitVec 24 := BitVec.ofNat 24 (16 * seq)

theorem witness_FlitTransfer :
    (let s := sChan 4 cSend
     RegsOk s ∧ linkUp s 4 = true ∧ (getChan s 4).replay = none ∧ (getChan s 4).nakDue = none ∧
       (getChan s 4).creditDue = false ∧
       (getChan s 4).slotIdle < 4095 ∧ arbiter (getChan s 4) = some 0 ∧ ready (getChan s 4) 0 = some ⟨0, flit0⟩ ∧
       (getChan s 4).retry.length < 512) ∧
    (linkUp (sChan 4 { st := .up }) 4 = true ∧ arbiter (getChan (sChan 4 { st := .up }) 4) = none) ∧
    (let w : WireFlit := ⟨0, 5, 7⟩
     let s := sChan 19 { st := .up, sent := some w }
     linkUp s 19 = true ∧ (getChan s 19).sent = some w ∧ (getChan s 19).sentErr = 0#1088 ∧ isFord 19 = true) ∧
    (let s := sChan 4 { st := .up, nextRx := 1023 }
     RegsOk s ∧ linkUp s 4 = true ∧ fld (hdr0 1023) 0 2 ≠ 3 ∧ fld (hdr0 1023) 4 10 = (getChan s 4).nextRx ∧
       (getChan s 4).rxErr = 0#1088) ∧
    (let s := sChan 4 { st := .up, rxErr := 3 }
     RegsOk s ∧ linkUp s 4 = true ∧ popc 1088 (getChan s 4).rxErr.toNat = 2) ∧
    (fld (hdr0 1023 + 1#24) 0 2 = 1 ∧ msgType (mkMsg 0x50 0 0 0) = 0x50) ∧
    (let s := sChan 4 cKeep
     RegsOk s ∧ StoresOk s ∧ linkUp s 4 = true ∧ bitAt (hdr0 0) 3 = false ∧ (∃ e ∈ (getChan s 4).retry, e.seq = 1023) ∧
       (getChan s 4).replays < 16 ∧ (getChan s 4).retry = ⟨1023, 0, flit0⟩ :: [] ∧ (∃ n ∈ (getChan s 4).unret, 0 < n)) ∧
    (let s := setReg (Reg.lnkStallTo 4) 1#32 (sChan 4 { cSend with credits := [0, 0, 0, 0, 0, 0] })
     RegsOk s ∧ linkUp s 4 = true ∧ getReg s (Reg.lnkStallTo 4) &&& 0xFFFF#32 ≠ 0#32 ∧ (⟨0, flit0⟩ : OutFlit) ∈ (getChan s 4).outq ∧
       (getChan s 4).credits.getD (flitClass flit0.vl 0) 0 = 0) := by
  unfold RegsOk StoresOk; decide +kernel

theorem witness_FlitTransfer_crc : flitCrc 0 0 = flitCrc 0 0 ∧ flitCrc 0 0 + 1#32 ≠ flitCrc 0 0 :=
  ⟨rfl, by decide +kernel⟩

theorem witness_CutThrough :
    (let s := setReg (Reg.lnkFwd 19 0) 0x10000000#32 (setChan 19 { st := .up } (sBnd [] []))
     let p := frame 0 4095 1 9
     linkUp s (16 + 3) = true ∧ msgType p = 0x20 ∧ 0 < payN p 1 1 ∧ payN p 1 1 ≤ 14 ∧ payN p 8 2 % 4096 + 0 ≤ 4095 ∧
       tagHeld s (tagTick s (payN p 2 2)) = true ∧ bitAt (routeEntry s (some (16 + 3)) (msgDst p)) 28 = true ∧
       (inGroups s).contains (payN p 8 2 % 4096 + 0) = true ∧ groupSrc s (payN p 8 2 % 4096 + 0) = msgSrc p ∧
       findVal s (tagTick s (payN p 2 2)) (payN p 8 2 % 4096 + 0) = none) ∧
    msgType (mkMsg 0x21 0 0 0) ≠ 0x20 := by decide +kernel

/-- A message of this type with bytes 1, 8 and the number from byte 16. -/
def msgOf (typ w hops pos sixteen : Nat) : Payload := payPut (payPut (payPut (mkMsg typ w 5 0) 1 1 hops) 8 1 pos) 16 8 sixteen

/-- What is put into eight bytes of a payload is what is read there. -/
theorem payN_put_serial (p : Payload) (v : BitVec 64) : payN (payPut p 24 8 v.toNat) 24 8 = v.toNat := by
  have hp := p.isLt
  have hv := v.isLt
  unfold payN payPut setFld fld
  simp only [BitVec.toNat_ofNat, Nat.shiftRight_eq_div_pow]
  omega

theorem witness_DiscoveryMessages :
    (let s : State := { sUp with net := { sUp.net with discover := true } }
     s.net.cand = none ∧ s.net.enum = none ∧ s.net.discover = true) ∧
    (let s : State := setReg Reg.fabCfg 1#32 { sUp with net := { sUp.net with dstate := .electing } }
     s.net.cand = none ∧ s.net.enum = none ∧ bitAt (getReg s Reg.fabCfg) 0 = true ∧ s.net.committed = false ∧ s.net.dstate ≠ .unassigned) ∧
    (mgmtOpen sUp = true ∧ RegsOk sUp) ∧ (badHops (msgOf 0x01 1 33 0 0) = true ∧ badHops (msgOf 0x01 1 0 0 0) = true) ∧
    (let s : State := { sUp with net := { sUp.net with pend := some (7, 1) } }
     RegsOk s ∧ s.net.pend = some (7, 1) ∧ assignBusy s = false ∧ assignBusy sWave = true) ∧
    (let s : State := { sUp with net := { sUp.net with relayRet := [(0, 3)] } }
     0 < payN (msgOf 0x02 1 1 1 0) 8 1 ∧ s.net.relayRet = [(payN (msgOf 0x02 1 1 1 0) 8 1 - 1, 3)] ∧ sUp.net.relayRet = []) ∧
    (let s : State := { sUp with net := { sUp.net with pend := some (7, 1) } }
     let p := payPut (payPut (msgOf 0x04 1 32 31 0) 9 1 20) 10 2 1004
     badHops p = false ∧ payN p 1 1 ≤ payN p 8 1 + 1 ∧ s.net.pend = some (7, payN p 2 2) ∧ 0 < payN p 9 1 ∧ payN p 9 1 ≤ 20 ∧
       payN p 10 2 % 1024 + payN p 9 1 ≤ 1024 ∧ bitAt (getReg s Reg.fabCfg) 8 = false ∧ s.net.shadow = []) ∧
    (let e : Enum := { nodes := [], wait := .commit 3, tries := 2 }
     let s : State := { sUp with net := { sUp.net with enum := some e } }
     RegsOk s ∧ s.net.enum = some e) ∧
    (payN (mkMsg 0x07 0 5 0) 8 2 % 1024 ≠ sUp.net.id ∧ payN (mkMsg 0x07 0 5 0) 10 2 % 1024 ≠ sUp.net.id) := by
  unfold RegsOk; decide +kernel

/-- Bytes below the eight are as before. -/
theorem payN_put_below (p : Payload) (v : BitVec 64) :
    payN (payPut p 24 8 v.toNat) 1 1 = payN p 1 1 ∧ payN (payPut p 24 8 v.toNat) 8 1 = payN p 8 1 ∧
    payN (payPut p 24 8 v.toNat) 16 8 = payN p 16 8 := by
  have hp := p.isLt
  have hv := v.isLt
  unfold payN payPut setFld fld
  simp only [BitVec.toNat_ofNat, Nat.shiftRight_eq_div_pow]
  omega

/-- A QUERY that names this device and a candidate that this device holds for the best. -/
theorem witness_DiscoveryMessages_query :
    let s : State := { sUp with net := { sUp.net with cand := some (false, 9) } }
    let p := payPut (msgOf 0x01 1 32 31 9) 24 8 Config.serial.toNat
    badHops p = false ∧ payN p 8 1 + 1 = payN p 1 1 ∧ payN p 24 8 = Config.serial.toNat ∧ payN p 16 8 = (bestCand s).2 ∧
      s.net.pend = none := by
  obtain ⟨h1, h8, h16⟩ := payN_put_below (msgOf 0x01 1 32 31 9) Config.serial
  refine ⟨?_, ?_, payN_put_serial _ _, ?_, rfl⟩
  · unfold badHops; rw [h1]; decide +kernel
  · rw [h1, h8]; decide +kernel
  · rw [h16]; decide +kernel

/-- A channel with a reroute in progress. -/
def sEv (e : Reroute) : State := setReg Reg.fabFenceTo 1#32 (sChan 19 { st := .up, nbId := 5, nbChan := 3, ev := some e })

theorem witness_Reroute :
    StoresOk sUp ∧
    (let p := payPut (mkMsg 0x09 0 5 0) 1 1 3
     RegsOk sUp ∧ chanTo sUp (msgSrc p) (payN p 1 1) = none ∧
       (let s := sChan 19 { st := .up, nbId := 5, nbChan := 3 }
        chanTo s (msgSrc p) (payN p 1 1) = some 19 ∧ (getChan s 19).ev = none ∧ chanIn s 19 = true ∧
          chanIn (sChan 19 { st := .failed, nbId := 5, nbChan := 3 }) 19 = false)) ∧
    (let p := payPut (mkMsg 0x0A 2 5 0) 10 1 3
     let s : State := { sUp with net := { sUp.net with fences := [⟨5, 3, 2, 1⟩] } }
     sUp.net.fences = [] ∧ s.net.fences = [⟨msgSrc p, payN p 10 1, payN p 2 2, 1⟩] ∧ (1 : Nat) ≠ payN p 1 1) ∧
    (let p := payPut (payPut (mkMsg 0x0B 0 5 0) 8 2 5) 10 1 3
     RegsOk sUp ∧ chanTo sUp (payN p 8 2 % 1024) (payN p 10 1) = none ∧
       chanTo (sChan 19 { st := .up, nbId := 5, nbChan := 3 }) (payN p 8 2 % 1024) (payN p 10 1) = some 19) ∧
    (let e : Reroute := { num := 1, peer := 5, dests := [7] }
     RegsOk (sEv e) ∧ (getChan (sEv e) 19).ev = some e ∧ getReg (sEv e) Reg.fabFenceTo ≠ 0#32 ∧ e.dests ≠ [] ∧ e.expired = false ∧
       ∀ h ∈ (sEv e).net.held, isRequest h.f = false) ∧
    (getChan sUp 19).ev = none := by
  unfold RegsOk StoresOk; decide +kernel

/-! ### Witnesses: queues and crossings -/

/-- A tile whose east-going L1s carry OA and OB of cells 2 and 3 and elements 4 to 7: all valid, L1 7 at this level. -/
def tWest (l7 : Nat) : Tile :=
  { frame := frameWith (2 ^ 3328 + (3 * 2 ^ 24 + 3 * 2 ^ 30 + 3 * 2 ^ 36 + 3 * 2 ^ 42) * 2 ^ 2880), frFull := 1, q := BitVec.ofNat 64 (128 * l7),
    oaF := 12, obF := 12 }
/-- A tile each of whose lines takes the L1 that comes from the west. -/
def tEast (free : Nat) : Tile := { frame := frameWith (0xDD * ((2 ^ 512 - 1) / 255) * 2 ^ 3360 + free * 2 ^ 3328) }
/-- Queue 2047 with this configuration and state; its write or read tile gets these levels from the west. -/
def sQueue (s : State) (cfg : Word) (x : Queue) (t free l7 : Nat) : State :=
  setQ 2047 x (setReg (Reg.qcfg 2047) cfg (setTile (t - 256) (tWest l7) (setTile t (tEast free) s)))
/-- A device whose clocked domains are not up yet. -/
def sDown : State := { State.reset with fab := { State.reset.fab with gsr := 0 } }
def qUp : Queue := { wr := { st := .connected, inReset := false }, rd := { st := .connected, inReset := false } }

theorem witness_QueuePush_free :
    (∀ x ∈ [{ qUp with wp := 510, pwp := 510 }, { qUp with wp := 511, pwp := 511 }, { qUp with discarding := true },
        { qUp with rd := {} }],
      let s := sQueue sUp 0x101#32 x (qWrTile 2047) 1 1
      StoresOk s ∧ RegsOk s ∧ hostOf s (qWrTile 2047) = .qWr 2047 ∧ portTakes s (qWrTile 2047) = true ∧
        lineRail s (qWrTile 2047) 15 = .v1 ∧ (getQ s 2047).wr.ack = false ∧ (getQ s 2047).wr.inReset = false ∧ clockedUp s = true) ∧
    (qLinked qUp = true ∧ qUp.discarding = false ∧ qDw 0x101#32 { qUp with wp := 510, pwp := 510 } + 2 ≤ qN 0x101#32 ∧
      qN 0x101#32 < qDw 0x101#32 { qUp with wp := 511, pwp := 511 } + 2 ∧ qLinked { qUp with rd := {} } = false ∧
      qLinked { qUp with discarding := true } = true) := by
  unfold RegsOk StoresOk; decide +kernel

theorem witness_QueuePush_rest :
    (let s := sQueue sUp 0x101#32 { qUp with wr := {} } (qWrTile 2047) 1 1
     StoresOk s ∧ hostOf s (qWrTile 2047) = .qWr 2047 ∧ portTakes s (qWrTile 2047) = true ∧ lineRail s (qWrTile 2047) 15 = .v1 ∧
       (getQ s 2047).wr.ack = false ∧ (getQ s 2047).wr.inReset = true ∧ clockedUp s = true) ∧
    (let s := sQueue sDown 0x101#32 { qUp with wr := {} } (qWrTile 2047) 1 1
     hostOf s (qWrTile 2047) = .qWr 2047 ∧ portTakes s (qWrTile 2047) = true ∧ lineRail s (qWrTile 2047) 15 = .v1 ∧
       clockedUp s = false ∧ qLinked (getQ s 2047) = false) ∧
    (let s := sQueue sUp 0x101#32 qUp (qWrTile 2047) 1 0
     StoresOk s ∧ hostOf s (qWrTile 2047) = .qWr 2047 ∧ portTakes s (qWrTile 2047) = true ∧ lineRail s (qWrTile 2047) 15 = .v0) ∧
    (let s := sQueue sWave 0x101#32 qUp (qWrTile 2047) 0 1
     StoresOk s ∧ hostOf s (qWrTile 2047) = .qWr 2047 ∧ fFree (frameOf s (qWrTile 2047)) = false ∧ waveOn s = true ∧
       (getTile s (qWrTile 2047)).portOut = none ∧ linesValid s (qWrTile 2047) (hostLines s (qWrTile 2047)) = true ∧
       portQuiet s (qWrTile 2047) = false ∧ (getQ s 2047).wr.ack = false ∧ (getQ s 2047).wr.inReset = false ∧
       qLinked (getQ s 2047) = true) := by
  unfold StoresOk; decide +kernel

/-- One word stored at slot 1023 of the pointers' range. -/
def qOne : Queue := { qUp with mem := [(511, { pay := 5, tag := 1 })], wp := 0, pwp := 0, rp := 1023 }

theorem witness_QueuePop_free :
    (∀ x ∈ [qOne, qUp, { qOne with wr := {} }],
      let s := sQueue sUp 0x401#32 x (qRdTile 2047) 1 1
      StoresOk s ∧ RegsOk s ∧ hostOf s (qRdTile 2047) = .qRd 2047 ∧ portTakes s (qRdTile 2047) = true ∧
        lineRail s (qRdTile 2047) 15 = .v1 ∧ (getQ s 2047).rd.ack = false ∧ (getQ s 2047).rd.inReset = false ∧ clockedUp s = true) ∧
    (qLinked qOne = true ∧ qEmpty 0x401#32 qOne = false ∧ (qSlot 0x401#32 qOne qOne.rp).err = 0 ∧ qEmpty 0x401#32 qUp = true ∧
      qLinked { qOne with wr := {} } = false) ∧
    (let s := sQueue sUp 0x401#32 qUp (qRdTile 2047) 1 0
     StoresOk s ∧ hostOf s (qRdTile 2047) = .qRd 2047 ∧ portTakes s (qRdTile 2047) = true ∧ lineRail s (qRdTile 2047) 15 = .v0) ∧
    (let s := sQueue sUp 0x401#32 { qUp with rd := {} } (qRdTile 2047) 1 1
     StoresOk s ∧ hostOf s (qRdTile 2047) = .qRd 2047 ∧ portTakes s (qRdTile 2047) = true ∧ lineRail s (qRdTile 2047) 15 = .v1 ∧
       (getQ s 2047).rd.ack = false ∧ (getQ s 2047).rd.inReset = true ∧ clockedUp s = true) ∧
    (let s := sQueue sDown 0x401#32 { qUp with rd := {} } (qRdTile 2047) 1 1
     hostOf s (qRdTile 2047) = .qRd 2047 ∧ portTakes s (qRdTile 2047) = true ∧ lineRail s (qRdTile 2047) 15 = .v1 ∧
       clockedUp s = false ∧ qLinked (getQ s 2047) = false) := by
  unfold RegsOk StoresOk; decide +kernel

/-- The same with a journal of one word of tick 0, not taken again yet, or taken. -/
def sJournal (taken : Nat) : State :=
  { sWave with ra := { sWave.ra with journal := [(2047, { words := [⟨0, 1, 9, false⟩], taken := taken })] } }

theorem witness_QueuePop_tick :
    (∀ k ∈ [0, 1],
      let s := sQueue (sJournal k) 0x401#32 qOne (qRdTile 2047) 0 1
      StoresOk s ∧ RegsOk s ∧ hostOf s (qRdTile 2047) = .qRd 2047 ∧ fFree (frameOf s (qRdTile 2047)) = false ∧ waveOn s = true ∧
        (getTile s (qRdTile 2047)).portOut = none ∧ linesValid s (qRdTile 2047) (hostLines s (qRdTile 2047)) = true ∧
        portQuiet s (qRdTile 2047) = false ∧ (getQ s 2047).rd.ack = false ∧ (getQ s 2047).rd.inReset = false) ∧
    (mget dJournal (sJournal 0).ra.journal 2047).words[(mget dJournal (sJournal 0).ra.journal 2047).taken]? = some ⟨0, 1, 9, false⟩ ∧
    (mget dJournal (sJournal 1).ra.journal 2047).words[(mget dJournal (sJournal 1).ra.journal 2047).taken]? = none ∧
    journalUsed (sJournal 1) (2047 / 256) < 65536 := by
  unfold RegsOk StoresOk; decide +kernel

/-- Queue 2047 with this configuration and state, no tile set. -/
def sQ (cfg : Word) (x : Queue) : State := setQ 2047 x (setReg (Reg.qcfg 2047) cfg sUp)

theorem witness_QueueFlushSync :
    qInd (qCfg sUp 2047) = false ∧
    (let s := sQ 0x10#32 { qUp with flush := .written, flushing := true }
     StoresOk s ∧ RegsOk s ∧ qInd (qCfg s 2047) = true ∧ (getQ s 2047).flush = .written) ∧
    (let s := sQ 0x10#32 { qUp with openSpill := true }
     StoresOk s ∧ (getQ s 2047).flush ≠ .written ∧ (getQ s 2047).flushing = false ∧ (getQ s 2047).openSpill = true ∧
       (getQ s 2047).sealReq = none ∧ ptrSub (qCfg s 2047) (getQ s 2047).pwp (getQ s 2047).rp = 0) ∧
    (let s := sQ 0x10#32 { qUp with openSpill := true, sealReq := some 0 }
     StoresOk s ∧ (getQ s 2047).sealReq = some 0) ∧
    (mgmtOpen sUp = true ∧ (getPath sUp 7).data = none ∧ StoresOk sUp ∧ RegsOk sUp ∧ qLinked qUp = true) := by
  unfold RegsOk StoresOk; decide +kernel

theorem witness_QueueFlushSync_act :
    (let s := sQ 1#32 { qUp with flush := .asked, hold := [⟨0, false, 9⟩] }
     StoresOk s ∧ RegsOk s ∧ (getQ s 2047).flush = .asked ∧ withinItem (getQ s 2047) = true ∧ withinItem qUp = false) := by
  unfold RegsOk StoresOk; decide +kernel

theorem witness_Crossings :
    (mgmtOpen sUp = true ∧ StoresOk sUp ∧ RegsOk sUp) ∧
    (∀ m ∈ [EpochMsg.ack 1 0, .connect 1],
      let s := sQ 1#32 { wr := { st := .connecting, inReset := false, msgs := [m] }, rd := { st := .connecting, inReset := false, msgs := [m] } }
      StoresOk s ∧ RegsOk s ∧ (getQ s 2047).wr.inReset = false ∧ (getQ s 2047).wr.msgs = m :: [] ∧
        (getQ s 2047).rd.inReset = false ∧ (getQ s 2047).rd.msgs = m :: []) ∧
    (∀ m ∈ [EpochMsg.ack 1 0, .connect 1],
      let s := setPort 255 { wr := { st := .connecting, inReset := false, msgs := [m] }, rd := { st := .connecting, inReset := false, msgs := [m] } } sUp
      StoresOk s ∧ RegsOk s ∧ (getPort s 255).wr.inReset = false ∧ (getPort s 255).wr.msgs = m :: [] ∧
        (getPort s 255).rd.inReset = false ∧ (getPort s 255).rd.msgs = m :: []) ∧
    (getPath sUp 7).data = none := by
  unfold RegsOk StoresOk; decide +kernel

theorem witness_Crossings_paths :
    (getPath sUp 7).data = none ∧ (getPath sUp 7).taken = false ∧
    (let s := setPath 7 { data := some (0, 0), taken := true, kept := [(0, 1)] } sUp
     (getPath s 7).data = some (0, 0) ∧ (getPath s 7).taken = true ∧ (getPath s 7).kept = (0, 1) :: []) ∧
    (let s := sQ 1#32 { qUp with wr := { qUp.wr with req := true }, hostPush := [(5, true)] }
     StoresOk s ∧ (getQ s 2047).hostPush = (5, true) :: [] ∧ (getQ s 2047).wr.req = true) ∧
    (RegsOk sUp ∧ StoresOk sUp ∧ (getQ sUp 2047).hostPush = []) := by
  unfold RegsOk StoresOk; decide +kernel

theorem witness_Crossings_resets :
    (let s := setPath 7 { getPath sUp 7 with data := some (0, 0) } sUp
     (getPath s (2047 / 256)).data.isSome = true ∧ mgmtOpen s = true ∧ RegsOk s) ∧
    (let s := sQ 1#32 { qUp with wr := { qUp.wr with peerRst := true }, wp := 3, pwp := 3 }
     StoresOk s ∧ RegsOk s ∧ (getQ s 2047).hostPush = [] ∧ (getQ s 2047).wr.peerRst = true) ∧
    (let s := sQ 1#32 { qUp with wr := {} }
     StoresOk s ∧ (getQ s 2047).wr.inReset = true ∧ qEn (qCfg s 2047) = true ∧ clockedUp s = true ∧ siteFailed s 2047 = false) ∧
    (let s := setPort 255 { wr := { peerRst := true } } (setReg (Reg.ppCfg 255) 1#32 sUp)
     StoresOk s ∧ (getPort s 255).wr.inReset = true ∧ bitAt (getReg s (Reg.ppCfg 255)) 0 = true ∧ portFailed s 255 = false ∧
       (getPort s 255).resetAsked = false) ∧
    (let s := setPort 255 { rd := { peerRst := true } } sUp
     StoresOk s ∧ (getPort s 255).rd.peerRst = true) := by
  unfold RegsOk StoresOk; decide +kernel

/-! ### Witnesses: pools -/

/-- A PLAIN pool of 2^29 words with every right, its descriptor at ID 1, or the same command in POOL_DESC_DATA. -/
def plain : Desc := [0x3000000#32, 0x20000000#32, 0x00FF0100#32, 0#32, 0#32, 0x3FF#32, 0#32, 0#32]
def sPool : State :=
  { sUp with pool := { sUp.pool with hbm := [(4, { data := 0x2000000003000000 }), (5, { data := 0xFF0100 }), (6, { data := 0x3FF00000000 })] } }
/-- The same of one word. -/
def oneWord : Desc := [0x3000000#32, 1#32, 0x00FF0100#32, 0#32, 0#32, 0x3FF#32, 0#32, 0#32]
def sDesc (d : Desc) : State :=
  forEach (fun i => setReg (Reg.poolDescData i) (dW d i)) (upTo 8) (setReg Reg.poolDescId 0xFFFFF#32 sUp)
/-- The descriptor of pool 0xFFFFF is claimed. -/
def sClaimed : State := { sDesc oneWord with claims := [⟨8, 6, 0xFFFFF, 1⟩] }

theorem test_desc_layout : tableDesc sPool 1 = plain := by decide +kernel

theorem witness_Descriptors :
    (mgmtOpen (sDesc oneWord) = true ∧ RegsOk (sDesc oneWord) ∧ StoresOk (sDesc oneWord) ∧ (sDesc oneWord).pool.busy = none ∧
      (sDesc oneWord).pool.fifo = [] ∧
      ∀ i < 4, (hbmAt (sDesc oneWord) (4 * 0xFFFFF + i)).err = 0) ∧
    mwf dDescs (sDesc oneWord).pool.dcache = true ∧
    (let s := setReg (Reg.msixCtl 8) 0 sUp
     s.msix.enable = true ∧ s.msix.funcMask = false ∧ bitAt (getReg s (Reg.msixCtl 8)) 0 = false) ∧
    (let s : State := { sUp with pool := { sUp.pool with busy := some 0 } }; mgmtOpen s = true ∧ RegsOk s ∧ s.pool.busy ≠ none) ∧
    (mgmtOpen sClaimed = true ∧ RegsOk sClaimed ∧ descShut sClaimed (fld (getReg sClaimed Reg.poolDescId) 0 20) ≠ 0) ∧
    (let s := sDesc oneWord
     0xFFFFF = fld (getReg s Reg.poolDescId) 0 20 ∧ oneWord = (upTo 8).map (fun i => getReg s (Reg.poolDescData i)) ∧
       claimOwner s 8 0xFFFFF = none ∧ engineQuiet s = true ∧
       descCheck (useGranules 0xFFFFF (tableDesc s 0xFFFFF) false s) 0xFFFFF oneWord = 0) ∧
    (let d : Desc := [0x3000000#32, 0#32, 0x00FF0100#32, 0#32, 0#32, 0#32, 0#32, 0#32]
     let s := sDesc d
     RegsOk s ∧ 0xFFFFF = fld (getReg s Reg.poolDescId) 0 20 ∧ d = (upTo 8).map (fun i => getReg s (Reg.poolDescData i)) ∧
       claimOwner s 8 0xFFFFF = none ∧ engineQuiet s = true ∧
       descCheck (useGranules 0xFFFFF (tableDesc s 0xFFFFF) false s) 0xFFFFF d ≠ 0) := by
  unfold RegsOk StoresOk; decide +kernel

/-- The last word of HBM with these bits in error. -/
def sHbm (e : BitVec 72) : State := setHbm (2 ^ 35 - 1) { data := 5, err := e } sUp

theorem witness_HbmController :
    (hbmAt sUp (BitVec.allOnes 35).toNat).err = 0 ∧
    (RegsOk (sHbm 1) ∧ StoresOk (sHbm 1) ∧ popc 72 (hbmAt (sHbm 1) (BitVec.allOnes 35).toNat).err.toNat = 1) ∧
    (RegsOk (sHbm (3 <<< 70)) ∧ popc 72 (hbmAt (sHbm (3 <<< 70)) (BitVec.allOnes 35).toNat).err.toNat = 2) ∧
    mgmtOpen sUp = true := by
  unfold RegsOk StoresOk; decide +kernel

/-- A tile whose east-going L1 0 is valid 1 and whose others are valid 0. -/
def tAsk : Tile := { tWest 0 with oaT := 4, oaF := 8 }
/-- Channel 3 of port 255 asks to read word 0x10101010 through this binding. -/
def sAsk (bind : Word) : State :=
  setPort 255 { wr := { st := .connected, inReset := false }, rd := { st := .connected, inReset := false } }
    (setReg (Reg.ppCfg 255) 0x11#32 (setReg (Reg.ppBind 255 0) bind
      (setTile (poolTile 255 3 - 256) tAsk (setTile (poolTile 255 3) (tEast 1) sPool))))

theorem witness_PoolPorts_request (b : Word) (h : b = 0xC0000001#32 ∨ b = 0#32) :
    StoresOk (sAsk b) ∧ RegsOk (sAsk b) ∧ hostOf (sAsk b) (poolTile 255 3) = .pool 255 3 ∧
    fFree (frameOf (sAsk b) (poolTile 255 3)) = true ∧ portTakes (sAsk b) (poolTile 255 3) = true ∧
    lineRail (sAsk b) (poolTile 255 3) 0 = .v1 ∧ (getPort (sAsk b) 255).reqs = [] ∧ isFrozen (sAsk b) 3 255 = false ∧
    (getPort (sAsk b) 255).resetting = false ∧ (∀ n < 4, (hbmAt (sAsk b) (4 * 1 + n)).err = 0) ∧ portLinked (getPort (sAsk b) 255) = true ∧ bitAt (getPort (sAsk b) 255).ack 3 = false := by
  unfold StoresOk RegsOk
  rcases h with rfl | rfl <;> and_intros <;> decide +kernel

theorem witness_PoolPorts_valid :
    fld (ppBinding (sAsk 0xC0000001#32) 255 (linesVal (sAsk 0xC0000001#32) (poolTile 255 3) 2 2)) 0 20 = 1 ∧
    dKind (descOf (sAsk 0xC0000001#32) 7 1) = 1 ∧ dRight (descOf (sAsk 0xC0000001#32) 7 1) 0 = true ∧
    linesVal (sAsk 0xC0000001#32) (poolTile 255 3) 12 35 = 0x10101010 ∧ dDepth (descOf (sAsk 0xC0000001#32) 7 1) = 0x20000000 ∧
    dModel (descOf (sAsk 0xC0000001#32) 7 1) = false ∧ (sAsk 0xC0000001#32).pool.initWait.contains 1 = false := by and_intros <;> decide +kernel

/-- A read or write of word 7 of pool 1, taken. -/
def reqTaken (we : Bool) : PReq := { tick := none, we := we, pool := 1, idx := 7, be := 0x0F, din := 9, no := 0, st := .taken }
def sTaken (we : Bool) : State := setPort 255 { reqs := [(3, reqTaken we)] } sPool
/-- An entry that the commit agent drains, behind a younger one. -/
def wbOld : WbEntry := { tick := 1, pool := 1, idx := 7, be := 0x0F, data := 9, draining := some 0 }
def sDrain : State := setPort 255 { wb := [{ wbOld with tick := 2 }, wbOld] } sPool

/-- The stage that asked is free of GSR, and a stage under GSR or one whose request is gone gets no answer. -/
theorem witness_PoolPorts_gone :
    (reqTaken true).gone = false ∧ gsrOn (sTaken true) (tSec (poolTile 255 3)) = false ∧ (sTaken true).pool.fifo = [] ∧
    gsrOn State.reset (tSec (poolTile 255 3)) = true ∧ { reqTaken true with gone := true }.gone = true := by decide +kernel

/-- Pool 1 VERSIONED, of port 255, 2^30 words; channel 3, tick-bound, asks to write word 0x30303030 through a binding with WE. -/
def sVer : State :=
  { sWave with pool := { sUp.pool with hbm := [(4, { data := 0x4000000003000000 }), (5, { data := 0xFF00FF1100 }), (6, { data := 0x3FF00000000 })] } }
def sAskWrite : State :=
  setPort 255 { wr := { st := .connected, inReset := false }, rd := { st := .connected, inReset := false } }
    (setReg (Reg.ppCfg 255) 0x11#32 (setReg (Reg.ppBind 255 0) 0xC0000001#32
      (setTile (poolTile 255 3 - 256) { tWest 0 with oaT := 4, oaF := 8, obT := 4, obF := 8 } (setTile (poolTile 255 3) (tEast 0) sVer))))

theorem witness_PoolPorts_tickWrite_asks :
    StoresOk sAskWrite ∧ hostOf sAskWrite (poolTile 255 3) = .pool 255 3 ∧ fFree (frameOf sAskWrite (poolTile 255 3)) = false ∧
    portQuiet sAskWrite (poolTile 255 3) = false ∧ waveOn sAskWrite = true ∧ (getTile sAskWrite (poolTile 255 3)).portOut = none ∧
    linesValid sAskWrite (poolTile 255 3) (hostLines sAskWrite (poolTile 255 3)) = true := by
  unfold StoresOk; and_intros <;> decide +kernel

theorem witness_PoolPorts_tickWrite_port :
    (getPort sAskWrite 255).reqs.any (fun r => r.1 = 3) = false ∧ isFrozen sAskWrite 3 255 = false ∧
    (getPort sAskWrite 255).resetting = false ∧ portLinked (getPort sAskWrite 255) = true ∧ bitAt (getPort sAskWrite 255).ack 3 = false ∧
    (lineRail sAskWrite (poolTile 255 3) 1).high = true ∧ (getPort sAskWrite 255).wb = [] := by and_intros <;> decide +kernel

theorem witness_PoolPorts_tickWrite_valid :
    let b := ppBinding sAskWrite 255 (linesVal sAskWrite (poolTile 255 3) 2 2)
    let d := descOf sAskWrite (255 / 32) (fld b 0 20)
    (sAskWrite.pool.fifo = [] ∧ ∀ i < 4, (hbmAt sAskWrite (4 * fld b 0 20 + i)).err = 0) ∧ bitAt b 31 = true ∧ bitAt b 30 = true ∧
    dKind d ≠ 0 ∧ dRight d 1 = true ∧ dVersioned d = true ∧ dOwner d = 255 ∧
    linesVal sAskWrite (poolTile 255 3) 12 35 < dDepth d ∧ sAskWrite.pool.initWait.contains (fld b 0 20) = false := by
  intro b d; and_intros <;> decide +kernel

/-- A tick-bound request of tick 0, taken, to the VERSIONED pool, over an entry of no tick before it. -/
def sVerTaken (we : Bool) : State := setPort 255 { reqs := [(3, { reqTaken we with tick := some 0 })] } sVer

theorem witness_PoolPorts_tickAnswer : ∀ we ∈ [true, false],
    let s := sVerTaken we
    StoresOk s ∧ (getPort s 255).reqs = [(3, { reqTaken we with tick := some 0 })] ∧ s.pool.fifo = [] ∧ dCache (descOf s 7 1) = false ∧
      dVersioned (descOf s 7 1) = true ∧ dOwner (descOf s 7 1) = 255 ∧ (hbmAt s (poolAddr (descOf s 7 1) 7)).err = 0 := by
  unfold StoresOk; decide +kernel

theorem witness_PoolPorts :
    (getPort sPool 255).reqs.find? (fun r => r.1 = 3) = none ∧
    (∀ we ∈ [true, false],
      StoresOk (sTaken we) ∧ (getPort (sTaken we) 255).reqs = [(3, reqTaken we)] ∧ (reqTaken we).tick = none ∧
        (reqTaken we).st = .taken ∧ (reqTaken we).err = 0 ∧ dCache (descOf (sTaken we) 7 1) = false ∧ dVersioned (descOf (sTaken we) 7 1) = false ∧
        (hbmAt (sTaken we) (poolAddr (descOf (sTaken we) 7 1) 7)).err = 0) := by
  unfold StoresOk; decide +kernel

theorem witness_PoolPorts_drain :
    (StoresOk sDrain ∧ oldestEntry (fun e => e.draining.isSome) (getPort sDrain 255).wb = some wbOld ∧
      wbOld.err = 0 ∧ sDrain.pool.fifo = [] ∧ drainBehind sDrain 0 255 wbOld = false ∧ (∀ i < 4, (hbmAt sDrain (4 * wbOld.pool + i)).err = 0) ∧ dModel (descOf sDrain 7 wbOld.pool) = false ∧ dCache (descOf sDrain 7 wbOld.pool) = false ∧
      (hbmAt sDrain (poolAddr (descOf sDrain 7 wbOld.pool) wbOld.idx)).err = 0) ∧
    oldestEntry (fun e => e.draining.isSome) (getPort sPool 255).wb = none ∧ mgmtOpen sPool = true ∧ (getPath sPool 7).data = none := by
  unfold StoresOk; decide +kernel

/-- Eddy 0, which committed the entry, has a store to the same word before its drain. -/
def sBehind : State :=
  setEddy 0 { ops := [{ kind := .store 5, pool := 1, idx := 7 }, { kind := .drain 255, pool := 1, idx := 7 }] } sDrain

theorem witness_PoolPorts_behind :
    oldestEntry (fun e => e.draining.isSome) (getPort sBehind 255).wb = some wbOld ∧
    (sBehind.pool.fifo = [] ∧ ∀ i < 4, (hbmAt sBehind (4 * wbOld.pool + i)).err = 0) ∧
    drainBehind sBehind (wbOld.draining.getD 0) 255 wbOld = true := by decide +kernel

theorem witness_PoolPorts_reset :
    (let s := setPort 255 { resetAsked := true, resetting := true } sPool
     StoresOk s ∧ (getPort s 255).resetAsked = true ∧ ((getPort s 255).wb.any (fun e => e.tick < s.ra.com)) = false) := by
  unfold StoresOk; decide +kernel

/-- POOL_RD or POOL_WR of a word of a pool, from device 5. -/
def poolMsg (typ pool idx : Nat) : Payload := payPut (payPut (payPut (mkMsg typ 1 5 0) 1 1 0xF) 8 4 pool) 16 8 idx

theorem witness_RemotePools :
    (let p := poolMsg 0x40 1 0x1FFFFFFF
     let d := descOf sPool 8 (payN p 8 4 % 2 ^ 20)
     RegsOk sPool ∧ StoresOk sPool ∧ isFrozen sPool 4 (msgSrc p) = false ∧ sPool.pool.fifo = [] ∧ dKind d = 1 ∧ dRight d 6 = true ∧ dRight d 7 = true ∧
       dRemote d = 0x3FF ∧ payN p 16 8 % 2 ^ 35 < dDepth d ∧ dVersioned d = false ∧
       sPool.pool.initWait.contains (payN p 8 4 % 2 ^ 20) = false ∧ (hbmAt sPool (poolAddr d (payN p 16 8 % 2 ^ 35))).err = 0 ∧
       ∀ i < 4, (hbmAt sPool (4 * (payN p 8 4 % 2 ^ 20) + i)).err = 0) ∧
    (dKind (descOf sPool 8 (payN (poolMsg 0x40 2 0) 8 4 % 2 ^ 20)) = 0) ∧
    (dRight (descOf sPool 8 2) 7 = false ∧ dRight (descOf sPool 8 2) 6 = false) ∧
    (let s := setHbm 6 { data := 0x500000000 } sPool
     dRight (descOf s 8 1) 6 = true ∧ dRemote (descOf s 8 1) ≠ 0x3FF ∧ dRemote (descOf s 8 1) ≠ msgSrc (mkMsg 0x40 1 6 0)) ∧
    (RegsOk sVer ∧ dRight (descOf sVer 8 1) 7 = true ∧ dKind (descOf sVer 8 1) ≠ 0 ∧ versionedShut sVer (descOf sVer 8 1) = true) ∧
    (dDepth (descOf sPool 8 1) ≤ payN (poolMsg 0x40 1 0x20000000) 16 8 % 2 ^ 35) ∧
    (let s := setFrozen 4 5 true sPool
     isFrozen s 4 (msgSrc (poolMsg 0x40 1 0)) = true ∧ (s.pool.remHeld.filter (fun h => h.1 = msgSrc (poolMsg 0x40 1 0))).length < 16) := by
  unfold RegsOk StoresOk; decide +kernel

/-! ### Witnesses: eddies -/

/-- Eddy 511 runs, with the word `w` at address 8 and PC there. -/
def sIssue (w : Word) (x : Eddy) (s : State) : State :=
  setEddy 511 { x with st := .running, pc := 8, spad := mset dHbm x.spad 1 { data := w.setWidth 64 } } s

theorem witness_EddyFlags :
    ((upTo 14).map (encR 0 31 30 29 1) ++
      [encR 0 31 30 0 0 14, encR 0 31 30 0 1 15, encI 11 0 30 0xFFFF]).Forall fun w =>
      Issues 511 w (sIssue w {} sUp) ∧ NotPending (getEddy (sIssue w {} sUp) 511) [31, 30, 29, 1, 0] := by
  unfold Issues NotPending; decide +kernel

theorem witness_EddyImmediates :
    ([1, 2, 3, 4, 9, 10].map (fun op => encI op 31 30 0x8000) ++ [5, 6, 7].map (fun op => encI op 31 30 63) ++
        [encI 8 31 3 0xFFFF, encB 0x10 14 0x3FFFFF, encB 0x10 15 0, encI 0x13 0 30 0x8000, encI 0x14 0 30 0x7FFF, encJ 0x11 0x3FFFFFF,
         encI 0x12 31 31 0xFFFC]).Forall fun w =>
      (Issues 511 w (sIssue w {} sUp) ∧ NotPending (getEddy (sIssue w {} sUp) 511) [31, 30] ∧ (getEddy (sIssue w {} sUp) 511).exc = false) := by
  unfold Issues NotPending; decide +kernel

/-- The address that a load or store of this eddy gives with g30 and an offset of −8. -/
def xAt (a : Nat) : Eddy := { g := [(30, BitVec.ofNat 64 (a + 8))] }

theorem witness_EddyMemory :
    (∀ op ∈ [0x18, 0x19, 0x1A, 0x1B, 0x1C, 0x1D, 0x1E, 0x1F], ∀ a ∈ [0xEFF8, 0x40000, 0x10000, 0xFFFF],
      Issues 511 (encI op 31 30 0xFFF8) (sIssue (encI op 31 30 0xFFF8) (xAt a) sUp) ∧
      NotPending (getEddy (sIssue (encI op 31 30 0xFFF8) (xAt a) sUp) 511) [31, 30] ∧
      ((getG (xAt a) 30 + (0xFFF8 : BitVec 16).signExtend 64).setWidth 32 : Word).toNat = a) ∧
    RegsOk sUp ∧ SpPlain (sIssue 0 (xAt 0xEFF8) sUp) 511 0xEFF8 8 ∧ (xAt 0).exc = false ∧ (xAt 0).secure = false := by
  unfold Issues NotPending RegsOk SpPlain; decide +kernel

/-- Queue 2047, read and written by eddy 511, or by nobody. -/
def qEddy : Word := BitVec.ofNat 32 (1 + 2 * 2 ^ 8 + 2 * 2 ^ 10 + 63 * 2 ^ 12 + 63 * 2 ^ 18)
def sSite (cfg : Word) (x : Queue) (w : Word) : State := sIssue w {} (sQ cfg x)

theorem witness_EddyQueues :
    (([encQ 0x20 31 30 1 255, encQ 0x21 31 30 0 255, encQ 0x22 31 30 0 255, encQ 0x23 31 0 0 255, encQ 0x24 31 0 0 255]).Forall fun w =>
      Issues 511 w (sSite qEddy qOne w) ∧ Issues 511 w (sSite qEddy qUp w) ∧ Issues 511 w (sSite 0#32 qUp w) ∧
      NotPending (getEddy (sSite qEddy qOne w) 511) [31, 30]) ∧
    (let s := sSite qEddy qOne 0
     StoresOk s ∧ RegsOk s ∧ siteQ 511 255 = 2047 ∧ siteReads s 511 255 = true ∧ siteWrites s 511 255 = true ∧ qLinked (getQ s 2047) = true ∧
       (getQ s 2047).wr.inReset = false ∧ (getQ s 2047).rd.inReset = false ∧ (getQ s 2047).discarding = false ∧
       qDw (qCfg s 2047) (getQ s 2047) + 2 ≤ qN (qCfg s 2047) ∧ qEmpty (qCfg s 2047) (getQ s 2047) = false ∧
       (qSlot (qCfg s 2047) (getQ s 2047) (getQ s 2047).rp).err = 0 ∧ (getQ s 2047).flush = .none) ∧
    (let s := sSite qEddy qUp 0
     siteReads s 511 255 = true ∧ qEmpty (qCfg s (siteQ 511 255)) (getQ s (siteQ 511 255)) = true) ∧
    (siteReads (sSite 0#32 qUp 0) 511 255 = false ∧ siteWrites (sSite 0#32 qUp 0) 511 255 = false) := by
  unfold Issues NotPending RegsOk StoresOk; decide +kernel

/-- Handle 7 names pool 1, or pool 2 of KIND NONE, or is invalid; g30 is a word address. -/
def xHandle (ph : Word) (a : Nat) : Eddy := { g := mset dG [] 30 (BitVec.ofNat 64 a), ph := [(7, ph)] }
/-- An outstanding operation on word 7 of pool 1. -/
def sOp (k : EOpKind) (rd : Option Nat) : State := sIssue 0 { ops := [{ kind := k, pool := 1, idx := 7, rd := rd }] } sPool

theorem witness_EddyPools_issue :
    (∀ x ∈ [xHandle 0x80000001#32 0x1FFFFFFF, xHandle 0x80000001#32 0x20000000, xHandle 0x80000002#32 0, xHandle 1#32 0],
      ([encP 0x28 31 30 7 0, encP 0x29 31 30 7 0] ++ (upTo 6).map (encA 0x2A 31 30 29 7)).Forall fun w =>
        Issues 511 w (sIssue w x sPool) ∧ NotPending (getEddy (sIssue w x sPool) 511) [31, 30, 29] ∧ outstanding x < 8 ∧ x.exc = false) ∧
    (bitAt (0x80000001#32) 31 = true ∧ bitAt (1#32) 31 = false ∧ dDepth (descOf sPool 7 1) = 0x20000000 ∧ dKind (descOf sPool 7 1) = 1 ∧
      dRight (descOf sPool 7 1) 2 = true ∧ dRight (descOf sPool 7 1) 3 = true ∧ dVersioned (descOf sPool 7 1) = false ∧ ∀ n ∈ [1, 2], ∀ i < 4, (hbmAt sPool (4 * n + i)).err = 0) := by
  unfold Issues NotPending; decide +kernel

/-- PLD of the last word of a pool of KIND NONE with a depth. -/
def sNone : State :=
  { sUp with pool := { sUp.pool with hbm := [(8, { data := 0x103000000 }), (9, { data := 0xFF0000 })] } }

theorem witness_EddyPools :
    (0 < dDepth (descOf sNone 7 2) ∧ dKind (descOf sNone 7 2) = 0) ∧
    (∀ k ∈ [EOpKind.load, .store 5, .atomic 5 1 0], ∀ rd ∈ [none, some 31],
      StoresOk (sOp k rd) ∧ (sOp k rd).pool.fifo = [] ∧ opReady (sOp k rd) 511 0 = some { kind := k, pool := 1, idx := 7, rd := rd } ∧
      dKind (descOf (sOp k rd) 7 1) = 1 ∧ dVersioned (descOf (sOp k rd) 7 1) = false ∧ dCache (descOf (sOp k rd) 7 1) = false ∧
      (hbmAt (sOp k rd) (poolAddr (descOf (sOp k rd) 7 1) 7)).err = 0) := by
  unfold StoresOk; decide +kernel

/-- Port 255 holds a committed entry that no agent drains yet. -/
def wbDue : WbEntry := { tick := 0, pool := 1, idx := 7, be := 0xFF, data := 9 }
def sCmt (sec : Bool) (wb : List WbEntry) : State :=
  sIssue (encI 0x2B 31 0 31) { secure := sec } (setPort 255 { wb := wb } { sPool with ra := { sPool.ra with com := 1 } })

theorem witness_EddyPools_commit :
    (∀ sec ∈ [true, false], ∀ wb ∈ [[], [wbDue]],
      Issues 511 (encI 0x2B 31 0 31) (sCmt sec wb) ∧ NotPending (getEddy (sCmt sec wb) 511) [31] ∧ (getEddy (sCmt sec wb) 511).secure = sec ∧
      outstanding (getEddy (sCmt sec wb) 511) < 8 ∧ (getEddy (sCmt sec wb) 511).exc = false ∧
      oldestEntry (fun w => decide (w.tick < (sCmt sec wb).ra.com) && w.draining.isNone) (getPort (sCmt sec wb) 255).wb = wb.head?) ∧
    (let x : Eddy := { secure := true, ops := List.replicate 8 { kind := .load, pool := 1, idx := 7 } }
     outstanding x = 8) ∧
    (StoresOk (sCmt true [wbDue]) ∧ dModel (descOf (sCmt true [wbDue]) 7 wbDue.pool) = false) ∧
    (let w := encI 0x3E 0 0 3
     let x : Eddy := { ops := [{ kind := .load, pool := 1, idx := 7, rd := some 31 }] }
     Issues 511 w (sIssue w x sPool) ∧ outstanding x ≠ 0 ∧ Issues 511 w (sIssue w {} sPool) ∧ outstanding ({} : Eddy) = 0 ∧
       ({} : Eddy).dmaQ = []) := by
  unfold Issues NotPending StoresOk; decide +kernel

/-- A record of a MODEL pool's model. -/
def recM : ModelRec := ⟨3, 1, 1, 7, 0xFF, 2, 0, 9⟩
def sMod (inbox : List ModelRec) (outst : List ModelOut) (w : Word) (x : Eddy) : State :=
  sIssue w x { sUp with pool := { sUp.pool with inbox := mset dInbox [] 511 inbox, outst := outst } }

theorem witness_EddySystem_models :
    (([encI 0x30 29 0 0, encI 0x30 29 0 1]).Forall fun w =>
      Issues 511 w (sMod [] [] w {}) ∧ Issues 511 w (sMod [recM] [] w {}) ∧ NotPending (getEddy (sMod [] [] w {}) 511) [29, 30, 31]) ∧
    (mget dInbox (sMod [] [] 0 {}).pool.inbox 511 = [] ∧ mget dInbox (sMod [recM] [] 0 {}).pool.inbox 511 = recM :: [] ∧
      (sMod [recM] [] 0 {}).pool.initAsk = [] ∧ (sMod [recM] [] 0 {}).host.ask = []) ∧
    (let w := encR 0x31 0 30 29 0 0
     let s₀ := sMod [] [⟨0xFFFF, 0, .host 0, 0, 0, 0⟩] w { g := [(30, 0xFFFF)] }
     let s := { s₀ with host := { s₀.host with ask := [(0, some 0xFFFF, .bar2Read 0)] } }
     Issues 511 w s ∧ RegsOk s ∧ NotPending (getEddy s 511) [30, 29] ∧
       s.pool.outst.find? (fun o => o.tag = fld (getG (getEddy s 511) 30) 0 16) = some ⟨0xFFFF, 0, .host 0, 0, 0, 0⟩ ∧
       s.host.ask.any (fun a => a.2.1 == some 0xFFFF) = true ∧ bitAt (getG (getEddy s 511) 30) 16 = false) := by
  unfold Issues NotPending RegsOk; decide +kernel

theorem witness_EddySystem :
    (([encR 0x3F 0 0 0 0 0, encR 0x3F 31 15 0 0 1, encR 0x3F 10 0 31 0 2, encR 0x3F 0 0 31 0 3, encR 0x3F 0 0 0 0 4, encR 0x3F 0 0 0 0 5,
        encR 0x3F 0 0 0 0 6, 0xFFFFFFFF#32]).Forall fun w =>
      Issues 511 w (sIssue w {} sUp) ∧ Issues 511 w (sIssue w { exc := true } sUp) ∧ NotPending (getEddy (sIssue w {} sUp) 511) [31] ∧
      (getEddy (sIssue w {} sUp) 511).ops = [] ∧ (getEddy (sIssue w {} sUp) 511).exc = false) ∧
    legalWord 0xFFFFFFFF#32 = false := by
  unfold Issues NotPending; decide +kernel

theorem witness_EddyControl_commands :
    (let s := setEddy 511 { st := .halted, wipe := false } sUp
     StoresOk s ∧ claimOwner s 5 511 = none ∧ (getEddy s 511).st = .halted ∧ clockedUp s = true ∧ wipeDue s 511 = false) ∧
    (let s := { setEddy 511 { st := .running } sUp with pool := { sUp.pool with inbox := mset dInbox [] 511 [recM] } }
     mgmtOpen s = true ∧ (getPath s 7).data = none ∧ StoresOk s ∧ (getEddy s 511).st = .running ∧ (getEddy s 511).ops = [] ∧
       (mget dInbox s.pool.inbox 511).isEmpty = false) ∧
    (({ sUp with claims := [⟨5, 6, 511, 1⟩] } : State).claims ≠ [] ∧ (claimOwner { sUp with claims := [⟨5, 6, 511, 1⟩] } 5 511).isSome = true) := by
  unfold StoresOk; decide +kernel

theorem witness_EddyControl :
    (mgmtOpen sUp = true ∧ (getPath sUp 7).data = none ∧ StoresOk sUp ∧ RegsOk sUp ∧ sUp.bg.leases = []) ∧
    (let s := setEddy 511 { st := .running, ie := true, irqPend := 0x3000, irqEn := 0x3000 } sUp
     StoresOk s ∧ (getEddy s 511).st = .running ∧ (getEddy s 511).haltReq = false ∧ clockedUp s = true ∧ (getEddy s 511).ie = true ∧
       bitAt ((getEddy s 511).irqPend &&& (getEddy s 511).irqEn) 12 = true ∧
       ∀ k < 12, bitAt ((getEddy s 511).irqPend &&& (getEddy s 511).irqEn) k = false) := by
  unfold RegsOk StoresOk; decide +kernel

/-- A store or load at this local address, given by g30, with this many DMA descriptors queued. -/
def xLocal (a n : Nat) : Eddy :=
  { g := [(30, BitVec.ofNat 64 a)], dmaQ := List.replicate n ⟨false, 0, 0, 1, 0, 8, none, false, false, 0, none, none, false⟩ }
/-- Two words to or from word 7 on of pool 1. -/
def dmaOf (toPool : Bool) : EDma := ⟨toPool, 7, 0xFFF0, 1, 7, 16, none, true, false, 0, none, none, false⟩
def sDma (toPool : Bool) : State := setEddy 511 { dmaQ := [dmaOf toPool] } sPool

theorem witness_EddyLocal_dma : ∀ w ∈ [true, false],
    let s := sDma w
    let x := dmaOf w
    StoresOk s ∧ RegsOk s ∧ (getEddy s 511).dmaQ = x :: [] ∧ x.started = true ∧ (getEddy s 511).dmaDone.length < 8 ∧
    s.dev.st ≠ .shuttingDown ∧ x.fail = none ∧ x.dead = false ∧ x.toPool = w ∧ x.sp % 8 = 0 ∧ x.len = 8 * 2 ∧ s.pool.fifo = [] := by
  unfold RegsOk StoresOk; decide +kernel

theorem witness_EddyLocal_dma_words : ∀ w ∈ [true, false],
    let s := sDma w
    let p := descOf s 7 1
    (∀ i < 4, (hbmAt s (4 * 1 + i)).err = 0) ∧ dKind p = 1 ∧ dVersioned p = false ∧ versionedShut s p = false ∧
    s.pool.initWait.contains 1 = false ∧ (∀ i < 2, (hbmAt s (poolAddr p (7 + i))).err = 0) ∧
    (∀ i < 2, (mget dHbm (getEddy s 511).spad (0x1FFE + i)).err = 0) ∧ (∀ i < 2, leased s (.spad 511 ((0x1FFE + i) / 128)) = false) := by
  decide +kernel

theorem witness_EddyLocal_dma_shut :
    let s := setEddy 511 { dmaQ := [dmaOf true] } sVer
    StoresOk s ∧ dKind (descOf s 7 1) = 1 ∧ versionedShut s (descOf s 7 1) = true := by
  unfold StoresOk; decide +kernel

theorem witness_EddyLocal :
    (∀ n ∈ [7, 8], ∀ p ∈ [(encI 0x1E 31 30 0, 0x10014), (encI 0x1A 31 30 0, 0x1001C), (encI 0x1A 31 30 0, 0x100C0)],
      Issues 511 p.1 (sIssue p.1 (xLocal p.2 n) sUp) ∧ NotPending (getEddy (sIssue p.1 (xLocal p.2 n) sUp) 511) [31, 30] ∧
      (getEddy (sIssue p.1 (xLocal p.2 n) sUp) 511).loop = none ∧
      (getG (xLocal p.2 n) 30 + (0 : BitVec 16).signExtend 64).setWidth 32 = BitVec.ofNat 32 p.2) ∧
    (StoresOk sUp ∧ RegsOk sUp ∧ (getEddy sUp 511).dmaQ = []) := by
  unfold Issues NotPending RegsOk StoresOk; decide +kernel

theorem witness_EddyLocal_aperture :
    (let s := setReg (Reg.eddyAperture 511) 3#32 sUp
     StoresOk s ∧ RegsOk s ∧ hostShut s false = 0 ∧ isFrozen s 0 0 = false ∧ 0x4000 * fld (getReg s (Reg.eddyAperture 511)) 0 2 + 4 * 0xBFF = 0xEFFC ∧
       0x4000 * fld (getReg s (Reg.eddyAperture 511)) 0 2 + 4 * 0xC00 = 0xF000 ∧ claimOwner s 5 511 = none ∧ SpPlain s 511 0xEFFC 4) ∧
    (let s := setFrozen 0 0 true sUp
     RegsOk s ∧ hostShut s false = 0 ∧ isFrozen s 0 0 = true ∧ s.host.held = []) := by
  unfold RegsOk StoresOk SpPlain; decide +kernel

/-! ### Witnesses: the host port -/

/-- Context 63 names pool 1 with base 0; its descriptor has these rights. -/
def sHost (rights : Nat) : State :=
  setReg (Reg.ctxCfg 63) 0x80000001#32
    { sUp with pool := { sUp.pool with hbm := [(4, { data := 0x1003000000 }), (5, { data := BitVec.ofNat 64 (0x100 + rights * 2 ^ 16) }),
      (6, { data := 0x3FF00000000 })] } }

theorem witness_HostAccess_bar2 :
    (∀ n ∈ [0xFF, 0],
      15 < bar2Words (sHost n) ∧ 16 < bar2Words (sHost n) ∧ (sHost n).pool.fifo = [] ∧ hostShut (sHost n) false = 0 ∧ isFrozen (sHost n) 0 63 = false ∧ bitAt (ctxCfg (sHost n) 63) 31 = true ∧ ctxStage (sHost n) 63 = false ∧
      StoresOk (sHost n) ∧ RegsOk (sHost n) ∧ ctxBase (sHost n) 63 + 15 < dDepth (descOf (sHost n) 8 (fld (ctxCfg (sHost n) 63) 0 20)) ∧
      dDepth (descOf (sHost n) 8 1) ≤ ctxBase (sHost n) 63 + 16 ∧ dKind (descOf (sHost n) 8 1) = 1 ∧ dVersioned (descOf (sHost n) 8 1) = false ∧
      dCache (descOf (sHost n) 8 1) = false ∧ (sHost n).pool.initWait.contains 1 = false ∧
      (hbmAt (sHost n) (poolAddr (descOf (sHost n) 8 1) 15)).err = 0 ∧ (∀ i < 4, (hbmAt (sHost n) (4 * 1 + i)).err = 0) ∧ dRight (descOf (sHost n) 8 1) 4 = decide (n ≠ 0) ∧
      dRight (descOf (sHost n) 8 1) 5 = decide (n ≠ 0)) ∧
    (hostShut sUp (ctxStage sUp 63) = 0 ∧ bitAt (ctxCfg sUp 63) 31 = false) ∧ hostShut State.reset (ctxStage State.reset 63) = 3 ∧
    hostShut (sShut 0) (ctxStage (sShut 0) 63) = 4 ∧
    (let s := setFrozen 0 63 true (sHost 0xFF)
     hostShut s (ctxStage s 63) = 0 ∧ bitAt (ctxCfg s 63) 31 = true ∧ isFrozen s 0 63 = true ∧ RegsOk s) := by
  unfold RegsOk StoresOk; decide +kernel

/-- The size of an offset past the slice's end; the device's reset size of BAR2 gives none that 29 bits hold, a smaller one does. -/
theorem witness_HostAccess_spill :
    let s : State := { sUp with host := { sUp.host with bar2 := 0 } }
    bar2Words s ≤ (0x1FFFFFFF#29).toNat ∧ 64 ≤ 63 + (0x1FFFFFFF#29).toNat / bar2Words s ∧ bar2Words s ≤ (0x1000000#29).toNat := by decide +kernel

/-- Context 63 names a VERSIONED pool of another master while a tick is under way. -/
theorem witness_HostAccess_shut :
    let s := setReg (Reg.ctxCfg 63) 0x80000001#32 sVer
    15 < dDepth (descOf s 8 1) ∧ dKind (descOf s 8 1) = 1 ∧ dRight (descOf s 8 1) 5 = true ∧ versionedShut s (descOf s 8 1) = true ∧
    hostShut s false = 0 ∧ isFrozen s 0 63 = false ∧ bitAt (ctxCfg s 63) 31 = true ∧ ctxStage s 63 = false := by decide +kernel

theorem witness_HostAccess :
    (mgmtOpen sUp = true ∧ RegsOk sUp ∧ StoresOk sUp ∧ hostShut sUp false = 0 ∧ isFrozen sUp 0 63 = false) ∧
    (let s := sQ 0xF01#32 qOne
     StoresOk s ∧ RegsOk s ∧ hostShut s false = 0 ∧ isFrozen s 0 0 = false ∧ s.bg.leases = [] ∧ fld (qCfg s 2047) 8 2 = 3 ∧
       fld (qCfg s 2047) 10 2 = 3 ∧ qLinked (getQ s 2047) = true ∧ (getQ s 2047).wr.inReset = false ∧ (getQ s 2047).rd.inReset = false ∧
       (getQ s 2047).discarding = false ∧ (getQ s 2047).hostPush = [] ∧ qDw (qCfg s 2047) (getQ s 2047) + 2 ≤ qN (qCfg s 2047) ∧
       qEmpty (qCfg s 2047) (getQ s 2047) = false ∧ (qSlot (qCfg s 2047) (getQ s 2047) (getQ s 2047).rp).err = 0) ∧
    (fld (qCfg sUp 2047) 8 2 ≠ 3 ∧ fld (qCfg sUp 2047) 10 2 ≠ 3) := by
  unfold RegsOk StoresOk; decide +kernel

/-- A descriptor of two words of pool 1 in progress on engine 15. -/
def hDma (toHost : Bool) (fail : Option (Nat × Nat)) : HDma :=
  { addr := 0x1000, off := 8, len := 16, pool := 1, toHost := toHost, stage := false, irq := true, fail := fail }
def sHostDma (d : HDma) : State := { sHost 0xFF with host := { (sHost 0xFF).host with cur := [(15, d)] } }

theorem witness_HostDma :
    (mgmtOpen sUp = true ∧ RegsOk sUp ∧ sUp.host.cur.find? (fun p => p.1 = 15) = none) ∧
    (RegsOk (sHostDma (hDma true (some (0x22, 0)))) ∧ (sHostDma (hDma true (some (0x22, 0)))).host.cur = [(15, hDma true (some (0x22, 0)))] ∧
      (hDma true (some (0x22, 0))).fail = some (0x22, 0)) ∧
    (∀ b ∈ [true, false],
      RegsOk (sHostDma (hDma b none)) ∧ StoresOk (sHostDma (hDma b none)) ∧ (hDma b none).fail = none ∧ (hDma b none).stage = false ∧
      (hDma b none).len = 8 * 2 ∧ (sHostDma (hDma b none)).pool.fifo = [] ∧ (hDma b none).toHost = b ∧ dKind (descOf (sHostDma (hDma b none)) 8 1) = 1 ∧
      dVersioned (descOf (sHostDma (hDma b none)) 8 1) = false ∧ (sHostDma (hDma b none)).pool.initWait.contains 1 = false ∧
      (∀ i < 2, (hbmAt (sHostDma (hDma b none)) (poolAddr (descOf (sHostDma (hDma b none)) 8 1) (8 / 8) + i)).err = 0) ∧
      versionedShut (sHostDma (hDma b none)) (descOf (sHostDma (hDma b none)) 8 1) = false ∧
      ∀ i < 4, (hbmAt (sHostDma (hDma b none)) (4 * 1 + i)).err = 0) := by
  unfold RegsOk StoresOk; decide +kernel

/-- The same to the staging area, free or locked by a load, and of a pool that is shut. -/
def sStage (b : Bool) : State := sHostDma { hDma b none with stage := true }

theorem witness_HostDma_stage :
    (∀ b ∈ [true, false], stageLocked (sStage b) = false ∧ (∀ i < 2, (hbmAt (sStage b) (stageWord + 1 + i)).err = 0) ∧ StoresOk (sStage b)) ∧
    (let s := { sStage false with ldr := { (sStage false).ldr with locked := true, src := 4 } }
     RegsOk s ∧ s.host.cur = [(15, { hDma false none with stage := true })] ∧ stageLocked s = true) ∧
    (let s := { sVer with host := { sVer.host with cur := [(15, hDma false none)] } }
     RegsOk s ∧ s.pool.fifo = [] ∧ dKind (descOf s 8 1) = 1 ∧ versionedShut s (descOf s 8 1) = true) := by
  unfold RegsOk StoresOk; decide +kernel

theorem witness_RegisterAccess :
    (sLow.dev.inReset = true) ∧
    (RegsOk State.reset ∧ State.reset.dev.inReset = false ∧ State.reset.dev.st ≠ .shuttingDown ∧ hostRegion (Reg.scrCe 7) = none ∧
      ueLocStack (Reg.scrCe 7) = none ∧ clearsOnRead (Reg.scrCe 7) = true ∧ Reg.scrCe 7 < 0x2000000) ∧
    ((sShut 0).dev.inReset = false ∧ (sShut 0).dev.st = .shuttingDown ∧ 0x40000 ≤ 0x1FF8000 ∧ hostRegion 0x1FF8000 = none ∧
      (0x40000 : Nat) ≠ Reg.gsrCtl ∧ hostRegion 0x40000 = none ∧ mwf dEddy (sShut 0).eddies = true ∧ Reg.eddyCtl 511 < 2 ^ 26) ∧
    ((regRow Reg.devEvent).isSome = true ∧ Reg.devEvent ≠ Reg.devEventEn ∧ ¬ (0x200 ≤ Reg.devEvent ∧ Reg.devEvent < 0x300 ∧ Reg.devEvent % 16 = 0)) ∧
    (∀ o ∈ [0xFFFC, 102396, 0x1000FFC], regRow o = none ∧ hostRegion o = none ∧ ∀ sec < 8, (getPath sUp sec).data = none) ∧
    (∃ o sec, hostRegion o = none ∧ sectionOf o = some sec ∧
      (let s := setPath sec { data := some (0, 0) } sUp
       RegsOk s ∧ s.dev.inReset = false ∧ s.dev.st ≠ .shuttingDown ∧ (getPath s sec).data.isSome = true)) := by
  unfold RegsOk
  refine ⟨?_, ?_, ?_, ?_, ?_, Reg.scrCe 7, 7, ?_⟩ <;> decide +kernel

/-! ### Witnesses: loading, the health record, double faults -/

/-- A load of slot 3 in a phase; the slot has this length. -/
def sLoad (p : LdPhase) (len : Nat) : State :=
  let s := setSlot 3 { len := len } State.reset
  { s with ldr := { s.ldr with pow := .over, phase := p, src := 3 } }
/-- The start-up whose next step is of kind `k`, as the last of four or the first. -/
def sStart (k n : Nat) : State :=
  let s := sLoad .startup 128
  { s with ldr := { s.ldr with steps := n, work := { s.ldr.work with startup := k * 4 ^ n } } }

theorem witness_LoadAndStartUp :
    (∀ n ∈ [0, 1, 127, 128],
      let s := sLoad .header n
      RegsOk s ∧ s.ldr.phase = .header ∧ s.mbx.phase ≠ .transition ∧ s.ldr.zeroise = false ∧ s.ldr.erase = 0 ∧ s.mbx.phase ≠ .zeroise ∧ s.nv.wipe = none ∧
      s.ldr.src < 4 ∧ (getSlot s s.ldr.src).len = n) ∧
    (State.reset.ldr.phase ≠ .header ∧ State.reset.ldr.phase ≠ .passA ∧ State.reset.ldr.phase ≠ .passB ∧ State.reset.ldr.phase ≠ .checks) ∧
    (∀ p ∈ [LdPhase.passA, .passB, .checks], RegsOk (sLoad p 128) ∧ (sLoad p 128).ldr.phase = p ∧ (sLoad p 128).ldr.src < 4) ∧
    (∀ k ∈ [0, 1, 2, 3], ∀ n ∈ [0, 2, 3], RegsOk (sStart k n) ∧ stepDue (sStart k n) k = true ∧ (sStart k n).ldr.steps = n) ∧
    (∀ k ∈ [0, 1, 2, 3], stepDue State.reset k = false) ∧
    (RegsOk sUp ∧ StoresOk sUp ∧ sUp.dev.inReset = false ∧ mgmtOpen sUp = true) := by
  unfold RegsOk StoresOk; decide +kernel

/-- A zeroising load that erases slots 1 and 3, for a ZEROISE command. -/
def sZero : State :=
  let s := sLoad .header 128
  { s with ldr := { s.ldr with zeroise := true, erase := 0xA, src := 0 }, mbx := { s.mbx with phase := .zeroise } }

theorem witness_LoadAndStartUp_zeroise :
    RegsOk sZero ∧ TablesOk sZero ∧ sZero.ldr.phase = .header ∧ sZero.mbx.phase ≠ .transition ∧ sZero.ldr.zeroise = true ∧
    sZero.ldr.src < 4 ∧ sZero.nv.wipe = none ∧ sZero.mbx.phase = .zeroise ∧ bitAt sZero.ldr.erase 3 = true ∧ bitAt sZero.ldr.erase 0 = false := by
  unfold RegsOk TablesOk; and_intros <;> decide +kernel

/-- The start-up at step `k`, its lock wait over or not, with eddies 3 and 5 to start, channel 7 to enable and this step postponed. -/
def sClk (k n : Nat) (due : List Nat) : State :=
  let s := sStart k n
  { s with ldr := { s.ldr with work := { s.ldr.work with startup := (if k = 0 then 0 else k * 4 ^ n) }, due := due, starts := [(3, 64), (5, 0)], chanEn := 0x80 } }

theorem witness_LoadAndStartUp_clocked : ∀ k ∈ [2, 3],
    (stepDone (sClk k 1 []) 0 = true ∧ stepDue (sClk k 1 []) k = true ∧ stepDone (sStart k 0) 0 = false ∧ stepDue (sStart k 0) k = true) ∧
    (let s := sClk 0 2 [k]
     StoresOk s ∧ stepDue s 0 = true ∧ s.ldr.due = [k] ∧ (s.ldr.starts.map Prod.fst).Nodup ∧ bitAt s.ldr.chanEn 7 = true ∧
       (getChan s 7).owned = false ∧ chanFailed s 7 = false ∧ (getChan s 7).st = .disabled) := by
  unfold StoresOk; decide +kernel

/-- An image that lists one pool, to be zeroed, or asked of its model. -/
def sInit (i : Nat) : State :=
  let s := sClk 2 1 []
  { s with pool := { s.pool with hbm := [(4, { data := 0x1003000000 }), (5, { data := BitVec.ofNat 64 (0xFF0100 + i * 2 ^ 14) })] } }

theorem witness_LoadAndStartUp_init : ∀ i ∈ [0, 1, 2],
    let s := sInit i
    StoresOk s ∧ stepDone s 0 = true ∧ stepDue s 2 = true ∧ listedPools s = [1] ∧ dKind (tableDesc s 1) ≠ 0 ∧
    dInit (tableDesc s 1) = i := by
  unfold StoresOk; decide +kernel

/-- Device timer 15 runs with its event set, raises line 13 of an eddy, and vector 159 is unmasked. -/
def sTimer : State := setReg (Reg.dtmrEvent 15) 1#32 (setReg (Reg.dtmrCfg 15) 0xFFFFFFFF#32 (setReg (Reg.msixCtl 159) 0#32 sUp))

theorem witness_LoadAndStartUp_timer :
    RegsOk sTimer ∧ sTimer.msix.enable = true ∧ sTimer.msix.funcMask = false ∧ StoresOk sTimer ∧ bitAt (getReg sTimer (Reg.dtmrCfg 15)) 31 = true ∧ fld (getReg sTimer (Reg.dtmrCfg 15)) 0 20 ≠ 0 ∧
      bitAt (getReg sTimer (Reg.dtmrEvent 15)) 0 = true ∧ bitAt (getReg sTimer (Reg.dtmrCfg 15)) 29 = true ∧
      bitAt (getReg sTimer (Reg.dtmrCfg 15)) 30 = true ∧ bitAt (getReg sTimer (Reg.msixCtl 159)) 0 = false := by
  unfold RegsOk StoresOk; decide +kernel

theorem witness_HealthOutcome :
    (∀ r ∈ [passRec, { passRec with reached := 0xFFFFF }, { passRec with fail := true }, { passRec with complete := false }],
      powering (sPow .health) = true ∧ powering (withRec r (sPow .health)) = true ∧ (withRec r (sPow .health)).ldr.pow = .health ∧
      newestRec (withRec r (sPow .health)) = some r) ∧
    (passRec.sigOk = 0xFFFF#16 ∧ passRec.fail = false ∧ ({ passRec with reached := 0xFFFFF } : HealthRec).reached < passRec.total) := by
  decide +kernel

/-- Eddy 511 in a handler, with an address in g30 and a handle that names no pool. -/
def xDouble : Eddy := { exc := true, g := [(30, 0x10FFF)], ph := [(7, 1)] }

theorem witness_EddyDoubleFault :
    (xDouble.exc = true ∧ 255 < 256 ∧ 31 < 32) ∧
    (([0xFFFFFFFF#32, encR 0x3F 0 0 31 0 3, encB 0x10 15 0x3FFFFF, encI 0x2B 31 0 31, encP 0x28 31 30 7 0x1FFF, encI 0x18 31 30 0]).Forall fun w =>
      Issues 511 w (sIssue w xDouble sUp) ∧ (getEddy (sIssue w xDouble sUp) 511).exc = true ∧
      NotPending (getEddy (sIssue w xDouble sUp) 511) [31, 30] ∧ (getEddy (sIssue w xDouble sUp) 511).secure = false ∧
      bitAt (mget (fun _ => (0 : Word)) (getEddy (sIssue w xDouble sUp) 511).ph 7) 31 = false) ∧
    (legalWord 0xFFFFFFFF#32 = false ∧
      ((getG xDouble 30 + (0 : BitVec 16).signExtend 64).setWidth 32 : Word).toNat = 0x10FFF ∧ 0x10000 ≤ 0x10FFF ∧ 0x10FFF < 0x11000) ∧
    (let s := setEddy 511 { st := .running, exc := true, irqPend := 0x1000, irqEn := 0x1000 } sUp
     StoresOk s ∧ (getEddy s 511).exc = true ∧ bitAt (getEddy s 511).cause 31 = false) := by
  unfold Issues NotPending StoresOk; decide +kernel

/-! ### Witnesses: keyed commands and the security island -/

/-- A command in MBX_BUF with this code, operand length and operand words, its counter 5, to be stored. -/
def sKey (cmd len : Nat) (ops : List Nat) (s : State) : State :=
  let s := (upTo ops.length).foldl (fun t i => setReg (Reg.mbxBuf (5 + i)) (BitVec.ofNat 32 (ops.getD i 0)) t) s
  let s := setReg Reg.mbxStat 0x80000000#32 (setReg (Reg.mbxBuf 3) 5#32 (setReg (Reg.mbxBuf 0) (BitVec.ofNat 32 (cmd + len * 2 ^ 16)) s))
  { s with mbx := { s.mbx with phase := .storing } }
/-- A device in a life-cycle state, with or without a load in progress. -/
def sLc (l : LifeCycle) (busy : Bool) : State :=
  { sUp with nv := { sUp.nv with lc := l, fused := true, kFuse := if l = .deployed then some 7 else none },
             ldr := { sUp.ldr with busy := busy, locked := busy, src := 3 } }
def sFlit : State := setChan 19 { outq := [⟨0, ⟨1, 0, none, false, 0⟩⟩] } (sLc .manufacture false)

theorem witness_KeyedChecks :
    (∀ n ∈ [0, 7, 8], let s := { sUp with mbx := { sUp.mbx with tagRun := n } }; RegsOk s ∧ mbxBusy s = false ∧ s.mbx.tagRun = n) ∧
    (RegsOk sUp ∧ kcClass sUp = .unassigned) ∧
    (let t := sKey 11 0 [] sUp; RegsOk t ∧ t.mbx.phase = .storing ∧ kcFormatBad t = true) ∧
    (let t := sKey 5 4 [1] (sShut 0); RegsOk t ∧ t.mbx.phase = .storing ∧ kcFormatBad t = false ∧ kcState t ≠ 0) ∧
    sUp.mbx.phase ≠ .storing ∧
    (∀ p ∈ [MbxPhase.lockout, .storing],
      let s := setReg Reg.mbxStat 0xC0000000#32 { sUp with mbx := { sUp.mbx with phase := p } }
      RegsOk s ∧ mbxBusy s = true ∧ s.mbx.phase = p) := by
  unfold RegsOk; decide +kernel

/-- One command that its state allows and whose format is good, and what else it is to be. -/
def Runs (cmd len : Nat) (ops : List Nat) (s : State) (p : State → Bool) : Bool :=
  let t := sKey cmd len ops s
  mwf resetOf t.regs && mwf dSlotStore t.nv.slots && t.mbx.phase == .storing && !kcFormatBad t && kcState t == 0 && mbxCmd t == cmd && p t

theorem witness_KeyedEffects :
    (let t := sKey 10 0 [] (sShut 0); RegsOk t ∧ kcFormatBad t = false ∧ kcState t = 0) ∧
    Runs 1 12 [5, 0, 0] (sLc .manufacture false) (fun t => opN t 0 1 == 5) = true ∧
    Runs 1 12 [3, 0, 0] (sLc .manufacture true) (fun t => opN t 0 1 == 3 && t.ldr.busy) = true ∧
    Runs 1 12 [3, 0, 0] (sLc .manufacture false) (fun t => opN t 0 1 == 3 && !t.ldr.busy) = true := by
  unfold RegsOk; decide +kernel

theorem witness_KeyedEffects_slots :
    Runs 2 12 [0x204, 0, 0] (sLc .manufacture false) (fun t => opN t 0 1 == 4) = true ∧
    Runs 2 12 [3, 0, 0] (sLc .manufacture false) (fun t => opN t 0 1 == 3 && opN t 1 1 == 0) = true ∧
    Runs 2 12 [0x203, 0, 0] (sLc .manufacture false) (fun t => opN t 0 1 == 3 && opN t 1 1 == 2 && !t.ldr.locked) = true ∧
    Runs 2 12 [0x202, 0, 0] (sLc .manufacture true) (fun t => opN t 0 1 == 2 && opN t 1 1 == 2 && t.ldr.src != 2) = true ∧
    (∀ f ∈ [0x103, 0x303], Runs 2 12 [f, 0x7FFFF000, 0x1000] (sLc .manufacture false) (fun t =>
      opN t 0 1 == 3 && opN t 8 4 != 0 && opN t 4 4 % 4096 == 0 && opN t 4 4 + opN t 8 4 ≤ 0x80000000) = true) ∧
    Runs 2 12 [0x401, 0, 0] (sLc .manufacture true) (fun t => opN t 0 1 == 1 && opN t 1 1 == 4 && t.ldr.src != 1) = true := by
  decide +kernel

/-- An image of fewer bytes than a header for slot 0 in the staging area, or of a header's length. -/
theorem witness_KeyedEffects_slot0 :
    (∀ f ∈ [0x100, 0x300], ∀ len ∈ [127, 128], Runs 2 12 [f, 0x1000, len] (sLc .manufacture false) (fun t =>
      opN t 0 1 == 0 && opN t 8 4 == len && opN t 4 4 % 4096 == 0 && opN t 4 4 + opN t 8 4 ≤ 0x80000000 && !t.ldr.locked &&
        t.pool.hbm.all (fun p => p.2.err == 0)) = true) ∧
    Runs 2 12 [0x100, 0x1000, 128] (sLc .manufacture false) (fun t =>
      (headerRefusal t (srcBytes t ⟨none, opN t 4 4, opN t 8 4⟩ 0 128)).isSome) = true := by
  decide +kernel

theorem witness_KeyedEffects_lifecycle :
    Runs 3 8 [4, 0] (sLc .deployed false) (fun t => lcOf (opN t 0 1) == some .service) = true ∧
    Runs 3 8 [2, 0] (sLc .manufacture false) (fun t => lcOf (opN t 0 1) == some .provisioned) = true ∧
    Runs 3 8 [5, 0] (sLc .service false) (fun t => lcOf (opN t 0 1) == some .retired) = true ∧
    Runs 7 48 [0] (sLc .provisioned false) (fun t => opN t 0 1 == 0) = true ∧
    Runs 7 48 [3] (sLc .provisioned false) (fun t => opN t 0 1 == 3) = true ∧
    Runs 7 48 [1] (sLc .provisioned false) (fun t => opN t 0 1 == 1) = true ∧
    Runs 7 48 [2] (sLc .deployed false) (fun t => opN t 0 1 == 2) = true := by
  decide +kernel

theorem witness_KeyedEffects_fabric :
    (∀ b ∈ [true, false], Runs 4 4 [0xF0001] (setFrozen 1 15 b (sLc .deployed false)) (fun t =>
      opN t 0 1 == 1 && opN t 1 1 == 0 && opN t 2 2 == 15 && isFrozen t 1 15 == b) = true) ∧
    (∀ p ∈ [(0, 63), (2, 511), (3, 255), (4, 1021)], Runs 4 4 [p.1 + p.2 * 2 ^ 16] (setFrozen p.1 p.2 true (sLc .deployed false)) (fun t =>
      opN t 0 1 == p.1 && opN t 1 1 == 0 && opN t 2 2 == p.2 && decide (p.2 < classSize p.1) && isFrozen t p.1 p.2 &&
        t.host.held.isEmpty && t.pool.remHeld.isEmpty) = true) ∧
    Runs 4 4 [0x400001] (sLc .deployed false) (fun t => opN t 0 1 == 1 && decide (classSize 1 ≤ opN t 2 2)) = true ∧
    Runs 4 4 [2 + 511 * 2 ^ 16] (setEddy 511 { st := .frozen } (setFrozen 2 511 true (sLc .deployed false))) (fun t =>
      (getEddy t 511).st == .frozen && mwf dEddy t.eddies) = true ∧
    Runs 5 4 [1] (sLc .deployed false) (fun t => opN t 0 1 == 1) = true ∧
    Runs 6 16 [0, 0, 0, 0] (sLc .deployed false) (fun t => opN t 0 1 == 0 && opN t 4 2 == 0) = true ∧
    Runs 6 20 [0x3FD0000, 1, 0, 0, 0x20] (sLc .deployed false) (fun t => opN t 0 1 == 0 && opN t 4 2 == 1 && opN t 2 2 == 0x3FD &&
      !entryBad (w32 (opN t 16 4)) && mwf (fun _ => (0 : Word)) t.net.shadow) = true ∧
    Runs 6 16 [1, 0, 0xFFFFF, 0] (sLc .deployed false) (fun t => opN t 0 1 == 1 && !flitsBuffered t) = true ∧
    Runs 6 16 [1, 0, 0xFFFFF, 0] sFlit (fun t => opN t 0 1 == 1 && flitsBuffered t) = true := by
  decide +kernel

theorem witness_KeyedEffects_rest :
    (∀ l ∈ [LifeCycle.manufacture, .service], Runs 8 4 [0x100] { sLc l false with dev := State.reset.dev } (fun t =>
      opN t 0 1 == 0 && opN t 1 1 == 1 && t.dev.st == .starting && !t.ldr.busy) = true) ∧
    (∀ p ∈ [1, 2, 3], Runs 8 4 [p] (setReg Reg.testBgCfg 0x100#32 (sLc .deployed false)) (fun t => opN t 0 1 == p && opN t 1 1 == 0 &&
      deviceUp t && !t.bg.on && fld (getReg t Reg.testBgCfg) 8 8 != 0 && (claimOwner t 11 (fld (getReg t Reg.testBgCfg) 0 4)).isNone) = true) ∧
    Runs 8 4 [0x101] (sLc .manufacture false) (fun t => opN t 0 1 == 1 && opN t 1 1 == 1) = true ∧
    Runs 8 4 [0x100] (sLc .manufacture true) (fun t => opN t 0 1 == 0 && opN t 1 1 == 1 && t.ldr.busy) = true ∧
    Runs 8 4 [4] (sLc .deployed false) (fun t => opN t 0 1 == 4 && opN t 1 1 == 0) = true ∧
    (∀ p ∈ [1, 3], Runs 8 4 [p] { sLc .deployed false with dev := State.reset.dev } (fun t => opN t 0 1 == p && !deviceUp t) = true) ∧
    Runs 8 4 [1] (setReg Reg.testBgCfg 0#32 (sLc .deployed false)) (fun t => fld (getReg t Reg.testBgCfg) 8 8 == 0) = true ∧
    (∀ p ∈ [1, 2], Runs 8 4 [p] { sLc .deployed false with bg := { sUp.bg with on := true, timer := 15 } } (fun t =>
      t.bg.on && decide (t.bg.timer < 16)) = true) ∧
    Runs 9 4 [0] (sShut 0) (fun t => t.dev.st == .shuttingDown) = true ∧
    Runs 9 4 [3] (sLc .deployed false) (fun t => bitAt (w32 (opN t 0 1)) 1 && bitAt (w32 (opN t 0 1)) 0) = true ∧
    Runs 9 4 [0] (sLc .deployed false) (fun t => !t.dev.inReset && t.dev.st != .shuttingDown) = true ∧
    Runs 10 0 [] (sLc .deployed false) (fun _ => true) = true := by
  decide +kernel

def sMbx (p : MbxPhase) : State := { sUp with mbx := { sUp.mbx with phase := p } }
/-- A deployed device whose policy arms every source, or a blank one. -/
def sTamper (l : LifeCycle) : State :=
  { sUp with nv := { sUp.nv with lc := l, policy := 0x1E00 }, dev := { sUp.dev with watch := .on } }

theorem witness_SecurityEvents :
    (∀ fl ∈ [none, some (1, 9), some (2, 9)], ∀ b ∈ [true, false],
      let s := sMbx (.slotWrite 3 0x1000 128 b fl)
      RegsOk s ∧ s.mbx.phase = .slotWrite 3 0x1000 128 b fl ∧ (s.pool.hbm.all (fun p => p.2.err == 0)) = true) ∧
    (RegsOk (sMbx (.slotErase 1 true)) ∧ RegsOk (sMbx (.key true 7)) ∧ RegsOk (sMbx .apply) ∧
      flitsBuffered (sMbx .apply) = false ∧ flitsBuffered { sFlit with mbx := { sFlit.mbx with phase := .apply } } = true) ∧
    (let s := { sMbx .transition with nv := { sUp.nv with wipe := some .provisioned } }
     RegsOk s ∧ s.mbx.phase = .transition ∧ s.nv.wipe = some .provisioned) ∧
    (sUp.mbx.phase = .idle ∧ RegsOk sUp ∧ sUp.dev.inReset = false ∧ mgmtOpen sUp = true ∧ mwf dSlotStore sUp.nv.slots = true ∧
      sLow.dev.inReset = true) := by
  unfold RegsOk; decide +kernel

theorem witness_SecurityEvents_tamper :
    (∀ k ∈ [0, 1, 2, 3, 4], ∀ b ∈ [true, false],
      let s := sTamper (if b then .deployed else .blank)
      RegsOk s ∧ armed s k = b ∧ watched s = true ∧ s.mbx.phase = .idle ∧ s.dev.inReset = false ∧ s.dev.st ≠ .shuttingDown) ∧
    watched sUp = false ∧
    (∀ b ∈ [true, false],
      let s := { sTamper (if b then .deployed else .blank) with dev := { sLow.dev with watch := .on } }
      RegsOk s ∧ s.dev.inReset = true ∧ s.mbx.phase = .idle ∧ watched s = true ∧ ∀ k ∈ [0, 2, 3], armed s k = b) ∧
    (let s := setChan 19 { st := .up } (sTamper .blank)
     RegsOk s ∧ StoresOk s ∧ armed s 4 = false ∧ linkUp s (16 + 3) = true) := by
  unfold RegsOk StoresOk; decide +kernel

/-! ### Witnesses: scrubbing, trace, pins -/

/-- The scrubber of section 0 is on at a position, with this tile 0; the shadow is readable or not. -/
def sScrub (pos : Nat) (x : Tile) (shadow : Bool) : State :=
  let s := setReg (Reg.scrCfg 0) 0x80000064#32 (setScr 0 { pos := pos } (withTile x sUp))
  { s with rep := { shadowOk := shadow, susp := false } }

theorem scrubPos (x : Tile) (b : Bool) (p : Nat) (h : p < 256) : framePos (sScrub p x b) 0 p = .tile (tileAddr 0 0 p) := by
  have h2 : p / 256 = 0 := by omega
  have h3 : p % 256 = p := by omega
  have h4 : ¬ 135168 ≤ p := by omega
  simp [framePos, h2, h3, h4, logCol_unmarked (s := sScrub p x b) (sec := 0) rfl]

theorem witness_ScrubAndTest_frames :
    (let s := sScrub 135199 {} true
     RegsOk s ∧ StoresOk s ∧ scrubbing s 0 = true ∧ (getScr s 0).prio = [] ∧ (getScr s 0).pos = 135199 ∧
       frameErr s 0 (framePos s 0 135199) = 0) ∧
    (scrubbing sLow 0 = false) ∧
    (let s := sScrub 0 { upset := 1 } true
     RegsOk s ∧ StoresOk s ∧ scrubbing s 0 = true ∧ (getScr s 0).prio = [] ∧ (getScr s 0).pos = 0 ∧ leased s (.tile 0) = false ∧
       fFree (getTile s 0).frame = false ∧ gsrOn s (tSec 0) = false ∧ s.tick.inTick = false ∧ frameCheck (getTile s 0).upset = .corrected 0) ∧
    (∀ b ∈ [true, false],
      let s := sScrub 0 { upset := 0x11, frame := frameWith 0x11 } b
      RegsOk s ∧ StoresOk s ∧ scrubbing s 0 = true ∧ frameCheck (getTile s 0).upset = .bad ∧ s.rep.shadowOk = b ∧ hbmFailed s = false ∧
        tileIdle (getTile s 0) = true ∧ mget dShadow (getScr s 0).shadow 0 = 0 ∧ mget dBits (getScr s 0).shadowMis 0 = 0) := by
  unfold RegsOk StoresOk
  refine ⟨?_, ?_, ?_, ?_⟩ <;> decide +kernel

/-- The shadow is readable, but an HBM stack is marked failed at run time (R464). -/
theorem witness_ScrubAndTest_hbm :
    let s := sScrub 0 { upset := 0x11, frame := frameWith 0x11 } true
    let s := { s with rep := { s.rep with run := [⟨7, 0, 0⟩] } }
    hbmFailed s = true ∧ frameCheck (getTile s 0).upset = .bad ∧ tileIdle (getTile s 0) = true := by decide +kernel

/-- A rewrite of tile 0 waits; two bits of the stored SCR_CFG are in error, or one. -/
def sRewrite (done : Bool) : State :=
  setScr 0 { rewrites := [(0, 1)] } (withTile { upset := 1, spacerDone := done } sWave)

theorem witness_ScrubAndTest :
    (∀ b ∈ [true, false], StoresOk (sRewrite b) ∧ mwf dBits (getScr (sRewrite b) (tSec 0)).rewrites = true) ∧
    (∀ e ∈ [0, 1, 3], let s := setScr 7 { cfgErr := BitVec.ofNat 40 e } sUp
      RegsOk s ∧ StoresOk s ∧ mgmtOpen s = true ∧ popc 40 (getScr s 7).cfgErr.toNat = (if e = 3 then 2 else e)) ∧
    (let s := sScrub 0 {} true
     let s := setScr 0 { getScr s 0 with resets := 2 } s
     RegsOk s ∧ StoresOk s ∧ scrubbing s 0 = true ∧ 2 ≤ (getScr s 0).resets) ∧
    (fld (BitVec.ofNat 32 17) 0 10 < 18 ∧ ¬ (fld (BitVec.ofNat 32 18) 0 10 < 18 ∨ 1000 < fld (BitVec.ofNat 32 1000) 0 10) ∧
      1000 < fld (BitVec.ofNat 32 1001) 0 10) := by
  unfold RegsOk StoresOk; decide +kernel

/-- Readback with this base in SCR_RB_SEL, allowed or not. -/
def sRb (base : Nat) (l : LifeCycle) : State :=
  setReg Reg.scrRbSel (BitVec.ofNat 32 base) { sUp with nv := { sUp.nv with lc := l } }
/-- Background test is on, with or without a lease of queue 2047, which failed once. -/
def sLease (l : List (Nat × LeaseRes)) : State :=
  { sUp with bg := { on := true, leases := l, failedOnce := [.queue 2047] } }

theorem witness_ScrubAndTest_access :
    (mgmtOpen (sRb 0 .deployed) = true ∧ rbAllowed (sRb 0 .deployed) = false ∧ RegsOk (sRb 0 .deployed)) ∧
    (let s := sRb 0xE00FF .service
     RegsOk s ∧ mgmtOpen s = true ∧ rbAllowed s = true ∧ (getReg s Reg.scrRbSel).toNat = 0xE00FF ∧ s.bg.leases = [] ∧ (getTile s 0xE00FF).upset = 0) ∧
    (∀ b ∈ [0x100000, 0x10000100], (getReg (sRb b .service) Reg.scrRbSel).toNat = b ∧ rbAllowed (sRb b .service) = true) ∧
    (let s := { sUp with rep := { sUp.rep with marks := [⟨1, 7, 5⟩] } }
     RegsOk s ∧ mgmtOpen s = true ∧ (getPath s 7).data = none) ∧
    (let s := { sUp with rep := { sUp.rep with raw := true } }; RegsOk s ∧ mgmtOpen s = true ∧ s.rep.raw = true) ∧
    (let s := sLease []
     let r := LeaseRes.queue 2047
     StoresOk s ∧ s.bg.on = true ∧ deviceUp s = true ∧ leaseSec r = some 7 ∧ s.bg.leases.lookup 7 = none ∧ leaseIdle s r = true ∧
       leaseMark s r ∉ allMarks s) ∧
    (RegsOk (sLease [(7, .queue 2047)]) ∧ (sLease [(7, .queue 2047)]).bg.leases.lookup 7 = some (.queue 2047) ∧
      LeaseRes.queue 2047 ∈ (sLease []).bg.failedOnce ∧ LeaseRes.queue 2046 ∉ (sLease []).bg.failedOnce) := by
  unfold RegsOk StoresOk
  refine ⟨?_, ?_, ?_, ?_, ?_, ?_, ?_⟩ <;> decide +kernel

theorem witness_ScrubAndTest_columns :
    let s := { sUp with rep := { sUp.rep with marks := [⟨1, 7, 5⟩] } }
    (failedCols s 7).contains 5 = true ∧ (failedCols s 7).contains 527 = false := by
  simp only [List.contains_iff_mem, ← Bool.not_eq_true, mem_failedCols]; decide

theorem witness_ScrubAndTest_readback : (colOf (sRb 0xE00FF .service) (tSec 0xE00FF) (tCol 0xE00FF)).isSome = true := by
  rw [colOf_unmarked (s := sRb 0xE00FF .service) rfl _ (by decide)]; rfl

/-- Trace with the ring pool 1 and the compressor of section 7 on eddy 511, its ring FIFO holding one sample. -/
def sTrc (running : Bool) (wp : Nat) (key : Bool) (prev : Nat) : State :=
  let s := setReg (Reg.trcSecCfg 7) 0x8000003F#32 (setReg Reg.trcCfg 0x8005#32 (setReg Reg.trcRingPool 1#32 sPool))
  let s := setEddy 511 { st := .running } s
  { s with trc := { s.trc with running := running, wp := wp, ring := [(7, { fifo := [.sample 0 5], prev := BitVec.ofNat 1024 prev, key := key })] } }

theorem witness_TraceUnit :
    (let s := sTrc false 0 true 0
     RegsOk s ∧ mgmtOpen s = true ∧ ¬ (∃ sec ∈ trcSecs s, bitAt (getReg s (Reg.trcSecCfg sec)) 31 = false) ∧
       ringRefusal s (fld (getReg s Reg.trcRingPool) 0 20) = 0) ∧
    (∀ p ∈ [(0, 4, true), (0, 5, true), (0, 4, false), (0x1FFFFFFF, 4, true)],
      let s := sTrc true p.1 p.2.2 p.2.1
      s.trc.running = true ∧ compressorRuns s 7 = true ∧ (getStream s false 7).fifo = [.sample 0 5] ∧ mwf dStream s.trc.ring = true ∧
        mwf dStream s.trc.exp = true ∧ RegsOk s ∧ trcChangeOnly s = true ∧ s.pool.fifo = [] ∧ trcWrap s = false ∧ trcRp s = 0) ∧
    (let s := { sUp with trc := { sUp.trc with running := true, stopping := true } }
     s.trc.running = true ∧ s.trc.stopping = true ∧ fifosEmpty s = true ∧ s.trc.words = []) := by
  unfold RegsOk
  refine ⟨?_, ?_, ?_⟩ <;> decide +kernel

/-- Tick 4 is the last issued and committed; the snapshot goes to pool 1. -/
def sSnap (x : Snap) : State :=
  let s := setReg Reg.trcSnapPool 1#32 (setReg Reg.trcSnapTickLo 5#32 sPool)
  { s with trc := { s.trc with snap := x }, tick := { s.tick with nowP1 := 5 }, ra := { s.ra with com := 5 } }

theorem witness_TraceUnit_snapshot :
    (let s := sSnap .off
     mgmtOpen s = true ∧ ¬ (s.tick.st ≠ .idle ∧ s.tick.st ≠ .halted ∧ s.tick.st ≠ .fault) ∧ uncommitted s = false ∧ s.tick.nowP1 ≠ 0 ∧
       snapRefusal s = 0 ∧ ¬ snapTick s ≤ s.tick.nowP1 - 1) ∧
    (∀ x ∈ [Snap.armed 4, .busy 4],
      let s := sSnap x
      s.pool.fifo = [] ∧ RegsOk s ∧ StoresOk s ∧ s.trc.snap = x ∧ s.tick.nowP1 = 4 + 1 ∧ ¬ s.ra.com < 4 + 1 ∧ s.tick.inTick = false) ∧
    (let s := setChan 19 { st := .waiting, owned := true } { sUp with trc := { sUp.trc with exporting := true } }
     RegsOk s ∧ StoresOk s ∧ mgmtOpen s = true ∧ s.trc.exporting = true) ∧
    (RegsOk sUp ∧ StoresOk sUp ∧ (claimOwner sUp 3 19).isSome = false ∧ (getChan sUp 19).st = .disabled ∧ sUp.trc.running = false ∧
      claimOwner sUp 10 7 = none ∧ (getPath sUp 7).data = none) := by
  unfold RegsOk StoresOk; decide +kernel

/-- A ball with an output and an enable cell; HIGHZ of a device out of its reset. -/
theorem witness_PinsAndTap_cells :
    (∃ b o e, pinCells b = some (o, e)) ∧ ((0x02 : BitVec 8).toNat < 8) := ⟨⟨.tickOut, _, _, rfl⟩, by decide⟩

theorem witness_PinsAndTap :
    (sLow.dev.inReset = true ∧ sUp.dev.inReset = false ∧ RegsOk sUp ∧ ∀ k < 4, (⟨7, k, 0⟩ : Mark) ∉ allMarks sUp) ∧
    (sLow.dev.porstHigh = false ∧ ¬ (sUp.dev.porstHigh = false ∨ sUp.dev.cfgErr = true)) ∧
    (let s := { sUp with rep := { sUp.rep with raw := true } }; s.rep.raw = true ∧ 0x80 ≤ (0x80 : BitVec 8).toNat ∧ (0x80 : BitVec 8) ≠ 0xFF#8) := by
  unfold RegsOk; decide +kernel

/-! ### Ill-formed commands are refused -/

/-- One resource past the last, for every kind of mark (R478), and a kind that does not exist. -/
theorem test_marks_refused :
    [(⟨1, 7, 528⟩ : Mark), ⟨2, 0, 4160⟩, ⟨3, 0, 66⟩, ⟨4, 0, 256⟩, ⟨5, 0, 32⟩, ⟨6, 20, 0⟩, ⟨7, 4, 0⟩, ⟨8, 8, 0⟩, ⟨9, 1, 0⟩, ⟨10, 0, 0⟩, ⟨1, 8, 0⟩].all
      (fun m => !m.wf && !(Instr.shutdownSegmentDone [m]).wf && !(Instr.abbreviatedSegmentDone [m]).wf) = true := by decide

/-- One resource past the last, for every kind of lease (R476). -/
theorem test_leases_refused :
    [LeaseRes.tile 1048576, .spareTile 0 528 0, .spareTile 8 0 0, .spareTile 0 0 256, .block 0 4160, .block 8 0, .queue 2048, .spad 512 0, .spad 0 64,
      .spare 0 66, .spare 8 0].all (fun r => !r.wf && !(Instr.leaseStart 0 r).wf) = true := by decide

/-- A code that has a command of its own is no reserved one, and a conflict's line exists. -/
theorem test_commands_refused :
    [Instr.tickCmdReserved 5, .lnkCmdReserved 0 4, .fabCmdReserved 1, .eddyCmdReserved 0 3, .trcCmdReserved 7, .trcCmdReserved 1,
      .oneHotConflict 0 true 0 32, .oneHotConflict 0 false 256 0].all (fun i => !i.wf) = true := by decide

theorem test_dma_length_refused (l : List (BitVec 64)) (h : l.length = 536870912) : (Instr.dmaDescriptorDone 0 l).wf = false := by
  simp [Instr.wf, h]

theorem test_wellformed_accepted :
    [Instr.tickCmdReserved 6, .lnkCmdReserved 0 5, .fabCmdReserved 2, .eddyCmdReserved 0 4, .eddyCmdReserved 0 0, .trcCmdReserved 8,
      .oneHotConflict 0 true 511 31, .oneHotConflict 0 false 255 63, .leaseStart 7 (.block 7 4159), .shutdownSegmentDone [⟨1, 7, 527⟩, ⟨6, 19, 0⟩]].all
      Instr.wf = true := by decide

/-! ### The spec's worked examples -/

/-- The memory model and its encodings (chapter Eddy Instruction Set). -/
theorem test_words_alu :
    encI 6 6 1 43 = 0x18C1002B#32 ∧ encI 2 6 6 7 = 0x08C60007#32 ∧ encI 5 7 1 29 = 0x14E1001D#32 ∧
    encI 4 9 6 2 = 0x11260002#32 ∧ encR 0 5 3 9 0 4 = 0x00A34804#32 ∧ encR 0 5 5 8 0 2 = 0x00A54002#32 := by decide
theorem test_words_branch :
    encI 0x14 0 6 4 = 0x50060004#32 ∧ encI 0x13 0 9 10 = 0x4C09000A#32 ∧ encB 0x10 14 0x3FFFF7 = 0x43BFFFF7#32 ∧
    encB 0x10 14 0x3FFFEA = 0x43BFFFEA#32 := by decide
theorem test_words_memory :
    encI 0x1B 8 8 0x1000 = 0x6D081000#32 ∧ encP 0x28 5 7 0 0 = 0xA0A70000#32 ∧ encP 0x29 5 7 0 0 = 0xA4A70000#32 ∧
    encI 0x30 1 0 1 = 0xC0200001#32 ∧ encR 0x31 0 4 5 0 0 = 0xC4042800#32 := by decide

/-- Input I3 of LC 5 with s = 7 reads cluster input line 21 (R51), here in cluster 2; its field is bits 2567:2564 (R69). -/
theorem test_input_select : lcSrc (BitVec.ofNat 4096 (7 * 2 ^ 2564)) 0 21 3 = .line 0 (32 * 2 + 21) := by decide +kernel
/-- The enable field of element 43 is frame bits 3141:3140 (R69). -/
theorem test_enable_field : fEn (BitVec.ofNat 4096 (2 * 2 ^ 3140)) 43 = 2 := by decide +kernel

/-- A 2K×18 block written at 0x5A3 with BE 0b10: row 360, entry 3, only row byte 7 changes (R107). -/
theorem test_block_entry :
    heldEntry 9#32 ⟨true, true, 2, 0x5A3, 0⟩ = (360, 3) ∧ entryPut 9#32 0 3 2 (BitVec.ofNat 72 (2 ^ 18 - 1)) = BitVec.ofNat 72 (0x1FF * 2 ^ 63) := by
  decide

/-- With physical columns 100 and 300 failed, physical 250 carries logical 249 and 300 none (R477). -/
theorem test_column_map :
    let s := { State.reset with rep := { State.reset.rep with marks := [⟨1, 3, 100⟩, ⟨1, 3, 300⟩] } }
    logCol s 3 250 = some 249 ∧ logCol s 3 300 = none := by
  simp only [logCol, failedCols, markedIdx, upTo_eq_range]; decide +kernel

/-- The UNFREEZE of eddy 197 by MBX_BUF words 0–5 is one of CLASS 2 and INDEX 197, and DEPLOYED allows it (R441, R446). -/
theorem test_unfreeze_words :
    let s := sKey 4 4 [0x00C50002] (sLc .deployed false)
    getReg s (Reg.mbxBuf 0) = 0x00040004#32 ∧ kcClass s = .unfreeze ∧ opN s 0 1 = 2 ∧ opN s 2 2 = 197 ∧ kcFormatBad s = false ∧ kcState s = 0 := by
  decide +kernel

/-- The header words of the traced section S3 of device 0x002 (R494). -/
theorem test_trace_heads :
    let s := { State.reset with net := { State.reset.net with id := 2 } }
    recHead s 1 true false 3 0x21 = 0x1980080000000021#64 ∧ recHead s 2 false false 0 0 = 0x2000080000000000#64 ∧
    recHead s 1 true true 3 0xFFFF = 0x1D8008000000FFFF#64 := by decide

/-- One bit in error, of data or of a check, is corrected; two in one codeword are not (R462). -/
theorem test_frame_check :
    frameCheck 0 = .clean ∧ frameCheck 1 = .corrected 0 ∧ frameCheck (1 <<< 4096) = .corrected 0 ∧ frameCheck 0x11 = .bad := by decide +kernel

/-! ### Single steps -/

/-- What a step of a command at the front answers. -/
def after (i : Instr) (s : State) : Option State :=
  match step { s with pending := [i] } with | .next t => some t | _ => none

/-- RUN is refused in STARTING with RESULT 0b101, the engine staying in IDLE (R32); in OPERATIONAL it is accepted. -/
theorem test_run :
    (after .tickCmdRun State.reset).map (fun t => (t.tick.st, getReg t Reg.tickCmdStat)) = some (.idle, 0x15#32) ∧
    (after .tickCmdRun sUp).map (fun t => (t.tick.st, getReg t Reg.tickCmdStat)) = some (.run, 0x11#32) := by decide +kernel

/-- A step takes the command in front off the queue. -/
theorem test_queue : (after .refclkSysLoss State.reset).map (fun t => t.pending) = some [] := by decide +kernel

/-- READ_CLEAR of SCR_CE gives the count and leaves 0 (R4). -/
theorem test_read_clear :
    (after (.readClear (BitVec.ofNat 26 (Reg.scrCe 7))) (setReg (Reg.scrCe 7) 5#32 sUp)).map
      (fun t => (t.rdata, getReg t (Reg.scrCe 7))) = some (5#32, 0#32) := by decide +kernel

/-- GO while another command is in progress has no effect (R441). -/
theorem test_go_busy :
    (after .kcUnfreeze (sKey 4 4 [0xC50002] (sLc .deployed false))).map (fun t => t.mbx.phase) = some .storing := by decide +kernel

/-- The counter 5 is stored, and an eddy that is not frozen answers SEC_NOT_FROZEN (R442, R453). -/
theorem test_counter_stored :
    (after (.mbxCounterStored false) (sKey 4 4 [0xC50002] (sLc .deployed false))).map
      (fun t => (t.nv.counter, fld (getReg t Reg.mbxStat) 0 8)) = some (5, 9) := by decide +kernel

/-- An ADD of −1 and 1 with F: result 0, Z and C set, N and V clear (R358). -/
theorem test_add_flags : flags3 (addc (BitVec.allOnes 64) 1 false) = 6#4 := by decide
/-- A shift by 0 leaves C 0; SRA of the most negative number by 63 gives −1 (R358). -/
theorem test_shift : shiftOut .sll 1 0 = false ∧ shiftRes .sra (1 <<< 63) 63 = BitVec.allOnes 64 := by decide

end Sys2Proof.Tests
end

section
/-! SUPPORT. What every operation of the model keeps: the commands that wait, and the canonical form of the register file.
One lemma for each operation, in the order of the model's files: `Keeps.f` says that from a state that has been kept so far,
`f` leads to one that has. A chain `h.f.g` reads in the order in which the operations act. -/

namespace Sys2Proof.Machine

/-- From `a` to `s` no waiting command was touched, and the register file's canonical form was not lost. -/
structure Keeps (a s : State) : Prop where
  pending : s.pending = a.pending
  regs : RegsOk a → RegsOk s

/-- An operation that may not go through keeps `a` where it does. -/
def KeepsOpt (a : State) (o : Option State) : Prop := ∀ t, o = some t → Keeps a t

/-! ### Shapes of operations -/

theorem Keeps.refl (a : State) : Keeps a a := ⟨rfl, id⟩

section
variable {a s t : State}

theorem Keeps.ite {c : Prop} {inst : Decidable c} (hs : Keeps a s) (ht : Keeps a t) : Keeps a (if c then s else t) := by
  split <;> assumption

theorem Keeps.iteSnd {α : Type} {c : Prop} {inst : Decidable c} {p q : α × State} (hp : Keeps a p.2) (hq : Keeps a q.2) :
    Keeps a (if c then p else q).2 := by
  split <;> assumption

theorem Keeps.iteThird {α β : Type} {c : Prop} {inst : Decidable c} {p q : α × β × State} (hp : Keeps a p.2.2)
    (hq : Keeps a q.2.2) : Keeps a (if c then p else q).2.2 := by
  split <;> assumption

/-- The state of a pair that an operation answers. -/
theorem Keeps.snd {α : Type} {p : α × State} {x : α} (h : Keeps a p.2) (e : p = (x, t)) : Keeps a t := by
  subst e
  exact h

/-- The state of a triple that an operation answers. -/
theorem Keeps.third {α β : Type} {p : α × β × State} {x : α} {y : β} (h : Keeps a p.2.2) (e : p = (x, y, t)) :
    Keeps a t := by
  subst e
  exact h

theorem KeepsOpt.none : KeepsOpt a none := by rintro _ ⟨⟩

theorem KeepsOpt.some (h : Keeps a s) : KeepsOpt a (some s) := by rintro _ ⟨⟩; exact h

theorem KeepsOpt.ite {c : Prop} {inst : Decidable c} {o p : Option State} (ho : KeepsOpt a o) (hp : KeepsOpt a p) :
    KeepsOpt a (if c then o else p) := by
  split <;> assumption

theorem Keeps.foldl {α : Type} {f : State → α → State} {l : List α} (h : Keeps a s)
    (hf : ∀ t x, Keeps a t → Keeps a (f t x)) : Keeps a (l.foldl f s) := by
  induction l generalizing s with
  | nil => exact h
  | cons x l ih => exact ih (hf _ _ h)

theorem Keeps.foldlSnd {α β : Type} {f : β × State → α → β × State} {l : List α} {p : β × State} (h : Keeps a p.2)
    (hf : ∀ p x, Keeps a p.2 → Keeps a (f p x).2) : Keeps a (l.foldl f p).2 := by
  induction l generalizing p with
  | nil => exact h
  | cons x l ih => exact ih (hf _ _ h)

end

section
variable {a s : State} (h : Keeps a s)
include h

/-- A change of the parts beside the queue and the register file. -/
theorem Keeps.beside {dev fab bm tick ra chans net paths queues pool eddies msix host rdata claims ldr nv mbx frz scr bg rep trc
    jtag smb pins free} :
    Keeps a ⟨s.pending, s.regs, dev, fab, bm, tick, ra, chans, net, paths, queues, pool, eddies, msix, host, rdata, claims, ldr,
      nv, mbx, frz, scr, bg, rep, trc, jtag, smb, pins, free⟩ :=
  ⟨h.pending, h.regs⟩

/-- Registers put back to their reset values. -/
theorem Keeps.filterRegs {p : Nat × Word → Bool} : Keeps a { s with regs := s.regs.filter p } :=
  ⟨h.pending, fun ha => mwf_filter _ _ _ (h.regs ha)⟩

/-! ### Ops -/

theorem Keeps.setReg {o : Nat} {v : Word} : Keeps a (setReg o v s) :=
  ⟨h.pending, fun ha => setReg_ok s o v (h.regs ha)⟩

theorem Keeps.bump {o : Nat} : Keeps a (bump o s) := h.setReg

theorem Keeps.bumpBy {o n : Nat} : Keeps a (bumpBy o n s) := .ite h h.setReg

theorem Keeps.orReg {o : Nat} {m : Word} : Keeps a (orReg o m s) := h.setReg

theorem Keeps.andNotReg {o : Nat} {m : Word} : Keeps a (andNotReg o m s) := h.setReg

theorem Keeps.setRegFld {o lo len v : Nat} : Keeps a (setRegFld o lo len v s) := h.setReg

theorem Keeps.latchFirst {o : Nat} {v : Word} : Keeps a (latchFirst o v s) := .ite h h.setReg

theorem Keeps.drawFree : Keeps a (drawFree s) := h.beside

theorem Keeps.mgmt {f : State → State} (hf : ∀ t, Keeps a t → Keeps a (f t)) : Keeps a (mgmt f s) := .ite (hf _ h) h

theorem Keeps.mgmtRd {f : State → State} (hf : ∀ t, Keeps a t → Keeps a (f t)) : Keeps a (mgmtRd f s) :=
  .ite h (.ite h.beside (hf _ h))

theorem Keeps.awake {f : State → State} (hf : ∀ t, Keeps a t → Keeps a (f t)) : Keeps a (awake f s) := .ite h (hf _ h)

theorem Keeps.forEach {α : Type} {f : α → State → State} {l : List α} (hf : ∀ x t, Keeps a t → Keeps a (f x t)) :
    Keeps a (forEach f l s) :=
  forEach_keeps (Keeps a) f hf l s h

theorem Keeps.raiseVec {v : Nat} : Keeps a (raiseVec v s) := .ite h.beside h.beside

theorem Keeps.devEvent {bits : Nat} : Keeps a (devEvent bits s) := .ite h.orReg h.orReg.raiseVec

theorem Keeps.devGo {st : DevState} {cause : Nat} : Keeps a (devGo st cause s) := .ite h.beside.setReg.bump h.beside.setReg

theorem Keeps.setCause {code : Nat} {multi : Bool} : Keeps a (setCause code multi s) := h.setReg

theorem Keeps.enterHalt {code : Nat} {multi : Bool} : Keeps a (enterHalt code multi s) := h.beside.setCause

theorem Keeps.joinFault {code : Nat} : Keeps a (joinFault code s) := .ite h (.ite h.drawFree.setCause h.drawFree.beside)

theorem Keeps.setEddy {e : Nat} {x : Eddy} : Keeps a (setEddy e x s) := h.beside

theorem Keeps.latchIrq {e n : Nat} : Keeps a (latchIrq e n s) := h.setEddy

theorem Keeps.setPath {sec : Nat} {p : RegPath} : Keeps a (setPath sec p s) := h.beside

theorem Keeps.viaPath {sec o : Nat} {v : Word} {act : State → State} (hact : ∀ t, Keeps a t → Keeps a (act t)) :
    Keeps a (viaPath sec o v act s) :=
  .ite h.setPath.bump (hact _ h)


/-! ### Fabric -/

theorem Keeps.setTile {t : Nat} {x : Tile} : Keeps a (setTile t x s) := h.beside

theorem Keeps.setBlock {m : Nat} {b : Block} : Keeps a (setBlock m b s) := h.beside

theorem Keeps.mapTiles {f : Nat → Tile → Tile} : Keeps a (mapTiles f s) := h.beside

theorem Keeps.endSpoilt : Keeps a (endSpoilt s) := h.beside

theorem Keeps.refreshAcks : Keeps a (refreshAcks s) := h.mapTiles

theorem Keeps.quietPort {t : Nat} : Keeps a (quietPort t s) := .ite h.setTile h

theorem Keeps.lcEval {t n : Nat} : Keeps a (lcEval t n s) :=
  .ite h (.ite h.quietPort (.refreshAcks (.endSpoilt (.ite h.setTile.setTile h.setTile))))

theorem Keeps.countRail {t c pcol : Nat} : Keeps a (countRail t c pcol s) := .ite h h.setTile.bump.latchFirst

theorem Keeps.forceSpacer : Keeps a (forceSpacer s) := h.mapTiles.beside

theorem Keeps.initTiles {tokens : Bool} : Keeps a (initTiles tokens s) := h.mapTiles

theorem Keeps.gsrAssert : Keeps a (gsrAssert s) := h.beside.beside.initTiles

theorem Keeps.gsrRelease : Keeps a (gsrRelease s) := h.initTiles.beside.refreshAcks


/-! ### Repair -/

theorem Keeps.countRails : Keeps a (countRails s) :=
  h.forEach (fun _ _ h => .ite h (h.forEach (fun _ _ h => .ite h.countRail h)))


/-! ### Freeze -/

theorem Keeps.freezeRecord {cls idx cause code pool addr : Nat} :
    Keeps a (freezeRecord cls idx cause code pool addr s) :=
  .ite h.beside.bump.beside.raiseVec h.beside.bump.bump

theorem Keeps.setFrozen {cls idx : Nat} {on : Bool} : Keeps a (setFrozen cls idx on s) := h.beside

theorem Keeps.freezeMaster {cls idx cause code pool addr : Nat} :
    Keeps a (freezeMaster cls idx cause code pool addr s) :=
  h.setFrozen.freezeRecord

theorem Keeps.poolViolation {cls idx cause pool addr : Nat} : Keeps a (poolViolation cls idx cause pool addr s) :=
  h.freezeMaster.bump.raiseVec


/-! ### Net -/

theorem Keeps.setChan {c : Nat} {x : Chan} : Keeps a (setChan c x s) := h.beside

theorem Keeps.freeSlot {f : Flit} : Keeps a (freeSlot f s) := by
  unfold Machine.freeSlot
  split
  · exact .ite h.setChan h
  · exact h

theorem Keeps.deliverHere {f : Flit} : Keeps a (deliverHere f s) := h.beside.freeSlot

theorem Keeps.enqueue {c dl : Nat} {f : Flit} : Keeps a (enqueue c dl f s) := h.setChan

theorem Keeps.sendChan {c vl : Nat} {p : Payload} : Keeps a (sendChan c vl p s) := h.enqueue

theorem Keeps.takeMsg {p : Payload} : Keeps a (takeMsg p s) := h.beside

theorem Keeps.holdFlit {h' : HeldFlit} : Keeps a (holdFlit h' s) := h.beside

theorem Keeps.haltNoRoute : Keeps a (haltNoRoute s) := .ite h.enterHalt (.ite h.joinFault h)

theorem Keeps.fabCause {code : Nat} : Keeps a (fabCause code s) := h.setReg

theorem Keeps.spreadNotice {p : Payload} {skip : Option Nat} : Keeps a (spreadNotice p skip s) :=
  h.forEach (fun _ _ h => h.sendChan)

theorem Keeps.flowNoRoute {code src dst : Nat} : Keeps a (flowNoRoute code src dst s) :=
  .ite (.haltNoRoute (.spreadNotice (.ite h.beside.bump.fabCause h.beside.bump.fabCause.raiseVec))) <|
  .spreadNotice (.ite h.beside.bump.fabCause h.beside.bump.fabCause.raiseVec)

theorem Keeps.nameFlow {code : Nat} {f : Flit} {s₀ : State} : Keeps a (nameFlow code f s₀ s) := .ite h h.flowNoRoute

theorem Keeps.keepNoRoute {code : Nat} {f : Flit} : Keeps a (keepNoRoute code f s) := .ite h.bump.freeSlot h.holdFlit.nameFlow

theorem Keeps.turnAndSend {c : Nat} {f : Flit} : Keeps a (turnAndSend c f s) := .enqueue (.ite h.bump h)

theorem Keeps.fabBad {f : Flit} : Keeps a (fabBad f s) := h.bump.freeSlot

theorem Keeps.forwardBy {lost : Flit → State → State} {f : Flit} (hlost : ∀ x t, Keeps a t → Keeps a (lost x t)) :
    Keeps a (forwardBy lost f s) :=
  .ite h.fabBad <|
  .ite (.ite h.deliverHere h.fabBad) <|
  .ite (.ite h.deliverHere h.fabBad) <|
  .ite h.deliverHere <|
  .ite h.deliverHere <|
  .ite (hlost _ _ h) (.ite h.holdFlit (.ite h.holdFlit (by split; exacts [h.turnAndSend, (hlost _ _ h)])))

theorem Keeps.poolNoRoute {f : Flit} : Keeps a (poolNoRoute f s) :=
  .ite h.freeSlot.beside (h.freeSlot.forwardBy (fun _ _ h => h.keepNoRoute))

theorem Keeps.holdNoRoute {code : Nat} {f : Flit} : Keeps a (holdNoRoute code f s) := .ite h.poolNoRoute.nameFlow h.keepNoRoute

theorem Keeps.forward {f : Flit} : Keeps a (forward f s) := h.forwardBy (fun _ _ h => h.holdNoRoute)

theorem Keeps.sendDev {vl dst : Nat} {p : Payload} : Keeps a (sendDev vl dst p s) := h.forward

theorem Keeps.releaseHeld : Keeps a (releaseHeld s) := h.beside.forEach (fun _ _ h => h.forward)

theorem Keeps.settleEvents : Keeps a (settleEvents s) := h.beside.releaseHeld

theorem Keeps.beginReroute {c : Nat} {count stalled : Bool} : Keeps a (beginReroute c count stalled s) :=
  .settleEvents (.forEach (.bump (.beside (.ite h.setChan.bumpBy h.setChan))) (fun _ _ h => h.forward))

theorem Keeps.newTables : Keeps a (newTables s) := (h.beside.beside.forEach (fun _ _ h => h.forward)).releaseHeld

theorem Keeps.setRoute {d : Nat} {v : Word} : Keeps a (setRoute d v s) := h.setReg.forEach (fun _ _ h => h.setReg)

theorem Keeps.installTable {tab : Nat → Word} : Keeps a (installTable tab s) := h.forEach (fun _ _ h => h.setRoute)


/-! ### Queues -/

theorem Keeps.setQ {q : Nat} {x : Queue} : Keeps a (setQ q x s) := .ite h.beside.latchIrq h.beside

theorem Keeps.qEvent {q bits : Nat} : Keeps a (qEvent q bits s) := .ite h.orReg h.orReg.raiseVec

theorem Keeps.qResult {q code : Nat} : Keeps a (qResult q code s) := h.setReg

theorem Keeps.qLevel {q : Nat} : Keeps a (qLevel q s) := .ite h.setQ.bump.qEvent h.setQ

theorem Keeps.qDrop {q code : Nat} : Keeps a (qDrop q code s) := h.bump.qEvent.qResult

theorem Keeps.bumpMarker {q : Nat} : Keeps a (bumpMarker q s) := by
  unfold Machine.bumpMarker
  dsimp only
  split
  · exact .bump (.qEvent (.bump (.setQ (.ite h.drawFree h))))
  · exact .ite (.qEvent (.bump (.setQ (.ite h.drawFree h)))) (.setQ (.ite h.drawFree h))

theorem Keeps.spill {q : Nat} : Keeps a (spill q s) := .ite h.qDrop.bumpMarker h.qDrop.setQ.bump

theorem Keeps.flushMarker {q : Nat} : Keeps a (flushMarker q s) := .ite h.setQ h.setQ.qEvent.qLevel

theorem Keeps.discardWord {q : Nat} {last : Bool} : Keeps a (discardWord q last s) :=
  .ite h.bump.qEvent.qResult.setQ.flushMarker h.bump.qEvent.qResult.setQ

theorem Keeps.storeWord {q : Nat} {pay : BitVec 64} {last : Bool} : Keeps a (storeWord q pay last s) := h.setQ.qResult.qLevel

theorem Keeps.offUnlinked {q : Nat} {last : Bool} : Keeps a (offUnlinked q last s) := .qDrop (.ite h.discardWord h)

theorem Keeps.pushWord {q : Nat} {pay : BitVec 64} {last : Bool} : Keeps a (pushWord q pay last s).2 := by
  unfold Machine.pushWord
  dsimp only
  exact .iteSnd h (.iteSnd h.setQ.offUnlinked (.iteSnd h.setQ.discardWord (.iteSnd h.setQ.storeWord h.setQ.spill)))

theorem Keeps.hostPushHold {q : Nat} {pay : BitVec 64} {last : Bool} : Keeps a (hostPushHold q pay last s) :=
  .ite h (.ite h.setQ.bump h.setQ)

theorem Keeps.hostPushNow {q : Nat} {pay : BitVec 64} {last : Bool} : Keeps a (hostPushNow q pay last s) := by
  unfold Machine.hostPushNow
  exact .ite h.pushWord h.hostPushHold

theorem Keeps.hostPushArrive {q : Nat} : Keeps a (hostPushArrive q s) := by
  unfold Machine.hostPushArrive
  dsimp only
  split
  · exact .ite h.setQ.pushWord h
  · exact h

theorem Keeps.popWord {q : Nat} : Keeps a (popWord q s).2 := by
  unfold Machine.popWord
  dsimp only
  exact .iteSnd h <|
    .iteSnd h.setQ.bump.qEvent.qResult <|
    .iteSnd h.setQ.bump.qEvent.qResult <| by
      split <;> dsimp only
      · exact .qResult (.qLevel (.setQ (.ite h.setQ.drawFree h.setQ)))
      · exact .qResult (.qEvent (.bump (.qLevel (.setQ (.ite h.setQ.drawFree h.setQ)))))
      · exact .qResult (.qEvent (.bump (.qLevel (.setQ (.ite h.setQ.drawFree h.setQ)))))

theorem Keeps.pointerSync {q : Nat} {toRead : Bool} : Keeps a (pointerSync q toRead s) :=
  .ite h (.ite h.setQ (.qLevel (.ite h.setQ.qEvent h.setQ)))

theorem Keeps.spillSeal {q : Nat} : Keeps a (spillSeal q s) := by
  unfold Machine.spillSeal
  dsimp only
  split
  · exact .ite h.setQ h.setQ
  · exact h

theorem Keeps.flushAsk {q : Nat} : Keeps a (flushAsk q s) := .ite h.qResult (.ite h h.setQ.qResult.qLevel)

theorem Keeps.flushAct {q : Nat} : Keeps a (flushAct q s) := .ite h (.ite h.setQ.bumpBy.qLevel h.setQ.bumpBy.qLevel.flushMarker)

theorem Keeps.xingDiscard {sec kind side idx : Nat} : Keeps a (xingDiscard sec kind side idx s) := h.bump.latchFirst

theorem Keeps.wrReset {q : Nat} : Keeps a (wrReset q s) := .setQ (.ite h.xingDiscard h)

theorem Keeps.rdReset {q : Nat} : Keeps a (rdReset q s) := .setQ (.ite h.xingDiscard h)

theorem Keeps.peerReset {q : Nat} {atRead : Bool} : Keeps a (peerReset q atRead s) := by
  unfold Machine.peerReset
  dsimp only
  exact .ite (.ite h (.qLevel (.qEvent (.bumpBy (.setQ (.ite h.xingDiscard h)))))) <|
    .ite h (.forEach (.qLevel (.qEvent (.bumpBy (.setQ (.ite h.xingDiscard h))))) (fun _ _ h => h.pushWord))

theorem Keeps.qRelease {q : Nat} {rd : Bool} : Keeps a (qRelease q rd s) := .ite h (.ite h.setQ h.setQ)

theorem Keeps.qMsg {q : Nat} {rd ack : Bool} : Keeps a (qMsg q rd ack s) :=
  .ite h (.ite (.bump (.ite h.setQ.bump h.setQ)) (.ite h.setQ.bump h.setQ))

theorem Keeps.portAnswer {t : Nat} {v : BitVec 128} : Keeps a (portAnswer t v s) := h.setTile

theorem Keeps.portStage {t : Nat} {v : BitVec 128} : Keeps a (portStage t v s) := .ite h h.setTile.refreshAcks

theorem Keeps.pushTick {q t : Nat} : Keeps a (pushTick q t s) :=
  .ite h.quietPort (.ite h (.portAnswer (.ite h.setQ (.ite h.setQ.setQ.offUnlinked h.setQ.setQ))))

theorem Keeps.queuePush {q : Nat} : Keeps a (queuePush q s) := by
  unfold Machine.queuePush
  dsimp only
  exact .ite h (.ite h.pushTick (.ite h (.ite h.portStage (.ite h (.portStage h.setQ.pushWord)))))

theorem Keeps.journalStall {sec : Nat} : Keeps a (journalStall sec s) := .ite h h.beside.bump

theorem Keeps.popTick {q t : Nat} : Keeps a (popTick q t s) := by
  unfold Machine.popTick
  dsimp only
  exact .ite h.quietPort <|
    .ite h <| by
      split
      · exact h.setQ.beside.portAnswer
      · exact .ite h.setQ.journalStall (.portAnswer (.beside h.setQ.popWord))

theorem Keeps.queuePop {q : Nat} : Keeps a (queuePop q s) := by
  unfold Machine.queuePop
  dsimp only
  exact .ite h (.ite h.popTick (.ite h (.ite h.portStage (.ite h (.portStage h.setQ.popWord)))))

theorem Keeps.qDiscardFrom {t : Nat} : Keeps a (qDiscardFrom t s) := h.beside

theorem Keeps.qReleaseOne {t q : Nat} : Keeps a (qReleaseOne t q s) := by
  unfold Machine.qReleaseOne
  dsimp only
  exact .forEach (.ite h h.setQ) (fun _ _ h => h.pushWord)

theorem Keeps.qReleaseTick {t : Nat} : Keeps a (qReleaseTick t s) := h.forEach (fun _ _ h => h.qReleaseOne)

theorem Keeps.qctlWrReset {q : Nat} : Keeps a (qctlWrReset q s) := h.wrReset.qResult

theorem Keeps.qctlRdReset {q : Nat} : Keeps a (qctlRdReset q s) := h.rdReset.qResult


/-! ### Pools -/

theorem Keeps.setHbm {wa : Nat} {w : HWord} : Keeps a (setHbm wa w s) := h.beside

theorem Keeps.hbmUe {wa src : Nat} : Keeps a (hbmUe wa src s) := .raiseVec (.ite h.bump h.bump.beside.setReg)

theorem Keeps.hbmFetch {wa src : Nat} : Keeps a (hbmFetch wa src s).2.2 := by
  unfold Machine.hbmFetch
  dsimp only
  split <;> dsimp only
  · exact .ite h.drawFree h
  · exact .ite (.beside (.bump (.ite h.drawFree h))) (.setHbm (.bump (.ite h.drawFree h)))
  · exact .hbmUe (.ite h.drawFree h)

theorem Keeps.fifoCheck {wa : Nat} {d : BitVec 64} {err : BitVec 72} : Keeps a (fifoCheck wa d err s).2.2 := by
  unfold Machine.fifoCheck
  dsimp only
  split <;> dsimp only
  · exact .ite h.drawFree h
  · exact .bump (.ite h.drawFree h)
  · exact .hbmUe (.ite h.drawFree h)

theorem Keeps.fifoPass {k wa : Nat} {d : BitVec 64} : Keeps a (fifoPass k wa d s).2.2 := by
  unfold Machine.fifoPass
  dsimp only
  exact .iteThird h h.beside.fifoCheck

theorem Keeps.hbmRead {wa : Nat} : Keeps a (hbmRead wa s).2.2 := by
  unfold Machine.hbmRead
  dsimp only
  exact .fifoPass h.hbmFetch

theorem Keeps.hbmStore {wa : Nat} {be : BitVec 8} {d : BitVec 64} {lost : Bool} : Keeps a (hbmStore wa be d lost s) := by
  unfold Machine.hbmStore
  dsimp only
  refine .ite h.beside.setHbm (.ite h ?_)
  generalize hr : Machine.hbmFetch .. = r
  have hf : Keeps a r.2.2 := hr ▸ h.hbmFetch
  exact hf.beside.setHbm

theorem Keeps.hbmWrite {wa : Nat} {be : BitVec 8} {d : BitVec 64} : Keeps a (hbmWrite wa be d s) := by
  unfold Machine.hbmWrite
  dsimp only
  exact .hbmStore h.fifoPass

theorem Keeps.hbmWriteBack {wa : Nat} : Keeps a (hbmWriteBack wa s) := .ite (.ite h.beside.setHbm h.beside) h

theorem Keeps.hbmZero {a' n : Nat} : Keeps a (hbmZero a' n s) := h.beside

theorem Keeps.readDesc {n : Nat} : Keeps a (readDesc n s).2 := by
  refine .foldlSnd h fun _ _ h => ?_
  dsimp only
  exact h.hbmRead

theorem Keeps.cacheDesc {u n : Nat} {d : Desc} : Keeps a (cacheDesc u n d s) := h.beside

theorem Keeps.descTouch {u n : Nat} : Keeps a (descTouch u n s) := by
  unfold Machine.descTouch
  dsimp only
  split
  · exact h
  · exact .cacheDesc h.readDesc

theorem Keeps.dropDesc {n : Nat} {d : Desc} : Keeps a (dropDesc n d s) :=
  h.forEach (fun _ _ h => .ite h.beside.cacheDesc h.beside)

theorem Keeps.setDesc {n : Nat} {d : Desc} : Keeps a (setDesc n d s) := (h.forEach (fun _ _ h => h.hbmWrite)).dropDesc

theorem Keeps.useGranules {n : Nat} {d : Desc} {take : Bool} : Keeps a (useGranules n d take s) :=
  h.forEach (fun _ _ h => h.beside)

theorem Keeps.askModel {who : Asker} {op n : Nat} {d : Desc} {idx : Nat} {be : BitVec 8} {data : BitVec 64}
    {f : BitVec 8 × BitVec 64} {t : Nat × State} (ht : askModel who op n d idx be data s f = some t) : Keeps a t.2 := by
  unfold Machine.askModel at ht
  dsimp only at ht
  split at ht
  · cases ht
  · cases ht; exact h.beside.latchIrq

theorem Keeps.setPort {p : Nat} {x : Port} : Keeps a (setPort p x s) := h.beside

theorem Keeps.invalidate {wa : Nat} {own : Option Nat} : Keeps a (invalidate wa own s) := h.beside

theorem Keeps.updateLine {p wa : Nat} {be : BitVec 8} {d : BitVec 64} : Keeps a (updateLine p wa be d s) := by
  unfold Machine.updateLine
  dsimp only
  split
  · exact h
  · exact .ite h.setPort <|
      .ite h <| by
        split
        · exact .bump (.setPort (.ite h.drawFree h))
        · exact .ite (.bump (.setPort (.ite h.drawFree h))) (.setPort (.ite h.drawFree h))

theorem Keeps.poolZero {cache : Bool} {a' n : Nat} : Keeps a (poolZero cache a' n s) := .hbmZero (.ite h.beside h)

theorem Keeps.fillLine {ln : Nat} : Keeps a (fillLine ln s).2 := by
  refine .foldlSnd h fun _ _ h => ?_
  dsimp only
  exact h.hbmRead

theorem Keeps.missRead {p wa : Nat} : Keeps a (missRead p wa s).2.2 := by
  unfold Machine.missRead
  dsimp only
  exact .setPort h.fillLine

theorem Keeps.portMemRead {p : Nat} {d : Desc} {wa : Nat} : Keeps a (portMemRead p d wa s).2.2 := by
  unfold Machine.portMemRead
  dsimp only
  exact .iteThird h.hbmRead <| by
      split
      · exact h.bump.missRead
      · split
        · exact .missRead (.bump (.setPort (.ite h.drawFree h)))
        · dsimp only
          exact .bump (.ite (.bump (.setPort (.ite h.drawFree h))) (.setPort (.ite h.drawFree h)))

theorem Keeps.cacheUpset {p set way w b : Nat} : Keeps a (cacheUpset p set way w b s) := h.setPort

theorem Keeps.otherRead {n : Nat} {d : Desc} {idx : Nat} : Keeps a (otherRead n d idx s).2.2 := by
  unfold Machine.otherRead
  dsimp only
  refine .iteThird h ?_
  dsimp only
  exact h.hbmRead

theorem Keeps.otherWrite {d : Desc} {idx : Nat} {be : BitVec 8} {v : BitVec 64} : Keeps a (otherWrite d idx be v s) := by
  unfold Machine.otherWrite
  exact .hbmWrite (.ite h.invalidate h)

theorem Keeps.poolDiscardFrom {t : Nat} : Keeps a (poolDiscardFrom t s) := h.beside

theorem Keeps.poolNewTick : Keeps a (poolNewTick s) := h.beside


/-! ### Trace -/

theorem Keeps.trcEvent {bits : Nat} : Keeps a (trcEvent bits s) := .ite h.orReg h.orReg.raiseVec

theorem Keeps.trcResult {code : Nat} : Keeps a (trcResult code s) := .ite h.beside.bump h.beside

theorem Keeps.setStream {ex : Bool} {sec : Nat} {x : TrcStream} : Keeps a (setStream ex sec x s) := .ite h.beside h.beside

theorem Keeps.enterFifo {ex : Bool} {sec t : Nat} {raw : BitVec 1024} : Keeps a (enterFifo ex sec t raw s) :=
  .ite h.setStream h.setStream

theorem Keeps.offerSample {toRing toExport : Bool} {sec t : Nat} {raw : BitVec 1024} :
    Keeps a (offerSample toRing toExport sec t raw s) :=
  .ite (.trcEvent (.bump (.ite (.enterFifo (.ite h.enterFifo h)) (.ite h.enterFifo h)))) <|
  .ite (.enterFifo (.ite h.enterFifo h)) (.ite h.enterFifo h)

theorem Keeps.traceSample : Keeps a (traceSample s) :=
  .ite h (h.forEach (fun _ _ h => .ite (.ite h.offerSample h) (.beside (.ite h.offerSample h))))

theorem Keeps.traceCommit {t : Nat} : Keeps a (traceCommit t s) :=
  .ite h (h.forEach (fun _ _ h => by dsimp only; split; exacts [h, h.beside.offerSample]))

theorem Keeps.ringPut {ws : List (BitVec 64)} {t : Nat} {isVoid isGap : Bool} :
    KeepsOpt a (ringPut ws t isVoid isGap s) :=
  .ite .none (.ite .none (.some (h.forEach (fun _ _ h => h.otherWrite)).beside))

theorem Keeps.traceVoid {t : Nat} : Keeps a (traceVoid t s) :=
  .ite h <|
  .ite h.beside <|
  .ite
    (by
       split
       · exact ((h.beside.beside.ringPut _ ‹_›).forEach (fun _ _ h => h.setStream)).bump
       · exact h.beside.beside.trcEvent)
    h.beside.beside

theorem Keeps.exportFlits {all : Bool} {n : Nat} : Keeps a (exportFlits all n s) := by
  induction n generalizing s with
  | zero => exact h
  | succ n ih => exact .ite h (ih h.beside.sendChan)

theorem Keeps.exportPut {ws : List (BitVec 64)} : KeepsOpt a (exportPut ws s) := .ite (.some h.beside.exportFlits) .none

theorem Keeps.putRecord {ex : Bool} {ws : List (BitVec 64)} {t : Nat} {isGap : Bool} :
    KeepsOpt a (putRecord ex ws t isGap s) :=
  .ite h.exportPut h.ringPut

theorem Keeps.traceRecord {ex : Bool} {sec : Nat} : Keeps a (traceRecord ex sec s) := by
  unfold Machine.traceRecord
  dsimp only
  split
  · exact h
  · split
    · exact (h.putRecord _ ‹_›).setStream.bump
    · exact h
  · exact .ite h.setStream <| by
        split
        · exact .ite (h.putRecord _ ‹_›).setStream (h.putRecord _ ‹_›).setStream.bump
        · exact .ite h.setStream.bump.trcEvent.bump h.setStream.bump.trcEvent

theorem Keeps.snapAbort : Keeps a (snapAbort s) := .ite h h.beside.trcResult.trcEvent


/-! ### TickOps -/

theorem Keeps.journalBack {t : Nat} : Keeps a (journalBack t s) := h.beside

theorem Keeps.frameLeave {k g n : Nat} {vals : BitVec 896} : Keeps a (frameLeave k g n vals s) := by
  unfold Machine.frameLeave
  exact .sendDev h.beside

theorem Keeps.keepFrames {k : Nat} : Keeps a (keepFrames k s) :=
  h.forEach (fun _ _ h => .beside (.ite h (by split; exacts [h.frameLeave, h])))

theorem Keeps.discardFrom {t : Nat} : Keeps a (discardFrom t s) := h.beside.journalBack.qDiscardFrom.poolDiscardFrom

theorem Keeps.abandonTick : Keeps a (abandonTick s) := .ite h.discardFrom.beside.forceSpacer h

theorem Keeps.enterFault {code : Nat} {multi : Bool} : Keeps a (enterFault code multi s) :=
  .raiseVec (.bump (.setCause (.beside (.abandonTick (.ite h.drawFree h)))))

theorem Keeps.tickFaults {codes : List Nat} : Keeps a (tickFaults codes s) := by
  unfold Machine.tickFaults
  split
  · exact h
  · dsimp only
    split
    · exact h.joinFault
    · split <;> exact h.beside
    · exact h.enterFault

theorem Keeps.tickFault {code : Nat} : Keeps a (tickFault code s) := h.tickFaults

theorem Keeps.freeKept : Keeps a (freeKept s) := h.beside

theorem Keeps.advanceL {n : Nat} : Keeps a (advanceL n s) := .ite h.beside.freeKept h


/-! ### BlockMem -/

theorem Keeps.bmUe {m row src : Nat} : Keeps a (bmUe m row src s) := h.bump.latchFirst.raiseVec

theorem Keeps.bmCheck {m row src : Nat} {stop : Bool} : Keeps a (bmCheck m row src stop s).2.2 := by
  unfold Machine.bmCheck
  dsimp only
  split <;> dsimp only
  · exact .ite h.drawFree h
  · exact .setBlock (.bump (.ite h.drawFree h))
  · exact .ite (.tickFault (.bmUe (.ite h.drawFree h))) (.bmUe (.ite h.drawFree h))

theorem Keeps.bmStore {m row e : Nat} {be : BitVec 8} {din : BitVec 72} {src : Nat} :
    Keeps a (bmStore m row e be din src s) := by
  unfold Machine.bmStore
  dsimp only
  refine .ite h.setBlock ?_
  generalize hr : Machine.bmCheck .. = r
  have hc : Keeps a r.2.2 := hr ▸ h.bmCheck
  exact hc.setBlock

theorem Keeps.holdPort {m : Nat} {portB : Bool} : Keeps a (holdPort m portB s) := h.setBlock

theorem Keeps.syncPort {m : Nat} {portB : Bool} : Keeps a (syncPort m portB s) := by
  unfold Machine.syncPort
  dsimp only
  split
  · exact h
  · generalize hr : Machine.bmCheck .. = r
    have hc : Keeps a r.2.2 := hr ▸ h.bmCheck
    exact .ite h hc.setBlock

theorem Keeps.bmCommit {m k : Nat} {mask : BitVec 64} : Keeps a (bmCommit m k mask s) :=
  .ite h <|
  .setBlock <| .ite
    (.bump <| by
       dsimp only
       split
       · exact .ite
             (.bmStore <| by
                split
                · exact .ite h.syncPort.syncPort.bmStore h.syncPort.syncPort
                · exact h.syncPort.syncPort) <| by
             split
             · exact .ite h.syncPort.syncPort.bmStore h.syncPort.syncPort
             · exact h.syncPort.syncPort
       · split
         · exact .ite h.syncPort.syncPort.bmStore h.syncPort.syncPort
         · exact h.syncPort.syncPort) <| by
    dsimp only
    split
    · exact .ite
          (.bmStore (by split; exacts [.ite h.syncPort.syncPort.bmStore h.syncPort.syncPort, h.syncPort.syncPort])) <| by
          split
          · exact .ite h.syncPort.syncPort.bmStore h.syncPort.syncPort
          · exact h.syncPort.syncPort
    · split
      · exact .ite h.syncPort.syncPort.bmStore h.syncPort.syncPort
      · exact h.syncPort.syncPort

theorem Keeps.bmAsyncRead {m : Nat} {portB : Bool} : Keeps a (bmAsyncRead m portB s) := by
  unfold Machine.bmAsyncRead
  dsimp only
  refine .ite h ?_
  generalize hr : Machine.bmCheck .. = r
  have hc : Keeps a r.2.2 := hr ▸ h.bmCheck
  exact .ite hc.setBlock.tickFault hc.setBlock

theorem Keeps.bmFrReport {m : Nat} {portB : Bool} : Keeps a (bmFrReport m portB s) := by
  unfold Machine.bmFrReport
  dsimp only
  split
  · exact h
  · exact .beside h.setBlock.beside.bmCheck

theorem Keeps.bmFrAccess {m : Nat} {portB overlap followed : Bool} : Keeps a (bmFrAccess m portB overlap followed s) := by
  unfold Machine.bmFrAccess
  refine .ite h ?_
  lift_lets
  intro p last hit othRead s1 b acc
  have hs : Keeps a s1 := .ite h.setBlock h.bmFrReport
  clear_value s1
  generalize heldEntry _ p = re
  dsimp -zeta only
  lift_lets
  intro wait src
  have hsrc {n : Nat} : Keeps a { src with free := n } := hs.setBlock.beside
  generalize hb : Machine.bmCheck .. = r
  have hr : Keeps a r.2.2 := by subst hb; exact hs.bmCheck
  clear hb
  clear_value src
  beta_reduce
  lift_lets
  intro s2
  have h2 : Keeps a s2 := by
    refine .ite (.bump ?_) ?_ <;>
      (refine .iteSnd hs <| .iteSnd (.iteSnd ?_ ?_) <| .iteSnd ?_ ?_ <;> dsimp only
       exacts [hs.bmStore, hs.bump, hs.drawFree, .ite hsrc hr])
  clear_value s2
  intros
  exact .refreshAcks (.setTile (.ite h2.setBlock.drawFree h2.setBlock))

theorem Keeps.bmWriteBack {m row : Nat} : Keeps a (bmWriteBack m row s) := .ite h.setBlock h

theorem Keeps.bmPatrolRead {m : Nat} : Keeps a (bmPatrolRead m s) := by
  unfold Machine.bmPatrolRead
  dsimp only
  exact .ite (.setBlock h.bmCheck) h


/-! ### Cells -/

theorem Keeps.lcEvaluate {t n : Nat} : Keeps a (lcEvaluate t n s) := .ite h.lcEval.countRails h.lcEval

theorem Keeps.stallBlock {m : Nat} : Keeps a (stallBlock m s) := .ite h.setBlock h.setBlock.bump

theorem Keeps.reportSettled {t : Nat} {x : Tile} : Keeps a (reportSettled t x s) := h.beside.setTile

theorem Keeps.tileSettled {t : Nat} : Keeps a (tileSettled t s) :=
  .ite h (by split; exacts [.ite h.holdPort.stallBlock h.holdPort.reportSettled, h.quietPort.reportSettled])

theorem Keeps.tileSpacerComplete {t : Nat} : Keeps a (tileSpacerComplete t s) := .ite h.setTile h

theorem Keeps.gioStage {b k t : Nat} : Keeps a (gioStage b k t s) :=
  h.foldl fun _ _ h => .ite h h.beside

theorem Keeps.frCapture {t c : Nat} : Keeps a (frCapture t c s) :=
  .ite h (by split; exacts [.ite h h.setTile.refreshAcks, .ite h.gioStage.setTile.refreshAcks h, h])

theorem Keeps.frRelease {t c : Nat} : Keeps a (frRelease t c s) :=
  .ite h (.refreshAcks (.endSpoilt (by split; exacts [h.setTile.bmFrReport.setBlock, h.setTile])))

theorem Keeps.snapPromote : Keeps a (snapPromote s) := by
  unfold Machine.snapPromote
  split
  · exact .ite h.beside h
  · exact h

theorem Keeps.freshRun : Keeps a (freshRun s) := h.snapPromote.beside

theorem Keeps.gsrPulse {v : Word} : Keeps a (gsrPulse v s) :=
  .ite h <|
  .ite h <| by
    split
    · exact h.beside.bump
    · exact .ite h.beside.gsrAssert.freshRun.beside.setCause h.beside.gsrAssert.freshRun

theorem Keeps.gsrPulseDone : Keeps a (gsrPulseDone s) := .ite h h.beside.gsrRelease

theorem Keeps.upsetRail {t n out : Nat} {tRail : Bool} : Keeps a (upsetRail t n out tRail s) :=
  .ite h.setTile.countRails h.setTile

theorem Keeps.setScr {sec : Nat} {x : Scrubber} : Keeps a (setScr sec x s) := h.beside

theorem Keeps.upset {u : Upset} : Keeps a (upset u s) := by
  unfold Machine.upset
  split
  · exact h.setTile.refreshAcks
  · exact .ite h h.setTile.refreshAcks
  · exact h.upsetRail.refreshAcks
  · exact h.setBlock
  · exact h.setQ
  · exact h.setHbm
  · exact h.cacheUpset
  · exact h.bump
  · dsimp only
    split
    · exact h
    · exact h.setChan
  · exact h.setChan
  · exact h.beside
  · exact h.setPort
  · dsimp only
    split
    · exact h
    · exact h.setPort
  · exact h.setEddy
  · exact .ite h h.setScr
  · exact .ite h.setScr.setBlock h.setScr
  · exact h.setScr
  · exact .ite h.setScr.setReg h.setScr
  · exact h.bump

theorem Keeps.loseSection {sec : Nat} : Keeps a (loseSection sec s) := h.beside.setScr

theorem Keeps.vsenseUpdate {sec mv : Nat} : Keeps a (vsenseUpdate sec mv s) :=
  .tickFaults <| .ite
    (.loseSection <| .ite (.bump (.ite h.beside.setReg.bump h.beside.setReg)) (.ite h.beside.setReg.bump h.beside.setReg)) <|
  .ite (.bump (.ite h.beside.setReg.bump h.beside.setReg)) (.ite h.beside.setReg.bump h.beside.setReg)

theorem Keeps.oneHotConflict {l : LongLine} : Keeps a (oneHotConflict l s) :=
  .ite h <|
  .ite
    (.tickFault <| .ite
       (.drawFree <| .beside (.refreshAcks (.ite h.beside.bump.latchFirst.setScr.raiseVec h.beside.bump.latchFirst.setScr)))
       (.refreshAcks (.ite h.beside.bump.latchFirst.setScr.raiseVec h.beside.bump.latchFirst.setScr))) <|
  .ite
    (.drawFree <| .beside (.refreshAcks (.ite h.beside.bump.latchFirst.setScr.raiseVec h.beside.bump.latchFirst.setScr)))
    (.refreshAcks (.ite h.beside.bump.latchFirst.setScr.raiseVec h.beside.bump.latchFirst.setScr))


/-! ### Tick -/

theorem Keeps.cmdStat {last result : Nat} : Keeps a (cmdStat last result s) := h.setReg

theorem Keeps.wrStat {result : Nat} : Keeps a (wrStat result s) := h.cmdStat

theorem Keeps.tickRange : Keeps a (tickRange s) := h.bump.wrStat

theorem Keeps.startTicking {st : TState} : Keeps a (startTicking st s) := h.beside

theorem Keeps.startCmd {cmd : Nat} {go : State → State} (hgo : ∀ t, Keeps a t → Keeps a (go t)) :
    Keeps a (startCmd cmd go s) := by
  unfold Machine.startCmd
  split
  · exact .ite h.beside.enterFault.cmdStat (hgo _ h)
  · exact .ite h.cmdStat (.ite h.enterHalt.cmdStat (hgo _ h))

theorem Keeps.holdStart {cmd count : Nat} : Keeps a (holdStart cmd count s) := h.beside

theorem Keeps.tickRun : Keeps a (tickRun s) :=
  .ite h.cmdStat <|
  .ite h.holdStart (.ite (h.startCmd (fun _ h => h.startTicking.cmdStat)) (.ite h.beside.cmdStat h.cmdStat))

theorem Keeps.tickPaced : Keeps a (tickPaced s) :=
  .ite h.cmdStat <|
  .ite h.holdStart <|
  .ite (h.startCmd (fun _ h => h.startTicking.cmdStat)) (.ite h.beside.cmdStat (.ite h.beside.cmdStat h.cmdStat))

theorem Keeps.tickStep {count : Nat} : Keeps a (tickStep count s) :=
  .ite h.cmdStat <|
  .ite h.holdStart (.ite (h.startCmd (fun _ h => .ite h.bump.cmdStat h.startTicking.beside.cmdStat)) h.cmdStat)

theorem Keeps.pulseDone : Keeps a (pulseDone s) :=
  .ite h.gsrPulseDone <| by
    split
    · exact h.gsrPulseDone
    · exact .ite h.gsrPulseDone.beside.tickRun (.ite h.gsrPulseDone.beside.tickPaced h.gsrPulseDone.beside.tickStep)

theorem Keeps.tickStop : Keeps a (tickStop s) :=
  .ite (.ite h.cmdStat.beside (.ite h.cmdStat.enterHalt.beside h.cmdStat.enterHalt)) h.cmdStat

theorem Keeps.tickClear : Keeps a (tickClear s) :=
  .ite h.cmdStat (.ite h.cmdStat (by dsimp only; split; exacts [h.beside.cmdStat, h.beside.cmdStat.beside]))

theorem Keeps.tickStopHi {v : Word} : Keeps a (tickStopHi v s) := h.beside.setReg.wrStat

theorem Keeps.tickCfgWrite {v : Word} : Keeps a (tickCfgWrite v s) := .ite h.setReg.wrStat h.setReg.wrStat

theorem Keeps.tickPeriodWrite {v : Word} : Keeps a (tickPeriodWrite v s) := .ite h.tickRange h.setReg.wrStat

theorem Keeps.cadLenWrite {v : Word} : Keeps a (cadLenWrite v s) := .ite h.wrStat (.ite h.tickRange h.beside.setReg.wrStat)

theorem Keeps.cadPosWrite {v : Word} : Keeps a (cadPosWrite v s) := .ite h.wrStat (.ite h.tickRange h.beside.wrStat)

theorem Keeps.cadMaskWrite {i : Nat} {hi : Bool} {v : Word} : Keeps a (cadMaskWrite i hi v s) := .ite h.wrStat h.setReg.wrStat

theorem Keeps.paceEvent : Keeps a (paceEvent s) := .ite h.bump h.beside

theorem Keeps.paceFrom {src : Bool} : Keeps a (paceFrom src s) := .ite h.paceEvent h

theorem Keeps.putVal {v : BVal} : Keeps a (putVal v s) := h.beside

theorem Keeps.groupSettled : Keeps a (groupSettled s) := h.beside

theorem Keeps.driveGroup {mayPredict : Bool} {g : Nat} : Keeps a (driveGroup mayPredict g s) := by
  unfold Machine.driveGroup
  dsimp only
  split
  · exact .ite h (.ite h.putVal.groupSettled (.ite h.putVal.groupSettled h))
  · exact .ite h.putVal.groupSettled h

theorem Keeps.waitExpire {g : Nat} : Keeps a (waitExpire g s) := .ite h.driveGroup h

theorem Keeps.recordRollback : Keeps a (recordRollback s) := by
  unfold Machine.recordRollback
  split
  · exact h
  · exact h.bump.bumpBy.setReg.setReg.beside

theorem Keeps.usePace : Keeps a (usePace s) := .ite (.ite h.beside.bump h.beside) h

theorem Keeps.captureAll {only : Bool} {k : Nat} {mask : BitVec 64} : Keeps a (captureAll only k mask s) :=
  .beside (.ite h (h.mapTiles.forEach (fun _ _ h => h.bmCommit)))

theorem Keeps.launch {k pos : Nat} {mask : BitVec 64} {gio : BitVec 480} : Keeps a (launch k pos mask gio s) :=
  h.beside.mapTiles.beside.poolNewTick

theorem Keeps.keepRing {k : Nat} : Keeps a (keepRing k s) := h.beside

theorem Keeps.issueTick {gio : BitVec 480} : Keeps a (issueTick gio s) :=
  .ite h.usePace.launch.captureAll.keepRing.recordRollback <|
  have held := h.usePace.launch.captureAll.keepRing.recordRollback.forEach fun _ _ h => h.quietPort
  (held.forEach fun _ _ h => h.driveGroup).traceSample

theorem Keeps.tickIssue {gio : BitVec 480} : Keeps a (tickIssue gio s) := .ite h (.ite h.issueTick (.ite h h.beside.bump))

theorem Keeps.spacerRelease : Keeps a (spacerRelease s) := .ite h h.beside.beside.forceSpacer

theorem Keeps.measure {period : Word} {same : BitVec 5} : Keeps a (measure period same s) := h.setReg.setReg.setReg.bump.beside

theorem Keeps.snapKeep : Keeps a (snapKeep s) := by
  unfold Machine.snapKeep
  split
  · exact .ite h.beside h
  · exact h

/-- The measurements, the snapshots and L of a tick that ends. -/
theorem Keeps.endedTick {period : Word} {same : BitVec 5} {n : Nat} {x : TickEngine} :
    Keeps a (
      let m := Machine.snapKeep (Machine.measure period same (Machine.keepFrames n { s with tick := x }))
      if localL m then Machine.advanceL (unsettled m) m else m) :=
  .ite h.beside.keepFrames.measure.snapKeep.advanceL h.beside.keepFrames.measure.snapKeep

theorem Keeps.tickComplete {period : Word} {same : BitVec 5} {fault : Bool} :
    Keeps a (tickComplete period same fault s) := by
  refine .ite h (.ite h.groupSettled (.ite ?_ ?_))
  · split
    · exact .ite (.beside (.beside h.endedTick)) (.beside h.endedTick)
    · exact .beside h.endedTick
  · split
    · exact .beside h.endedTick
    · exact .ite (.beside (.beside (.enterHalt (.beside h.endedTick)))) (.beside (.enterHalt (.beside h.endedTick)))

theorem Keeps.settleTimeout : Keeps a (settleTimeout s) := .ite h h.beside.setReg.setReg.bump.raiseVec.tickFault

theorem Keeps.timeoutWrite {v elapsed : Word} : Keeps a (timeoutWrite v elapsed s) :=
  .ite h.setReg.wrStat.settleTimeout h.setReg.wrStat

theorem Keeps.timeoutLocated : Keeps a (timeoutLocated s) := by
  unfold Machine.timeoutLocated
  split
  · exact h
  · exact h.beside.setReg.setReg

theorem Keeps.interval1ms : Keeps a (interval1ms s) := (h.setReg.drawFree.setReg.forEach (fun _ _ h => .ite h h.setReg)).beside

theorem Keeps.avsSend {f : AvsFrame} : Keeps a (avsSend f s) := .ite h h.beside

theorem Keeps.avsCommand {r : Nat} : Keeps a (avsCommand r s) := h.avsSend

theorem Keeps.avsReadCurrents : Keeps a (avsReadCurrents s) := h.forEach (fun _ _ h => .ite h h.avsSend)

theorem Keeps.avsApply {mode : Nat} : Keeps a (avsApply mode s) :=
  .ite (h.beside.forEach (fun _ _ h => .ite h h.avsCommand)) (.ite h.beside.avsReadCurrents h.beside)

theorem Keeps.avsCfgWrite {v : Word} : Keeps a (avsCfgWrite v s) :=
  .ite h.tickRange (.ite h.setReg.wrStat.beside h.setReg.wrStat.avsApply)

theorem Keeps.avsTargetWrite {r : Nat} {v : Word} : Keeps a (avsTargetWrite r v s) :=
  .ite h.tickRange (.ite h.setReg.wrStat.avsCommand h.setReg.wrStat)

theorem Keeps.avsCapWrite {v : Word} : Keeps a (avsCapWrite v s) := .ite h.tickRange h.setReg.wrStat

theorem Keeps.avsFrameDone {ok : Bool} : Keeps a (avsFrameDone ok s) := by
  unfold Machine.avsFrameDone
  dsimp only
  split
  · exact .ite h h.bump
  · exact .ite (by split; exacts [h.beside.avsApply, h.beside]) <|
      .ite h.bump.beside (by split; exacts [h.bump.beside.avsApply, h.bump.beside])

theorem Keeps.avsSet {r v : Nat} : Keeps a (avsSet r v s) := .ite h h.setReg.avsCommand

theorem Keeps.avsCapInterval {cur : BitVec 256} {fail : BitVec 8} : Keeps a (avsCapInterval cur fail s) :=
  .ite h <|
  .ite h.beside.andNotReg.avsReadCurrents <|
  .avsReadCurrents <| .ite
    (.raiseVec <| .bump <| .beside <| .ite h.setReg <|
     .ite (h.setReg.forEach (fun _ _ h => h.avsSet)) <|
     .ite (.forEach (by split; exacts [h.setReg.avsSet, h.setReg]) (fun _ _ h => .ite h.avsSet h)) h.setReg) <|
  .beside <| .ite h.setReg <|
  .ite (h.setReg.forEach (fun _ _ h => h.avsSet)) <|
  .ite (.forEach (by split; exacts [h.setReg.avsSet, h.setReg]) (fun _ _ h => .ite h.avsSet h)) h.setReg

theorem Keeps.sluiceRelease : Keeps a (sluiceRelease s) :=
  .ite (.beside (.ite h.beside.qReleaseTick.traceCommit h)) (.ite h.beside.qReleaseTick.traceCommit h)


/-! ### RunAhead -/

theorem Keeps.raRange : Keeps a (raRange s) := h.bump.wrStat

theorem Keeps.raCfgWrite {v : Word} : Keeps a (raCfgWrite v s) := .ite h.beside.setReg (.ite h.beside.raRange h.beside)

theorem Keeps.raPredWrite {g : Nat} {v : Word} : Keeps a (raPredWrite g v s) := .ite h.raRange h.setReg

theorem Keeps.decideRollback {t : Nat} {byRecall : Bool} {chan : Nat} : Keeps a (decideRollback t byRecall chan s) := by
  unfold Machine.decideRollback
  dsimp only
  split
  · exact h.beside
  · exact .ite h.beside h

theorem Keeps.restoreTo {t : Nat} : Keeps a (restoreTo t s) :=
  .beside (.discardFrom (.beside (by split; exacts [h.mapTiles.beside, h])))

theorem Keeps.rollbackRestore : Keeps a (rollbackRestore s) := by
  unfold Machine.rollbackRestore
  split
  · exact h
  · exact .ite h h.restoreTo.traceVoid

theorem Keeps.takeReal {t g : Nat} {v : BitVec 64} {byRecall : Bool} {chan : Nat} :
    Keeps a (takeReal t g v byRecall chan s) := by
  unfold Machine.takeReal
  dsimp only
  split
  · exact .putVal (.ite h.groupSettled h)
  · split
    · exact .ite h.putVal (.ite h.putVal.bump h.putVal.bump.decideRollback)
    · exact .putVal (.ite h.groupSettled h)

theorem Keeps.badMsg : Keeps a (badMsg s) := .ite h.bump h.bump.beside.raiseVec

theorem Keeps.frameSend {o : Nat} {vals : BitVec 896} : Keeps a (frameSend o vals s) := by
  unfold Machine.frameSend
  split
  · exact h
  · split
    · exact h
    · exact h.frameLeave

theorem Keeps.frameRx {chan : Nat} {p : Payload} : Keeps a (frameRx chan p s) :=
  .ite h.badMsg.bump (h.forEach (fun _ _ h => .ite h.beside.beside h.beside.takeReal))

theorem Keeps.recallSend {g : Nat} {v : BitVec 64} : Keeps a (recallSend g v s) := by
  unfold Machine.recallSend
  dsimp only
  split
  · exact h
  · exact .ite h h.beside.bump.sendDev

theorem Keeps.recallEntry {t g : Nat} {v : BitVec 64} {chan : Nat} : Keeps a (recallEntry t g v chan s) := by
  unfold Machine.recallEntry
  dsimp only
  split
  · exact .ite h.takeReal (.ite h.putVal.bump h.putVal.decideRollback)
  · exact h.putVal.bump

theorem Keeps.recallRx {chan : Nat} {p : Payload} : Keeps a (recallRx chan p s) :=
  .ite h.bump.badMsg (h.bump.beside.forEach (fun _ _ h => h.recallEntry))

theorem Keeps.beginWave {w depth : Nat} : Keeps a (beginWave w depth s) :=
  .forEach (.ite h.beside (h.beside.forEach (fun _ _ h => h.sendDev))) (fun _ _ h => h.sendChan)

theorem Keeps.waveStartRx {p : Payload} : Keeps a (waveStartRx p s) := by
  unfold Machine.waveStartRx
  dsimp only
  split
  · exact h
  · exact h.beginWave
  · exact h.badMsg

theorem Keeps.markRx {p : Payload} : Keeps a (markRx p s) := by
  unfold Machine.markRx
  dsimp only
  split
  · exact h.beside
  · exact h.beginWave.beside
  · exact h.badMsg

theorem Keeps.waveReportRx {chan : Nat} {p : Payload} : Keeps a (waveReportRx chan p s) := .ite h.beside h.badMsg

theorem Keeps.applyResult {w lP1 : Nat} {ok : Bool} : Keeps a (applyResult w lP1 ok s) :=
  .ite h (.ite (.beside (.ite h.bump.advanceL h.bump)) (.ite h.bump.beside.raiseVec h.bump.beside))

theorem Keeps.waveResultRx {p : Payload} : Keeps a (waveResultRx p s) := by
  unfold Machine.waveResultRx
  dsimp only
  split
  · exact .ite h.badMsg (h.applyResult.forEach (fun _ _ h => h.sendChan))
  · exact .ite h.badMsg (h.applyResult.forEach (fun _ _ h => h.sendChan))
  · exact h.badMsg

theorem Keeps.waveReportSend : Keeps a (waveReportSend s) :=
  .ite h <|
  .ite (h.beside.applyResult.forEach (fun _ _ h => h.sendChan)) (by split; exacts [h.beside, h.beside.sendChan])

theorem Keeps.waveRootStart : Keeps a (waveRootStart s) := .ite h h.beginWave


/-! ### Discovery -/

theorem Keeps.sendHello {c : Nat} : Keeps a (sendHello c s) := h.sendChan

theorem Keeps.helloAll : Keeps a (helloAll s) := h.forEach (fun _ _ h => h.sendHello)

theorem Keeps.electing : Keeps a (electing s) := .ite h.beside h

theorem Keeps.enumFail {code : Nat} : Keeps a (enumFail code s) := h.beside.fabCause.raiseVec

theorem Keeps.helloRx {ch : Nat} {p : Payload} : Keeps a (helloRx ch p s) :=
  .ite
    (.helloAll <| .ite (.enumFail (.beside (.ite h.setChan.electing.bump h.setChan.electing))) <|
     .beside (.ite h.setChan.electing.bump h.setChan.electing))
    (.ite h.setChan.electing.bump h.setChan.electing)

theorem Keeps.setEnum {e : Enum} : Keeps a (setEnum e s) := h.beside

theorem Keeps.sendCommit {e : Enum} {n : Node} : Keeps a (sendCommit e n s) := (h.forEach (fun _ _ h => h.sendChan)).sendChan

theorem Keeps.committed {id epoch level up children : Nat} {parent : Option Nat} :
    Keeps a (committed id epoch level up children parent s) :=
  h.beside.newTables.bump.fabCause.raiseVec

theorem Keeps.applyOwn {e : Enum} : Keeps a (applyOwn e s) := .helloAll (.committed (.beside (.ite h h.installTable)))

theorem Keeps.nextCommit {e : Enum} {id : Nat} : Keeps a (nextCommit e id s) := by
  unfold Machine.nextCommit
  split
  · exact h.setEnum.sendCommit
  · exact h.applyOwn

theorem Keeps.scanOn {e : Enum} : Keeps a (scanOn e s) := by
  unfold Machine.scanOn
  split
  · exact h.nextCommit
  · exact .ite h.enumFail (.ite h.enumFail h.setEnum.sendChan)

theorem Keeps.beginEnum : Keeps a (beginEnum s) := h.beside.scanOn

theorem Keeps.tryEnum : Keeps a (tryEnum s) := .ite h.beginEnum h

theorem Keeps.discoverCmd : Keeps a (discoverCmd s) := .ite h.fabCause h.beside.tryEnum

theorem Keeps.queryTimeout : Keeps a (queryTimeout s) := by
  unfold Machine.queryTimeout
  split
  · exact h
  · exact .ite h.enumFail <| by
        dsimp only
        split
        · split
          · exact h.setEnum.sendChan
          · exact h.setEnum
        · split
          · exact h.setEnum.sendCommit
          · exact h.setEnum

theorem Keeps.rootReply {p : Payload} : Keeps a (rootReply p s) := by
  unfold Machine.rootReply
  split
  · exact h
  · exact .ite h (by split; exacts [.ite h.enumFail (.ite h (.ite h.scanOn h.setEnum)), .ite h.nextCommit h])

theorem Keeps.replyRx {p : Payload} : Keeps a (replyRx p s) := .ite h.rootReply (by split; exacts [h.sendChan, h.bump])

theorem Keeps.dropPend : Keeps a (dropPend s) := .ite h.beside h

theorem Keeps.queryEpoch {p : Payload} : Keeps a (queryEpoch p s) := by
  unfold Machine.queryEpoch
  split
  · exact .ite h.dropPend h
  · exact h

theorem Keeps.stepQuery {ch : Nat} {p : Payload} : Keeps a (stepQuery ch p s).2.2 := by
  unfold Machine.stepQuery
  dsimp only
  exact .iteThird h (.iteThird h.beside.sendChan h)

theorem Keeps.queryAssignRx {ch : Nat} {p : Payload} : Keeps a (queryAssignRx ch p s) := by
  unfold Machine.queryAssignRx
  dsimp only
  exact .ite h.bump <|
    .ite h.queryEpoch.stepQuery <|
    .ite (.bump h.queryEpoch.stepQuery) <|
    .sendChan (.sendChan (.ite (.dropPend h.queryEpoch.stepQuery) (.beside h.queryEpoch.stepQuery)))

theorem Keeps.queryCommitRx {ch : Nat} {p : Payload} : Keeps a (queryCommitRx ch p s) := by
  unfold Machine.queryCommitRx
  dsimp only
  exact .ite h.bump <|
    .ite h.queryEpoch.stepQuery <|
    .ite (.bump h.queryEpoch.stepQuery) <| by
      split
      · exact .bump h.queryEpoch.stepQuery
      · exact .ite (.bump h.queryEpoch.stepQuery) <|
          .helloAll (.sendChan (.committed (.ite h.queryEpoch.stepQuery (.installTable h.queryEpoch.stepQuery))))

theorem Keeps.routesRx {p : Payload} : Keeps a (routesRx p s) :=
  .ite h.bump (.ite h.sendChan (by dsimp only; split; exacts [h.bump, .ite h.bump (.ite h h.beside)]))

theorem Keeps.noticeRx {ch : Nat} {p : Payload} : Keeps a (noticeRx ch p s) :=
  .ite h.spreadNotice.haltNoRoute (.ite h.spreadNotice.beside h.spreadNotice.beside.raiseVec)

theorem Keeps.sendFence {c d cls : Nat} {e : Reroute} : Keeps a (sendFence c d cls e s) := by
  unfold Machine.sendFence
  dsimp only
  split
  · exact h.turnAndSend
  · exact h.holdFlit

theorem Keeps.fenceSend {c : Nat} : Keeps a (fenceSend c s) := by
  unfold Machine.fenceSend
  dsimp only
  split
  · exact h
  · exact .ite h (h.setChan.sendDev.forEach (fun _ _ h => h.sendFence.sendFence)).settleEvents

theorem Keeps.linkDownRx {p : Payload} : Keeps a (linkDownRx p s) := by
  unfold Machine.linkDownRx
  split
  · exact h.bump
  · dsimp only
    split
    · exact .ite h.setChan h
    · exact .ite (.ite h.setChan h) h.beside.setChan.settleEvents

theorem Keeps.fenceRx {p : Payload} : Keeps a (fenceRx p s) := .ite h.beside.sendDev (.ite h h.beside)

theorem Keeps.fenceDoneRx {p : Payload} : Keeps a (fenceDoneRx p s) := by
  unfold Machine.fenceDoneRx
  split
  · exact h.bump
  · dsimp only
    split
    · exact h.setChan
    · exact h.setChan.settleEvents

theorem Keeps.fenceTimeout {c : Nat} : Keeps a (fenceTimeout c s) := by
  unfold Machine.fenceTimeout
  dsimp only
  split
  · exact h
  · exact .ite h <| .forEach (.ite h.setChan.fabCause.beside h.setChan.fabCause.beside.raiseVec)
      fun _ _ h => .ite h.holdNoRoute h.holdFlit.nameFlow


/-! ### Leases -/

theorem Keeps.revoke {r : LeaseRes} : Keeps a (revoke r s) := .ite h.beside.bump.setReg h


/-! ### QueueCmds -/

theorem Keeps.portRelease {p : Nat} {rd : Bool} : Keeps a (portRelease p rd s) := .ite h (.ite h.setPort h.setPort)

theorem Keeps.portMsg {p : Nat} {rd ack : Bool} : Keeps a (portMsg p rd ack s) :=
  .ite h (.ite (.bump (.ite h.setPort.bump h.setPort)) (.ite h.setPort.bump h.setPort))

theorem Keeps.portPeerReset {p : Nat} {atRead : Bool} : Keeps a (portPeerReset p atRead s) :=
  .ite (.ite h.setPort h) (.ite h.setPort h)

theorem Keeps.setQcfg {q : Nat} {v : Word} : Keeps a (setQcfg q v s) := .setQ (.setReg (.ite h.wrReset.rdReset h))

theorem Keeps.qcfgWrite {q : Nat} {v : Word} : Keeps a (qcfgWrite q v s) :=
  .ite h.revoke.setQcfg.qResult (.ite h.revoke.bump.qResult h.revoke.qResult)

theorem Keeps.staleTimeout {q : Nat} : Keeps a (staleTimeout q s) := .ite h h.setQ.bump.qEvent

theorem Keeps.qtimerWrite {q : Nat} {v : Word} : Keeps a (qtimerWrite q v s) := .ite h.bump.qResult h.setReg.qResult.qLevel

theorem Keeps.arbiterEntry {sec : Nat} {late : Bool} {ball : Option Nat} {v : Bool} :
    Keeps a (arbiterEntry sec late ball v s) := by
  unfold Machine.arbiterEntry
  dsimp only
  split
  · exact .refreshAcks (.beside (.ite h.bump h))
  · exact .ite h.bump h


/-! ### PoolCmds -/

theorem Keeps.poolStat {code : Nat} : Keeps a (poolStat code s) := h.setRegFld

theorem Keeps.descRead : Keeps a (descRead s) := by
  unfold Machine.descRead
  dsimp only
  exact .ite h.poolStat (.poolStat (.forEach h.readDesc (fun _ _ h => h.setReg)))

theorem Keeps.askInit {n : Nat} {d : Desc} : Keeps a (askInit n d s) := by
  unfold Machine.askInit
  dsimp only
  split
  · exact h.beside.askModel ‹_›
  · exact h.beside.beside

theorem Keeps.retryInit : Keeps a (retryInit s) :=
  h.forEach (fun _ _ h => by dsimp only; split; exacts [(h.askModel ‹_›).beside, h])

theorem Keeps.placeDesc {n : Nat} {d : Desc} : Keeps a (placeDesc n d s) := by
  unfold Machine.placeDesc
  dsimp only
  exact .useGranules (.setDesc (.beside (.useGranules h.readDesc)))

theorem Keeps.initPool {n : Nat} : Keeps a (initPool n s) := .ite h (.ite h.poolZero (.ite h.askInit h))

theorem Keeps.installDesc {n : Nat} {d : Desc} : Keeps a (installDesc n d s) := h.placeDesc.initPool

theorem Keeps.descWrite : Keeps a (descWrite s) :=
  .ite h.poolStat (.ite h.bump.poolStat (.ite h.poolStat h.installDesc.beside.orReg))

theorem Keeps.descClear : Keeps a (descClear s) := .ite h.poolStat h.installDesc.beside.orReg

theorem Keeps.descDone : Keeps a (descDone s) := by
  unfold Machine.descDone
  split
  · exact h.beside.andNotReg.poolStat.raiseVec
  · exact h

theorem Keeps.putReq {p k : Nat} {r : PReq} : Keeps a (putReq p k r s) := h.setPort

theorem Keeps.portTickWrite {p k t : Nat} {r : PReq} : Keeps a (portTickWrite p k t r s) :=
  .ite (.ite h.setPort.putReq.bump h.setPort.putReq) (.ite h h.setPort.bump)

theorem Keeps.portReach {p k : Nat} {d : Desc} {r : PReq} : Keeps a (portReach p k d r s) := by
  unfold Machine.portReach
  split
  · exact h.portTickWrite
  · exact .ite h.putReq (.ite (by split; exacts [(h.askModel ‹_›).putReq, h]) h.putReq)

theorem Keeps.portAdvance {p k : Nat} : Keeps a (portAdvance p k s) := by
  unfold Machine.portAdvance
  dsimp only
  split
  · exact h
  · exact .ite h h.portReach

theorem Keeps.portViolates {p v n idx : Nat} : Keeps a (portViolates p v n idx s) :=
  .ite (.tickFault (.poolViolation (.ite h.beside h))) (.poolViolation (.ite h.beside h))

theorem Keeps.cycleViolates {p k : Nat} : Keeps a (cycleViolates p k s) := by
  unfold Machine.cycleViolates
  split
  · exact h
  · exact h.beside.poolViolation

theorem Keeps.poolPortRequest {p k : Nat} : Keeps a (poolPortRequest p k s) :=
  .ite h <|
  .ite h.quietPort <|
  .ite h.portAdvance <|
  .ite h <|
  .ite h.cycleViolates <|
  .ite h <|
  .ite h.portStage <|
  .ite h <|
  .ite h.setPort.descTouch.putReq.putReq.portViolates <|
  .ite h.setPort.descTouch.putReq.putReq.bump.bump h.setPort.descTouch.putReq.portAdvance

theorem Keeps.portDrive {t : Nat} {free : Bool} {data : BitVec 64} {err refused : Bool} :
    Keeps a (portDrive t free data err refused s) :=
  .ite h.portStage h.portAnswer

theorem Keeps.portReadAnswer {t : Nat} {r : PReq} {data : BitVec 64} {err : Bool} :
    Keeps a (portReadAnswer t r data err s) :=
  .ite h.portDrive.tickFault h.portDrive

theorem Keeps.portData {p wa : Nat} {d : BitVec 64} {err : BitVec 72} : Keeps a (portData p wa d err s).2.2 := by
  unfold Machine.portData
  dsimp only
  exact .fifoPass (.fifoPass h.fifoCheck)

theorem Keeps.portStore {p : Nat} {d : Desc} {idx : Nat} {be : BitVec 8} {v : BitVec 64} {err : BitVec 72} :
    Keeps a (portStore p d idx be v err s) := by
  unfold Machine.portStore
  dsimp only
  exact .hbmStore (.ite h.portData (.ite (.invalidate h.portData) (.updateLine (.invalidate h.portData))))

theorem Keeps.portFetch {p : Nat} {d : Desc} {wa : Nat} : Keeps a (portFetch p d wa s).2.2 := by
  unfold Machine.portFetch
  dsimp only
  exact .fifoPass h.portMemRead

theorem Keeps.poolPortAnswer {p k : Nat} : Keeps a (poolPortAnswer p k s) := by
  unfold Machine.poolPortAnswer
  dsimp only
  split
  · exact h
  · split
    · exact h
    · exact .ite h.setPort h.setPort.portDrive
    · exact h
    · exact .ite (.ite h.setPort h.setPort.portDrive) (.ite h.setPort h.setPort.portReadAnswer)
    · exact .ite h <|
        .ite (.ite (.ite h.setPort.portStore h.setPort) (.portDrive (.ite h.setPort.portStore h.setPort))) <|
        .ite h.setPort (.ite h.setPort.portReadAnswer (.portReadAnswer h.setPort.portFetch))

theorem Keeps.endDrain {e p : Nat} : Keeps a (endDrain e p s) := h.setEddy

theorem Keeps.drainDone {p : Nat} : Keeps a (drainDone p s) := by
  unfold Machine.drainDone
  dsimp only
  split
  · exact h
  · exact .ite h.descTouch <|
      .ite
        (.ite h.descTouch.setPort.endDrain <|
         .ite h.descTouch (by split; exacts [(h.descTouch.askModel ‹_›).setPort, h.descTouch]))
        h.descTouch.setPort.portStore.endDrain

theorem Keeps.portReset {p : Nat} : Keeps a (portReset p s) := .ite h h.setPort

theorem Keeps.dropReq {p k : Nat} : Keeps a (dropReq p k s) := by
  unfold Machine.dropReq
  dsimp only
  split
  · exact .ite (.ite h.setPort.xingDiscard.portDrive h.setPort.xingDiscard) h
  · exact .ite h.setPort.xingDiscard.portDrive h.setPort.xingDiscard

theorem Keeps.portResetDone {p : Nat} : Keeps a (portResetDone p s) := .ite h (h.forEach (fun _ _ h => h.dropReq)).setPort

theorem Keeps.sendAns {dst tag code : Nat} {data : BitVec 64} : Keeps a (sendAns dst tag code data s) := h.sendDev

theorem Keeps.remoteServe {we : Bool} {pay : Payload} : Keeps a (remoteServe we pay s) := by
  unfold Machine.remoteServe
  refine .ite h.takeMsg.descTouch.poolViolation.sendAns <| .ite h.takeMsg.descTouch.sendAns <|
    .ite h.takeMsg.descTouch.bump.sendAns <| .ite h.descTouch <| .ite ?_ <| .ite h.takeMsg.descTouch.otherWrite.sendAns ?_
  · split
    next ha => exact h.takeMsg.descTouch.askModel ha
    next => exact h.descTouch
  · split
    next hr => exact (h.takeMsg.descTouch.otherRead.third hr).sendAns

theorem Keeps.remoteRx {we : Bool} {pay : Payload} : Keeps a (remoteRx we pay s) :=
  .ite (.ite h.takeMsg.beside h.takeMsg.sendAns) h.remoteServe

theorem Keeps.poolAnsRx {pay : Payload} : Keeps a (poolAnsRx pay s) := h.takeMsg.beside

theorem Keeps.patrolRead {wa : Nat} : Keeps a (patrolRead wa s) := by
  unfold Machine.patrolRead
  exact h.hbmFetch

theorem Keeps.ueLocRead {k : Nat} : Keeps a (ueLocRead k s) := h.beside.setReg.setReg


/-! ### Eddy -/

theorem Keeps.modEddy {e : Nat} {f : Eddy → Eddy} : Keeps a (modEddy e f s) := h.setEddy

theorem Keeps.eddyExc {e code pool : Nat} {addr : Option Word} : Keeps a (eddyExc e code pool addr s) := h.modEddy

theorem Keeps.eddyFrozen {e : Nat} : Keeps a (eddyFrozen e s) := h.modEddy.raiseVec

theorem Keeps.eddyViolation {e cause a' : Nat} : Keeps a (eddyViolation e cause a' s) := h.eddyFrozen.freezeMaster

theorem Keeps.eddyPoolViolation {e cause pool idx : Nat} : Keeps a (eddyPoolViolation e cause pool idx s) :=
  h.eddyFrozen.poolViolation

theorem Keeps.spTouch {e b : Nat} {proc : Bool} : Keeps a (spTouch e b proc s) :=
  .ite (.ite h.revoke.bump.bump.bumpBy.drawFree h.revoke.bump.modEddy) h

theorem Keeps.spWord {e i : Nat} {proc : Bool} : Keeps a (spWord e i proc s).2.2 := by
  unfold Machine.spWord
  dsimp only
  split <;> dsimp only
  · exact .ite h.spTouch.drawFree h.spTouch
  · exact .bump (.setEddy (.ite h.spTouch.drawFree h.spTouch))
  · exact .raiseVec (.bump (.ite h.spTouch.drawFree h.spTouch))

theorem Keeps.spLoad {e k n : Nat} {proc : Bool} : Keeps a (spLoad e k n proc s).2.2 := by
  unfold Machine.spLoad
  dsimp only
  generalize hr : Machine.spWord e (k / 8) proc s = r
  have hw : Keeps a r.2.2 := hr ▸ h.spWord
  generalize hq : Machine.spWord e (k / 8 + 1) proc r.2.2 = q
  have hx : Keeps a q.2.2 := hq ▸ hw.spWord
  exact .iteThird hw hx.bump

theorem Keeps.spPut {e i : Nat} {be : BitVec 8} {v : BitVec 64} {proc : Bool} : Keeps a (spPut e i be v proc s) := by
  unfold Machine.spPut
  dsimp only
  refine .ite h.spTouch.modEddy ?_
  generalize hr : Machine.spWord .. = r
  have hw : Keeps a r.2.2 := hr ▸ h.spWord
  exact hw.modEddy

theorem Keeps.spStore {e a' n : Nat} {v : BitVec 64} {proc : Bool} : Keeps a (spStore e a' n v proc s) :=
  .modEddy (.ite h.spPut h.spPut.spPut.bump)

theorem Keeps.eddyPush {e i : Nat} {v : BitVec 64} {last : Bool} : Keeps a (eddyPush e i v last s) := by
  unfold Machine.eddyPush
  dsimp only
  exact .modEddy h.pushWord

theorem Keeps.eddyPop {e i : Nat} : Keeps a (eddyPop e i s).2 := by
  unfold Machine.eddyPop
  dsimp only
  exact .modEddy h.popWord

theorem Keeps.dmaComplete {e : Nat} {d : EDma} {code pool : Nat} : Keeps a (dmaComplete e d code pool s) :=
  .ite (.latchIrq (.ite h.setEddy h.setEddy.latchIrq)) (.ite h.setEddy h.setEddy.latchIrq)

theorem Keeps.dmaGo {e : Nat} {v : Word} : Keeps a (dmaGo e v s) :=
  .ite h.setEddy <|
  .ite (.eddyViolation (.ite h.descTouch.bump h.descTouch)) <|
  .ite (.setEddy (.ite h.descTouch.bump h.descTouch)) <|
  .eddyPoolViolation (.setEddy (.ite h.descTouch.bump h.descTouch))

theorem Keeps.dmaOut {e : Nat} {d : EDma} {l : List Nat} : Keeps a (dmaOut e d l s).2 := by
  induction l generalizing s with
  | nil => exact h
  | cons i l ih =>
    unfold Machine.dmaOut
    dsimp only
    generalize hr : Machine.spWord .. = r
    have hw : Keeps a r.2.2 := hr ▸ h.spWord
    exact .iteSnd hw (ih hw.otherWrite)

theorem Keeps.dmaIn {e : Nat} {d : EDma} {l : List Nat} {c : Nat} : Keeps a (dmaIn e d l c s).2 := by
  induction l generalizing s c with
  | nil => exact h
  | cons i l ih => exact ih h.otherRead.spStore

theorem Keeps.dmaModelGo {e : Nat} {d : EDma} : Keeps a (dmaModelGo e d s).2 := by
  unfold Machine.dmaModelGo
  split
  next d1 s1 h1 =>
  have hs : Keeps a s1 := Keeps.snd (by split; exacts [.ite h h.spStore, h]) h1
  refine .iteSnd hs ?_
  split
  next v bad s2 h2 =>
  have ht : Keeps a s2 := Keeps.third (.iteThird hs.spWord hs) h2
  refine .iteSnd ht (.iteSnd ht ?_)
  split
  next ha => exact ht.askModel ha
  next => exact ht

theorem Keeps.setFront {e : Nat} {d : EDma} : Keeps a (setFront e d s) := h.modEddy

theorem Keeps.countStarve {e starved n : Nat} : Keeps a (countStarve e starved n s) := h.bumpBy

theorem Keeps.dmaTransferDone {e starved : Nat} : Keeps a (dmaTransferDone e starved s) := by
  unfold Machine.dmaTransferDone
  dsimp only
  split
  · exact h
  · exact .ite h <| by
        split
        · exact h.dmaComplete
        · exact .ite h.descTouch.dmaComplete <|
            .ite
              (.ite (.dmaComplete (.countStarve (.setFront h.descTouch.dmaModelGo))) <|
               .ite (.dmaComplete (.countStarve (.setFront h.descTouch.dmaModelGo))) <|
               .countStarve (.setFront h.descTouch.dmaModelGo)) <|
            .ite h.descTouch <|
            .ite (.dmaComplete (.countStarve h.descTouch.dmaOut)) (.dmaComplete (.countStarve h.descTouch.dmaIn))

theorem Keeps.relatch {e : Nat} : Keeps a (relatch e s) :=
  .ite (.latchIrq (.ite (.ite h h.latchIrq) (.latchIrq (.ite h h.latchIrq)))) <|
  .ite (.ite h h.latchIrq) (.latchIrq (.ite h h.latchIrq))

theorem Keeps.localRead {e o : Nat} : Keeps a (localRead e o s).2 := by
  unfold Machine.localRead
  dsimp only
  exact .iteSnd h <|
    .iteSnd h <|
    .iteSnd h <|
    .iteSnd h <|
    .iteSnd h <|
    .iteSnd h <|
    .iteSnd (by split; exacts [by dsimp only; exact h, by dsimp only; exact h.setEddy]) <|
    .iteSnd h (.iteSnd h (.iteSnd h (.iteSnd h (.iteSnd h.setEddy (.iteSnd h (.iteSnd h (.iteSnd h.setEddy h)))))))

theorem Keeps.localWrite {e o : Nat} {v : Word} : Keeps a (localWrite e o v s) :=
  .ite h.setEddy <|
  .ite h.setEddy <|
  .ite h.setEddy <|
  .ite h.setEddy <|
  .ite h.setEddy (.ite h.dmaGo (.ite h.setEddy (.ite h.setEddy.relatch (.ite h.setEddy (.ite h.setEddy h)))))

theorem Keeps.fetch {e : Nat} : Keeps a (fetch e s).2 := by
  unfold Machine.fetch
  dsimp only
  generalize hr : Machine.spWord .. = r
  have hw : Keeps a r.2.2 := hr ▸ h.spWord
  refine .iteSnd h.eddyViolation (.iteSnd h.eddyViolation (.iteSnd h.eddyExc ?_))
  split
  · exact h
  · exact .iteSnd hw.eddyExc hw

theorem Keeps.issue {e : Nat} {w mask : Word} {regs : List Nat} {f : Eddy → State → Option State}
    (hf : ∀ x t, Keeps a t → KeepsOpt a (f x t)) : Keeps a (issue e w mask regs f s) := by
  have hv := h.fetch (e := e)
  unfold Machine.issue
  dsimp only
  split
  · exact h
  · split <;> simp only [*] at hv
    · exact hv
    · refine .ite h (.ite h ?_)
      split
      · exact hf _ _ hv.modEddy _ ‹_›
      · exact h


/-! ### Host -/

theorem Keeps.countHost {code : Nat} : Keeps a (countHost code s) := by
  unfold Machine.countHost
  split
  · exact h.bump
  · exact h.bump
  · exact h.bump
  · exact h.bump
  · exact h

theorem Keeps.hostData {v : BitVec 64} {bad : Bool} : Keeps a (hostData v bad s) := .ite h.beside.bump h.beside

theorem Keeps.hostAbort : Keeps a (hostAbort s) := h.beside

theorem Keeps.hostRefuse {read : Bool} {code : Nat} : Keeps a (hostRefuse read code s) := .ite h.countHost.hostAbort h.countHost

theorem Keeps.askHost {c : Nat} {tag : Option Nat} {a' : HostAcc} : Keeps a (askHost c tag a' s) := h.beside

theorem Keeps.hostPass {k : Nat} {d : BitVec 64} : Keeps a (hostPass k d s).2.2 := by
  unfold Machine.hostPass
  dsimp only
  refine .iteThird h ?_
  dsimp only
  exact .ite h.beside.drawFree h.beside

omit h in
theorem Keeps.hostOutWord {r : BitVec 64 × Bool × State} (h : Keeps a r.2.2) : Keeps a (Machine.hostOutWord r).2.2 := h.hostPass

theorem Keeps.hostInWord {wa : Nat} {v : BitVec 64} {store : BitVec 64 → State → State}
    (hstore : ∀ x t, Keeps a t → Keeps a (store x t)) : Keeps a (hostInWord wa v store s) :=
  .ite (hstore _ _ h.hostPass).setHbm (hstore _ _ h.hostPass)

theorem Keeps.bar2Serve {c x : Nat} {wr : Option (BitVec 8 × BitVec 64)} : Keeps a (Machine.bar2Serve c x wr s) := by
  unfold Machine.bar2Serve
  lift_lets
  intro acc rd wa n d q idx
  refine .ite (.ite h.hostRefuse ?_) ?_
  · split
    · exact .ite h.hostRefuse (h.hostInWord fun _ _ h => h.hbmWrite)
    · split
      next hr => exact (Keeps.third h.hbmRead.hostOutWord hr).hostData
  · have hq : Keeps a q := h.descTouch
    clear_value q
    refine .ite hq.hostRefuse <| .ite hq.poolViolation.hostRefuse <|
      .ite hq.poolViolation.hostRefuse <| .ite hq <| .ite hq.askHost <| .ite ?_ ?_
    · split
      next ha => exact (hq.askModel ha).askHost
      next => exact hq.askHost
    · split
      · exact hq.hostInWord fun _ _ h => h.otherWrite
      · split
        next hr => exact (Keeps.third hq.otherRead.hostOutWord hr).hostData

theorem Keeps.ringDoorbell {e lines : Nat} : Keeps a (ringDoorbell e lines s) := h.modEddy

theorem Keeps.ctxDoorbell {v : Word} : Keeps a (ctxDoorbell v s) := .ite h.bump h.ringDoorbell

theorem Keeps.aperture {e : Nat} {we : Bool} {off : Nat} {v : Word} : Keeps a (aperture e we off v s) := by
  unfold Machine.aperture
  dsimp only
  generalize hr : Machine.spLoad .. = r
  have hl : Keeps a r.2.2 := hr ▸ h.spLoad
  exact .ite (.ite h.bump h.bump.hostData) (.ite h.spStore hl.hostData)

theorem Keeps.qhPush {hold : Bool} {q : Nat} {v : Word} : Keeps a (qhPush hold q v s) :=
  .ite h.revoke.qResult (.ite h.revoke.hostPushHold h.revoke.hostPushNow)

theorem Keeps.qhPop {q : Nat} : Keeps a (qhPop q s) := by
  unfold Machine.qhPop
  dsimp only
  exact .ite h.revoke.qResult.hostData (.hostData (.setReg (.setReg h.revoke.popWord)))

theorem Keeps.hostPerform {c : Nat} {a' : HostAcc} : Keeps a (hostPerform c a' s) := by
  unfold Machine.hostPerform
  split
  · exact .ite h.bar2Serve h.bump.hostRefuse
  · exact .ite h.bar2Serve h.bump
  · exact h.ctxDoorbell
  · exact h.aperture
  · exact h.qhPush
  · exact h.qhPush
  · exact h.qhPop
  · exact h.revoke.setReg
  · exact h.revoke.hostData

theorem Keeps.noteShut {code : Nat} {a' : HostAcc} : Keeps a (noteShut code a' s) := by
  unfold Machine.noteShut
  split
  · exact .ite h.modEddy h
  · exact h

theorem Keeps.hostServe {c : Nat} {a' : HostAcc} : Keeps a (hostServe c a' s) := .ite h.noteShut.hostRefuse h.hostPerform

theorem Keeps.hostAccess {c : Nat} {a' : HostAcc} : Keeps a (hostAccess c a' s) :=
  .ite (.ite h.beside (.ite h.beside h.bump)) h.hostServe

theorem Keeps.releaseHeld' {c : Nat} {l : List (Nat × HostAcc)} : Keeps a (releaseHeld' c l s) := by
  induction l generalizing s with
  | nil => exact h
  | cons x l ih => exact .ite (ih h.hostServe) (ih h.beside)

theorem Keeps.hostUnfreeze {c : Nat} : Keeps a (hostUnfreeze c s) := h.beside.releaseHeld'

theorem Keeps.frozenReadTimeout {c : Nat} : Keeps a (frozenReadTimeout c s) := by
  unfold Machine.frozenReadTimeout
  split
  · exact h.beside.hostAbort.bump
  · exact h

theorem Keeps.ctxCfgWrite {c reg : Nat} {v : Word} : Keeps a (ctxCfgWrite c reg v s) :=
  .ite h (.ite h.setReg (.ite h.setReg h.setReg))

theorem Keeps.apertureStarved {e : Nat} {we : Bool} : Keeps a (apertureStarved e we s) := h.bump.hostRefuse

theorem Keeps.dmaRefuse {e code : Nat} : Keeps a (dmaRefuse e code s) := .setRegFld (.ite h.bump h)

theorem Keeps.dmaTailWrite {e : Nat} {v : Word} : Keeps a (dmaTailWrite e v s) := .ite h.dmaRefuse h.setReg

theorem Keeps.dmaRingWrite {e reg : Nat} {v : Word} : Keeps a (dmaRingWrite e reg v s) :=
  .ite h.dmaRefuse (.ite h.setReg (.ite h.setReg (.ite h.dmaRefuse h.setReg)))

theorem Keeps.dmaDescStart {e : Nat} {w : BitVec 256} : Keeps a (dmaDescStart e w s) :=
  .ite h <|
  .ite (.beside (.countHost (.ite h h.descTouch))) (.poolViolation (.beside (.countHost (.ite h h.descTouch))))

theorem Keeps.hdmaOut {d : HDma} {l : List Nat} {b : Bool} : Keeps a (hdmaOut d l b s).2 := by
  induction l generalizing s b with
  | nil => exact h
  | cons i l ih =>
    unfold Machine.hdmaOut
    split
    next ho => exact ih (Keeps.third (Keeps.iteThird h.hbmRead h.otherRead).hostOutWord ho).beside

theorem Keeps.hdmaIn {d : HDma} {data : List (BitVec 64)} {l : List Nat} : Keeps a (hdmaIn d data l s) := by
  induction l generalizing s with
  | nil => exact h
  | cons i l ih => exact ih (.ite (h.hostInWord fun _ _ h => h.hbmWrite) (h.hostInWord fun _ _ h => h.otherWrite))

theorem Keeps.hdmaModelGo {e : Nat} {d : HDma} {l : List (BitVec 64)} : Keeps a (hdmaModelGo e d l s).2 := by
  unfold Machine.hdmaModelGo
  split
  next d1 s1 h1 =>
  have hs : Keeps a s1 := Keeps.snd (by split; exacts [.ite h.beside h, h]) h1
  refine .iteSnd hs (.iteSnd hs ?_)
  split
  next ha => exact hs.askModel ha
  next => exact hs

theorem Keeps.hdmaComplete {e : Nat} {d : HDma} {code pool : Nat} : Keeps a (hdmaComplete e d code pool s) :=
  .ite (.raiseVec (.ite h.beside.setReg.bump h.beside.setReg.bump.bump)) <|
  .ite h.beside.setReg.bump h.beside.setReg.bump.bump

theorem Keeps.dmaDescDone {e : Nat} {data : List (BitVec 64)} : Keeps a (dmaDescDone e data s) := by
  unfold Machine.dmaDescDone
  dsimp only
  split
  · exact h
  · split
    · exact h.hdmaComplete
    · exact .ite (.hdmaComplete (.countHost (.ite h h.descTouch))) <|
        .ite (.hdmaComplete (.ite h h.descTouch)) <|
        .ite
          (.ite (.hdmaComplete (.hdmaModelGo (.ite h h.descTouch))) (.beside (.hdmaModelGo (.ite h h.descTouch)))) <|
        .ite (.ite h h.descTouch) <|
        .ite (.hdmaComplete (.hdmaOut (.ite h h.descTouch))) (.hdmaComplete (.hdmaIn (.ite h h.descTouch)))

theorem Keeps.hostPortReset : Keeps a (hostPortReset s) := h.filterRegs.beside

theorem Keeps.hostLinkUp {rate width flit : Nat} : Keeps a (hostLinkUp rate width flit s) := .ite h h.beside.setReg

theorem Keeps.bar2Access {c x : Nat} {acc : Nat → HostAcc} : Keeps a (bar2Access c x acc s) := .ite h h.hostAccess


/-! ### EddyIsa -/

theorem Keeps.aluDone {e rd : Nat} {r : BitVec 64} {fl : Option (BitVec 4)} : Keeps a (aluDone e rd r fl s) := h.modEddy

theorem Keeps.regOp {e func rd ra rb : Nat} {f : Bool} {op : BitVec 64 → BitVec 64 → Bool → BitVec 64 × BitVec 4} :
    Keeps a (regOp e func rd ra rb f op s) :=
  h.issue (fun _ _ h => .some h.aluDone)

theorem Keeps.immOp {e op rd ra imm : Nat} {f : BitVec 64 → BitVec 64} : Keeps a (immOp e op rd ra imm f s) :=
  h.issue (fun _ _ h => .some h.aluDone)

theorem Keeps.branch {e : Nat} {taken : Bool} {off : Word} : Keeps a (branch e taken off s) := h.modEddy

theorem Keeps.excAccess {e : Nat} {a' : Word} : Keeps a (excAccess e a' s) := h.eddyExc

theorem Keeps.loaded {e rd : Nat} {v : BitVec 64} : Keeps a (loaded e rd v s) := h.modEddy

theorem Keeps.doLoad {e rd : Nat} {k : Word} {n : Nat} : Keeps a (doLoad e rd k n s) := by
  unfold Machine.doLoad
  generalize regionOf .. = r
  generalize hl : Machine.spLoad .. = l
  have hk : Keeps a l.2.2 := hl ▸ h.spLoad
  cases r with
  | spad => exact .ite hk.eddyExc hk.loaded
  | secure => exact h.eddyViolation
  | loc =>
    generalize hv : Machine.localRead .. = v
    obtain ⟨x, t⟩ := v
    exact (h.localRead.snd hv).loaded
  | queue i o =>
    have hp : Keeps a (Machine.eddyPop e i s).2 := h.eddyPop
    exact .ite (.ite hp.loaded h.eddyViolation) (.ite (.ite h.loaded h.eddyViolation) h.excAccess)
  | inbox => exact h.loaded
  | access => exact h.excAccess
  | unmapped => exact h.eddyViolation

theorem Keeps.goOn {e : Nat} : Keeps a (goOn e s) := h.modEddy

theorem Keeps.doStore {e : Nat} {a' : Word} {n : Nat} {v : BitVec 64} : Keeps a (doStore e a' n v s) := by
  unfold Machine.doStore
  split
  · exact h.spStore.goOn
  · exact h.eddyViolation
  · exact h.localWrite.goOn
  · exact .ite (.ite h.eddyPush.goOn h.eddyViolation) h.excAccess
  · exact h.excAccess
  · exact h.excAccess
  · exact h.eddyViolation

theorem Keeps.loadOp {e op rd ra : Nat} {imm : BitVec 16} {n : Nat} : Keeps a (loadOp e op rd ra imm n s) :=
  h.issue (fun _ _ h => .some h.doLoad)

theorem Keeps.storeOp {e op rd ra : Nat} {imm : BitVec 16} {n : Nat} : Keeps a (storeOp e op rd ra imm n s) :=
  h.issue (fun _ _ h => .some h.doStore)

theorem Keeps.runLocal {e op o : Nat} : Keeps a (runLocal e op o s) := by
  unfold Machine.runLocal
  split
  · exact .ite h.loadOp h.storeOp
  · exact h

theorem Keeps.siteViolation {e i : Nat} : Keeps a (siteViolation e i s) := h.eddyViolation

theorem Keeps.popped {e rd rs i : Nat} : Keeps a (popped e rd rs i s) := by
  unfold Machine.popped
  dsimp only
  exact .modEddy h.eddyPop

theorem Keeps.qFlushOp {e rd i : Nat} : Keeps a (qFlushOp e rd i s) := h.flushAsk.loaded

theorem Keeps.opAsk {e : Nat} {before : List EOp} {o : EOp} : Keeps a (opAsk e before o s).2 := by
  unfold Machine.opAsk
  dsimp only
  exact .iteSnd h <|
    .iteSnd h (.iteSnd h (by split; exacts [by dsimp only; exact h.askModel ‹_›, by dsimp only; exact h]))

theorem Keeps.retryOps {e : Nat} : Keeps a (retryOps e s) := by
  unfold Machine.retryOps
  refine .modEddy (.foldlSnd h fun p o h => ?_)
  split
  · exact h.opAsk
  · exact h

theorem Keeps.poolOp {e h' idx : Nat} {rd wr atom : Bool} {o : EOp} : KeepsOpt a (poolOp e h' idx rd wr atom o s) := by
  unfold Machine.poolOp
  dsimp only
  split
  · exact .some (.eddyExc (.ite h.descTouch h))
  · exact .some (.eddyExc (.bump (.ite h.descTouch h)))
  · exact .some (.eddyPoolViolation (.ite h.descTouch h))
  · exact .some (.eddyExc (.ite h.descTouch h))
  · exact .some (.eddyExc (.ite h.descTouch h))
  · exact .ite .none (.some (.modEddy (.opAsk (.ite h.descTouch h))))

theorem Keeps.atomOp {e afn rd ra rb h' : Nat} : Keeps a (atomOp e afn rd ra rb h' s) := h.issue (fun _ _ h => h.poolOp)

theorem Keeps.opDone {e i : Nat} {o : EOp} {v : BitVec 64} {bad : Bool} : Keeps a (opDone e i o v bad s) := h.modEddy

theorem Keeps.pldAnswer {e i : Nat} : Keeps a (pldAnswer e i s) := by
  unfold Machine.pldAnswer
  dsimp only
  split
  · split
    · exact .ite (by split; exacts [h.descTouch.opDone, h.descTouch.retryOps]) (.opDone h.descTouch.otherRead)
    · exact h
  · exact h

theorem Keeps.pstComplete {e i : Nat} : Keeps a (pstComplete e i s) := by
  unfold Machine.pstComplete
  split
  · split
    · exact .ite (by split; exacts [h.descTouch.opDone, h.descTouch.retryOps]) h.descTouch.otherWrite.opDone
    · exact h
  · exact h

theorem Keeps.patomAnswer {e i : Nat} : Keeps a (patomAnswer e i s) := by
  unfold Machine.patomAnswer
  dsimp only
  split
  · split
    · exact .opDone (by split; exacts [.otherWrite h.descTouch.otherRead, h.descTouch.otherRead])
    · exact h
  · exact h

theorem Keeps.cmtOp {e rd p : Nat} : KeepsOpt a (cmtOp e rd p s) := by
  unfold Machine.cmtOp
  dsimp only
  split
  · exact .some h.loaded
  · refine .ite .none (.some (.modEddy (.setPort (.iteSnd ?_ h.descTouch))))
    split <;> dsimp only
    exacts [h.descTouch.askModel ‹_›, h.descTouch]

theorem Keeps.countModelErr {o : ModelOut} {err : Bool} : Keeps a (countModelErr o err s) := .ite h.hbmUe h

theorem Keeps.deliverAnswer {o : ModelOut} {err : Bool} {v : BitVec 64} : Keeps a (deliverAnswer o err v s) := by
  unfold Machine.deliverAnswer
  split
  · exact h.setPort
  · exact h.setPort
  · exact h.modEddy
  · exact h.modEddy
  · exact h.beside
  · exact .ite h.beside.hostData h.beside
  · exact h.sendAns
  · exact h
  · exact h.beside

theorem Keeps.retryHost : Keeps a (retryHost s) := h.forEach (fun _ _ h => .ite h.beside.hostPerform h)

theorem Keeps.modelAnswer {w0 w1 : BitVec 64} : Keeps a (modelAnswer w0 w1 s) := by
  unfold Machine.modelAnswer
  dsimp only
  split
  · exact h.bump
  · exact h.beside.countModelErr.deliverAnswer

theorem Keeps.takeRecord {e rd : Nat} {r : ModelRec} {rest : List ModelRec} : Keeps a (takeRecord e rd r rest s) :=
  h.beside.modEddy.retryInit.retryHost

theorem Keeps.sysOp {e rd ra rb func : Nat} {regs : List Nat} {f : Eddy → State → Option State}
    (hf : ∀ x t, Keeps a t → KeepsOpt a (f x t)) : Keeps a (sysOp e rd ra rb func regs f s) :=
  h.issue hf

theorem Keeps.resetSides {e : Nat} : Keeps a (resetSides e s) :=
  h.forEach (fun _ _ h => .ite (.wrReset (.ite h.rdReset h)) (.ite h.rdReset h))

theorem Keeps.eddyCmd {e : Nat} {ok : Eddy → Bool} {f : Eddy → Eddy} : Keeps a (eddyCmd e ok f s) :=
  .ite h.setEddy (.ite h.setEddy h.setEddy)

theorem Keeps.pinVbase {e : Nat} : Keeps a (pinVbase e s) := .ite h.revoke.bump h

theorem Keeps.eddyReset {e : Nat} : Keeps a (eddyReset e s) := .ite h.eddyCmd.pinVbase.resetSides.relatch h.eddyCmd

theorem Keeps.eddyStart {e : Nat} : Keeps a (eddyStart e s) := h.eddyCmd

theorem Keeps.eddyShut {e : Nat} : Keeps a (eddyShut e s) := h.modEddy

theorem Keeps.wipeSecure {e : Nat} : Keeps a (wipeSecure e s) := h.modEddy.bump

theorem Keeps.secureWipeDone {e : Nat} : Keeps a (secureWipeDone e s) := .ite h.wipeSecure h

theorem Keeps.finishWipes : Keeps a (finishWipes s) := (h.forEach (fun _ _ h => .ite h.bump h)).beside

theorem Keeps.irqEntry {e : Nat} : Keeps a (irqEntry e s) := by
  unfold Machine.irqEntry
  dsimp only
  split
  · exact .ite h.setEddy h
  · exact h

theorem Keeps.timerMatch {e : Nat} : Keeps a (timerMatch e s) := .ite h h.setEddy.latchIrq

theorem Keeps.timerLoRead {e : Nat} {now : BitVec 64} : Keeps a (timerLoRead e now s) := .ite h.modEddy.runLocal h

theorem Keeps.dmaGoCmd {e : Nat} : Keeps a (dmaGoCmd e s) := .ite h.modEddy h.runLocal

theorem Keeps.eddyPinWrite {e : Nat} {hi : Bool} {v : Word} : Keeps a (eddyPinWrite e hi v s) :=
  h.setReg.forEach (fun _ _ h => .ite h.revoke.bump h)


/-! ### EddyCmds -/

theorem Keeps.eddyCtl {e cmd : Nat} {act : State → State} (hact : ∀ t, Keeps a t → Keeps a (act t)) :
    Keeps a (eddyCtl e cmd act s) :=
  .ite (h.viaPath hact) (h.awake (fun _ h => h.eddyShut))


/-! ### Links -/

theorem Keeps.lnkCause {c code : Nat} : Keeps a (lnkCause c code s) := h.setReg

theorem Keeps.lnkResult {c r : Nat} : Keeps a (lnkResult c r s) := h.setChan

theorem Keeps.startRetrain {c : Nat} {cause : Option Nat} : Keeps a (startRetrain c cause s) :=
  .ite h (by dsimp only; split; exacts [h.setChan.bump.lnkCause, h.setChan.bump])

theorem Keeps.enterFailed {c code : Nat} : Keeps a (enterFailed c code s) :=
  .raiseVec <| .lnkCause (.bump (.ite (.trcEvent (.setChan (.ite h.beginReroute h))) (.setChan (.ite h.beginReroute h))))

theorem Keeps.trainFail {c code : Nat} : Keeps a (trainFail c code s) :=
  .ite h (.ite h.setChan.lnkCause.enterFailed h.setChan.lnkCause)

theorem Keeps.lnkOwned {c : Nat} : Keeps a (lnkOwned c s) := h.lnkResult.lnkCause

theorem Keeps.lnkGo {c : Nat} : Keeps a (lnkGo c s) := .ite h.lnkOwned (.ite h.lnkResult (.ite h.setChan.lnkCause h.lnkResult))

theorem Keeps.lnkEnable {c : Nat} : Keeps a (lnkEnable c s) := .ite h.lnkGo h.lnkResult

theorem Keeps.handOver {c : Nat} : Keeps a (handOver c s) := .ite h.beginReroute h

theorem Keeps.stopChan {c : Nat} : Keeps a (stopChan c s) := h.setChan

theorem Keeps.lnkDisable {c : Nat} : Keeps a (lnkDisable c s) := .ite h.lnkOwned h.handOver.stopChan.lnkResult.lnkCause

theorem Keeps.lnkReset {c : Nat} : Keeps a (lnkReset c s) := .ite h.lnkOwned h.handOver.setChan.lnkCause

theorem Keeps.lnkRetrain {c : Nat} : Keeps a (lnkRetrain c s) := .ite h.lnkOwned (.ite h.startRetrain.lnkResult h.lnkResult)

theorem Keeps.lnkReserved {c : Nat} : Keeps a (lnkReserved c s) := .ite h.lnkOwned h.lnkResult

theorem Keeps.lnkCfgWrite {c : Nat} {v : Word} : Keeps a (lnkCfgWrite c v s) :=
  .ite h.lnkOwned (.ite h.lnkResult (.ite h.bump.lnkResult.lnkCause h.setReg.lnkResult))

theorem Keeps.resetDone {c : Nat} : Keeps a (resetDone c s) := .ite h.stopChan h

theorem Keeps.signalDetect {c : Nat} : Keeps a (signalDetect c s) := .ite h.setChan h

theorem Keeps.degrade {c : Nat} : Keeps a (degrade c s) := h.setChan.bump.lnkCause.raiseVec

theorem Keeps.trainRx {c : Nat} {p : Payload} : Keeps a (trainRx c p s) :=
  .ite h.startRetrain (.ite h.startRetrain.trainFail (.setChan (.ite h.startRetrain.degrade h.startRetrain)))

theorem Keeps.trainingDone {c : Nat} {pol : BitVec 4} {rev : Bool} : Keeps a (trainingDone c pol rev s) := by
  unfold Machine.trainingDone
  dsimp only
  split
  · exact h
  · exact .ite h (.sendHello (.electing (.lnkCause (.ite h.setChan h.setChan.bump))))

theorem Keeps.flitCheck {c : Nat} {w : WireFlit} {err : BitVec 1088} : Keeps a (flitCheck c w err s).2.2 := by
  unfold Machine.flitCheck
  refine .iteThird h ?_
  lift_lets
  intro n v b w' t
  have ht : Keeps a t := .ite h.drawFree h
  clear_value v t
  cases v with
  | ok => exact ht
  | ce => exact ht.bump
  | ue => exact ht.bump

theorem Keeps.fifoLeave {c : Nat} : Keeps a (fifoLeave c s) := by
  unfold Machine.fifoLeave
  dsimp only
  split
  · exact h
  · exact .setChan h.flitCheck

theorem Keeps.onWire {c vl dl seq : Nat} {p : Payload} : Keeps a (onWire c vl dl seq p s) := h.fifoLeave.setChan

theorem Keeps.sendCtl {c : Nat} {p : Payload} : Keeps a (sendCtl c p s) := h.onWire

theorem Keeps.countSlot {c vl : Nat} {idle : Bool} : Keeps a (countSlot c vl idle s) := h.setChan

theorem Keeps.sendClass {c k : Nat} : Keeps a (sendClass c k s) := by
  unfold Machine.sendClass
  dsimp only
  split
  · exact h
  · exact h.onWire.setChan.bump.freeSlot.countSlot

theorem Keeps.sendIdle {c : Nat} : Keeps a (sendIdle c s) := h.sendCtl.countSlot

theorem Keeps.sendSlot {c : Nat} : Keeps a (sendSlot c s) := by
  unfold Machine.sendSlot
  dsimp only
  split
  · exact h.onWire.setChan.countSlot
  · split
    · exact h.setChan.sendCtl.countSlot
    · exact .ite h.setChan.sendCtl.countSlot <|
        .ite h.sendIdle (by split; exacts [h.sendIdle, .ite (.sendIdle (.setChan (.ite h h.bump))) h.sendClass])

theorem Keeps.flitTransmit {c : Nat} : Keeps a (flitTransmit c s) := .ite h.sendCtl.setChan (.ite h.sendSlot h)

theorem Keeps.takeAck {c : Nat} {h' : BitVec 24} : Keeps a (takeAck c h' s) := .ite h h.setChan

theorem Keeps.startReplay {c q : Nat} : Keeps a (startReplay c q s) := by
  unfold Machine.startReplay
  dsimp only
  split
  · exact h
  · exact .ite h (.ite h.startRetrain h.setChan.bump)

theorem Keeps.sendNak {c : Nat} {apart : Bool} : Keeps a (sendNak c apart s) := .ite h h.setChan.bump

theorem Keeps.cutThroughPass {c : Nat} {p : Payload} : Keeps a (cutThroughPass c p s) :=
  .ite
    (.ite
       ((h.forEach (fun _ _ h => by dsimp only; split; exacts [h, .ite h.beside h.beside.bump.recallEntry])).groupSettled) <|
     h.forEach (fun _ _ h => by dsimp only; split; exacts [h, .ite h.beside h.beside.bump.recallEntry]))
    h

theorem Keeps.acceptFlit {c : Nat} {h' : BitVec 24} {p : Payload} : Keeps a (acceptFlit c h' p s) :=
  h.setChan.bump.cutThroughPass.forward

theorem Keeps.creditRx {c : Nat} {p : Payload} : Keeps a (creditRx c p s) := h.setChan

theorem Keeps.ctlRx {c : Nat} {h' : BitVec 24} {p : Payload} : Keeps a (ctlRx c h' p s) :=
  .ite (.trainRx (.ite h.takeAck h)) <|
  .ite (.bump (.ite h.takeAck h)) <|
  .ite (.ite h.takeAck h) <|
  .ite (.startReplay (.ite h.takeAck h)) <|
  .ite (.creditRx (.ite h.takeAck h)) (.ite (.startRetrain (.ite h.takeAck h)) (.ite h.takeAck h))

theorem Keeps.countCheck {c corr unc : Nat} : Keeps a (countCheck c corr unc s) := .ite h.bumpBy.bumpBy h.bumpBy.bumpBy

theorem Keeps.flitRx {c : Nat} {head : BitVec 24} {p : Payload} {crc : BitVec 32} {corr unc : Nat} {apart : Bool} :
    Keeps a (flitRx c head p crc corr unc apart s) := by
  unfold Machine.flitRx
  dsimp only
  refine .ite h ?_
  generalize hr : Machine.flitCheck .. = r
  have hf : Keeps a r.2.2 := hr ▸ h.countCheck.flitCheck
  have hx : Keeps a (if (getChan s c).rxErr = 0 then r.2.2 else Machine.setChan c { getChan s c with rxErr := 0 } r.2.2) :=
    .ite hf hf.setChan
  exact .ite (.ite (.ite hx hx.bump) (.sendNak (.ite hx hx.bump))) <| .ite hx.ctlRx <|
    .ite hx.takeAck.acceptFlit <| .ite hx.takeAck hx.takeAck.sendNak

theorem Keeps.fordCutThrough {c : Nat} {p : Payload} {i : Nat} : Keeps a (fordCutThrough c p i s) := .ite h h.beside.takeReal

theorem Keeps.laneLoss {c lane : Nat} : Keeps a (laneLoss c lane s) :=
  .ite h (.ite h.setChan.startRetrain.degrade h.setChan.startRetrain)

theorem Keeps.stallTimeout {c : Nat} : Keeps a (stallTimeout c s) := .ite h.enterFailed h


/-! ### Marks -/

theorem Keeps.lossAt {used : Bool} : Keeps a (lossAt used s) :=
  .ite (.tickFault (.ite h.devEvent.devGo.devEvent h.devEvent)) (.ite h.devEvent.devGo.devEvent h.devEvent)

theorem Keeps.logMark {m : Mark} : Keeps a (logMark m s) := h.beside

theorem Keeps.fieldMark {m : Mark} : Keeps a (fieldMark m s) := .ite h h.beside

theorem Keeps.addMark {keep : Bool} {m : Mark} : Keeps a (addMark keep m s) :=
  .ite
    (by
       split
       · exact .setEddy (.beside (.logMark (.ite h.fieldMark h)))
       · exact .beside (.logMark (.ite h.fieldMark h))) <|
  .ite (.andNotReg (.beside (.logMark (.ite h.fieldMark h)))) (.beside (.logMark (.ite h.fieldMark h)))

theorem Keeps.markAll {keep : Bool} {ms : List Mark} : Keeps a (markAll keep ms s) :=
  .ite h (h.forEach (fun _ _ h => h.addMark)).lossAt

theorem Keeps.markRun {keep : Bool} {m : Mark} : Keeps a (markRun keep m s) := h.markAll

theorem Keeps.markTile {t : Nat} : Keeps a (markTile t s) := .ite h h.beside.lossAt


/-! ### Image -/

theorem Keeps.setSlot {n : Nat} {x : Slot} : Keeps a (setSlot n x s) := h.beside

theorem Keeps.srcRead {c : Source} : Keeps a (srcRead c s) := by
  unfold Machine.srcRead
  dsimp only
  split
  · exact h
  · exact h.forEach (fun _ _ h => h.hbmFetch)


/-! ### Census -/

theorem Keeps.census : Keeps a (census s).2 :=
  .foldlSnd h fun _ _ h => by
    dsimp only
    split <;> exact h.setReg.setReg.setReg

theorem Keeps.bmRefuse {m cause : Nat} : Keeps a (bmRefuse m cause s) := h.bump.latchFirst

theorem Keeps.bmChecks : Keeps a (bmChecks s).2 :=
  .foldlSnd h fun _ _ h => .iteSnd h h.bmRefuse

theorem Keeps.queueChecks {fr : SMap (BitVec 4096)} : Keeps a (queueChecks fr s).2 :=
  .foldlSnd h fun _ _ h => .iteSnd h h.bump.latchFirst

theorem Keeps.takeDescs {l : List (Nat × Desc)} {bad : List Nat} {put : State → Nat × Desc → State}
    (hput : ∀ t x, Keeps a t → Keeps a (put t x)) : Keeps a (takeDescs l bad put s).2 := by
  induction l generalizing s bad with
  | nil => exact h
  | cons x l ih => exact .iteSnd (ih (hput _ _ h)) (ih (.ite h.bump h))

theorem Keeps.portChecks {fr : SMap (BitVec 4096)} {bad : List Nat} {t : State} : Keeps a (portChecks fr bad t s).2 :=
  .foldlSnd h fun _ _ h => .iteSnd h h.bump.latchFirst

theorem Keeps.blockFailures : Keeps a (blockFailures s).2 :=
  .foldlSnd h fun _ _ h => .iteSnd h.bmRefuse h


/-! ### Loader -/

theorem Keeps.clearRegs {p : Nat → Bool} : Keeps a (clearRegs p s) := h.filterRegs

theorem Keeps.resetTick : Keeps a (resetTick s) := h.freshRun.beside.setCause

theorem Keeps.loadQueue {q : Nat} : Keeps a (loadQueue q s) := .beside (.rdReset (.wrReset (.ite h h.bumpBy.qEvent)))

theorem Keeps.loadPort {p : Nat} : Keeps a (loadPort p s) := (h.forEach (fun _ _ h => h.xingDiscard)).setPort

theorem Keeps.loadChans : Keeps a (loadChans s) := (h.forEach (fun _ _ h => .ite h h.setReg)).beside

theorem Keeps.answerHeld : Keeps a (answerHeld s) := (h.forEach (fun _ _ h => h.sendAns)).beside

theorem Keeps.dropAsks : Keeps a (dropAsks s) := h.beside.forEach (fun _ _ h => h.hostRefuse)

theorem Keeps.loadTrace : Keeps a (loadTrace s) := h.beside.snapAbort

theorem Keeps.dropPulse : Keeps a (dropPulse s) := .ite h.beside h

theorem Keeps.loadReset : Keeps a (loadReset s) :=
  have queues := h.answerHeld.dropPulse.loadTrace.dropAsks.beside.gsrAssert.resetTick.forEach fun _ _ h => h.loadQueue
  (queues.forEach fun _ _ h => h.loadPort).loadChans.beside.clearRegs

theorem Keeps.wipeAll : Keeps a (wipeAll s) := h.forEach (fun _ _ h => h.bump)

theorem Keeps.loadStart {byCmd : Bool} {src off len : Nat} : Keeps a (loadStart byCmd src off len s) :=
  .beside (.wipeAll (.ite h.finishWipes.devGo.devEvent.loadReset.clearRegs h.finishWipes))

theorem Keeps.setAttempt {phase code : Nat} : Keeps a (setAttempt phase code s) := h.setReg

theorem Keeps.countLoad {code : Nat} : Keeps a (countLoad code s) := .ite h.bump h

theorem Keeps.loadTook : Keeps a (loadTook s) := h.drawFree.setReg

theorem Keeps.attemptFail {code : Nat} {loc : Option Nat} : Keeps a (attemptFail code loc s) :=
  .ite h.bump.countLoad.setAttempt.setReg.loadReset.beside.bump <|
  h.bump.countLoad.setAttempt.setReg.loadReset.beside.setReg.loadTook.setReg.devEvent.raiseVec

theorem Keeps.mbxDone {result block : Nat} : Keeps a (mbxDone result block s) :=
  .raiseVec (.beside (.clearRegs (.ite (.bump (.ite h.setReg h.setReg.bump)) (.ite h.setReg h.setReg.bump))))

theorem Keeps.useCounter : Keeps a (useCounter s) := .ite h.beside.bump h

theorem Keeps.wipeHbm : Keeps a (wipeHbm s) := h.beside

theorem Keeps.eraseSlot {n : Nat} : Keeps a (eraseSlot n s) := h.setSlot

theorem Keeps.eraseSlots {m : Nat} : Keeps a (eraseSlots m s) := h.forEach (fun _ _ h => h.eraseSlot)

theorem Keeps.wipeKeys {t : LifeCycle} : Keeps a (wipeKeys t s) := .ite h.beside h

theorem Keeps.wipeStore {t : LifeCycle} : Keeps a (wipeStore t s) := .beside (.ite h.wipeHbm.eraseSlots h.wipeHbm)

theorem Keeps.loadWipes : Keeps a (loadWipes s) := by
  unfold Machine.loadWipes
  dsimp only
  split
  · exact .wipeStore (.wipeKeys (.beside (.ite h.wipeHbm.eraseSlots h)))
  · exact .beside (.ite h.wipeHbm.eraseSlots h)

theorem Keeps.zeroised : Keeps a (zeroised s) := .ite h.mbxDone h

theorem Keeps.progress {n : Nat} : Keeps a (progress n s) := h.setReg

theorem Keeps.headerRead {storeUe : Bool} : Keeps a (headerRead storeUe s) :=
  .ite h <|
  .ite h.loadWipes.zeroised.srcRead.attemptFail <|
  .ite h.loadWipes.zeroised.srcRead.attemptFail <|
  .ite h.loadWipes.zeroised.srcRead.attemptFail <| by
    dsimp only
    split
    · exact h.loadWipes.zeroised.srcRead.attemptFail
    · exact h.loadWipes.zeroised.srcRead.beside.progress

theorem Keeps.passAEnd {storeUe : Bool} : Keeps a (passAEnd storeUe s) :=
  .ite h <|
  .ite h.srcRead.attemptFail <| by
    split
    · exact .attemptFail (.ite h.srcRead h.srcRead.progress)
    · exact h.srcRead.beside.progress

theorem Keeps.idleFillEnd : Keeps a (idleFillEnd s) := .ite h h.beside.progress

theorem Keeps.writeTiles {m : SMap Frame} : Keeps a (writeTiles m s) := h.forEach (fun _ _ h => h.setTile)

theorem Keeps.writeIdle {l : List (Nat × Nat)} : Keeps a (writeIdle l s) := h.beside

theorem Keeps.writeBmFrame {a' : Nat} {f : BitVec 4096} : Keeps a (writeBmFrame a' f s) :=
  h.setScr.forEach (fun _ _ h => h.setBlock)

theorem Keeps.writeRow {x : Nat} {v : BitVec 72} : Keeps a (writeRow x v s) := h.setBlock

theorem Keeps.writeSpad {i : Nat} {f : BitVec 4096} : Keeps a (writeSpad i f s) := h.modEddy

theorem Keeps.passBWrites {p : Stream} : Keeps a (passBWrites p s) :=
  have frames := h.writeIdle.writeTiles.forEach fun _ _ h => .ite h.writeBmFrame (.ite h.writeSpad h)
  (frames.forEach fun _ _ h => h.writeRow).beside

theorem Keeps.passBEnd {storeUe : Bool} : Keeps a (passBEnd storeUe s) := by
  unfold Machine.passBEnd
  dsimp only
  refine .ite h (.ite ?_ ?_)
  · exact h.srcRead.passBWrites.beside.progress.attemptFail
  · exact h.srcRead.passBWrites.beside.progress.beside

theorem Keeps.runChecks : Keeps a (runChecks s).2 := by
  unfold Machine.runChecks
  lift_lets
  intro fr tagRow failed fw
  split
  next hb =>
  split
  next hc =>
  split
  next hm =>
  split
  next hq =>
  split
  lift_lets
  intro t
  split
  next hp =>
  exact ((h.blockFailures.snd hb).census.snd hc |>.bmChecks.snd hm |>.queueChecks.snd hq |>.setReg.portChecks.snd hp).beside

theorem Keeps.writeTable {t f : Nat} {d : BitVec 4096} : Keeps a (writeTable t f d s) :=
  .ite (h.forEach (fun _ _ h => h.setReg.setReg)) <|
  .ite (h.forEach (fun _ _ h => h.setReg)) <|
  .ite (h.forEach (fun _ _ h => h.setReg)) <|
  .ite (h.forEach (fun _ _ h => h.setReg.setReg)) <|
  .ite (h.forEach (fun _ _ h => (h.forEach (fun _ _ h => h.setReg)).setReg)) (.ite h.beside h)

theorem Keeps.writeControl {d : BitVec 4096} : Keeps a (writeControl d s) :=
  ((h.setReg.forEach (fun _ _ h => h.setReg)).forEach (fun _ _ h => h.setReg)).beside

theorem Keeps.placeEddy {fr : SMap (BitVec 4096)} {e : Nat} : Keeps a (placeEddy fr e s) :=
  .ite h (.ite h.setReg.setReg.setReg.beside.modEddy h.setReg.setReg.setReg.beside.modEddy)

theorem Keeps.pinBindings : Keeps a (pinBindings s) := h.forEach (fun _ _ h => .ite h.descTouch h)

theorem Keeps.applyImage : Keeps a (applyImage s) := by
  unfold Machine.applyImage
  dsimp only
  refine .beside (.setReg (.forEach (.forEach (.forEach (.pinBindings ?_) ?_) ?_) ?_))
  · exact (h.writeControl.forEach fun _ _ h => .ite h.writeTable h).takeDescs fun _ _ h => h.placeDesc
  · exact fun _ _ h => h.placeEddy
  · exact fun _ _ h => h.setReg
  · exact fun _ _ h => h.setReg

theorem Keeps.checksEnd : Keeps a (checksEnd s) := by
  unfold Machine.checksEnd
  dsimp only
  exact .ite h (by split; exacts [.attemptFail h.runChecks, .setReg (.applyImage h.runChecks)])

theorem Keeps.enableClocked : Keeps a (enableClocked s) :=
  (h.forEach (fun _ _ h => h.initPool)).forEach (fun _ _ h => h.modEddy)

theorem Keeps.enableChans : Keeps a (enableChans s) := h.forEach (fun _ _ h => h.lnkGo)

theorem Keeps.clockedStep {c : Nat} : Keeps a (clockedStep c s) := .ite h.enableClocked (.ite h.enableChans h)

theorem Keeps.stepClocked {c : Nat} : Keeps a (stepClocked c s) := .ite h.clockedStep h.beside

theorem Keeps.cfgDone : Keeps a (cfgDone s) := h.setAttempt.setReg.loadTook.beside.bump.devGo.devEvent.raiseVec

theorem Keeps.stepOver : Keeps a (stepOver s) := .ite h.beside.cfgDone h.beside

theorem Keeps.lockWaitEnd : Keeps a (lockWaitEnd s) :=
  .ite h ((h.forEach (fun _ _ h => .ite h h.orReg)).beside.forEach (fun _ _ h => h.clockedStep)).stepOver

theorem Keeps.lockWaitTimeout : Keeps a (lockWaitTimeout s) := .ite h.attemptFail h

theorem Keeps.setResetDone : Keeps a (setResetDone s) := .ite h h.gsrRelease.stepOver

theorem Keeps.writeEnableDone : Keeps a (writeEnableDone s) := .ite h h.beside.stepClocked.stepOver

theorem Keeps.outputReleaseDone : Keeps a (outputReleaseDone s) := .ite h h.beside.stepClocked.stepOver

theorem Keeps.dtmrWrite {d : Nat} {v : Word} : Keeps a (dtmrWrite d v s) := .ite h h.setReg.setReg

theorem Keeps.dtmrExpire {d : Nat} : Keeps a (dtmrExpire d s) :=
  .ite h <|
  .ite (.latchIrq (.ite h.orReg.bump.setReg.raiseVec h.orReg.bump.setReg)) <|
  .ite h.orReg.bump.setReg.raiseVec h.orReg.bump.setReg

theorem Keeps.claimQWrite {v : Word} : Keeps a (claimQWrite v s) := .ite h.bump h.setReg


/-! ### Shutdown -/

theorem Keeps.writeRec {r : HealthRec} : Keeps a (writeRec r s) := h.beside

theorem Keeps.abandonLoad : Keeps a (abandonLoad s) :=
  .ite h <|
  .ite (.beside (.ite h.mbxDone h)) (.loadTook (.beside (.setReg (.setReg (.setAttempt (.ite h.mbxDone h))))))

theorem Keeps.shutTick : Keeps a (shutTick s) := h.abandonTick.discardFrom.qDiscardFrom.beside.enterHalt

theorem Keeps.abortSlot : Keeps a (abortSlot s) := by
  unfold Machine.abortSlot
  split
  · exact h.eraseSlot.mbxDone
  · exact h.eraseSlot.mbxDone
  · exact h

theorem Keeps.enterShutdown {cause events : Nat} : Keeps a (enterShutdown cause events s) :=
  h.abandonLoad.dropPulse.snapAbort.shutTick.gsrAssert.loadChans.beside.devGo.devEvent.writeRec

theorem Keeps.pwrOff : Keeps a (pwrOff s) := .ite h (.ite h.beside.abortSlot.devEvent h.beside.abortSlot.enterShutdown)

theorem Keeps.destroy {k : Nat} : Keeps a (destroy k s) :=
  .ite h.loseSection <|
  .ite h.beside.beside <|
  .ite h.beside.beside (.ite (h.beside.forEach (fun _ _ h => h.modEddy)) (.ite h.beside.beside h))

theorem Keeps.segmentDone {fails : List Mark} : Keeps a (segmentDone fails s) := .ite h h.beside.destroy.writeRec

theorem Keeps.wipeSecrets : Keeps a (wipeSecrets s) := h.forEach (fun _ _ h => h.wipeSecure)

theorem Keeps.zeroise {own : Bool} {mask : BitVec 4} : Keeps a (zeroise own mask s) :=
  .ite
    (.beside <| .ite h.beside.useCounter.wipeSecrets <| by
       split
       · exact h.beside.useCounter.wipeSecrets.abortSlot
       · exact h.beside.useCounter.wipeSecrets.abortSlot
       · exact h.beside.useCounter.wipeSecrets.mbxDone) <|
  .ite
    (.ite h.beside.useCounter.wipeSecrets <| by
       split
       · exact h.beside.useCounter.wipeSecrets.abortSlot
       · exact h.beside.useCounter.wipeSecrets.abortSlot
       · exact h.beside.useCounter.wipeSecrets.mbxDone) <|
  .beside <| .loadStart <| .beside <| .ite h.beside.useCounter.wipeSecrets <| by
    split
    · exact h.beside.useCounter.wipeSecrets.abortSlot
    · exact h.beside.useCounter.wipeSecrets.abortSlot
    · exact h.beside.useCounter.wipeSecrets.mbxDone

theorem Keeps.tamper {src : Nat} : Keeps a (tamper src s) := .ite h.beside.bump.zeroise h.beside.bump

theorem Keeps.vbatFoundAt : Keeps a (vbatFoundAt s) := .ite (.zeroise (.ite h.beside.tamper h)) (.ite h.beside.tamper h)

theorem Keeps.shutdownDone : Keeps a (shutdownDone s) := .ite h h.wipeSecrets.writeRec.beside

theorem Keeps.deviceReset {inReset high : Bool} {straps : BitVec 4} : Keeps a (deviceReset inReset high straps s) :=
  have fresh : Keeps a { State.reset with pending := s.pending } := ⟨h.pending, fun _ => rfl⟩
  fresh.beside.setReg.setReg.setReg

theorem Keeps.keepZero : Keeps a (keepZero s) := .ite h.beside h

theorem Keeps.porstAssert : Keeps a (porstAssert s) :=
  .deviceReset <| by
    split
    · exact h.useCounter.keepZero.eraseSlot
    · exact h.useCounter.keepZero.eraseSlot
    · exact h.useCounter.keepZero

theorem Keeps.porstRelease {straps : BitVec 4} {rails : Bool} : Keeps a (porstRelease straps rails s) := .ite h h.deviceReset

theorem Keeps.railsInRange : Keeps a (railsInRange s) := .ite h.deviceReset.beside h

theorem Keeps.fuseRead : Keeps a (fuseRead s) :=
  .ite h (.vbatFoundAt (.beside (by split; exacts [h.beside.wipeKeys.wipeSecrets.wipeStore, h.beside])))

theorem Keeps.takeFails {fs : List Mark} : Keeps a (takeFails fs s) :=
  .beside (.forEach (.ite h h.setReg) (fun _ _ h => .ite h h.fieldMark.logMark))

theorem Keeps.bootLoad : Keeps a (bootLoad s) := by
  unfold Machine.bootLoad
  exact .loadStart (.beside (h.forEach fun _ _ h => h.modEddy))

theorem Keeps.abbrevEnd : Keeps a (abbrevEnd s) := h.writeRec.takeFails.bootLoad

theorem Keeps.abbrevGo {segs : List Nat} : Keeps a (abbrevGo segs s) := .ite h.beside.abbrevEnd h.beside

theorem Keeps.healthRead : Keeps a (healthRead s) :=
  .ite h <| by
    split
    · exact h.beside.abbrevGo
    · exact .ite (.abbrevGo (.setReg (.ite h.beside h.beside.takeFails))) (.bootLoad (.ite h.beside h.beside.takeFails))

theorem Keeps.abbrevDone {fails : List Mark} : Keeps a (abbrevDone fails s) :=
  .ite h (by split; exacts [.ite h.beside.destroy.abbrevEnd h.beside.destroy, h])


/-! ### Security -/

theorem Keeps.vbatLoss : Keeps a (vbatLoss s) := .ite h.beside h.beside.tamper

theorem Keeps.hubExcursion {low : Bool} : Keeps a (hubExcursion low s) :=
  .ite h.tamper (.beside (.porstAssert (.ite h.tamper h)))

theorem Keeps.transition {t : LifeCycle} {policy : Word} : Keeps a (transition t policy s) :=
  h.beside.wipeKeys.wipeSecrets.loadStart.beside

theorem Keeps.secBlock {code : Nat} : Keeps a (secBlock code s) := h.mbxDone

theorem Keeps.kcLoad : Keeps a (kcLoad s) := .ite h.bump.secBlock (.ite h.secBlock h.loadStart.mbxDone)

theorem Keeps.kcSlot : Keeps a (kcSlot s) :=
  .ite h.mbxDone <|
  .ite h.secBlock <|
  .ite
    (by
       dsimp only
       split
       · exact .secBlock (.countLoad (.ite h.srcRead h))
       · exact .setSlot (.beside (.ite h.srcRead h)))
    (.ite h.beside.setSlot h.beside.mbxDone)

theorem Keeps.setBoot {boot : Bool} {n : Nat} : Keeps a (setBoot boot n s) := .ite h.beside h

theorem Keeps.slotWriteDone : Keeps a (slotWriteDone s) := by
  unfold Machine.slotWriteDone
  split
  · exact .mbxDone <| by
        split
        · exact h.srcRead.setSlot.setBoot.beside
        · exact h.srcRead.setSlot.setBoot.beside
        · exact h.srcRead.setSlot.setBoot
  · exact h

theorem Keeps.slotEraseDone : Keeps a (slotEraseDone s) := by
  unfold Machine.slotEraseDone
  split
  · exact h.eraseSlot.setBoot.mbxDone
  · exact h

theorem Keeps.transitionDone : Keeps a (transitionDone s) := .ite (.mbxDone (by split; exacts [h.wipeStore, h])) h

theorem Keeps.release {c i : Nat} : Keeps a (release c i s) :=
  .ite h.setFrozen.hostUnfreeze <|
  .ite h.setFrozen.modEddy (.ite (h.setFrozen.beside.forEach (fun _ _ h => h.remoteRx)) h.setFrozen)

theorem Keeps.kcUnfreeze : Keeps a (kcUnfreeze s) :=
  .ite h.mbxDone (.ite h.mbxDone (h.forEach (fun _ _ h => h.release)).mbxDone)

theorem Keeps.roleChanged : Keeps a (roleChanged s) := by
  unfold Machine.roleChanged
  split
  · exact h.beside.helloAll
  · exact .ite (.helloAll (.beside (.ite h.bump h))) (.ite h.bump h)

theorem Keeps.kcRoot : Keeps a (kcRoot s) := .ite h.mbxDone (.mbxDone (.ite h.setRegFld h.setRegFld.roleChanged))

theorem Keeps.routeSrc : Keeps a (routeSrc s) := h.setRegFld

theorem Keeps.kcRoutes : Keeps a (kcRoutes s) := .ite h.bump.fabCause.secBlock h.beside.routeSrc.fabCause.mbxDone

theorem Keeps.applyRoutes : Keeps a (applyRoutes s) := h.installTable.beside.routeSrc.newTables.fabCause.mbxDone

theorem Keeps.kcApply : Keeps a (kcApply s) := .ite h.beside h.applyRoutes

theorem Keeps.applyDrained : Keeps a (applyDrained s) := .ite h (.ite h.fabCause.secBlock h.applyRoutes)

theorem Keeps.kcKey : Keeps a (kcKey s) := .ite h.mbxDone (by split; exacts [h.mbxDone, h.beside])

theorem Keeps.keyStored : Keeps a (keyStored s) := by
  unfold Machine.keyStored
  split
  · exact h.beside.mbxDone
  · exact h

theorem Keeps.testResult {code : Nat} : Keeps a (testResult code s) := .setReg (.ite h.bump h)

theorem Keeps.testShut : Keeps a (testShut s) := .ite h.testResult h

theorem Keeps.bistDone {code : Nat} : Keeps a (bistDone code s) := .ite h.testResult.mbxDone h.testResult.secBlock

theorem Keeps.bgOn : Keeps a (bgOn s) := .ite h.bistDone (.ite h.bistDone (.ite h.bistDone h.setReg.setReg.beside.bistDone))

theorem Keeps.bgOff : Keeps a (bgOff s) := .ite h.bistDone h.beside.setReg.setReg.bistDone

theorem Keeps.kcBist : Keeps a (kcBist s) :=
  .ite (.ite h.bistDone (.ite h.beside.bistDone h.bistDone)) <|
  .ite h.bistDone (.ite h.bistDone (.ite h.bistDone (.ite h.bgOn (.ite h.bgOff h.beside.bistDone))))

theorem Keeps.sweepDone : Keeps a (sweepDone s) := by
  unfold Machine.sweepDone
  dsimp only
  exact .ite h (h.forEach (fun _ _ h => .hbmWriteBack h.hbmFetch)).beside

theorem Keeps.kcZeroise : Keeps a (kcZeroise s) := by
  unfold Machine.kcZeroise
  exact .ite h.zeroise.mbxDone h.zeroise.beside

theorem Keeps.shutAgain {pin : Bool} : Keeps a (shutAgain pin s) := .ite (.devEvent (.ite h h.devEvent)) (.ite h h.devEvent)

theorem Keeps.kcShut {pin : Bool} : Keeps a (kcShut pin s) :=
  .mbxDone (.beside (.ite h.shutAgain (.ite h.enterShutdown h.enterShutdown)))

theorem Keeps.kcRun {pin : Bool} : Keeps a (kcRun pin s) :=
  .ite h.mbxDone <|
  .ite h.testShut.mbxDone <| by
    split
    · exact h.kcLoad
    · exact h.kcSlot
    · split
      · exact h.transition
      · exact h.mbxDone
    · exact h.kcUnfreeze
    · exact h.kcRoot
    · exact .ite h.kcApply h.kcRoutes
    · exact h.kcKey
    · exact h.kcBist
    · exact h.kcZeroise
    · exact h.kcShut

theorem Keeps.counterStored {pin : Bool} : Keeps a (counterStored pin s) := .ite h h.useCounter.beside.kcRun

theorem Keeps.mbxChecks : Keeps a (mbxChecks s) :=
  .ite h.mbxDone (.ite h.mbxDone (.ite h.beside.bump.mbxDone (.ite h.beside.mbxDone h.beside.beside)))

theorem Keeps.mbxGo : Keeps a (mbxGo s) := .ite h (.ite h.orReg.beside.orReg h.orReg.mbxChecks)

theorem Keeps.lockoutEnd : Keeps a (lockoutEnd s) := .ite h.beside.andNotReg.mbxChecks h

theorem Keeps.kcGo {k : KClass} : Keeps a (kcGo k s) := .ite h.mbxGo h

theorem Keeps.readHalves {hi v : Nat} : Keeps a (readHalves hi v s) := h.beside.setReg

theorem Keeps.frzPop {v : Word} : Keeps a (frzPop v s) := .ite h.beside h

theorem Keeps.refclkSysLoss : Keeps a (refclkSysLoss s) := .forEach (.ite h.tamper h.beside) (fun _ _ h => h.startRetrain)


/-! ### Scrub -/

theorem Keeps.endHolds : Keeps a (endHolds s) := h.beside

theorem Keeps.changeTile {t : Nat} {m : BitVec 4160} : Keeps a (changeTile t m s) :=
  .endHolds (.ite h.setTile.bumpBy h.setTile.bumpBy.beside.refreshAcks)

theorem Keeps.rewriteFrame {sec : Nat} {f : FramePos} {m : BitVec 4160} : Keeps a (rewriteFrame sec f m s) := by
  unfold Machine.rewriteFrame
  dsimp only
  split
  · exact .ite h.setScr h.changeTile
  · exact h.setScr
  · exact h.setScr.forEach (fun _ _ h => h.setBlock)

theorem Keeps.applyRewrite {t : Nat} : Keeps a (applyRewrite t s) := .ite h h.setScr.changeTile

theorem Keeps.countShadow {sec p : Nat} {v : Nat → Ecc} : Keeps a (countShadow sec p v s) :=
  h.forEach (fun _ _ h => by split; exacts [h, h.bump, h.hbmUe])

theorem Keeps.readShadow {sec p : Nat} : Keeps a (readShadow sec p s).2.2 := by
  unfold Machine.readShadow
  dsimp only
  exact .iteThird h (.iteThird h h.setScr.countShadow.beside)

theorem Keeps.restoreFrame {sec : Nat} {f : FramePos} {left : BitVec 4160} : Keeps a (restoreFrame sec f left s) :=
  h.rewriteFrame

theorem Keeps.scrLoc {sec p : Nat} : Keeps a (scrLoc sec p s) := .ite h h.setReg.setReg

theorem Keeps.frameLost {sec p : Nat} {f : FramePos} : Keeps a (frameLost sec p f s) :=
  .ite h.bump.scrLoc.setScr.markTile h.bump.scrLoc.setScr

theorem Keeps.scrubOne {sec p : Nat} : Keeps a (scrubOne sec p s) := by
  unfold Machine.scrubOne
  dsimp only
  split
  · exact h
  · exact h.restoreFrame.bump
  · exact .ite (.raiseVec (.scrLoc (.bump (.restoreFrame h.bump.readShadow)))) (.frameLost h.bump.readShadow)

theorem Keeps.revokeFrame {sec p : Nat} : Keeps a (revokeFrame sec p s) := by
  unfold Machine.revokeFrame
  dsimp only
  split
  · exact .ite (.ite (.restoreFrame h.revoke.readShadow) h.revoke.readShadow) h
  · exact h

theorem Keeps.scrubFrame {sec : Nat} : Keeps a (scrubFrame sec s) :=
  .ite h (.ite (.ite h.setScr.bump h.setScr) (.scrubOne (.ite h.setScr.bump h.setScr)))

theorem Keeps.scrubPriority {sec : Nat} : Keeps a (scrubPriority sec s) :=
  .ite h (h.setScr.forEach (fun _ _ h => h.revokeFrame.scrubOne)).endHolds

theorem Keeps.scrCfgWrite {sec : Nat} {v : Word} : Keeps a (scrCfgWrite sec v s) := .ite h.bump.setReg h.setScr.setReg

theorem Keeps.peerCheck {sec : Nat} : Keeps a (peerCheck sec s) :=
  .ite h <|
  .ite h.setReg.setScr.bump <|
  .ite h.setReg.setScr <| by
    split
    · exact h.drawFree
    · exact h.setReg.setScr.drawFree
    · exact .drawFree (.ite h.setScr.bump.setReg h.setScr.bump)

theorem Keeps.scrubWatchdog {sec recent : Nat} : Keeps a (scrubWatchdog sec recent s) :=
  .ite h (.ite h.setScr.bump.markRun.setReg h.setScr.bump)

theorem Keeps.leaseStart {sec : Nat} {r : LeaseRes} : Keeps a (leaseStart sec r s) := .ite h.beside h

theorem Keeps.leaseDone {sec : Nat} {pass : Bool} : Keeps a (leaseDone sec pass s) := by
  unfold Machine.leaseDone
  dsimp only
  split
  · exact h
  · exact .ite
        (.setReg <| .beside <| .bump <| by
           split
           · exact .ite (.restoreFrame h.beside.readShadow) h.beside.readShadow
           · exact .ite (.restoreFrame h.beside.readShadow) h.beside.readShadow
           · exact h.beside) <|
      .ite
        (.markRun <| .setReg <| .bump <| .beside <| .bump <| by
           split
           · exact .ite (.restoreFrame h.beside.readShadow) h.beside.readShadow
           · exact .ite (.restoreFrame h.beside.readShadow) h.beside.readShadow
           · exact h.beside) <|
      .beside <| .bump <| by
        split
        · exact .ite (.restoreFrame h.beside.readShadow) h.beside.readShadow
        · exact .ite (.restoreFrame h.beside.readShadow) h.beside.readShadow
        · exact h.beside

theorem Keeps.readback {off : Nat} : Keeps a (readback off s) :=
  .ite h <|
  .ite h.beside (.ite h.beside.bump (.ite (.ite h.beside.drawFree h.revokeFrame.beside) (.ite h.beside h.beside)))

theorem Keeps.xlat {sec : Nat} {v : Word} : Keeps a (xlat sec v s) := h.setReg.setReg

theorem Keeps.rawApply {seg : Fin 16} : Keeps a (rawApply seg s) := .ite h h.setReg.setReg.beside


/-! ### TraceCmds -/

theorem Keeps.ringPoolWrite {v : Word} : Keeps a (ringPoolWrite v s) :=
  .ite h.descTouch.trcResult (.ite h.descTouch.trcResult h.descTouch.setReg)

theorem Keeps.probeWrite {sec k : Nat} {v : Word} : Keeps a (probeWrite sec k v s) :=
  .ite h.trcResult (.ite h.trcResult h.setReg)

theorem Keeps.traceStart : Keeps a (traceStart s) :=
  .ite h.descTouch.trcResult (.ite h.descTouch.trcResult h.descTouch.beside.trcResult)

theorem Keeps.traceStop : Keeps a (traceStop s) := .ite h.trcResult h.beside.trcResult

theorem Keeps.traceStopDone : Keeps a (traceStopDone s) := .ite h.exportFlits.beside h

theorem Keeps.resetRing : Keeps a (resetRing s) := .ite h.trcResult h.beside.setReg.setReg.trcResult

theorem Keeps.traceReserved {cmd : Nat} : Keeps a (traceReserved cmd s) := .ite h h.trcResult

theorem Keeps.snapNow : Keeps a (snapNow s) :=
  .ite h.descTouch.trcResult (.ite h.descTouch.trcResult (.ite h.descTouch.trcResult h.descTouch.beside.trcResult))

theorem Keeps.snapArm : Keeps a (snapArm s) :=
  .ite h.descTouch.trcResult (.ite h.descTouch.trcResult (.ite h.descTouch.trcResult h.descTouch.beside.trcResult))

theorem Keeps.snapDone : Keeps a (snapDone s) := by
  unfold Machine.snapDone
  dsimp only
  split
  · exact h
  · exact (h.forEach (fun _ _ h => h.otherWrite)).beside.trcResult.bump.trcEvent

theorem Keeps.exportOn : Keeps a (exportOn s) :=
  .ite h.trcResult (.ite h.trcResult h.setChan.lnkEnable.setChan.beside.trcResult)

theorem Keeps.exportOff : Keeps a (exportOff s) := .ite h.trcResult h.handOver.stopChan.lnkCause.setChan.beside.trcResult

theorem Keeps.recordWrite {sec : Nat} {ex : Bool} : Keeps a (recordWrite sec ex s) := .ite h.traceRecord h


/-! ### RegWrite -/

theorem Keeps.latchHi {o : Nat} : Keeps a (latchHi o s) :=
  .ite h.setReg <|
  .ite h.setReg (.ite h.setReg (.ite h.setReg (.ite h.setReg (.ite h.setReg (.ite h.setReg (.ite h.setReg h))))))

theorem Keeps.transactorSets {o : Nat} : Keeps a (transactorSets o s) := by
  unfold Machine.transactorSets
  split
  · exact .ite h (.ite h.drawFree.orReg h.drawFree.orReg.raiseVec)
  · exact h

theorem Keeps.mgmtRead {o : Nat} : Keeps a (mgmtRead o s) := by
  unfold Machine.mgmtRead
  split
  · exact h.ueLocRead
  · exact .ite (.setReg (.latchHi (.beside (.ite h.transactorSets.drawFree h.transactorSets)))) <|
      .latchHi (.beside (.ite h.transactorSets.drawFree h.transactorSets))

theorem Keeps.hostRead {o : Nat} : Keeps a (hostRead o s) :=
  .ite h (.ite h.readback (by split; exacts [h.hostAccess, .ite h.beside h.mgmtRead]))

theorem Keeps.plainWrite {o : Nat} {v : Word} : Keeps a (plainWrite o v s) := by
  unfold Machine.plainWrite
  split
  · exact h
  · dsimp only
    split
    · exact h.setReg
    · exact h.andNotReg
    · exact h.orReg
    · exact h
    · exact h
    · exact h
    · exact h

theorem Keeps.enableWrite {ev en vec : Nat} {v : Word} : Keeps a (enableWrite ev en vec v s) :=
  .ite h.plainWrite h.plainWrite.raiseVec

theorem Keeps.msixCtlWrite {n : Nat} {v : Word} : Keeps a (msixCtlWrite n v s) := .ite h.plainWrite.beside h.plainWrite

theorem Keeps.writeDev {o : Nat} {v : Word} : Keeps a (writeDev o v s) := .ite h.enableWrite (.ite h.dtmrWrite h.plainWrite)

theorem Keeps.writeMbx {o : Nat} {v : Word} : Keeps a (writeMbx o v s) := .ite h (.ite (.ite h.mbxGo h) h.plainWrite)

theorem Keeps.writeLc {o : Nat} {v : Word} : Keeps a (writeLc o v s) := .ite h.beside h

theorem Keeps.tickCtl {v : Word} : Keeps a (tickCtl v s) := by
  unfold Machine.tickCtl
  split
  · exact h
  · exact h.tickRun
  · exact h.tickPaced
  · exact h.tickStop
  · exact h.tickStep
  · exact h.tickClear
  · exact h.cmdStat

theorem Keeps.writeTick {o : Nat} {v : Word} : Keeps a (writeTick o v s) :=
  .ite h.tickCtl <|
  .ite h.setReg.wrStat <|
  .ite h.tickStopHi <|
  .ite h.tickCfgWrite <|
  .ite h.timeoutWrite <|
  .ite h.tickPeriodWrite <|
  .ite (.ite h.plainWrite.wrStat h.plainWrite.wrStat.beside) <|
  .ite h.cadLenWrite <|
  .ite h.cadPosWrite <|
  .ite h.avsCfgWrite <|
  .ite h.avsCapWrite (.ite h.avsTargetWrite (.ite h.cadMaskWrite (.ite h.gsrPulse h.plainWrite)))

theorem Keeps.writeRa {o : Nat} {v : Word} : Keeps a (writeRa o v s) :=
  .ite h.raCfgWrite (.ite h.raPredWrite (.ite h.raRange h.plainWrite))

theorem Keeps.writeLnk {c o : Nat} {v : Word} : Keeps a (writeLnk c o v s) :=
  .ite (by split; exacts [h, h.lnkEnable, h.lnkDisable, h.lnkReset, h.lnkRetrain, h.lnkReserved]) <|
  .ite h.lnkCfgWrite h.plainWrite

theorem Keeps.writeFab {o : Nat} {v : Word} : Keeps a (writeFab o v s) :=
  .ite (by split; exacts [h, h.discoverCmd, h.bump.fabCause]) (.ite h.bump.fabCause h.plainWrite)

theorem Keeps.qctl {q : Nat} {v : Word} : Keeps a (qctl q v s) :=
  .ite (.qctlRdReset (.ite (.qctlWrReset (.ite h.flushAsk h)) (.ite h.flushAsk h))) <|
  .ite (.qctlWrReset (.ite h.flushAsk h)) (.ite h.flushAsk h)

theorem Keeps.writeQ {q r : Nat} {v : Word} : Keeps a (writeQ q r v s) :=
  .ite h.qcfgWrite (.ite h.qctl (.ite h.qtimerWrite (.ite h.enableWrite h.plainWrite)))

theorem Keeps.writePool {o : Nat} {v : Word} : Keeps a (writePool o v s) :=
  .ite (by split; exacts [h, h.descRead, h.descWrite, h.descClear]) (.ite (.ite h.portReset h) h.plainWrite)

theorem Keeps.writeTest {o : Nat} {v : Word} : Keeps a (writeTest o v s) :=
  .ite (.ite h.scrCfgWrite (.ite h.xlat h)) (.ite h.testResult (.ite (.ite h.rawApply h) (.ite h h.plainWrite)))

theorem Keeps.trcCtl {v : Word} : Keeps a (trcCtl v s) := by
  unfold Machine.trcCtl
  split
  · exact h.traceStart
  · exact h.traceStop
  · exact h.snapNow
  · exact h.snapArm
  · exact h.exportOn
  · exact h.exportOff
  · exact h.resetRing
  · exact h.traceReserved

theorem Keeps.writeTrc {o : Nat} {v : Word} : Keeps a (writeTrc o v s) :=
  .ite h.trcCtl (.ite h.trcResult (.ite h.ringPoolWrite (.ite h.enableWrite (.ite h.probeWrite h.plainWrite))))

theorem Keeps.writeHost {o : Nat} {v : Word} : Keeps a (writeHost o v s) :=
  .ite (.ite h.ctxCfgWrite (.ite h.enableWrite h.plainWrite)) <|
  .ite (.ite h.dmaRingWrite (.ite h.dmaTailWrite h)) (.ite h.msixCtlWrite h.plainWrite)

theorem Keeps.writeEddy {e r : Nat} {v : Word} : Keeps a (writeEddy e r v s) :=
  .ite (by split; exacts [h.eddyStart, h.eddyCmd, h.eddyReset, h.eddyCmd]) <|
  .ite h.eddyPinWrite (.ite h.eddyPinWrite (.ite h.ringDoorbell h.plainWrite))

theorem Keeps.writeReg {o : Nat} {v : Word} : Keeps a (writeReg o v s) :=
  .ite h.writeDev <|
  .ite h.writeMbx <|
  .ite (.ite h.claimQWrite h) <|
  .ite h.writeLc <|
  .ite (.ite h.frzPop h) <|
  .ite h.writeTick <|
  .ite h.writeRa <|
  .ite h.writeLnk <|
  .ite h <|
  .ite h.writeFab <|
  .ite h.writeQ (.ite h.writePool (.ite h.writeTest (.ite h.writeTrc (.ite h.writeHost (.ite h.writeEddy h)))))

theorem Keeps.pathWrite {sec o : Nat} {v : Word} {split : Bool} : Keeps a (pathWrite sec o v split s) :=
  h.viaPath (fun _ h => .ite h.setPath h.writeReg)

theorem Keeps.shutWrite {o : Nat} {v : Word} : Keeps a (shutWrite o v s) := .ite h.gsrPulse (.ite h.eddyShut h)

theorem Keeps.hostWrite {o : Nat} {v : Word} {split : Bool} : Keeps a (hostWrite o v split s) :=
  .ite h <| by
    split
    · split
      · exact h.hostAccess
      · exact h
    · exact .ite h.shutWrite (by split; exacts [h.pathWrite, h.writeReg])

theorem Keeps.reqArrive {x : FlagXing} : Keeps a (reqArrive x s) := by
  unfold Machine.reqArrive
  split
  · exact .ite h.setQ h.hostPushArrive
  · exact h.setQ
  · exact .ite h.setPort h
  · dsimp only
    split
    · exact .ite h (h.setPath.mgmt (fun _ h => h.writeReg))
    · exact h

theorem Keeps.ackArrive {x : FlagXing} : Keeps a (ackArrive x s) := by
  unfold Machine.ackArrive
  split
  · exact h.setQ
  · exact h.setQ
  · exact h.setPort
  · exact .ite h.setPath h


/-! ### Pins -/

theorem Keeps.thermalRead {temps : BitVec 72} : Keeps a (thermalRead temps s) := (h.forEach (fun _ _ h => h.setReg)).setReg

theorem Keeps.hbmSupplyFault : Keeps a (hbmSupplyFault s) := h.markAll

theorem Keeps.smbSetOffset {v : Word} : Keeps a (smbSetOffset v s) := h.beside

theorem Keeps.smbBlockRead : Keeps a (smbBlockRead s) := .beside (.ite h.drawFree h)

theorem Keeps.smbOther : Keeps a (smbOther s) := h.beside

theorem Keeps.tapScan {i : JtagInst} {lvl load : BitVec 2246} : Keeps a (tapScan i lvl load s) := h.beside

theorem Keeps.tapSelect {i : JtagInst} : Keeps a (tapSelect i s) := h.beside

theorem Keeps.tapHold {i : JtagInst} {lvl load : BitVec 2246} : Keeps a (tapHold i lvl load s) := .ite h.tapSelect h.tapScan

theorem Keeps.tapPrivate {op : BitVec 8} : Keeps a (tapPrivate op s) := h.tapSelect


/-! ### Dispatch -/

/-- Every command leads to a next state, which is kept. -/
theorem Keeps.exec {i : Instr} : Gives i s (Keeps a) := by
  cases i with
  | porstNRelease => exact ⟨_, rfl, h.porstRelease⟩
  | porstNAssert => exact ⟨_, rfl, h.porstAssert⟩
  | pwrOffReqNAssert => exact ⟨_, rfl, h.pwrOff⟩
  | pwrOffReqNRelease => exact ⟨_, rfl, h.beside⟩
  | shutdownSegmentDone => exact ⟨_, rfl, h.segmentDone⟩
  | shutdownTestDone => exact ⟨_, rfl, h.shutdownDone⟩
  | tickIssue => exact ⟨_, rfl, h.tickIssue⟩
  | lcEvaluate => exact ⟨_, rfl, h.lcEvaluate⟩
  | tileSettled => exact ⟨_, rfl, h.tileSettled⟩
  | tileSpacerComplete => exact ⟨_, rfl, h.tileSpacerComplete⟩
  | spacerRelease => exact ⟨_, rfl, h.spacerRelease⟩
  | tickComplete => exact ⟨_, rfl, h.tickComplete⟩
  | frStageCapture => exact ⟨_, rfl, h.frCapture⟩
  | frStageRelease => exact ⟨_, rfl, h.frRelease⟩
  | gsrPulse => exact ⟨_, rfl, h.awake fun _ h => h.gsrPulse⟩
  | gsrPulseDone => exact ⟨_, rfl, h.pulseDone⟩
  | singleEventUpset => exact ⟨_, rfl, h.upset⟩
  | vsenseUpdate => exact ⟨_, rfl, h.vsenseUpdate⟩
  | replicaUpdate => exact ⟨_, rfl, h.setReg⟩
  | oneHotConflict => exact ⟨_, rfl, h.oneHotConflict⟩
  | bmAsyncRead => exact ⟨_, rfl, h.bmAsyncRead⟩
  | bmFrAccess => exact ⟨_, rfl, h.bmFrAccess⟩
  | bmEccWriteback => exact ⟨_, rfl, h.bmWriteBack⟩
  | bmPatrolRead => exact ⟨_, rfl, h.bmPatrolRead⟩
  | tickCmdRun => exact ⟨_, rfl, h.mgmt fun _ h => h.tickRun⟩
  | tickCmdPaced => exact ⟨_, rfl, h.mgmt fun _ h => h.tickPaced⟩
  | tickCmdStop => exact ⟨_, rfl, h.mgmt fun _ h => h.tickStop⟩
  | tickCmdStep => exact ⟨_, rfl, h.mgmt fun _ h => h.tickStep⟩
  | tickCmdClear => exact ⟨_, rfl, h.mgmt fun _ h => h.tickClear⟩
  | tickCmdReserved => exact ⟨_, rfl, h.mgmt fun _ h => h.cmdStat⟩
  | tickStopHiWrite => exact ⟨_, rfl, h.mgmt fun _ h => h.tickStopHi⟩
  | tickNowLoRead => exact ⟨_, rfl, h.mgmtRd fun _ h => h.beside.setReg⟩
  | tickCfgWrite => exact ⟨_, rfl, h.mgmt fun _ h => h.tickCfgWrite⟩
  | tickTimeoutWrite => exact ⟨_, rfl, h.mgmt fun _ h => h.timeoutWrite⟩
  | tickPacePeriodWrite => exact ⟨_, rfl, h.mgmt fun _ h => h.tickPeriodWrite⟩
  | cadLenWrite => exact ⟨_, rfl, h.mgmt fun _ h => h.cadLenWrite⟩
  | cadPosWrite => exact ⟨_, rfl, h.mgmt fun _ h => h.cadPosWrite⟩
  | cadMaskWrite => exact ⟨_, rfl, h.mgmt fun _ h => h.cadMaskWrite⟩
  | paceTimerEvent => exact ⟨_, rfl, h.paceFrom⟩
  | tickInEdge => exact ⟨_, rfl, h.paceFrom⟩
  | settleTimeout => exact ⟨_, rfl, h.settleTimeout⟩
  | timeoutLocated => exact ⟨_, rfl, h.timeoutLocated⟩
  | tickInterval1ms => exact ⟨_, rfl, h.interval1ms⟩
  | avsCapInterval => exact ⟨_, rfl, h.avsCapInterval⟩
  | avsCfgWrite => exact ⟨_, rfl, h.mgmt fun _ h => h.avsCfgWrite⟩
  | avsTargetWrite => exact ⟨_, rfl, h.mgmt fun _ h => h.avsTargetWrite⟩
  | avsCapWrite => exact ⟨_, rfl, h.mgmt fun _ h => h.avsCapWrite⟩
  | avsFrameDone => exact ⟨_, rfl, h.avsFrameDone⟩
  | raCfgWrite => exact ⟨_, rfl, h.mgmt fun _ h => h.raCfgWrite⟩
  | raPredWrite => exact ⟨_, rfl, h.mgmt fun _ h => h.raPredWrite⟩
  | raLwmLoRead => exact ⟨_, rfl, h.mgmtRd fun _ h => h.beside.setReg⟩
  | raULoRead => exact ⟨_, rfl, h.mgmtRd fun _ h => h.beside.setReg⟩
  | predictionWaitExpire => exact ⟨_, rfl, h.waitExpire⟩
  | boundaryFrameRx => exact ⟨_, rfl, h.takeMsg.frameRx⟩
  | rollbackRestore => exact ⟨_, rfl, h.rollbackRestore⟩
  | boundaryFrameSend => exact ⟨_, rfl, h.frameSend⟩
  | recallSend => exact ⟨_, rfl, h.recallSend⟩
  | recallRx => exact ⟨_, rfl, h.takeMsg.recallRx⟩
  | waveRootStart => exact ⟨_, rfl, h.waveRootStart⟩
  | waveStartRx => exact ⟨_, rfl, h.takeMsg.waveStartRx⟩
  | markRx => exact ⟨_, rfl, h.takeMsg.markRx⟩
  | waveReportRx => exact ⟨_, rfl, h.takeMsg.waveReportRx⟩
  | waveReportSend => exact ⟨_, rfl, h.waveReportSend⟩
  | waveResultRx => exact ⟨_, rfl, h.takeMsg.waveResultRx⟩
  | sluiceRelease => exact ⟨_, rfl, h.sluiceRelease⟩
  | lnkCmdEnable => exact ⟨_, rfl, h.mgmt fun _ h => h.lnkEnable⟩
  | lnkCmdDisable => exact ⟨_, rfl, h.mgmt fun _ h => h.lnkDisable⟩
  | lnkCmdReset => exact ⟨_, rfl, h.mgmt fun _ h => h.lnkReset⟩
  | lnkCmdRetrain => exact ⟨_, rfl, h.mgmt fun _ h => h.lnkRetrain⟩
  | lnkCmdReserved => exact ⟨_, rfl, h.mgmt fun _ h => h.lnkReserved⟩
  | lnkCfgWrite => exact ⟨_, rfl, h.mgmt fun _ h => h.lnkCfgWrite⟩
  | linkSignalDetect => exact ⟨_, rfl, h.signalDetect⟩
  | trainRx => exact ⟨_, rfl, h.trainRx⟩
  | trainingDone => exact ⟨_, rfl, h.trainingDone⟩
  | trainingFail => exact ⟨_, rfl, h.trainFail⟩
  | flitRx => exact ⟨_, rfl, h.flitRx⟩
  | flitTransmit => exact ⟨_, rfl, h.flitTransmit⟩
  | nakRx => exact ⟨_, rfl, .ite h.takeAck.startReplay h⟩
  | creditRx => exact ⟨_, rfl, .ite h.takeAck.creditRx h⟩
  | idleRx => exact ⟨_, rfl, .ite h.takeAck h⟩
  | retrainReqRx => exact ⟨_, rfl, .ite h.takeAck.startRetrain h⟩
  | replayTimeout =>
    refine ⟨_, rfl, .ite ?_ h⟩
    split
    exacts [h.startReplay, h]
  | creditReturnTimer => exact ⟨_, rfl, .ite h.setChan h⟩
  | linkStallTimeout => exact ⟨_, rfl, h.stallTimeout⟩
  | fordCutThrough => exact ⟨_, rfl, h.fordCutThrough⟩
  | laneLoss => exact ⟨_, rfl, h.laneLoss⟩
  | strobeLoss => exact ⟨_, rfl, h.startRetrain⟩
  | linkSignalLoss => exact ⟨_, rfl, h.startRetrain⟩
  | refclkSerLoss => exact ⟨_, rfl, h.forEach fun _ _ h => h.startRetrain⟩
  | linkResetDone => exact ⟨_, rfl, h.resetDone⟩
  | helloRx => exact ⟨_, rfl, h.takeMsg.helloRx⟩
  | electionQuietExpire => exact ⟨_, rfl, h.beside.tryEnum⟩
  | fabCmdDiscover => exact ⟨_, rfl, h.mgmt fun _ h => h.discoverCmd⟩
  | fabCmdReserved => exact ⟨_, rfl, h.mgmt fun _ h => h.bump.fabCause⟩
  | queryAssignRx => exact ⟨_, rfl, h.takeMsg.queryAssignRx⟩
  | queryCommitRx => exact ⟨_, rfl, h.takeMsg.queryCommitRx⟩
  | replyRx => exact ⟨_, rfl, h.takeMsg.replyRx⟩
  | routesRx => exact ⟨_, rfl, h.takeMsg.routesRx⟩
  | queryTimeout => exact ⟨_, rfl, h.queryTimeout⟩
  | pendingIdTimeout => exact ⟨_, rfl, h.dropPend⟩
  | noticeRx => exact ⟨_, rfl, h.takeMsg.noticeRx⟩
  | fenceSend => exact ⟨_, rfl, h.fenceSend⟩
  | linkDownRx => exact ⟨_, rfl, h.takeMsg.linkDownRx⟩
  | fenceRx => exact ⟨_, rfl, h.takeMsg.fenceRx⟩
  | fenceDoneRx => exact ⟨_, rfl, h.takeMsg.fenceDoneRx⟩
  | fenceTimeout => exact ⟨_, rfl, h.fenceTimeout⟩
  | queuePush => exact ⟨_, rfl, h.queuePush⟩
  | queuePop => exact ⟨_, rfl, h.queuePop⟩
  | pointerSync => exact ⟨_, rfl, h.pointerSync⟩
  | spillSeal => exact ⟨_, rfl, h.spillSeal⟩
  | qctlFlush => exact ⟨_, rfl, h.mgmt fun _ h => h.viaPath fun _ h => h.flushAsk⟩
  | flushAct => exact ⟨_, rfl, h.flushAct⟩
  | qctlWrReset => exact ⟨_, rfl, h.mgmt fun _ h => h.viaPath fun _ h => h.qctlWrReset⟩
  | qctlRdReset => exact ⟨_, rfl, h.mgmt fun _ h => h.viaPath fun _ h => h.qctlRdReset⟩
  | sideResetRelease x =>
    cases x with
    | queue => exact ⟨_, rfl, h.qRelease⟩
    | port => exact ⟨_, rfl, h.portRelease⟩
  | peerResetSync x =>
    cases x with
    | queue => exact ⟨_, rfl, h.peerReset⟩
    | port => exact ⟨_, rfl, h.portPeerReset⟩
  | epochConnectRx x =>
    cases x with
    | queue => exact ⟨_, rfl, h.qMsg⟩
    | port => exact ⟨_, rfl, h.portMsg⟩
  | epochAckRx x =>
    cases x with
    | queue => exact ⟨_, rfl, h.qMsg⟩
    | port => exact ⟨_, rfl, h.portMsg⟩
  | qhPushWrite => exact ⟨_, rfl, h.hostAccess⟩
  | qhPopRead => exact ⟨_, rfl, h.hostAccess⟩
  | qcfgWrite => exact ⟨_, rfl, h.mgmt fun _ h => h.viaPath fun _ h => h.qcfgWrite⟩
  | staleTimeout => exact ⟨_, rfl, h.staleTimeout⟩
  | xingReqArrive => exact ⟨_, rfl, h.reqArrive⟩
  | xingAckArrive => exact ⟨_, rfl, h.ackArrive⟩
  | arbiterEntry => exact ⟨_, rfl, h.arbiterEntry⟩
  | poolDescRead => exact ⟨_, rfl, h.mgmt fun _ h => h.descRead⟩
  | poolDescWrite => exact ⟨_, rfl, h.mgmt fun _ h => h.descWrite⟩
  | poolDescClear => exact ⟨_, rfl, h.mgmt fun _ h => h.descClear⟩
  | poolDescDone => exact ⟨_, rfl, h.descDone⟩
  | poolPortRequest => exact ⟨_, rfl, h.poolPortRequest⟩
  | poolPortAnswer => exact ⟨_, rfl, h.poolPortAnswer⟩
  | drainDone => exact ⟨_, rfl, h.drainDone⟩
  | hbmEccWriteback => exact ⟨_, rfl, h.hbmWriteBack⟩
  | hbmPatrolRead => exact ⟨_, rfl, h.patrolRead⟩
  | hbmRfm => exact ⟨_, rfl, h.bump⟩
  | hbmUeLocRead => exact ⟨_, rfl, h.mgmtRd fun _ h => h.ueLocRead⟩
  | poolPortReset => exact ⟨_, rfl, h.mgmt fun _ h => h.viaPath fun _ h => h.portReset⟩
  | poolPortResetDone => exact ⟨_, rfl, h.portResetDone⟩
  | poolRdRx => exact ⟨_, rfl, h.remoteRx⟩
  | poolWrRx => exact ⟨_, rfl, h.remoteRx⟩
  | poolAnsRx => exact ⟨_, rfl, h.poolAnsRx⟩
  | eddyCmdStart => exact ⟨_, rfl, h.eddyCtl fun _ h => h.eddyStart⟩
  | eddyCmdHalt => exact ⟨_, rfl, h.eddyCtl fun _ h => h.eddyCmd⟩
  | eddyCmdReset => exact ⟨_, rfl, h.eddyCtl fun _ h => h.eddyReset⟩
  | eddyCmdReserved => exact ⟨_, rfl, h.eddyCtl fun _ h => h.eddyCmd⟩
  | eddyDoorbellWrite => exact ⟨_, rfl, h.mgmt fun _ h => h.viaPath fun _ h => h.ringDoorbell⟩
  | eddyPinWrite => exact ⟨_, rfl, h.mgmt fun _ h => h.viaPath fun _ h => h.eddyPinWrite⟩
  | dmaGo => exact ⟨_, rfl, h.dmaGoCmd⟩
  | dmaTransferDone => exact ⟨_, rfl, h.dmaTransferDone⟩
  | dmaDoneRead => exact ⟨_, rfl, h.runLocal⟩
  | irqEntry => exact ⟨_, rfl, h.irqEntry⟩
  | eddyTimerMatch => exact ⟨_, rfl, h.timerMatch⟩
  | eddyTimerLoRead => exact ⟨_, rfl, h.timerLoRead⟩
  | secureWipeDone => exact ⟨_, rfl, h.secureWipeDone⟩
  | leaseStart => exact ⟨_, rfl, h.leaseStart⟩
  | leaseDone => exact ⟨_, rfl, h.leaseDone⟩
  | apertureAccess => exact ⟨_, rfl, h.hostAccess⟩
  | apertureStarved => exact ⟨_, rfl, h.apertureStarved⟩
  | eAdd => exact ⟨_, rfl, h.regOp⟩
  | eSub => exact ⟨_, rfl, h.regOp⟩
  | eAnd => exact ⟨_, rfl, h.regOp⟩
  | eOr => exact ⟨_, rfl, h.regOp⟩
  | eXor => exact ⟨_, rfl, h.regOp⟩
  | eSll => exact ⟨_, rfl, h.regOp⟩
  | eSrl => exact ⟨_, rfl, h.regOp⟩
  | eSra => exact ⟨_, rfl, h.regOp⟩
  | eMul => exact ⟨_, rfl, h.regOp⟩
  | eMulhu => exact ⟨_, rfl, h.regOp⟩
  | eSlt => exact ⟨_, rfl, h.regOp⟩
  | eSltu => exact ⟨_, rfl, h.regOp⟩
  | eAddc => exact ⟨_, rfl, h.regOp⟩
  | eSubb => exact ⟨_, rfl, h.regOp⟩
  | ePopc => exact ⟨_, rfl, h.regOp⟩
  | eClz => exact ⟨_, rfl, h.regOp⟩
  | eAddi => exact ⟨_, rfl, h.immOp⟩
  | eAndi => exact ⟨_, rfl, h.immOp⟩
  | eOri => exact ⟨_, rfl, h.immOp⟩
  | eXori => exact ⟨_, rfl, h.immOp⟩
  | eSlli => exact ⟨_, rfl, h.immOp⟩
  | eSrli => exact ⟨_, rfl, h.immOp⟩
  | eSrai => exact ⟨_, rfl, h.immOp⟩
  | eInsh => exact ⟨_, rfl, h.issue fun _ _ h => .some h.aluDone⟩
  | eSlti => exact ⟨_, rfl, h.immOp⟩
  | eSltiu => exact ⟨_, rfl, h.immOp⟩
  | eCmpi => exact ⟨_, rfl, h.issue fun _ _ h => .some h.aluDone⟩
  | eBc => exact ⟨_, rfl, h.issue fun _ _ h => .some (.ite h.eddyExc h.branch)⟩
  | eBz => exact ⟨_, rfl, h.issue fun _ _ h => .some h.branch⟩
  | eBnz => exact ⟨_, rfl, h.issue fun _ _ h => .some h.branch⟩
  | eCall => exact ⟨_, rfl, h.issue fun _ _ h => .some h.modEddy⟩
  | eJr => exact ⟨_, rfl, h.issue fun _ _ h => .some h.modEddy⟩
  | eLdb => exact ⟨_, rfl, h.loadOp⟩
  | eLdh => exact ⟨_, rfl, h.loadOp⟩
  | eLdw => exact ⟨_, rfl, h.loadOp⟩
  | eLdd => exact ⟨_, rfl, h.loadOp⟩
  | eStb => exact ⟨_, rfl, h.storeOp⟩
  | eSth => exact ⟨_, rfl, h.storeOp⟩
  | eStw => exact ⟨_, rfl, h.storeOp⟩
  | eStd => exact ⟨_, rfl, h.storeOp⟩
  | eQpush => exact ⟨_, rfl, h.issue fun _ _ h => .some (.ite h.eddyPush.loaded h.siteViolation)⟩
  | eQpop => exact ⟨_, rfl, h.issue fun _ _ h => .some (.ite h.popped h.siteViolation)⟩
  | eQpopw => exact ⟨_, rfl, h.issue (fun _ _ h => .ite (.some h.siteViolation) (.ite .none (.some h.popped)))⟩
  | eQflush => exact ⟨_, rfl, h.issue fun _ _ h => .some (.ite h.qFlushOp h.siteViolation)⟩
  | eQstat => exact ⟨_, rfl, h.issue fun _ _ h => .some (.ite h.loaded h.siteViolation)⟩
  | ePld => exact ⟨_, rfl, h.issue fun _ _ h => h.poolOp⟩
  | ePldAnswer => exact ⟨_, rfl, h.pldAnswer⟩
  | ePst => exact ⟨_, rfl, h.issue fun _ _ h => h.poolOp⟩
  | ePatomSwap => exact ⟨_, rfl, h.atomOp⟩
  | ePatomAdd => exact ⟨_, rfl, h.atomOp⟩
  | ePatomAnd => exact ⟨_, rfl, h.atomOp⟩
  | ePatomOr => exact ⟨_, rfl, h.atomOp⟩
  | ePatomXor => exact ⟨_, rfl, h.atomOp⟩
  | ePatomCas => exact ⟨_, rfl, h.atomOp⟩
  | ePatomAnswer => exact ⟨_, rfl, h.patomAnswer⟩
  | eCmt => exact ⟨_, rfl, h.issue fun _ _ h => .ite h.cmtOp (.some h.eddyExc)⟩
  | eFence => exact ⟨_, rfl, h.issue fun _ _ h => .ite .none (.some h.modEddy)⟩
  | eMtake =>
    refine ⟨_, rfl, h.issue fun _ _ h => .ite (.some h.eddyExc) ?_⟩
    split
    exacts [.ite .none (.some h.modEddy), .some h.takeRecord]
  | eMans => exact ⟨_, rfl, h.issue fun _ _ h => .some h.modelAnswer.modEddy⟩
  | eEret => exact ⟨_, rfl, h.sysOp fun _ _ h => .some (.ite h.eddyExc h.modEddy)⟩
  | eMfc => exact ⟨_, rfl, h.sysOp fun _ _ h => .some h.loaded⟩
  | eMtc => exact ⟨_, rfl, h.sysOp fun _ _ h => .some h.modEddy.pinVbase⟩
  | eTrap => exact ⟨_, rfl, h.sysOp fun _ _ h => .some h.modEddy⟩
  | eBreak => exact ⟨_, rfl, h.sysOp fun _ _ h => .some h.modEddy⟩
  | eWfi => exact ⟨_, rfl, h.sysOp fun _ _ h => .some h.modEddy⟩
  | eHalt => exact ⟨_, rfl, h.sysOp fun _ _ h => .some h.modEddy⟩
  | eIllegalInstruction =>
    refine ⟨_, rfl, .ite h ?_⟩
    split
    next hw => exact h.fetch.snd hw
    next hw => exact .ite h (h.fetch.snd hw).eddyExc
  | bar2Read => exact ⟨_, rfl, h.bar2Access⟩
  | bar2Write => exact ⟨_, rfl, h.bar2Access⟩
  | ctxCfgWrite => exact ⟨_, rfl, h.mgmt fun _ h => h.ctxCfgWrite⟩
  | ctxDoorbellWrite => exact ⟨_, rfl, h.hostAccess⟩
  | dmaTailWrite => exact ⟨_, rfl, h.mgmt fun _ h => h.dmaTailWrite⟩
  | dmaRingWrite => exact ⟨_, rfl, h.mgmt fun _ h => h.dmaRingWrite⟩
  | dmaDescriptorStart => exact ⟨_, rfl, h.dmaDescStart⟩
  | dmaDescriptorDone => exact ⟨_, rfl, h.dmaDescDone⟩
  | hostPortReset => exact ⟨_, rfl, h.hostPortReset⟩
  | pciePerstNRelease => exact ⟨_, rfl, h.beside⟩
  | frozenReadTimeout => exact ⟨_, rfl, h.frozenReadTimeout⟩
  | kcLoadImage => exact ⟨_, rfl, h.kcGo⟩
  | fuseReadDone => exact ⟨_, rfl, h.fuseRead⟩
  | healthRecordRead => exact ⟨_, rfl, h.healthRead⟩
  | abbreviatedSegmentDone => exact ⟨_, rfl, h.abbrevDone⟩
  | loadHeaderRead => exact ⟨_, rfl, h.headerRead⟩
  | loadPassAEnd => exact ⟨_, rfl, h.passAEnd⟩
  | loadIdleFillEnd => exact ⟨_, rfl, h.idleFillEnd⟩
  | loadPassBEnd => exact ⟨_, rfl, h.passBEnd⟩
  | loadChecksEnd => exact ⟨_, rfl, h.checksEnd⟩
  | lockWaitEnd => exact ⟨_, rfl, h.lockWaitEnd⟩
  | lockWaitTimeout => exact ⟨_, rfl, h.lockWaitTimeout⟩
  | setResetReleaseDone => exact ⟨_, rfl, h.setResetDone⟩
  | writeEnableDone => exact ⟨_, rfl, h.writeEnableDone⟩
  | outputReleaseDone => exact ⟨_, rfl, h.outputReleaseDone⟩
  | deviceTimerExpire => exact ⟨_, rfl, h.dtmrExpire⟩
  | dtmrCfgWrite => exact ⟨_, rfl, h.awake fun _ h => h.dtmrWrite⟩
  | ldrClaimQWrite => exact ⟨_, rfl, h.mgmt fun _ h => h.claimQWrite⟩
  | kcWriteSlotData => exact ⟨_, rfl, h.kcGo⟩
  | kcWriteSlotErase => exact ⟨_, rfl, h.kcGo⟩
  | kcWriteSlotBoot => exact ⟨_, rfl, h.kcGo⟩
  | slotWriteDone => exact ⟨_, rfl, h.slotWriteDone⟩
  | kcSetLifecycle => exact ⟨_, rfl, h.kcGo⟩
  | lifecycleTransitionDone => exact ⟨_, rfl, h.transitionDone⟩
  | kcUnfreeze => exact ⟨_, rfl, h.kcGo⟩
  | kcSetRoot => exact ⟨_, rfl, h.kcGo⟩
  | kcWriteRoutesEntries => exact ⟨_, rfl, h.kcGo⟩
  | kcWriteRoutesApply => exact ⟨_, rfl, h.kcGo⟩
  | routesApplyDrained => exact ⟨_, rfl, h.applyDrained⟩
  | kcKeyLoad => exact ⟨_, rfl, h.kcGo⟩
  | kcBgTestOn => exact ⟨_, rfl, h.kcGo⟩
  | kcBgTestOff => exact ⟨_, rfl, h.kcGo⟩
  | kcHbmSweep => exact ⟨_, rfl, h.kcGo⟩
  | hbmSweepDone => exact ⟨_, rfl, h.sweepDone⟩
  | kcRawModeEnter => exact ⟨_, rfl, h.kcGo⟩
  | kcZeroise => exact ⟨_, rfl, h.kcGo⟩
  | kcShutdown => exact ⟨_, rfl, h.kcGo⟩
  | kcUnassigned => exact ⟨_, rfl, h.kcGo⟩
  | mbxLockoutEnd => exact ⟨_, rfl, h.lockoutEnd⟩
  | mbxCounterStored => exact ⟨_, rfl, h.counterStored⟩
  | mbxCtrLoRead => exact ⟨_, rfl, .ite h h.readHalves⟩
  | lcFloorLoRead => exact ⟨_, rfl, .ite h (.ite h.readHalves h.readHalves)⟩
  | tamperNAssert => exact ⟨_, rfl, h.tamper⟩
  | vbatLoss => exact ⟨_, rfl, h.vbatLoss⟩
  | tamperTemperature => exact ⟨_, rfl, h.tamper⟩
  | vccHubExcursion => exact ⟨_, rfl, h.hubExcursion⟩
  | refclkSysLoss => exact ⟨_, rfl, h.refclkSysLoss⟩
  | frzPopWrite => exact ⟨_, rfl, h.mgmt fun _ h => h.frzPop⟩
  | scrubFrame => exact ⟨_, rfl, h.scrubFrame⟩
  | scrubPriorityRewrite => exact ⟨_, rfl, h.scrubPriority⟩
  | frameRewriteApply => exact ⟨_, rfl, h.applyRewrite⟩
  | scrCfgPeerCheck => exact ⟨_, rfl, h.peerCheck⟩
  | scrubWatchdog => exact ⟨_, rfl, h.scrubWatchdog⟩
  | scrCfgWrite => exact ⟨_, rfl, h.mgmt fun _ h => h.viaPath fun _ h => h.scrCfgWrite⟩
  | readbackRead => exact ⟨_, rfl, h.readback⟩
  | repXlatQWrite => exact ⟨_, rfl, h.mgmt fun _ h => h.viaPath fun _ h => h.xlat⟩
  | testRawApply => exact ⟨_, rfl, h.mgmt fun _ h => h.rawApply⟩
  | trcCmdStart => exact ⟨_, rfl, h.mgmt fun _ h => h.traceStart⟩
  | trcCmdStop => exact ⟨_, rfl, h.mgmt fun _ h => h.traceStop⟩
  | traceStopDone => exact ⟨_, rfl, h.traceStopDone⟩
  | trcCmdSnapNow => exact ⟨_, rfl, h.mgmt fun _ h => h.snapNow⟩
  | trcCmdSnapArm => exact ⟨_, rfl, h.mgmt fun _ h => h.snapArm⟩
  | snapshotDone => exact ⟨_, rfl, h.snapDone⟩
  | trcCmdExportOn => exact ⟨_, rfl, h.mgmt fun _ h => h.exportOn⟩
  | trcCmdExportOff => exact ⟨_, rfl, h.mgmt fun _ h => h.exportOff⟩
  | trcCmdResetRing => exact ⟨_, rfl, h.mgmt fun _ h => h.resetRing⟩
  | trcCmdReserved => exact ⟨_, rfl, h.mgmt fun _ h => h.traceReserved⟩
  | traceRecordWrite => exact ⟨_, rfl, h.recordWrite⟩
  | trcProbeWrite => exact ⟨_, rfl, h.mgmt fun _ h => h.viaPath fun _ h => h.probeWrite⟩
  | trcRingPoolWrite => exact ⟨_, rfl, h.mgmt fun _ h => h.ringPoolWrite⟩
  | thermalRead => exact ⟨_, rfl, h.awake fun _ h => h.thermalRead⟩
  | hbmSupplyFault => exact ⟨_, rfl, h.awake fun _ h => h.hbmSupplyFault⟩
  | smbSetOffset => exact ⟨_, rfl, h.awake fun _ h => h.smbSetOffset⟩
  | smbBlockRead => exact ⟨_, rfl, h.awake fun _ h => h.smbBlockRead⟩
  | smbOtherCommand => exact ⟨_, rfl, h.awake fun _ h => h.smbOther⟩
  | jtagIdcode => exact ⟨_, rfl, h.tapSelect⟩
  | jtagSamplePreload => exact ⟨_, rfl, h.tapScan⟩
  | jtagExtest => exact ⟨_, rfl, h.tapScan⟩
  | jtagHighz => exact ⟨_, rfl, h.tapHold⟩
  | jtagClamp => exact ⟨_, rfl, h.tapHold⟩
  | jtagExtestPulse => exact ⟨_, rfl, h.tapScan⟩
  | jtagExtestTrain => exact ⟨_, rfl, h.tapScan⟩
  | jtagPrivate => exact ⟨_, rfl, h.tapPrivate⟩
  | jtagBypass => exact ⟨_, rfl, h.tapSelect⟩
  | readClear => exact ⟨_, rfl, h.hostRead⟩
  | registerWrite => exact ⟨_, rfl, h.hostWrite⟩
  | gioHoldExpire => exact ⟨_, rfl, h.beside⟩
  | pstComplete => exact ⟨_, rfl, h.pstComplete⟩
  | slotEraseDone => exact ⟨_, rfl, h.slotEraseDone⟩
  | keyStored => exact ⟨_, rfl, h.keyStored⟩
  | railsInRange => exact ⟨_, rfl, h.railsInRange⟩
  | hostLinkUp => exact ⟨_, rfl, h.hostLinkUp⟩

end

/-! ### Step -/

/-- A step leads to a next state: the front command's own, from the state without that command, which is kept. -/
theorem step_gives (s : State) : ∃ t, step s = .next t ∧ Keeps { s with pending := s.pending.tail } t := by
  unfold step
  split
  next hs => exact ⟨s, rfl, by simp [hs], id⟩
  next hs =>
    simp only [hs, List.tail_cons]
    exact (Keeps.refl _).exec

end Sys2Proof.Machine
end

section
/-! SETTLED. What one step does: the queue, the idle block, the register file's form. -/

namespace Sys2Proof.Machine

/-- Settles O1: the definition of a step, at a queue that is not empty. -/
theorem stepRunsFront : Obligations.StepRunsFront := by
  intro s c rest hs
  simp only [step, hs]

/-- Settles O2: the definition of a step, at the empty queue. -/
theorem idleKeepsState : Obligations.IdleKeepsState := by
  intro s hs
  simp only [step, hs]

/-- Settles O5: no command loses the register file's canonical form (`step_gives`). -/
theorem registerFileInvariant : Obligations.RegisterFileInvariant := by
  intro s t hok hst
  obtain ⟨u, hu, hk⟩ := step_gives s
  obtain rfl : u = t := Host.Outcome.next.inj (hu.symm.trans hst)
  exact hk.regs hok

/-- Settles O7: no command touches those that wait behind it (`step_gives`). -/
theorem queueFifo : Obligations.QueueFifo := by
  intro s
  obtain ⟨t, ht, hk⟩ := step_gives s
  refine ⟨t, ht, hk.pending, fun hq => ?_⟩
  rw [QueueOk, hk.pending]
  exact List.all_eq_true.mpr fun c hc => List.all_eq_true.mp hq c (List.mem_of_mem_tail hc)

end Sys2Proof.Machine
end

section
/-! SETTLED. The state after reset. -/

namespace Sys2Proof.Machine

/-- The register file is empty after reset, so that every register reads its Reset column (R5). -/
theorem getReg_reset (o : Nat) : getReg State.reset o = resetOf o := rfl

/-- No channel has an entry after reset. -/
theorem getChan_reset (c : Nat) : getChan State.reset c = dChan c := rfl

/-- No tile has an entry after reset, so that every frame is the idle frame (R403). -/
theorem frameOf_reset (t : Nat) : frameOf State.reset t = idleFrame := rfl

/-- Settles O3: each part of the reset state is its default, and the rest is read off the tables. -/
theorem resetState : Obligations.ResetState :=
  ⟨rfl, getReg_reset _, getReg_reset _, rfl, rfl, rfl, fun c => congrArg Chan.st (getChan_reset c), frameOf_reset,
    getReg_reset, rfl⟩

/-- Settles O4: every map of the reset state is empty, and no command waits. -/
theorem resetCanonical : Obligations.ResetCanonical :=
  ⟨rfl, ⟨rfl, rfl, rfl, rfl, rfl, rfl, rfl, rfl, rfl, rfl⟩, ⟨rfl, rfl, rfl, rfl, rfl, rfl⟩, rfl⟩

end Sys2Proof.Machine
end

section
/-! SUPPORT. Commands of the management window, and frames: what the writes of one command leave alone. -/

namespace Sys2Proof.Machine

section
variable {s t u : State} {i : Instr} {f : State → State} {P : State → Prop}

/-! ### What a command gives -/

theorem gives_of_exec (he : exec i s = .next t) (ht : P t) : Gives i s P := ⟨t, he, ht⟩

/-- A write in the open management window gives what its rule gives. -/
theorem gives_mgmt (he : exec i s = .next (mgmt f s)) (hs : mgmtOpen s = true) (hf : P (f s)) : Gives i s P :=
  gives_of_exec he (by rwa [mgmt_run s f hs])

theorem mgmtRd_run (hs : mgmtOpen s = true) : mgmtRd f s = f s := by
  simp only [mgmtOpen, Bool.and_eq_true, Bool.not_eq_true', bne_iff_ne] at hs
  simp [mgmtRd, hs]

/-- A read in the open management window gives what its rule gives. -/
theorem gives_mgmtRd (he : exec i s = .next (mgmtRd f s)) (hs : mgmtOpen s = true) (hf : P (f s)) : Gives i s P :=
  gives_of_exec he (by rwa [mgmtRd_run hs])

/-! ### Registers -/

/-- The register that was written, in a register file in its canonical form. -/
theorem getReg_setReg_self (hs : RegsOk s) {o : Nat} {v : Word} : getReg (setReg o v s) o = v := by
  rw [getReg_setReg s o o v hs, if_pos rfl]

theorem RegsOk.setReg (hs : RegsOk s) {o : Nat} {v : Word} : RegsOk (setReg o v s) := setReg_ok s o v hs


/-! ### Frames -/

theorem OnlyRegs.of_regs_eq {os : List Nat} (h : t.regs = s.regs) : OnlyRegs os s t := fun o _ => by rw [getReg, h, getReg]

theorem OnlyRegs.refl {os : List Nat} : OnlyRegs os s s := .of_regs_eq rfl

theorem OnlyRegs.setReg {os : List Nat} {o : Nat} {v : Word} (h : OnlyRegs os s t) (ho : o ∈ os) :
    OnlyRegs os s (setReg o v t) := fun r hr => by
  rw [getReg_setReg_ne t o r v (fun e => hr (e ▸ ho)), h r hr]

theorem OnlyRegs.bump {os : List Nat} {o : Nat} (h : OnlyRegs os s t) (ho : o ∈ os) : OnlyRegs os s (bump o t) := h.setReg ho

theorem OnlyParts.refl {ps : List Part} : OnlyParts ps s s := fun p _ => by cases p <;> rfl

theorem OnlyParts.trans {ps : List Part} (h : OnlyParts ps s t) (h' : OnlyParts ps t u) : OnlyParts ps s u := fun p hp => by
  have h1 := h p hp
  have h2 := h' p hp
  cases p <;> exact h2.trans h1

/-- A change of one part, when that part is among those named. -/
theorem OnlyParts.of_single {ps : List Part} {p : Part} (hp : p ∈ ps) (h : ∀ q, q ≠ p → samePart s t q) :
    OnlyParts ps s t :=
  fun q hq => h q fun e => hq (e ▸ hp)

theorem OnlyParts.setReg {ps : List Part} {o : Nat} {v : Word} (h : OnlyParts ps s t) (hp : Part.regs ∈ ps) :
    OnlyParts ps s (setReg o v t) :=
  h.trans <| .of_single hp fun q hq => by cases q <;> simp_all [samePart]

theorem OnlyParts.bump {ps : List Part} {o : Nat} (h : OnlyParts ps s t) (hp : Part.regs ∈ ps) : OnlyParts ps s (bump o t) :=
  h.setReg hp

theorem OnlyParts.tick {ps : List Part} {x : TickEngine} (h : OnlyParts ps s t) (hp : Part.tick ∈ ps) :
    OnlyParts ps s { t with tick := x } :=
  h.trans <| .of_single hp fun q hq => by cases q <;> simp_all [samePart]

theorem OnlyParts.ra {ps : List Part} {x : RunAhead} (h : OnlyParts ps s t) (hp : Part.ra ∈ ps) :
    OnlyParts ps s { t with ra := x } :=
  h.trans <| .of_single hp fun q hq => by cases q <;> simp_all [samePart]

theorem OnlyParts.rdata {ps : List Part} {x : Word} (h : OnlyParts ps s t) (hp : Part.rdata ∈ ps) :
    OnlyParts ps s { t with rdata := x } :=
  h.trans <| .of_single hp fun q hq => by cases q <;> simp_all [samePart]

theorem OnlyParts.setChan {ps : List Part} {c : Nat} {x : Chan} (h : OnlyParts ps s t) (hp : Part.chans ∈ ps) :
    OnlyParts ps s (setChan c x t) :=
  h.trans <| .of_single hp fun q hq => by cases q <;> simp_all [samePart]

theorem OnlyParts.setPath {ps : List Part} {c : Nat} {x : RegPath} (h : OnlyParts ps s t) (hp : Part.paths ∈ ps) :
    OnlyParts ps s (setPath c x t) :=
  h.trans <| .of_single hp fun q hq => by cases q <;> simp_all [samePart]

theorem OnlyParts.setEddy {ps : List Part} {e : Nat} {x : Eddy} (h : OnlyParts ps s t) (hp : Part.eddies ∈ ps) :
    OnlyParts ps s (setEddy e x t) :=
  h.trans <| .of_single hp fun q hq => by cases q <;> simp_all [samePart]

end

end Sys2Proof.Machine
end

section
/-! SETTLED. The register writes of the tick block and of run-ahead, and the reads that latch a high half. -/

namespace Sys2Proof.Machine

/-! ### The result of a register write in TICK_CMD_STAT -/

section
variable {s t : State}


theorem getReg_wrStat (hs : RegsOk s) (n : Nat) : getReg (wrStat n s) Reg.tickCmdStat = w32 (0xF0 + n) :=
  getReg_setReg_self hs

theorem getReg_wrStat_ne {o : Nat} (ho : o ≠ Reg.tickCmdStat) (n : Nat) : getReg (wrStat n s) o = getReg s o :=
  getReg_setReg_ne s _ o _ ho.symm

theorem OnlyRegs.wrStat {os : List Nat} {n : Nat} (h : OnlyRegs os s t) (ho : Reg.tickCmdStat ∈ os) :
    OnlyRegs os s (wrStat n t) := h.setReg ho

theorem OnlyParts.wrStat {ps : List Part} {n : Nat} (h : OnlyParts ps s t) (hp : Part.regs ∈ ps) :
    OnlyParts ps s (wrStat n t) := h.setReg hp

/-- A value stored by a write of the tick block, with its result. -/
theorem wrStat_setReg_regs (hs : RegsOk s) {o : Nat} (ho : o ≠ Reg.tickCmdStat) (n : Nat) (v : Word) :
    getReg (Machine.wrStat n (setReg o v s)) o = v ∧
    getReg (Machine.wrStat n (setReg o v s)) Reg.tickCmdStat = w32 (0xF0 + n) ∧
    OnlyRegs [o, Reg.tickCmdStat] s (Machine.wrStat n (setReg o v s)) :=
  ⟨(getReg_wrStat_ne ho n).trans (getReg_setReg_self hs), getReg_wrStat hs.setReg n,
    (OnlyRegs.refl.setReg (by simp)).wrStat (by simp)⟩

/-- A value refused: its counter, and the result TICK_RANGE. -/
theorem wrStat_bump_regs (hs : RegsOk s) {o : Nat} (ho : o ≠ Reg.tickCmdStat) :
    getReg (Machine.wrStat 3 (bump o s)) o = satInc (getReg s o) ∧
    getReg (Machine.wrStat 3 (bump o s)) Reg.tickCmdStat = 0xF3#32 ∧
    OnlyRegs [o, Reg.tickCmdStat] s (Machine.wrStat 3 (bump o s)) :=
  wrStat_setReg_regs hs ho 3 _

theorem getReg_tickRange (hs : RegsOk s) : getReg (tickRange s) Reg.tickRangeCount = satInc (getReg s Reg.tickRangeCount) ∧
    getReg (tickRange s) Reg.tickCmdStat = 0xF3#32 := by
  obtain ⟨hc, hst, -⟩ := wrStat_bump_regs hs (o := Reg.tickRangeCount) (by decide)
  exact ⟨hc, hst⟩

theorem getReg_tickRange_ne {o : Nat} (ho : o ≠ Reg.tickCmdStat) (hc : o ≠ Reg.tickRangeCount) :
    getReg (tickRange s) o = getReg s o :=
  (getReg_wrStat_ne ho 3).trans (getReg_setReg_ne s _ o _ hc.symm)

theorem OnlyParts.tickRange {ps : List Part} (h : OnlyParts ps s t) (hp : Part.regs ∈ ps) : OnlyParts ps s (tickRange t) :=
  (h.bump hp).wrStat hp


end

/-! ### Run-ahead -/

/-- The conditions of R159 in their order. -/
theorem raCfgResult_eq (s : State) (v : Word) : raCfgResult s v =
    if engineStill s = false ∨ uncommitted s = true then 2
    else if fld v 0 5 ≠ 0 ∧ (bitAt (getReg s Reg.raCfg) 24 = true ∨ bitAt v 24 = true) then 4
    else if 16 < fld v 0 5 then 3 else 1 := by
  simp [raCfgResult]

/-- A refused DEPTH is counted and shown; an accepted one is stored; the other results store nothing. -/
theorem raCfgWrite_regs (s : State) (v : Word) (hs : RegsOk s) :
    getReg (raCfgWrite v s) Reg.raCfg = (if raCfgResult s v = 1 then v &&& 0x1FFFF1F#32 else getReg s Reg.raCfg) ∧
    getReg (raCfgWrite v s) Reg.raRangeCount =
      (if raCfgResult s v = 3 then satInc (getReg s Reg.raRangeCount) else getReg s Reg.raRangeCount) ∧
    getReg (raCfgWrite v s) Reg.tickCmdStat = (if raCfgResult s v = 3 then 0xF3#32 else getReg s Reg.tickCmdStat) := by
  unfold raCfgWrite
  dsimp only
  generalize raCfgResult s v = r
  have hr : RegsOk { s with ra := { s.ra with wresult := r } } := hs
  split
  next h1 =>
    subst h1
    exact ⟨getReg_setReg_self hr, getReg_setReg_ne _ _ _ _ (by decide), getReg_setReg_ne _ _ _ _ (by decide)⟩
  next h1 =>
    split
    next h3 =>
      obtain ⟨hn, hst, -⟩ := wrStat_bump_regs (o := Reg.raRangeCount) hr (by decide)
      exact ⟨(getReg_wrStat_ne (by decide) 3).trans (getReg_setReg_ne _ _ _ _ (by decide)), hn, hst⟩
    next => exact ⟨rfl, rfl, rfl⟩

theorem raCfgWrite_frame (s : State) (v : Word) :
    (raCfgWrite v s).ra.wresult = raCfgResult s v ∧
    OnlyRegs [Reg.raCfg, Reg.raRangeCount, Reg.tickCmdStat] s (raCfgWrite v s) ∧
    OnlyParts [.ra, .regs] s (raCfgWrite v s) := by
  have hregs : OnlyRegs [Reg.raCfg, Reg.raRangeCount, Reg.tickCmdStat] s
      { s with ra := { s.ra with wresult := raCfgResult s v } } := .of_regs_eq rfl
  have hparts : OnlyParts [.ra, .regs] s { s with ra := { s.ra with wresult := raCfgResult s v } } := OnlyParts.refl.ra (by simp)
  unfold raCfgWrite
  dsimp only
  split
  · exact ⟨rfl, hregs.setReg (by simp), hparts.setReg (by simp)⟩
  · split
    · exact ⟨rfl, (hregs.bump (by simp)).wrStat (by simp), (hparts.bump (by simp)).wrStat (by simp)⟩
    · exact ⟨rfl, hregs, hparts⟩

/-- A reserved MODE, or periodic with a PERIOD outside 1 to 8 (R161). -/
theorem raPredWrite_refused {s : State} {g : Nat} {v : Word}
    (h : fld v 0 2 = 3 ∨ (fld v 0 2 = 2 ∧ (fld v 4 4 = 0 ∨ 8 < fld v 4 4))) : raPredWrite g v s = raRange s := by
  simp [raPredWrite, h]

theorem raPredWrite_stored {s : State} {g : Nat} {v : Word}
    (h : ¬ (fld v 0 2 = 3 ∨ (fld v 0 2 = 2 ∧ (fld v 4 4 = 0 ∨ 8 < fld v 4 4)))) :
    raPredWrite g v s = setReg (Reg.raPred g) (v &&& 0xF3#32) s := by
  simp [raPredWrite, h]

/-- A read that returns a low half and latches the high half in a register. -/
theorem lowRead_frame {s : State} (hr : RegsOk s) {o : Nat} {lo hi : Word} :
    getReg (setReg o hi { s with rdata := lo }) o = hi ∧ OnlyRegs [o] s (setReg o hi { s with rdata := lo }) ∧
    OnlyParts [.regs, .rdata] s (setReg o hi { s with rdata := lo }) :=
  have hd : RegsOk { s with rdata := lo } := hr
  ⟨getReg_setReg_self hd, (OnlyRegs.of_regs_eq rfl).setReg (by simp), (OnlyParts.refl.rdata (by simp)).setReg (by simp)⟩

/-- Settles O24: RA_CFG by `raCfgWrite_regs` and `raCfgWrite_frame`, RA_PRED by the two cases of its value, the reads by
`lowRead_frame`. -/
theorem runAheadRegisters : Obligations.RunAheadRegisters := by
  refine ⟨fun s v hs hr => ?_, fun s g v hs hr => gives_mgmt rfl hs ⟨?_, ?_⟩, fun s hs hr => ?_, fun s hs hr => ?_⟩
  · obtain ⟨hw, hf⟩ := raCfgWrite_frame s v
    obtain ⟨hc, hn, ht⟩ := raCfgWrite_regs s v hr
    refine gives_mgmt rfl hs ⟨hw.trans (raCfgResult_eq s v), ?_, ?_, ?_, hf⟩ <;> rwa [hw]
  · unfold raPredWrite
    dsimp only
    split
    · exact (OnlyParts.refl.bump (by simp)).wrStat (by simp)
    · exact OnlyParts.refl.setReg (by simp)
  · split
    next h =>
      rw [raPredWrite_refused h]
      exact wrStat_bump_regs (o := Reg.raRangeCount) hr (by decide)
    next h =>
      rw [raPredWrite_stored h]
      exact ⟨getReg_setReg_self hr, OnlyRegs.refl.setReg (by simp)⟩
  · exact gives_mgmtRd rfl hs ⟨rfl, lowRead_frame hr⟩
  · exact gives_mgmtRd rfl hs ⟨rfl, lowRead_frame hr⟩

/-! ### The tick block -/

theorem bitAt_eq_getLsbD {n : Nat} (x : BitVec n) (i : Nat) : bitAt x i = x.getLsbD i := by
  rw [bitAt, BitVec.getLsbD, Nat.testBit_eq_decide_div_mod_eq, Nat.shiftRight_eq_div_pow]
  rfl

theorem fld_zero_eq_setWidth {n : Nat} (x : BitVec n) (len : Nat) : fld x 0 len = (x.setWidth len).toNat := by
  simp [fld]

/-- Where the stop tick's number and its valid bit stand in TICK_STOP_HI, its mask leaves every bit. -/
theorem stopHi_masked (v : Word) :
    bitAt (v &&& 0x8000FFFF#32) 31 = bitAt v 31 ∧ fld (v &&& 0x8000FFFF#32) 0 16 = fld v 0 16 := by
  simp only [bitAt_eq_getLsbD, fld_zero_eq_setWidth]
  refine ⟨by simp, ?_⟩
  rw [BitVec.setWidth_and, show BitVec.setWidth 16 0x8000FFFF#32 = BitVec.allOnes 16 by decide, BitVec.and_allOnes]

/-- A TICK_TIMEOUT that the tick in progress has not exceeded is stored, and no more happens. -/
theorem timeoutWrite_stored {s : State} {v el : Word} (h : v &&& 0xFFFFF#32 = 0#32 ∨ el ≤ v &&& 0xFFFFF#32) :
    timeoutWrite v el s = wrStat 1 (setReg Reg.tickTimeout (v &&& 0xFFFFF#32) s) := by
  have hn : ((v &&& 0xFFFFF#32) != 0 && decide (v &&& 0xFFFFF#32 < el)) = false := by
    rcases h with h | h
    · simp [h]
    · simp [BitVec.not_lt.mpr h]
  unfold timeoutWrite
  dsimp only
  rw [hn]
  rfl

/-- TICK_CFG is stored whole where the engine is still, elsewhere only DITHER (R147). -/
theorem tickCfgWrite_eq (s : State) (v : Word) : tickCfgWrite v s =
    wrStat (if engineStill s = true ∨ getReg s Reg.tickCfg &&& 0x0D#32 = v &&& 0x0D#32 then 1 else 6)
      (setReg Reg.tickCfg
        (if engineStill s then v &&& 0x1D#32 else (getReg s Reg.tickCfg &&& 0x0D#32) ||| (v &&& 0x10#32)) s) := by
  unfold tickCfgWrite
  by_cases he : engineStill s = true <;> simp [he]

theorem tickPeriodWrite_refused {s : State} {v : Word} (hv : v &&& 0xFFFFFF#32 = 0#32) :
    tickPeriodWrite v s = tickRange s := by
  simp [tickPeriodWrite, hv]

theorem tickPeriodWrite_stored {s : State} {v : Word} (hv : ¬ v &&& 0xFFFFFF#32 = 0#32) :
    tickPeriodWrite v s = wrStat 1 (setReg Reg.tickPacePeriod (v &&& 0xFFFFFF#32) s) := by
  simp [tickPeriodWrite, hv]

theorem cadLenWrite_busy {s : State} {v : Word} (he : engineStill s = false) : cadLenWrite v s = wrStat 6 s := by
  simp [cadLenWrite, he]

theorem cadLenWrite_refused {s : State} {v : Word} (he : engineStill s ≠ false) (hv : fld v 0 13 = 0 ∨ 4096 < fld v 0 13) :
    cadLenWrite v s = tickRange s := by
  simp [cadLenWrite, he, hv]

theorem cadLenWrite_stored {s : State} {v : Word} (he : engineStill s ≠ false)
    (hv : ¬ (fld v 0 13 = 0 ∨ 4096 < fld v 0 13)) :
    cadLenWrite v s = wrStat 1 (setReg Reg.cadLen (w32 (fld v 0 13)) { s with tick := { s.tick with cadNext := 0 } }) := by
  simp [cadLenWrite, he, hv]

theorem cadPosWrite_busy {s : State} {v : Word} (he : engineStill s = false) : cadPosWrite v s = wrStat 6 s := by
  simp [cadPosWrite, he]

theorem cadPosWrite_refused {s : State} {v : Word} (he : engineStill s ≠ false) (hv : cadLen s ≤ fld v 0 12) :
    cadPosWrite v s = tickRange s := by
  simp [cadPosWrite, he, hv]

theorem cadPosWrite_stored {s : State} {v : Word} (he : engineStill s ≠ false) (hv : ¬ cadLen s ≤ fld v 0 12) :
    cadPosWrite v s = wrStat 1 { s with tick := { s.tick with cadNext := fld v 0 12 } } := by
  simp [cadPosWrite, he, hv]

theorem cadMaskWrite_busy {s : State} {i : Nat} {hi : Bool} {v : Word} (he : engineStill s = false) :
    cadMaskWrite i hi v s = wrStat 6 s := by
  simp [cadMaskWrite, he]

theorem cadMaskWrite_stored {s : State} {i : Nat} {hi : Bool} {v : Word} (he : engineStill s ≠ false) :
    cadMaskWrite i hi v s = wrStat 1 (setReg (if hi then Reg.cadMaskHi i else Reg.cadMaskLo i) v s) := by
  simp [cadMaskWrite, he]

/-- The cadence masks are no part of the tick block's own page. -/
theorem cadMask_ne (i : Nat) (hi : Bool) : (if hi then Reg.cadMaskHi i else Reg.cadMaskLo i) ≠ Reg.tickCmdStat := by
  unfold Reg.cadMaskHi Reg.cadMaskLo Reg.tickCmdStat
  split <;> omega

/-- Settles O20: each write by the branches of its rule; what a stored or a refused value leaves in the registers is said by
`wrStat_setReg_regs` and `getReg_tickRange`. -/
theorem tickRegisters : Obligations.TickRegisters := by
  refine ⟨fun s v hs hr => gives_mgmt rfl hs ?stopHi, fun s hs hr => gives_mgmtRd rfl hs ⟨rfl, lowRead_frame hr⟩,
    fun s v hs hr => gives_mgmt rfl hs ?cfg, fun s v el hs hr hel => gives_mgmt rfl hs ?timeout,
    fun s v hs hr => gives_mgmt rfl hs ?period, fun s v hs hr => gives_mgmt rfl hs ?cadLen,
    fun s v hs hr => gives_mgmt rfl hs ?cadPos, fun s i hi v hs hr => gives_mgmt rfl hs ?cadMask⟩
  case stopHi =>
    obtain ⟨hb, hf⟩ := stopHi_masked v
    have ht : RegsOk { s with tick := (tickStopHi v s).tick } := hr
    obtain ⟨h1, h2, ho⟩ := wrStat_setReg_regs (o := Reg.tickStopHi) ht (by decide) 1 (v &&& 0x8000FFFF#32)
    refine ⟨?_, h1, h2, ho, ((OnlyParts.refl.tick (by simp)).setReg (by simp)).wrStat (by simp)⟩
    rw [← hb, ← hf]
    rfl
  case cfg =>
    rw [tickCfgWrite_eq]
    obtain ⟨h1, h2, ho⟩ := wrStat_setReg_regs (o := Reg.tickCfg) hr (by decide) _ _
    exact ⟨h1, h2.trans (by split <;> rfl), ho, (OnlyParts.refl.setReg (by simp)).wrStat (by simp)⟩
  case timeout =>
    rw [timeoutWrite_stored hel]
    obtain ⟨h1, h2, ho⟩ := wrStat_setReg_regs (o := Reg.tickTimeout) hr (by decide) 1 (v &&& 0xFFFFF#32)
    exact ⟨h1, h2, ho, (OnlyParts.refl.setReg (by simp)).wrStat (by simp)⟩
  case period =>
    split_ifs with hv
    · rw [tickPeriodWrite_refused hv]
      obtain ⟨hc, hst⟩ := getReg_tickRange hr
      exact ⟨OnlyParts.refl.tickRange (by simp), getReg_tickRange_ne (by decide) (by decide), hst, hc⟩
    · rw [tickPeriodWrite_stored hv]
      obtain ⟨h1, h2, -⟩ := wrStat_setReg_regs (o := Reg.tickPacePeriod) hr (by decide) 1 (v &&& 0xFFFFFF#32)
      exact ⟨(OnlyParts.refl.setReg (by simp)).wrStat (by simp), h1, h2⟩
  case cadLen =>
    split_ifs with he hv
    · rw [cadLenWrite_busy he]
      exact ⟨OnlyParts.refl.wrStat (by simp), rfl, getReg_wrStat hr 6, getReg_wrStat_ne (by decide) 6⟩
    · rw [cadLenWrite_refused he hv]
      obtain ⟨hc, hst⟩ := getReg_tickRange hr
      exact ⟨OnlyParts.refl.tickRange (by simp), rfl, hst, getReg_tickRange_ne (by decide) (by decide), hc⟩
    · rw [cadLenWrite_stored he hv]
      have ht : RegsOk { s with tick := { s.tick with cadNext := 0 } } := hr
      obtain ⟨h1, h2, -⟩ := wrStat_setReg_regs (o := Reg.cadLen) ht (by decide) 1 (w32 (fld v 0 13))
      exact ⟨((OnlyParts.refl.tick (by simp)).setReg (by simp)).wrStat (by simp), rfl, h1, h2⟩
  case cadPos =>
    split_ifs with he hv
    · rw [cadPosWrite_busy he]
      exact ⟨OnlyParts.refl.wrStat (by simp), rfl, getReg_wrStat hr 6⟩
    · rw [cadPosWrite_refused he hv]
      obtain ⟨hc, hst⟩ := getReg_tickRange hr
      exact ⟨OnlyParts.refl.tickRange (by simp), rfl, hst, hc⟩
    · rw [cadPosWrite_stored he hv]
      exact ⟨(OnlyParts.refl.tick (by simp)).wrStat (by simp), rfl, getReg_wrStat (s := { s with tick := _ }) hr 1⟩
  case cadMask =>
    have hne := cadMask_ne i hi
    generalize ho : (if hi then Reg.cadMaskHi i else Reg.cadMaskLo i) = o at hne ⊢
    split_ifs with he
    · rw [cadMaskWrite_busy he]
      exact ⟨OnlyParts.refl.wrStat (by simp), getReg_wrStat hr 6, OnlyRegs.refl.wrStat (by simp)⟩
    · rw [cadMaskWrite_stored he, ho]
      exact ⟨(OnlyParts.refl.setReg (by simp)).wrStat (by simp), wrStat_setReg_regs hr hne 1 v⟩

end Sys2Proof.Machine
end

section
/-! SUPPORT. The channel store stays in its canonical form through forwarding and the start of a reroute (R228, R237). -/

namespace Sys2Proof.Machine

/-- The channel store is in its canonical form. -/
def ChansOk (s : State) : Prop := mwf dChan s.chans = true

theorem StoresOk.chans {s : State} (h : StoresOk s) : ChansOk s := by
  obtain ⟨-, -, hc, -⟩ := h
  exact hc

section
variable {s t : State}

/-- The channel that was written, in a channel store in its canonical form. -/
theorem getChan_setChan_self (h : ChansOk s) {c : Nat} {x : Chan} : getChan (setChan c x s) c = x := by
  simp only [ChansOk, mwf, Bool.and_eq_true] at h
  exact (mget_mset dChan s.chans c c x h.1).trans (if_pos rfl)

theorem ChansOk.ite {p : Prop} {inst : Decidable p} (hs : ChansOk s) (ht : ChansOk t) : ChansOk (if p then s else t) := by
  split <;> assumption

variable (h : ChansOk s)
include h

/-- A change of the parts beside the channel store. -/
theorem ChansOk.beside {pending regs dev fab bm tick ra net paths queues pool eddies msix host rdata claims ldr nv mbx frz scr
    bg rep trc jtag smb pins free} :
    ChansOk ⟨pending, regs, dev, fab, bm, tick, ra, s.chans, net, paths, queues, pool, eddies, msix, host, rdata, claims, ldr,
      nv, mbx, frz, scr, bg, rep, trc, jtag, smb, pins, free⟩ := h

theorem ChansOk.setReg {o : Nat} {v : Word} : ChansOk (setReg o v s) := h
theorem ChansOk.bump {o : Nat} : ChansOk (bump o s) := h
theorem ChansOk.bumpBy {o n : Nat} : ChansOk (bumpBy o n s) := .ite h h.setReg

theorem ChansOk.setChan {c : Nat} {x : Chan} : ChansOk (setChan c x s) := mwf_mset dChan s.chans c x h

theorem ChansOk.forEach {α : Type} {f : α → State → State} {l : List α} (hf : ∀ x t, ChansOk t → ChansOk (f x t)) :
    ChansOk (forEach f l s) :=
  forEach_keeps ChansOk f hf l s h

theorem ChansOk.freeSlot {f : Flit} : ChansOk (freeSlot f s) := by
  unfold Machine.freeSlot
  split
  · exact .ite h.setChan h
  · exact h

theorem ChansOk.deliverHere {f : Flit} : ChansOk (deliverHere f s) := by
  unfold Machine.deliverHere
  exact .freeSlot h.beside

theorem ChansOk.enqueue {c dl : Nat} {f : Flit} : ChansOk (enqueue c dl f s) := h.setChan

theorem ChansOk.sendChan {c vl : Nat} {p : Payload} : ChansOk (sendChan c vl p s) := h.enqueue

theorem ChansOk.raiseVec {v : Nat} : ChansOk (raiseVec v s) := .ite h.beside h.beside

theorem ChansOk.haltNoRoute : ChansOk (haltNoRoute s) :=
  have hj : ChansOk (joinFault 0xFF s) := .ite h (.ite h.beside h.beside)
  .ite h.beside (.ite hj h)

theorem ChansOk.spreadNotice {p : Payload} {skip : Option Nat} : ChansOk (spreadNotice p skip s) :=
  h.forEach fun _ _ h => h.sendChan

theorem ChansOk.fabCause {code : Nat} : ChansOk (fabCause code s) := h.setReg

theorem ChansOk.flowNoRoute {code src dst : Nat} : ChansOk (flowNoRoute code src dst s) := by
  unfold Machine.flowNoRoute
  dsimp only
  have hn : ChansOk (Machine.fabCause code (Machine.bump Reg.fabNoRoute { s with net := { s.net with noRoute := true } })) :=
    h.beside.bump.fabCause
  exact .ite (.haltNoRoute (.spreadNotice (.ite hn hn.raiseVec))) (.spreadNotice (.ite hn hn.raiseVec))

theorem ChansOk.nameFlow {code : Nat} {f : Flit} {s₀ : State} : ChansOk (nameFlow code f s₀ s) := .ite h h.flowNoRoute

theorem ChansOk.holdFlit {x : HeldFlit} : ChansOk (holdFlit x s) := h.beside

theorem ChansOk.keepNoRoute {code : Nat} {f : Flit} : ChansOk (keepNoRoute code f s) :=
  .ite h.bump.freeSlot h.holdFlit.nameFlow

theorem ChansOk.turnAndSend {c : Nat} {f : Flit} : ChansOk (turnAndSend c f s) := .enqueue (.ite h.bump h)

theorem ChansOk.fabBad {f : Flit} : ChansOk (fabBad f s) := h.bump.freeSlot

theorem ChansOk.forwardBy {lost : Flit → State → State} {f : Flit} (hlost : ∀ x t, ChansOk t → ChansOk (lost x t)) :
    ChansOk (forwardBy lost f s) := by
  refine .ite h.fabBad <| .ite (.ite h.deliverHere h.fabBad) <| .ite (.ite h.deliverHere h.fabBad) <|
    .ite h.deliverHere <| .ite h.deliverHere <| .ite (hlost _ _ h) <| .ite h.holdFlit <| .ite h.holdFlit ?_
  split
  exacts [h.turnAndSend, hlost _ _ h]

theorem ChansOk.poolNoRoute {f : Flit} : ChansOk (poolNoRoute f s) :=
  .ite h.freeSlot.beside (h.freeSlot.forwardBy fun _ _ h => h.keepNoRoute)

theorem ChansOk.holdNoRoute {code : Nat} {f : Flit} : ChansOk (holdNoRoute code f s) :=
  .ite h.poolNoRoute.nameFlow h.keepNoRoute

theorem ChansOk.forward {f : Flit} : ChansOk (forward f s) := h.forwardBy fun _ _ h => h.holdNoRoute

theorem ChansOk.releaseHeld : ChansOk (releaseHeld s) := by
  unfold Machine.releaseHeld
  exact .forEach h.beside fun _ _ h => h.forward

theorem ChansOk.mapChans {f : Nat → Chan → Chan} : ChansOk { s with chans := mmap dChan f s.chans } :=
  mwf_mmap dChan f s.chans h

theorem ChansOk.settleEvents : ChansOk (settleEvents s) := by
  unfold Machine.settleEvents
  exact .releaseHeld h.mapChans

theorem ChansOk.beginReroute {c : Nat} {count stalled : Bool} : ChansOk (beginReroute c count stalled s) := by
  unfold Machine.beginReroute
  exact .settleEvents (.forEach (.bump (.beside (.ite h.setChan.bumpBy h.setChan))) fun _ _ h => h.forward)

theorem ChansOk.handOver {c : Nat} : ChansOk (handOver c s) := .ite h.beginReroute h

end

end Sys2Proof.Machine
end

section
/-! SETTLED. LNK_CTL and LNK_CFG (R217, R218, R219). -/

namespace Sys2Proof.Machine

section
variable {s t : State} {c d k r : Nat}

/-! ### LNK_CAUSE and WRESULT -/

@[simp] theorem getChan_bump (o : Nat) : getChan (bump o s) d = getChan s d := rfl
@[simp] theorem getChan_lnkCause : getChan (lnkCause c k s) d = getChan s d := rfl
@[simp] theorem getReg_lnkResult (o : Nat) : getReg (lnkResult c r s) o = getReg s o := getReg_setChan s o c _

theorem getChan_lnkResult (h : ChansOk s) : getChan (lnkResult c r s) c = { getChan s c with wresult := r } :=
  getChan_setChan_self h

theorem getChan_lnkResult_ne (h : d ≠ c) : getChan (lnkResult c r s) d = getChan s d :=
  getChan_setChan_ne s c d _ h.symm

theorem getReg_lnkCause (h : RegsOk s) : getReg (lnkCause c k s) (Reg.lnkCause c) = w32 k := getReg_setReg_self h

theorem getReg_lnkCause_ne {o : Nat} (h : o ≠ Reg.lnkCause c) : getReg (lnkCause c k s) o = getReg s o :=
  getReg_setReg_ne s _ o _ h.symm

theorem RegsOk.setChan {x : Chan} (h : RegsOk s) : RegsOk (setChan c x s) := h
theorem RegsOk.lnkResult (h : RegsOk s) : RegsOk (lnkResult c r s) := h

theorem OnlyParts.lnkResult {ps : List Part} (h : OnlyParts ps s t) (hp : Part.chans ∈ ps) : OnlyParts ps s (lnkResult c r t) :=
  h.setChan hp

theorem OnlyParts.lnkCause {ps : List Part} (h : OnlyParts ps s t) (hp : Part.regs ∈ ps) : OnlyParts ps s (lnkCause c k t) :=
  h.setReg hp

/-! ### The commands, branch by branch -/

/-- A command to a port that a run-time feature holds. -/
theorem lnkOwned_spec (hc : ChansOk s) (hr : RegsOk s) :
    getChan (lnkOwned c s) c = { getChan s c with wresult := 4 } ∧ getReg (lnkOwned c s) (Reg.lnkCause c) = 0x21#32 ∧
    OnlyRegs [Reg.lnkCause c] s (lnkOwned c s) ∧ OnlyParts [.chans, .regs] s (lnkOwned c s) :=
  ⟨getChan_lnkResult hc, getReg_lnkCause hr.lnkResult, (OnlyRegs.of_regs_eq rfl).setReg (by simp),
    (OnlyParts.refl.lnkResult (by simp)).lnkCause (by simp)⟩

theorem lnkEnable_refused (ho : (getChan s c).owned = false)
    (h : ¬ (chansOpen s = true ∧ chanFailed s c = false ∧ ((getChan s c).st = .disabled ∨ (getChan s c).st = .failed))) :
    lnkEnable c s = lnkResult c 2 s := by
  simp only [lnkEnable, lnkGo, ho]
  by_cases h1 : chansOpen s = true <;> by_cases h2 : chanFailed s c = true <;> simp_all

theorem lnkEnable_taken (ho : (getChan s c).owned = false)
    (h : chansOpen s = true ∧ chanFailed s c = false ∧ ((getChan s c).st = .disabled ∨ (getChan s c).st = .failed)) :
    lnkEnable c s = lnkCause c 2 (setChan c { getChan s c with
      st := .waiting, wresult := 1, attempts := 0, firstTrain := true, partner := none, resetting := false } s) := by
  obtain ⟨h1, h2, h3⟩ := h
  simp [lnkEnable, lnkGo, ho, h1, h2, h3]

theorem lnkDisable_taken (ho : (getChan s c).owned = false) :
    lnkDisable c s = lnkCause c 1 (lnkResult c 1 (stopChan c (handOver c s))) := by simp [lnkDisable, ho]

theorem lnkReset_taken (ho : (getChan s c).owned = false) :
    lnkReset c s = lnkCause c 0x0A (setChan c { getChan (handOver c s) c with
      resetting := true, seqReset := true, wresult := 1, partner := none, nakDue := none, creditDue := false }
      (handOver c s)) := by
  simp [lnkReset, ho]

theorem lnkRetrain_taken (ho : (getChan s c).owned = false) (hu : linkUp s c = true) :
    lnkRetrain c s = lnkResult c 1 (bump (Reg.retrains c) (setChan c { getChan s c with
      st := .retraining, attempts := 0, firstTrain := false, partner := none, replay := none } s)) := by
  simp [lnkRetrain, startRetrain, ho, hu]

theorem lnkRetrain_refused (ho : (getChan s c).owned = false) (hu : ¬ linkUp s c = true) :
    lnkRetrain c s = lnkResult c 2 s := by
  simp [lnkRetrain, ho, hu]

theorem lnkReserved_free (ho : (getChan s c).owned = false) : lnkReserved c s = lnkResult c 7 s := by
  simp [lnkReserved, ho]

theorem lnkCfgWrite_busy {v : Word} (ho : (getChan s c).owned = false)
    (h : ¬ ((getChan s c).st = .disabled ∨ (getChan s c).st = .failed)) : lnkCfgWrite c v s = lnkResult c 2 s := by
  obtain ⟨hd, hf⟩ := not_or.mp h
  simp [lnkCfgWrite, ho, hd, hf]

theorem lnkCfgWrite_refused {v : Word} (ho : (getChan s c).owned = false)
    (h : (getChan s c).st = .disabled ∨ (getChan s c).st = .failed) (hv : c < 16 ∧ (fld v 0 2 = 3 ∨ fld v 2 2 = 3)) :
    lnkCfgWrite c v s = lnkCause c 0x20 (lnkResult c 3 (bump (Reg.lnkRangeCount c) s)) := by
  rcases h with h | h <;> simp [lnkCfgWrite, isFord, ho, h, hv]

theorem lnkCfgWrite_stored {v : Word} (ho : (getChan s c).owned = false)
    (h : (getChan s c).st = .disabled ∨ (getChan s c).st = .failed) (hv : ¬ (c < 16 ∧ (fld v 0 2 = 3 ∨ fld v 2 2 = 3))) :
    lnkCfgWrite c v s = lnkResult c 1 (setReg (Reg.lnkCfg c) (v &&& 0x3F3F#32) s) := by
  have hb : (!isFord c && (decide (fld v 0 2 = 3) || decide (fld v 2 2 = 3))) = false := by
    rw [← Bool.not_eq_true]
    simpa [isFord] using hv
  rcases h with h | h <;> simp only [lnkCfgWrite, ho, h, hb] <;> rfl

/-- The registers of one channel are apart. -/
theorem lnkRegs_ne (c : Nat) : Reg.lnkCfg c ≠ Reg.lnkCause c ∧ Reg.lnkRangeCount c ≠ Reg.lnkCause c ∧
    Reg.lnkRangeCount c ≠ Reg.lnkCfg c := by
  unfold Reg.lnkCfg Reg.lnkCause Reg.lnkRangeCount
  omega

/-- Every command to a port held by a run-time feature is refused alike. -/
theorem lnk_owned (ho : (getChan s c).owned = true) :
    lnkEnable c s = lnkOwned c s ∧ lnkDisable c s = lnkOwned c s ∧ lnkReset c s = lnkOwned c s ∧
    lnkRetrain c s = lnkOwned c s ∧ lnkReserved c s = lnkOwned c s ∧ ∀ v, lnkCfgWrite c v s = lnkOwned c s := by
  simp [lnkEnable, lnkGo, lnkDisable, lnkReset, lnkRetrain, lnkReserved, lnkCfgWrite, ho]

end

/-- Settles O27: each command by its branches; DISABLE and RESET also need that handing over keeps the register file and the
channel store in their canonical forms. -/
theorem linkCommands : Obligations.LinkCommands := by
  refine ⟨fun s c hs hr hst ho => gives_mgmt rfl hs ?enable, fun s c hs hr hst ho => gives_mgmt rfl hs ?disable,
    fun s c hs hr hst ho => gives_mgmt rfl hs ?reset, fun s c hs hr hst ho => gives_mgmt rfl hs ?retrain,
    fun s c cmd hs hst ho => gives_mgmt rfl hs ?reserved, fun s c v hs hr hst ho => gives_mgmt rfl hs ?cfg,
    fun s c i v cmd hs hr hst ho hi => ?owned⟩
  all_goals have hc := hst.chans
  case enable =>
    split_ifs with h
    · rw [lnkEnable_taken ho h]
      refine ⟨fun d hd => ?_, (OnlyParts.refl.setChan (by simp)).lnkCause (by simp), ?_⟩
      · rw [getChan_lnkCause, getChan_setChan_ne s c d _ (Ne.symm hd)]
      rw [getChan_lnkCause, getChan_setChan_self hc, getReg_lnkCause hr.setChan]
      exact ⟨rfl, rfl, rfl⟩
    · rw [lnkEnable_refused ho h, getChan_lnkResult hc]
      exact ⟨fun d hd => getChan_lnkResult_ne hd, OnlyParts.refl.lnkResult (by simp), rfl, rfl⟩
  case disable =>
    rw [lnkDisable_taken ho, getChan_lnkCause, stopChan, getChan_lnkResult hc.handOver.setChan,
      getChan_setChan_self hc.handOver]
    exact ⟨rfl, rfl, rfl, getReg_lnkCause ((Keeps.refl s).handOver.regs hr)⟩
  case reset =>
    rw [lnkReset_taken ho, getChan_lnkCause, getChan_setChan_self hc.handOver]
    exact ⟨rfl, rfl, rfl, getReg_lnkCause ((Keeps.refl s).handOver.regs hr)⟩
  case retrain =>
    split_ifs with h
    · rw [lnkRetrain_taken ho h]
      refine ⟨fun d hd => ?_, ((OnlyParts.refl.setChan (by simp)).bump (by simp)).lnkResult (by simp), ?_⟩
      · rw [getChan_lnkResult_ne hd, getChan_bump, getChan_setChan_ne s c d _ (Ne.symm hd)]
      · rw [getChan_lnkResult hc.setChan.bump, getChan_bump, getChan_setChan_self hc, getReg_lnkResult]
        exact ⟨rfl, rfl, rfl, getReg_setReg_self hr.setChan⟩
    · rw [lnkRetrain_refused ho h, getChan_lnkResult hc]
      exact ⟨fun d hd => getChan_lnkResult_ne hd, OnlyParts.refl.lnkResult (by simp), rfl, rfl⟩
  case reserved =>
    rw [lnkReserved_free ho, getChan_lnkResult hc]
    exact ⟨rfl, rfl, OnlyParts.refl.lnkResult (by simp)⟩
  case cfg =>
    split_ifs with h hv
    · obtain ⟨hcfg, hcause, hcount⟩ := lnkRegs_ne c
      rw [lnkCfgWrite_refused ho h hv, getChan_lnkCause, getChan_lnkResult hc.bump, getReg_lnkCause_ne hcfg,
        getReg_lnkCause_ne hcause, getReg_lnkResult, getReg_lnkResult, bump_eq, getReg_setReg_self hr,
        getReg_setReg_ne s _ _ _ hcount]
      exact ⟨rfl, ((OnlyParts.refl.bump (by simp)).lnkResult (by simp)).lnkCause (by simp), rfl, rfl,
        getReg_lnkCause hr.setReg.lnkResult, rfl⟩
    · rw [lnkCfgWrite_stored ho h hv, getChan_lnkResult hc.setReg, getReg_lnkResult]
      exact ⟨rfl, (OnlyParts.refl.setReg (by simp)).lnkResult (by simp), rfl, getReg_setReg_self hr⟩
    · rw [lnkCfgWrite_busy ho h, getChan_lnkResult hc, getReg_lnkResult]
      exact ⟨rfl, OnlyParts.refl.lnkResult (by simp), rfl, rfl⟩
  case owned =>
    obtain ⟨he, hd, hre, hrt, hrs, hcf⟩ := lnk_owned ho
    have hspec := lnkOwned_spec (c := c) hc hr
    simp only [List.mem_cons, List.not_mem_nil, or_false] at hi
    rcases hi with rfl | rfl | rfl | rfl | rfl | rfl
    · exact gives_mgmt rfl hs (he ▸ hspec)
    · exact gives_mgmt rfl hs (hd ▸ hspec)
    · exact gives_mgmt rfl hs (hre ▸ hspec)
    · exact gives_mgmt rfl hs (hrt ▸ hspec)
    · exact gives_mgmt rfl hs (hrs ▸ hspec)
    · exact gives_mgmt rfl hs (hcf v ▸ hspec)

end Sys2Proof.Machine
end

section
/-! SUPPORT. Which offsets the register tables name: no context page holds a register that clears when it is read, and a write
to a reserved offset reaches nothing (R5, R8). -/

namespace Sys2Proof.Machine

/-! ### Rows of the register tables -/

/-- The last offset that a row can name. -/
def RegRow.top (r : RegRow) : Nat := r.base + (r.n1 - 1) * r.s1 + r.n2 * r.s2

theorem regHit_range {o : Nat} {r : RegRow} (h : regHit o r = true) : r.base ≤ o ∧ o ≤ r.top := by
  simp only [regHit, Bool.and_eq_true, decide_eq_true_eq] at h
  obtain ⟨hb, he⟩ := h
  have hi : (if r.s1 = 0 then 0 else min ((o - r.base) / r.s1) (r.n1 - 1)) * r.s1 ≤ (r.n1 - 1) * r.s1 := by
    split
    · omega
    · exact Nat.mul_le_mul_right _ (min_le_right _ _)
  generalize (if r.s1 = 0 then 0 else min ((o - r.base) / r.s1) (r.n1 - 1)) * r.s1 = i at hi he
  refine ⟨hb, ?_⟩
  unfold RegRow.top
  split at he
  next =>
    rw [decide_eq_true_eq] at he
    omega
  next hs =>
    simp only [Bool.and_eq_true, decide_eq_true_eq] at he
    have := (Nat.div_lt_iff_lt_mul (Nat.pos_of_ne_zero hs)).mp he.2
    omega

/-- No context page holds a register that clears when it is read. -/
theorem rc_rows_off_pages :
    regTable.all (fun r => r.acc != .rc || decide (0x840000 ≤ r.base) || decide (r.top < 0x800000)) = true := by
  decide +kernel

theorem eventCtx_none_of_clears {o : Nat} (h : clearsOnRead o = true) : eventCtx o = none := by
  unfold clearsOnRead at h
  split at h
  next r hr =>
    obtain ⟨hb, ht⟩ := regHit_range (List.find?_some hr)
    have hp := List.all_eq_true.mp rc_rows_off_pages r (List.mem_of_find?_eq_some hr)
    have hrc : r.acc = .rc := by simpa using h
    simp only [hrc, bne_self_eq_false, Bool.false_or, Bool.or_eq_true, decide_eq_true_eq] at hp
    unfold eventCtx
    rw [if_neg]
    simp only [Bool.and_eq_true, decide_eq_true_eq, not_and]
    omega
  next => cases h

/-! ### Reserved offsets (R8) -/

/-- The tables have a row with this place and these strides. -/
def hasRow (b n₁ s₁ n₂ s₂ : Nat) : Bool :=
  regTable.any fun r => r.base == b && r.n1 == n₁ && r.s1 == s₁ && r.n2 == n₂ && r.s2 == s₂

theorem exists_of_hasRow {b n₁ s₁ n₂ s₂ : Nat} (h : hasRow b n₁ s₁ n₂ s₂ = true) :
    ∃ acc reset mask, ⟨b, n₁, s₁, n₂, s₂, acc, reset, mask⟩ ∈ regTable := by
  obtain ⟨⟨_, _, _, _, _, acc, reset, mask⟩, hr, he⟩ := List.any_eq_true.mp h
  simp only [Bool.and_eq_true, beq_iff_eq, and_assoc] at he
  obtain ⟨rfl, rfl, rfl, rfl, rfl⟩ := he
  exact ⟨acc, reset, mask, hr⟩

theorem eq_of_ite {α : Type} {p : Prop} {inst : Decidable p} {x y z : α} (hx : p → x = z) (hy : ¬ p → y = z) :
    (if p then x else y) = z :=
  ite_eq_iff'.mpr ⟨hx, hy⟩

section
variable {o : Nat} {v : Word} {s : State} (h : regRow o = none)
include h

/-- A register's offset is not reserved. -/
theorem reserved_ne {c : Nat} (hc : (regRow c).isSome = true) : o ≠ c := by
  rintro rfl
  rw [h] at hc
  cases hc

theorem reserved_not_hit {r : RegRow} (hr : r ∈ regTable) (ho : regHit o r = true) : False :=
  absurd ho (List.find?_eq_none.mp h r hr)

/-- No offset of a run of `n` registers, `k` bytes apart, is reserved. -/
theorem reserved_not_in_run (b n k : Nat) (hrow : hasRow b 1 0 n k = true) (hk : k ≠ 0) (hb : b ≤ o) (hm : (o - b) % k = 0)
    (hn : (o - b) / k < n) : False := by
  obtain ⟨acc, reset, mask, hr⟩ := exists_of_hasRow hrow
  exact reserved_not_hit h hr (by simp [regHit, hk, hb, hm, hn])

/-- No offset of a register that `n` pages, `k` bytes apart, hold is reserved. -/
theorem reserved_not_in_pages (b n k : Nat) (hrow : hasRow b n k 1 0 = true) (hk : k ≠ 0) (hb : b ≤ o) (hm : (o - b) % k = 0)
    (hn : (o - b) / k < n) : False := by
  obtain ⟨acc, reset, mask, hr⟩ := exists_of_hasRow hrow
  have hi : min ((o - b) / k) (n - 1) = (o - b) / k := min_eq_left (by omega)
  have he : (o - b) / k * k = o - b := Nat.div_mul_cancel (Nat.dvd_of_mod_eq_zero hm)
  exact reserved_not_hit h hr (by simp [regHit, hk, hb, hi, he])

theorem plainWrite_reserved : plainWrite o v s = s := by simp only [plainWrite, h]

theorem writeDev_reserved : writeDev o v s = s := by
  have ht : ¬ (decide (0x200 ≤ o) && decide (o < 0x300) && decide (o % 16 = 0)) = true := fun hb => by
    simp only [Bool.and_eq_true, decide_eq_true_eq] at hb
    exact reserved_not_in_run h 0x200 16 16 (by decide +kernel) (by omega) (by omega) (by omega) (by omega)
  rw [writeDev, if_neg (reserved_ne h rfl), if_neg ht, plainWrite_reserved h]

theorem writeMbx_reserved : writeMbx o v s = s := by
  rw [writeMbx, if_neg (reserved_ne h rfl), plainWrite_reserved h, ite_self]

theorem writeTick_reserved : writeTick o v s = s := by
  have ha : ¬ (decide (0x80120 ≤ o) && decide (o < 0x80140) && decide (o % 4 = 0)) = true := fun hb => by
    simp only [Bool.and_eq_true, decide_eq_true_eq] at hb
    exact reserved_not_in_run h 0x80120 8 4 (by decide +kernel) (by omega) (by omega) (by omega) (by omega)
  have hc : ¬ (decide (0x90000 ≤ o) && decide (o < 0x98000) && decide (o % 4 = 0)) = true := fun hb => by
    simp only [Bool.and_eq_true, decide_eq_true_eq] at hb
    have h0 : o ≠ 0x90000 := reserved_ne h rfl
    have h4 : o ≠ 0x90004 := reserved_ne h rfl
    rcases Nat.mod_two_eq_zero_or_one (o / 4) with hp | hp
    · exact reserved_not_in_run h 0x90008 4095 8 (by decide +kernel) (by omega) (by omega) (by omega) (by omega)
    · exact reserved_not_in_run h 0x9000C 4095 8 (by decide +kernel) (by omega) (by omega) (by omega) (by omega)
  rw [writeTick, if_neg (reserved_ne h rfl), if_neg (reserved_ne h rfl), if_neg (reserved_ne h rfl), if_neg (reserved_ne h rfl),
    if_neg (reserved_ne h rfl), if_neg (reserved_ne h rfl), if_neg (reserved_ne h rfl), if_neg (reserved_ne h rfl),
    if_neg (reserved_ne h rfl), if_neg (reserved_ne h rfl), if_neg (reserved_ne h rfl), if_neg ha, if_neg hc,
    if_neg (reserved_ne h rfl), plainWrite_reserved h]

theorem writeRa_reserved : writeRa o v s = s := by
  have hp : ¬ (decide (0xC1000 ≤ o) && decide (o < 0xC5000) && decide (o % 4 = 0)) = true := fun hb => by
    simp only [Bool.and_eq_true, decide_eq_true_eq] at hb
    exact reserved_not_in_run h 0xC1000 4096 4 (by decide +kernel) (by omega) (by omega) (by omega) (by omega)
  have hw : o ≠ Reg.raWavePeriod := reserved_ne h rfl
  rw [writeRa, if_neg (reserved_ne h rfl), if_neg hp, if_neg (by simp [hw]), plainWrite_reserved h]

theorem writeLnk_reserved (hlo : 0x100000 ≤ o) (hhi : o < 0x240000) : writeLnk ((o - 0x100000) / 65536) o v s = s := by
  have hctl : o ≠ Reg.lnkCtl ((o - 0x100000) / 65536) := fun he => by
    unfold Reg.lnkCtl at he
    exact reserved_not_in_pages h 0x100004 20 65536 (by decide +kernel) (by omega) (by omega) (by omega) (by omega)
  have hcfg : o ≠ Reg.lnkCfg ((o - 0x100000) / 65536) := fun he => by
    unfold Reg.lnkCfg at he
    rcases Nat.lt_or_ge o 0x200000 with hs | hs
    · exact reserved_not_in_pages h 0x100000 16 65536 (by decide +kernel) (by omega) (by omega) (by omega) (by omega)
    · exact reserved_not_in_pages h 0x200000 4 65536 (by decide +kernel) (by omega) (by omega) (by omega) (by omega)
  rw [writeLnk, if_neg hctl, if_neg hcfg, plainWrite_reserved h]

theorem writeFab_reserved : writeFab o v s = s := by
  have hq : o ≠ Reg.fabQuiet := reserved_ne h rfl
  have ht : o ≠ Reg.fabQueryTo := reserved_ne h rfl
  rw [writeFab, if_neg (reserved_ne h rfl), if_neg (by simp [hq, ht]), plainWrite_reserved h]

theorem writeQ_reserved (hlo : 0x400000 ≤ o) (hhi : o < 0x480000) : writeQ ((o - 0x400000) / 256) (o % 256) v s = s := by
  have hne (r : Nat) (hrow : hasRow (0x400000 + r) 2048 256 1 0 = true) : o % 256 ≠ r := fun he =>
    reserved_not_in_pages h (0x400000 + r) 2048 256 hrow (by omega) (by omega) (by omega) (by omega)
  have ho : Reg.qcfg ((o - 0x400000) / 256) + o % 256 = o := by unfold Reg.qcfg; omega
  rw [writeQ, if_neg (hne 0x00 (by decide +kernel)), if_neg (hne 0x04 (by decide +kernel)), if_neg (hne 0x10 (by decide +kernel)),
    if_neg (hne 0x28 (by decide +kernel)), ho, plainWrite_reserved h]

theorem writePool_reserved : writePool o v s = s := by
  rw [writePool, if_neg (reserved_ne h rfl), plainWrite_reserved h]
  split_ifs with hr hp
  · simp only [Bool.and_eq_true, decide_eq_true_eq] at hr hp
    exact (reserved_not_in_pages h 0x510004 256 256 (by decide +kernel) (by omega) (by omega) (by omega) (by omega)).elim
  · rfl
  · rfl

theorem writeTest_reserved (hlo : 0x600000 ≤ o) : writeTest o v s = s := by
  have hb : o ≠ Reg.testBgCfg := reserved_ne h rfl
  have hr : o ≠ Reg.testRawCtl := reserved_ne h rfl
  rw [writeTest, if_neg (c := (decide (o = Reg.testBgCfg) && _) = true) (by simp [hb]), if_neg hr,
    plainWrite_reserved h, ite_self]
  split_ifs with hsec hcfg hx
  · exact (reserved_not_in_pages h 0x600000 8 256 (by decide +kernel) (by omega) (by omega) (by omega) (by omega)).elim
  · exact (reserved_not_in_pages h 0x600084 8 256 (by decide +kernel) (by omega) (by omega) (by omega) (by omega)).elim
  · rfl
  · rfl

theorem writeTrc_reserved : writeTrc o v s = s := by
  have hc : o ≠ Reg.trcCfg := reserved_ne h rfl
  have hp : ¬ (decide (0x701000 ≤ o) && decide (o < 0x709000) && decide (o % 4 = 0)) = true := fun hb => by
    simp only [Bool.and_eq_true, decide_eq_true_eq] at hb
    obtain ⟨acc, reset, mask, hr⟩ :=
      exists_of_hasRow (b := 0x701000) (n₁ := 8) (s₁ := 4096) (n₂ := 1024) (s₂ := 4) (by decide +kernel)
    have hm : min ((o - 0x701000) / 4096) 7 = (o - 0x701000) / 4096 := by omega
    refine reserved_not_hit h hr ?_
    simp only [regHit, Nat.reduceSub, hm, Nat.reduceEqDiff, if_false, Bool.and_eq_true, decide_eq_true_eq]
    omega
  rw [writeTrc, if_neg (reserved_ne h rfl), if_neg (by simp [hc]), if_neg (reserved_ne h rfl), if_neg (reserved_ne h rfl),
    if_neg hp, plainWrite_reserved h]

theorem writeHost_reserved (hlo : 0x800000 ≤ o) : writeHost o v s = s := by
  unfold writeHost
  refine eq_of_ite (fun hp => ?page) fun _ => eq_of_ite (fun hd => ?dma) fun _ => eq_of_ite (fun hx => ?msix) fun _ =>
    plainWrite_reserved h
  case page =>
    have hne (r : Nat) (hrow : hasRow (0x800000 + r) 64 4096 1 0 = true) : o % 0x1000 ≠ r := fun he =>
      reserved_not_in_pages h (0x800000 + r) 64 4096 hrow (by omega) (by omega) (by omega) (by omega)
    have h0 := hne 0x00 (by decide +kernel)
    have h4 := hne 0x04 (by decide +kernel)
    have h8 := hne 0x08 (by decide +kernel)
    rw [if_neg (by simp [h0, h4, h8]), if_neg (hne 0x18 (by decide +kernel)), plainWrite_reserved h]
  case dma =>
    simp only [Bool.and_eq_true, decide_eq_true_eq] at hd
    have hne (r : Nat) (hrow : hasRow (0x841000 + r) 16 256 1 0 = true) : o % 0x100 ≠ r := fun he =>
      reserved_not_in_pages h (0x841000 + r) 16 256 hrow (by omega) (by omega) (by omega) (by omega)
    have h0 := hne 0x00 (by decide +kernel)
    have h4 := hne 0x04 (by decide +kernel)
    have h8 := hne 0x08 (by decide +kernel)
    rw [if_neg (by simp [h0, h4, h8]), if_neg (hne 0x0C (by decide +kernel))]
  case msix =>
    simp only [Bool.and_eq_true, decide_eq_true_eq] at hx
    exact (reserved_not_in_pages h 0x88000C 2048 16 (by decide +kernel) (by omega) (by omega) (by omega) (by omega)).elim

theorem writeEddy_reserved (hlo : 0x1000000 ≤ o) (hhi : o < 0x2000000) :
    writeEddy ((o - 0x1000000) / 0x8000) (o % 0x8000) v s = s := by
  have hne (r : Nat) (hrow : hasRow (0x1000000 + r) 512 32768 1 0 = true) : o % 0x8000 ≠ r := fun he =>
    reserved_not_in_pages h (0x1000000 + r) 512 32768 hrow (by omega) (by omega) (by omega) (by omega)
  have ho : Reg.eddyId ((o - 0x1000000) / 0x8000) + o % 0x8000 = o := by unfold Reg.eddyId; omega
  rw [writeEddy, if_neg (hne 0x04 (by decide +kernel)), if_neg (hne 0x14 (by decide +kernel)),
    if_neg (hne 0x18 (by decide +kernel)), if_neg (hne 0x20 (by decide +kernel)), ho, plainWrite_reserved h]

/-- A write to a reserved offset changes nothing (R8). -/
theorem writeReg_reserved : writeReg o v s = s := by
  have claim : (if o = Reg.ldrClaimQ then claimQWrite v s else s) = s := if_neg (reserved_ne h rfl)
  have lc : writeLc o v s = s := if_neg (reserved_ne h rfl)
  have frz : (if o = Reg.frzPop then frzPop v s else s) = s := if_neg (reserved_ne h rfl)
  unfold writeReg
  exact eq_of_ite (fun _ => writeDev_reserved h) fun _ => eq_of_ite (fun _ => writeMbx_reserved h) fun _ =>
    eq_of_ite (fun _ => claim) fun _ => eq_of_ite (fun _ => lc) fun _ => eq_of_ite (fun _ => frz) fun _ =>
    eq_of_ite (fun _ => writeTick_reserved h) fun _ => eq_of_ite (fun _ => writeRa_reserved h) fun hlnk =>
    eq_of_ite (fun hhi => writeLnk_reserved h (not_lt.mp hlnk) hhi) fun _ => eq_of_ite (fun _ => rfl) fun _ =>
    eq_of_ite (fun _ => writeFab_reserved h) fun hq => eq_of_ite (fun hhi => writeQ_reserved h (not_lt.mp hq) hhi) fun _ =>
    eq_of_ite (fun _ => writePool_reserved h) fun ht => eq_of_ite (fun _ => writeTest_reserved h (not_lt.mp ht)) fun _ =>
    eq_of_ite (fun _ => writeTrc_reserved h) fun hh => eq_of_ite (fun _ => writeHost_reserved h (not_lt.mp hh)) fun he =>
    eq_of_ite (fun hhi => writeEddy_reserved h (not_lt.mp he) hhi) fun _ => rfl

end

end Sys2Proof.Machine
end

section
/-! SETTLED. Reads and writes of BAR0 (R5, R6, R8, R279, R385). -/

namespace Sys2Proof.Machine

section
variable {s : State} {o : Nat} {v : Word}

/-! ### Where an access goes -/

theorem hostRead_reset (h : s.dev.inReset = true) : hostRead o s = s := by simp [hostRead, h]
theorem hostWrite_reset {split : Bool} (h : s.dev.inReset = true) : hostWrite o v split s = s := by simp [hostWrite, h]

/-- A read in the management window. -/
theorem hostRead_window (hr : s.dev.inReset = false) (ho : o < 0x2000000) (hh : hostRegion o = none)
    (hs : s.dev.st ≠ .shuttingDown) : hostRead o s = mgmtRead o s := by
  simp [hostRead, hr, Nat.not_le.mpr ho, hh, hs]

/-- A read that SHUTTING_DOWN does not serve. -/
theorem hostRead_shut (hr : s.dev.inReset = false) (hs : s.dev.st = .shuttingDown) (hlo : 0x40000 ≤ o) (hhi : o < 0x2000000)
    (hh : hostRegion o = none) : hostRead o s = { s with rdata := 0 } := by
  simp [hostRead, hr, Nat.not_le.mpr hhi, hh, hs, shutReadable, Nat.not_lt.mpr hlo]

theorem shutWritable_high (hlo : 0x40000 ≤ o) : shutWritable o = false := by
  simp only [shutWritable, Bool.or_eq_false_iff, Bool.and_eq_false_iff, decide_eq_false_iff_not]
  omega

/-- A write that SHUTTING_DOWN discards. -/
theorem hostWrite_shut {split : Bool} (hr : s.dev.inReset = false) (hs : s.dev.st = .shuttingDown) (hw : shutWritable o = false)
    (hh : hostRegion o = none) : hostWrite o v split s = shutWrite o v s := by
  simp [hostWrite, hr, hh, hs, hw]

theorem not_discarded (hs : s.dev.st ≠ .shuttingDown ∨ shutWritable o = true) :
    (s.dev.st == .shuttingDown && !shutWritable o) = false := by
  rcases hs with hs | hs <;> simp [hs]

/-- A write that is served, to a register beside the sections' register paths. -/
theorem hostWrite_direct {split : Bool} (hr : s.dev.inReset = false) (hh : hostRegion o = none)
    (hs : s.dev.st ≠ .shuttingDown ∨ shutWritable o = true) (hsec : sectionOf o = none) :
    hostWrite o v split s = writeReg o v s := by
  simp [hostWrite, hr, hh, not_discarded hs, hsec]

/-- A write that is served, to a register of a section. -/
theorem hostWrite_section {split : Bool} {sec : Nat} (hr : s.dev.inReset = false) (hh : hostRegion o = none)
    (hs : s.dev.st ≠ .shuttingDown ∨ shutWritable o = true) (hsec : sectionOf o = some sec) :
    hostWrite o v split s = pathWrite sec o v split s := by
  simp [hostWrite, hr, hh, not_discarded hs, hsec]

/-! ### Reads -/

@[simp] theorem latchHi_rdata : (latchHi o s).rdata = s.rdata := by unfold latchHi; split_ifs <;> rfl
@[simp] theorem latchHi_fab : (latchHi o s).fab = s.fab := by unfold latchHi; split_ifs <;> rfl
@[simp] theorem latchHi_tick : (latchHi o s).tick = s.tick := by unfold latchHi; split_ifs <;> rfl
@[simp] theorem latchHi_pool : (latchHi o s).pool = s.pool := by unfold latchHi; split_ifs <;> rfl
@[simp] theorem latchHi_queues : (latchHi o s).queues = s.queues := by unfold latchHi; split_ifs <;> rfl

/-- A register that clears on a read: its value is returned, and it reads 0 from then on. -/
theorem mgmtRead_clears (hr : RegsOk s) (hu : ueLocStack o = none) (hc : clearsOnRead o = true) :
    (mgmtRead o s).rdata = readReg s o ∧ getReg (mgmtRead o s) o = 0#32 ∧ (mgmtRead o s).fab = s.fab ∧
    (mgmtRead o s).tick = s.tick ∧ (mgmtRead o s).pool = s.pool ∧ (mgmtRead o s).queues = s.queues := by
  have ht : transactorSets o s = s := by simp [transactorSets, eventCtx_none_of_clears hc]
  have hm : mgmtRead o s =
      setReg o 0 (latchHi o { (if (freeRead s o).isSome then drawFree s else s) with rdata := readReg s o }) := by
    simp [mgmtRead, hu, ht, hc]
  have hk : Keeps s (if (freeRead s o).isSome then drawFree s else s) := .ite (Keeps.refl s).drawFree (Keeps.refl s)
  rw [hm]
  refine ⟨by simp, getReg_setReg_self (hk.beside.latchHi.regs hr), ?_⟩
  simp only [setReg_fab, setReg_tick, setReg_pool, setReg_queues, latchHi_fab, latchHi_tick, latchHi_pool, latchHi_queues]
  split <;> exact ⟨rfl, rfl, rfl, rfl⟩

/-! ### Writes -/

/-- What a write by access type leaves in the register, and that it touches no other. -/
theorem plainWrite_regs {r : RegRow} (hr : RegsOk s) (hrow : regRow o = some r) :
    OnlyParts [.regs] s (plainWrite o v s) ∧ OnlyRegs [o] s (plainWrite o v s) ∧
    getReg (plainWrite o v s) o = (match r.acc with
      | .rw => (getReg s o &&& ~~~(w32 r.mask)) ||| (v &&& w32 r.mask)
      | .w1c => getReg s o &&& ~~~(v &&& w32 r.mask)
      | .w1s => getReg s o ||| (v &&& w32 r.mask)
      | _ => getReg s o) := by
  have hset (w : Word) : OnlyParts [.regs] s (setReg o w s) ∧ OnlyRegs [o] s (setReg o w s) ∧ getReg (setReg o w s) o = w :=
    ⟨OnlyParts.refl.setReg (by simp), OnlyRegs.refl.setReg (by simp), getReg_setReg_self hr⟩
  simp only [plainWrite, hrow]
  cases r.acc with
  | rw => exact hset _
  | w1c => exact hset _
  | w1s => exact hset _
  | _ => exact ⟨.refl, .refl, rfl⟩

/-- Below the mailbox lie no host region and no section. -/
theorem identity_block (h : o < 0x10000) : hostRegion o = none ∧ sectionOf o = none ∧ shutWritable o = true := by
  refine ⟨?_, ?_, ?_⟩
  · unfold hostRegion
    simp only [Bool.and_eq_true, decide_eq_true_eq]
    rw [if_neg (by omega), if_neg (by omega), if_neg (by omega)]
  · unfold sectionOf
    simp only [Bool.and_eq_true, decide_eq_true_eq]
    rw [if_neg (by omega), if_neg (by omega), if_neg (by omega), if_neg (by omega), if_neg (by omega)]
  · simp only [shutWritable, Bool.or_eq_true, decide_eq_true_eq]
    omega

theorem writeReg_identity (h : o < 0x10000) (he : o ≠ Reg.devEventEn) (ht : ¬ (0x200 ≤ o ∧ o < 0x300 ∧ o % 16 = 0)) :
    writeReg o v s = plainWrite o v s := by
  rw [writeReg, if_pos h, writeDev, if_neg he, if_neg (by simpa [and_assoc] using ht)]

/-- SHUTTING_DOWN discards a write but for GSR_CTL and EDDY_CTL. -/
theorem shutWrite_discards (hg : o ≠ Reg.gsrCtl) (he : ¬ (0x1000000 ≤ o ∧ o < 0x2000000 ∧ o % 0x8000 = 4)) :
    shutWrite o v s = s := by
  rw [shutWrite, if_neg hg, if_neg (by simpa [and_assoc] using he)]

/-- EDDY_CTL in SHUTTING_DOWN shows its own code. -/
theorem shutWrite_eddyCtl (e : Fin 512) : shutWrite (Reg.eddyCtl e) v s = setEddy e { getEddy s e with result := 5 } s := by
  have hg : Reg.eddyCtl e ≠ Reg.gsrCtl := by unfold Reg.eddyCtl Reg.gsrCtl; omega
  have hc : (decide (0x1000000 ≤ Reg.eddyCtl e) && decide (Reg.eddyCtl e < 0x2000000) &&
      decide (Reg.eddyCtl e % 0x8000 = 4)) = true := by
    simp only [Bool.and_eq_true, decide_eq_true_eq]
    unfold Reg.eddyCtl
    omega
  have hn : (Reg.eddyCtl e - 0x1000000) / 0x8000 = e := by unfold Reg.eddyCtl; omega
  rw [shutWrite, if_neg hg, if_pos hc, hn]
  rfl

/-- The window of an eddy is no region of the host masters at its EDDY_CTL. -/
theorem hostRegion_eddyCtl (e : Fin 512) : hostRegion (Reg.eddyCtl e) = none := by
  unfold hostRegion Reg.eddyCtl
  simp only [Bool.and_eq_true, decide_eq_true_eq]
  rw [if_neg (by omega), if_neg (by omega), if_neg (by omega)]

/-- The register path is free: the whole transfer is this write. -/
theorem pathWrite_free {sec : Nat} (hp : (getPath s sec).data = none) : pathWrite sec o v false s = writeReg o v s := by
  simp [pathWrite, viaPath, hp]

/-- The register path is busy: the write waits, and is counted. -/
theorem pathWrite_busy {split : Bool} {sec : Nat} (hp : (getPath s sec).data.isSome = true) : pathWrite sec o v split s =
    bump (Reg.xingBusyCount sec) (setPath sec { getPath s sec with kept := (getPath s sec).kept ++ [(o, v)] } s) := by
  rw [pathWrite, viaPath, if_pos hp]

/-- A path at which a write waits is not as an unlisted one, so that it reads back as it was put. -/
theorem getPath_setPath_kept {sec : Nat} {p : RegPath} (hp : p.kept ≠ []) : getPath (setPath sec p s) sec = p := by
  have hd : p ≠ dPath sec := fun he => hp (by rw [he]; rfl)
  simp only [getPath, setPath, mset, if_neg hd, mget_mput, if_true]

/-- A write to a reserved offset, the register path of its section being free. -/
theorem hostWrite_reserved {split : Bool} (h : regRow o = none) (hh : hostRegion o = none)
    (hp : ∀ sec, sectionOf o = some sec → (getPath s sec).data = none ∧ split = false) : hostWrite o v split s = s := by
  rcases Bool.eq_false_or_eq_true s.dev.inReset with hr | hr
  · exact hostWrite_reset hr
  · by_cases hs : s.dev.st ≠ .shuttingDown ∨ shutWritable o = true
    · cases hsec : sectionOf o with
      | none => rw [hostWrite_direct hr hh hs hsec, writeReg_reserved h]
      | some sec =>
        obtain ⟨hd, rfl⟩ := hp sec hsec
        rw [hostWrite_section hr hh hs hsec, pathWrite_free hd, writeReg_reserved h]
    · obtain ⟨hst, hw⟩ := not_or.mp hs
      rw [hostWrite_shut hr (not_not.mp hst) (Bool.not_eq_true _ ▸ hw) hh, shutWrite_discards (reserved_ne h rfl)]
      rintro ⟨hlo, hhi, hm⟩
      exact reserved_not_in_pages h 0x1000004 512 32768 (by decide +kernel) (by omega) (by omega) (by omega) (by omega)

end

/-- Settles O51: each access by where it goes (`hostRead_window`, `hostWrite_direct`, `hostWrite_section`, …); a reserved offset
by `writeReg_reserved`. -/
theorem registerAccess : Obligations.RegisterAccess := by
  refine ⟨fun s o v split hr => ⟨⟨_, rfl, hostRead_reset hr⟩, ⟨_, rfl, hostWrite_reset hr⟩⟩,
    fun s o hok hr hs hlt hh hu hc => ⟨_, rfl, ?clears⟩, fun s o hr hs hlo hhi hh => ⟨_, rfl, ?shutRead⟩,
    fun s o v split r hok hr hlt he ht hrow => ⟨_, rfl, ?identity⟩,
    fun s o v split h hh hp => ⟨_, rfl, hostWrite_reserved h hh hp⟩, fun s o v split hs hlo hh hg hc => ⟨_, rfl, ?discard⟩,
    fun s e o v split hst hr hs ho => ⟨_, rfl, ?eddyCtl⟩, fun s o v split sec hok hr hs hh hsec hp => ⟨_, rfl, ?busy⟩⟩
  case clears =>
    rw [hostRead_window hr hlt hh hs]
    exact mgmtRead_clears hok hu hc
  case shutRead =>
    rw [hostRead_shut hr hs hlo hhi hh]
    exact ⟨rfl, OnlyParts.refl.rdata (by simp)⟩
  case identity =>
    obtain ⟨hh, hsec, hw⟩ := identity_block hlt
    rw [hostWrite_direct hr hh (.inr hw) hsec, writeReg_identity hlt he ht]
    exact plainWrite_regs hok hrow
  case discard =>
    rcases Bool.eq_false_or_eq_true s.dev.inReset with hr | hr
    · exact hostWrite_reset hr
    · rw [hostWrite_shut hr hs (shutWritable_high hlo) hh, shutWrite_discards hg hc]
  case eddyCtl =>
    have hlo : 0x40000 ≤ Reg.eddyCtl e := by unfold Reg.eddyCtl; omega
    obtain ⟨-, -, -, -, -, -, -, heddies, -⟩ := hst
    rw [ho, hostWrite_shut hr hs (shutWritable_high hlo) (hostRegion_eddyCtl e), shutWrite_eddyCtl]
    exact ⟨(getEddy_setEddy s _ _ _ heddies).trans (if_pos rfl), fun d hd => getEddy_setEddy_ne s _ _ _ (Ne.symm hd),
      OnlyParts.refl.setEddy (by simp)⟩
  case busy =>
    have hok' : RegsOk (setPath sec { getPath s sec with kept := (getPath s sec).kept ++ [(o.toNat, v)] } s) := hok
    have hpath := getPath_setPath_kept (s := s) (sec := sec)
      (p := { getPath s sec with kept := (getPath s sec).kept ++ [(o.toNat, v)] }) (by simp)
    rw [hostWrite_section hr hh (.inl hs) hsec, pathWrite_busy hp]
    exact ⟨(congrArg RegPath.kept hpath :), (congrArg RegPath.data hpath :), getReg_setReg_self hok',
      (OnlyRegs.of_regs_eq rfl).bump (by simp), (OnlyParts.refl.setPath (by simp)).bump (by simp)⟩

end Sys2Proof.Machine
end

section
/-! SUPPORT. Frames of operations that change several parts of the state: the parts and the registers that each may change. One
lemma for each operation, as for `Keeps` and `ChansOk`: a chain `h.f.g` reads in the order in which the operations act. -/

namespace Sys2Proof.Machine

/-- A value that is not the default is listed, and reads back in any data. -/
theorem mget_mset_listed {α : Type} [DecidableEq α] (d : Nat → α) (m : SMap α) (k : Nat) (v : α) (h : v ≠ d k) :
    mget d (mset d m k v) k = v := by
  rw [mset, if_neg h, mget_mput, if_pos rfl]

section
variable {s t u : State} {ps qs : List Part}

theorem OnlyParts.mono (h : OnlyParts ps s t) (hs : ps ⊆ qs) : OnlyParts qs s t := fun p hp => h p fun hm => hp (hs hm)

/-! ### Changes of one part -/

section
variable (h : OnlyParts ps s t)
include h

theorem OnlyParts.dev {x : Dev} (hp : Part.dev ∈ ps) : OnlyParts ps s { t with dev := x } :=
  h.trans <| .of_single hp fun q hq => by cases q <;> simp_all [samePart]

theorem OnlyParts.fab {x : Fabric} (hp : Part.fab ∈ ps) : OnlyParts ps s { t with fab := x } :=
  h.trans <| .of_single hp fun q hq => by cases q <;> simp_all [samePart]

theorem OnlyParts.bm {x : SMap Block} (hp : Part.bm ∈ ps) : OnlyParts ps s { t with bm := x } :=
  h.trans <| .of_single hp fun q hq => by cases q <;> simp_all [samePart]

theorem OnlyParts.chans {x : SMap Chan} (hp : Part.chans ∈ ps) : OnlyParts ps s { t with chans := x } :=
  h.trans <| .of_single hp fun q hq => by cases q <;> simp_all [samePart]

theorem OnlyParts.net {x : DevFab} (hp : Part.net ∈ ps) : OnlyParts ps s { t with net := x } :=
  h.trans <| .of_single hp fun q hq => by cases q <;> simp_all [samePart]

theorem OnlyParts.queues {x : SMap Queue} (hp : Part.queues ∈ ps) : OnlyParts ps s { t with queues := x } :=
  h.trans <| .of_single hp fun q hq => by cases q <;> simp_all [samePart]

theorem OnlyParts.pool {x : Pools} (hp : Part.pool ∈ ps) : OnlyParts ps s { t with pool := x } :=
  h.trans <| .of_single hp fun q hq => by cases q <;> simp_all [samePart]

theorem OnlyParts.msix {x : Msix} (hp : Part.msix ∈ ps) : OnlyParts ps s { t with msix := x } :=
  h.trans <| .of_single hp fun q hq => by cases q <;> simp_all [samePart]

theorem OnlyParts.host {x : HostPort} (hp : Part.host ∈ ps) : OnlyParts ps s { t with host := x } :=
  h.trans <| .of_single hp fun q hq => by cases q <;> simp_all [samePart]

theorem OnlyParts.ldr {x : Loader} (hp : Part.ldr ∈ ps) : OnlyParts ps s { t with ldr := x } :=
  h.trans <| .of_single hp fun q hq => by cases q <;> simp_all [samePart]

theorem OnlyParts.nv {x : Nv} (hp : Part.nv ∈ ps) : OnlyParts ps s { t with nv := x } :=
  h.trans <| .of_single hp fun q hq => by cases q <;> simp_all [samePart]

theorem OnlyParts.mbx {x : Mailbox} (hp : Part.mbx ∈ ps) : OnlyParts ps s { t with mbx := x } :=
  h.trans <| .of_single hp fun q hq => by cases q <;> simp_all [samePart]

theorem OnlyParts.frz {x : Freeze} (hp : Part.frz ∈ ps) : OnlyParts ps s { t with frz := x } :=
  h.trans <| .of_single hp fun q hq => by cases q <;> simp_all [samePart]

theorem OnlyParts.scr {x : SMap Scrubber} (hp : Part.scr ∈ ps) : OnlyParts ps s { t with scr := x } :=
  h.trans <| .of_single hp fun q hq => by cases q <;> simp_all [samePart]

theorem OnlyParts.rep {x : Repair} (hp : Part.rep ∈ ps) : OnlyParts ps s { t with rep := x } :=
  h.trans <| .of_single hp fun q hq => by cases q <;> simp_all [samePart]

theorem OnlyParts.trc {x : Trace} (hp : Part.trc ∈ ps) : OnlyParts ps s { t with trc := x } :=
  h.trans <| .of_single hp fun q hq => by cases q <;> simp_all [samePart]

theorem OnlyParts.free {x : Nat} (hp : Part.free ∈ ps) : OnlyParts ps s { t with free := x } :=
  h.trans <| .of_single hp fun q hq => by cases q <;> simp_all [samePart]

theorem OnlyParts.regs {x : SMap Word} (hp : Part.regs ∈ ps) : OnlyParts ps s { t with regs := x } :=
  h.trans <| .of_single hp fun q hq => by cases q <;> simp_all [samePart]

end

end

/-! ### Parts and registers -/

/-- From `s` to `t` no part changed but those listed, and no register but those that `rs` holds of. -/
structure Touches (ps : List Part) (rs : Nat → Prop) (s t : State) : Prop where
  parts : OnlyParts ps s t
  regs : ∀ o, ¬ rs o → getReg t o = getReg s o

section
variable {a s t : State} {ps qs : List Part} {rs rs' : Nat → Prop}

theorem Touches.refl : Touches ps rs s s := ⟨.refl, fun _ _ => rfl⟩

theorem Touches.trans (h : Touches ps rs a s) (h' : Touches ps rs s t) : Touches ps rs a t :=
  ⟨h.parts.trans h'.parts, fun o ho => (h'.regs o ho).trans (h.regs o ho)⟩

theorem Touches.mono (h : Touches ps rs s t) (hp : ps ⊆ qs) (hr : ∀ o, rs o → rs' o) : Touches qs rs' s t :=
  ⟨h.parts.mono hp, fun o ho => h.regs o fun hn => ho (hr o hn)⟩

theorem Touches.ite {c : Prop} {inst : Decidable c} (hs : Touches ps rs a s) (ht : Touches ps rs a t) :
    Touches ps rs a (if c then s else t) := by
  split <;> assumption

variable (h : Touches ps rs a s)
include h

/-- A change of parts beside the register file. -/
theorem Touches.beside (hp : OnlyParts ps s t) (hr : t.regs = s.regs) : Touches ps rs a t :=
  h.trans ⟨hp, fun o _ => by rw [getReg, hr, getReg]⟩

theorem Touches.forEach {α : Type} {f : α → State → State} {l : List α}
    (hf : ∀ x t, Touches ps rs a t → Touches ps rs a (f x t)) : Touches ps rs a (forEach f l s) :=
  forEach_keeps (Touches ps rs a) f hf l s h

theorem Touches.setReg {o : Nat} {v : Word} (hp : Part.regs ∈ ps) (ho : rs o) : Touches ps rs a (setReg o v s) :=
  h.trans ⟨OnlyParts.refl.setReg hp, fun r hr => getReg_setReg_ne s o r v fun e => hr (e ▸ ho)⟩

theorem Touches.bump {o : Nat} (hp : Part.regs ∈ ps) (ho : rs o) : Touches ps rs a (bump o s) := h.setReg hp ho

theorem Touches.bumpBy {o n : Nat} (hp : Part.regs ∈ ps) (ho : rs o) : Touches ps rs a (bumpBy o n s) := .ite h (h.setReg hp ho)

theorem Touches.latchFirst {o : Nat} {v : Word} (hp : Part.regs ∈ ps) (ho : rs o) : Touches ps rs a (latchFirst o v s) :=
  .ite h (h.setReg hp ho)

/-- Registers put back to their reset values. -/
theorem Touches.clearRegs {p : Nat → Bool} (hp : Part.regs ∈ ps) (ho : ∀ o, p o = true → rs o) :
    Touches ps rs a (clearRegs p s) :=
  h.trans ⟨OnlyParts.refl.regs hp, fun o hn => by
    have hk : p o = false := Bool.eq_false_iff.mpr fun e => hn (ho o e)
    exact (mget_filter resetOf (fun o => !p o) s.regs o).trans (by rw [hk]; rfl)⟩

theorem Touches.drawFree (hp : Part.free ∈ ps) : Touches ps rs a (drawFree s) := h.beside (OnlyParts.refl.free hp) rfl

theorem Touches.raiseVec {v : Nat} (hp : Part.msix ∈ ps) : Touches ps rs a (raiseVec v s) :=
  .ite (h.beside (OnlyParts.refl.msix hp) rfl) (h.beside (OnlyParts.refl.msix hp) rfl)

theorem Touches.setChan {c : Nat} {x : Chan} (hp : Part.chans ∈ ps) : Touches ps rs a (setChan c x s) :=
  h.beside (OnlyParts.refl.setChan hp) rfl

theorem Touches.setEddy {e : Nat} {x : Eddy} (hp : Part.eddies ∈ ps) : Touches ps rs a (setEddy e x s) :=
  h.beside (OnlyParts.refl.setEddy hp) rfl

theorem Touches.tick {x : TickEngine} (ht : Part.tick ∈ ps) : Touches ps rs a { s with tick := x } :=
  h.beside (OnlyParts.refl.tick ht) rfl

theorem Touches.mbx {x : Mailbox} (hm : Part.mbx ∈ ps) : Touches ps rs a { s with mbx := x } :=
  h.beside (OnlyParts.refl.mbx hm) rfl

theorem Touches.enterHalt {code : Nat} {multi : Bool} (ht : Part.tick ∈ ps) (hp : Part.regs ∈ ps) (ho : rs Reg.tickCause) :
    Touches ps rs a (enterHalt code multi s) :=
  (h.tick ht).setReg hp ho

theorem Touches.joinFault {code : Nat} (ht : Part.tick ∈ ps) (hf : Part.free ∈ ps) (hp : Part.regs ∈ ps) (ho : rs Reg.tickCause) :
    Touches ps rs a (joinFault code s) :=
  .ite h (.ite ((h.drawFree hf).setReg hp ho) ((h.drawFree hf).beside (OnlyParts.refl.tick ht) rfl))

end

/-! ### The device fabric (R228, R239) -/

/-- What forwarding a flit may change: channels, deliveries, and, where it has no route, the engine and interrupts. -/
def netParts : List Part := [.regs, .chans, .net, .msix, .tick, .free]

/-- The registers that forwarding a flit may change lie from the tick block up to the forwarding table. -/
abbrev NetReg (o : Nat) : Prop := 0x80000 ≤ o ∧ o < 0x301000

section
variable {a s : State} (h : Touches netParts NetReg a s)
include h

theorem Touches.freeSlot {f : Flit} : Touches netParts NetReg a (freeSlot f s) := by
  unfold Machine.freeSlot
  split
  · exact .ite (h.setChan (by decide)) h
  · exact h

theorem Touches.netBeside {x : DevFab} : Touches netParts NetReg a { s with net := x } :=
  h.beside (OnlyParts.refl.net (by decide)) rfl

theorem Touches.chansNet {x : SMap Chan} {y : DevFab} : Touches netParts NetReg a { s with chans := x, net := y } :=
  Touches.netBeside (s := { s with chans := x }) (h.beside (OnlyParts.refl.chans (by decide)) rfl)

theorem Touches.deliverHere {f : Flit} : Touches netParts NetReg a (deliverHere f s) := h.netBeside.freeSlot

theorem Touches.enqueue {c dl : Nat} {f : Flit} : Touches netParts NetReg a (enqueue c dl f s) := h.setChan (by decide)

theorem Touches.haltNoRoute : Touches netParts NetReg a (haltNoRoute s) :=
  .ite (h.enterHalt (by decide) (by decide) (by decide))
    (.ite (h.joinFault (by decide) (by decide) (by decide) (by decide)) h)

theorem Touches.fabCause {code : Nat} : Touches netParts NetReg a (fabCause code s) := h.setReg (by decide) (by decide)

theorem Touches.spreadNotice {p : Payload} {skip : Option Nat} : Touches netParts NetReg a (spreadNotice p skip s) :=
  h.forEach fun _ _ h => h.enqueue

theorem Touches.flowNoRoute {code src dst : Nat} : Touches netParts NetReg a (flowNoRoute code src dst s) := by
  unfold Machine.flowNoRoute
  dsimp only
  generalize hu : Machine.fabCause code (Machine.bump Reg.fabNoRoute { s with net := { s.net with noRoute := true } }) = u
  have hn : Touches netParts NetReg a u := hu ▸ (h.netBeside.bump (by decide) (by decide)).fabCause
  have hv : Touches netParts NetReg a (if s.net.noRoute = true then u else Machine.raiseVec 5 u) :=
    .ite hn (hn.raiseVec (by decide))
  exact .ite hv.spreadNotice.haltNoRoute hv.spreadNotice

theorem Touches.nameFlow {code : Nat} {f : Flit} {s₀ : State} : Touches netParts NetReg a (nameFlow code f s₀ s) :=
  .ite h h.flowNoRoute

theorem Touches.holdFlit {x : HeldFlit} : Touches netParts NetReg a (holdFlit x s) := h.netBeside

theorem Touches.keepNoRoute {code : Nat} {f : Flit} : Touches netParts NetReg a (keepNoRoute code f s) :=
  .ite (h.bump (by decide) (by decide)).freeSlot h.holdFlit.nameFlow

theorem Touches.turnAndSend {c : Nat} {f : Flit} : Touches netParts NetReg a (turnAndSend c f s) :=
  .enqueue (.ite (h.bump (by decide) (by decide)) h)

theorem Touches.fabBad {f : Flit} : Touches netParts NetReg a (fabBad f s) := (h.bump (by decide) (by decide)).freeSlot

theorem Touches.forwardBy {lost : Flit → State → State} {f : Flit}
    (hlost : ∀ x t, Touches netParts NetReg a t → Touches netParts NetReg a (lost x t)) :
    Touches netParts NetReg a (forwardBy lost f s) := by
  refine .ite h.fabBad <| .ite (.ite h.deliverHere h.fabBad) <| .ite (.ite h.deliverHere h.fabBad) <|
    .ite h.deliverHere <| .ite h.deliverHere <| .ite (hlost _ _ h) <| .ite h.holdFlit <| .ite h.holdFlit ?_
  split
  exacts [h.turnAndSend, hlost _ _ h]

theorem Touches.poolNoRoute {f : Flit} : Touches netParts NetReg a (poolNoRoute f s) :=
  .ite h.freeSlot.netBeside (h.freeSlot.forwardBy fun _ _ h => h.keepNoRoute)

theorem Touches.holdNoRoute {code : Nat} {f : Flit} : Touches netParts NetReg a (holdNoRoute code f s) :=
  .ite h.poolNoRoute.nameFlow h.keepNoRoute

theorem Touches.forward {f : Flit} : Touches netParts NetReg a (forward f s) := h.forwardBy fun _ _ h => h.holdNoRoute

theorem Touches.releaseHeld : Touches netParts NetReg a (releaseHeld s) := h.netBeside.forEach fun _ _ h => h.forward

/-- A new table in force changes no more than the flits that it lets go. -/
theorem Touches.newTables : Touches netParts NetReg a (newTables s) := by
  unfold Machine.newTables
  exact .releaseHeld (.forEach h.chansNet.netBeside fun _ _ h => h.forward)

end

end Sys2Proof.Machine
end

section
/-! SETTLED. PORST_N and the rails (R33, R442, R443, R455, R456, R512, R517). -/

namespace Sys2Proof.Machine

section
variable (s : State) (inReset high : Bool) (straps : BitVec 4)

/-! ### What reset leaves -/

@[simp] theorem deviceReset_dev : (deviceReset inReset high straps s).dev =
    { inReset := inReset, porstHigh := high, straps := straps, cond := s.dev.cond } := rfl
@[simp] theorem deviceReset_pending : (deviceReset inReset high straps s).pending = s.pending := rfl
@[simp] theorem deviceReset_nv : (deviceReset inReset high straps s).nv = s.nv := rfl
@[simp] theorem deviceReset_jtag : (deviceReset inReset high straps s).jtag = s.jtag := rfl
@[simp] theorem deviceReset_mbx : (deviceReset inReset high straps s).mbx = { tagRun := s.mbx.tagRun } := rfl
@[simp] theorem deviceReset_pins : (deviceReset inReset high straps s).pins = { absent := s.pins.absent } := rfl
@[simp] theorem deviceReset_host : (deviceReset inReset high straps s).host =
    { bar2 := s.host.bar2, perstHigh := s.host.perstHigh, training := !inReset && s.host.perstHigh } := rfl

/-- Every part that does not outlive reset is as after power-up. -/
theorem deviceReset_fresh :
    FreshBut [.dev, .pending, .nv, .free, .jtag, .mbx, .pins, .host, .regs] (deviceReset inReset high straps s) := by
  intro p hp
  cases p <;> simp_all [samePart, deviceReset]

/-- The register file after reset lists only what shows a stored value. -/
theorem deviceReset_eq_setReg : ∃ u, u.regs = State.reset.regs ∧ deviceReset inReset high straps s =
    setReg Reg.mbxCtrHi (w32 (s.nv.counter / 2 ^ 32)) (setReg Reg.lcFloor1Hi (w32 (s.nv.floor1 / 2 ^ 32))
      (setReg Reg.lcFloor2Hi (w32 (s.nv.floor2 / 2 ^ 32)) u)) := by
  refine ⟨_, ?_, rfl⟩
  rfl

/-- The registers that show stored values (R455, R456); no other differs from its reset value. -/
theorem deviceReset_regs :
    getReg (deviceReset inReset high straps s) Reg.mbxCtrHi = w32 (s.nv.counter / 2 ^ 32) ∧
    getReg (deviceReset inReset high straps s) Reg.lcFloor1Hi = w32 (s.nv.floor1 / 2 ^ 32) ∧
    getReg (deviceReset inReset high straps s) Reg.lcFloor2Hi = w32 (s.nv.floor2 / 2 ^ 32) ∧
    OnlyRegs [Reg.mbxCtrHi, Reg.lcFloor1Hi, Reg.lcFloor2Hi] State.reset (deviceReset inReset high straps s) := by
  obtain ⟨u, hr, e⟩ := deviceReset_eq_setReg s inReset high straps
  have hok : RegsOk u := by rw [RegsOk, hr]; rfl
  rw [e]
  refine ⟨getReg_setReg_self hok.setReg.setReg, ?_, ?_, ?_⟩
  · rw [getReg_setReg_ne _ _ _ _ (by decide), getReg_setReg_self hok.setReg]
  · rw [getReg_setReg_ne _ _ _ _ (by decide), getReg_setReg_ne _ _ _ _ (by decide), getReg_setReg_self hok]
  · have h0 : OnlyRegs [Reg.mbxCtrHi, Reg.lcFloor1Hi, Reg.lcFloor2Hi] State.reset u := .of_regs_eq hr
    exact ((h0.setReg (by simp)).setReg (by simp)).setReg (by simp)

end

/-! ### What PORST_N does before it resets -/

/-- The counter that a command past step 4 leaves (R442). -/
def usedCounter (s : State) : Nat := if s.mbx.phase = .storing then max s.nv.counter (bufN s 12 8) else s.nv.counter

/-- The slots that a zeroise response still owes as PORST_N falls. -/
def owedWipe (s : State) : Option (BitVec 4) :=
  if s.ldr.zeroise then some (s.ldr.erase ||| s.nv.zeroDue.getD 0) else s.nv.zeroDue

theorem useCounter_eq (s : State) :
    ∃ r, useCounter s = { s with regs := r, nv := { s.nv with counter := usedCounter s } } := by
  by_cases h : s.mbx.phase = .storing
  · exact ⟨_, by simp only [useCounter, usedCounter, h, beq_self_eq_true, if_true]; rfl⟩
  · exact ⟨s.regs, by simp [useCounter, usedCounter, h]⟩

theorem keepZero_eq (s : State) : keepZero s = { s with nv := { s.nv with zeroDue := owedWipe s } } := by
  by_cases h : s.ldr.zeroise = true <;> simp [keepZero, owedWipe, h]

/-- PORST_N low: a reset, which finds the counter used up, the owed wipe due and, where a slot was being written or erased, that
slot empty. -/
theorem porstAssert_eq (s : State) :
    ∃ m, porstAssert s = deviceReset true false s.dev.straps
        { s with nv := { s.nv with counter := usedCounter s, zeroDue := owedWipe s, slots := m } } ∧
      (s.mbx.phase = .idle → m = s.nv.slots) := by
  obtain ⟨r, hr⟩ := useCounter_eq s
  have hk : keepZero (useCounter s) =
      { s with regs := r, nv := { s.nv with counter := usedCounter s, zeroDue := owedWipe s } } := by
    rw [keepZero_eq, hr]; rfl
  unfold porstAssert
  rw [hk]
  dsimp only
  split
  next h => exact ⟨_, rfl, fun hi => by simp [hi] at h⟩
  next h => exact ⟨_, rfl, fun hi => by simp [hi] at h⟩
  next => exact ⟨s.nv.slots, rfl, fun _ => rfl⟩

/-- With no command being stored and no wipe owed, what outlives PORST_N is as it was. -/
theorem outlives_idle {s : State} (hi : s.mbx.phase = .idle) (hz : s.ldr.zeroise = false) :
    usedCounter s = s.nv.counter ∧ owedWipe s = s.nv.zeroDue := by
  simp [usedCounter, owedWipe, hi, hz]

theorem porstRelease_high {s : State} {straps : BitVec 4} {rails : Bool} (h : s.dev.porstHigh = true) :
    porstRelease straps rails s = s := by simp [porstRelease, h]

theorem porstRelease_low {s : State} {straps : BitVec 4} {rails : Bool} (h : s.dev.porstHigh = false) :
    porstRelease straps rails s = deviceReset (!rails) true straps s := by simp [porstRelease, h]

/-- The device acts on a release that found a rail missing: a reset, but for the tamper watch (R449). -/
theorem railsInRange_starts {s : State} (hr : s.dev.inReset = true) (hp : s.dev.porstHigh = true) :
    railsInRange s = { deviceReset false true s.dev.straps s with
      dev := { (deviceReset false true s.dev.straps s).dev with watch := s.dev.watch } } := by
  simp [railsInRange, hr, hp]

/-- Settles O10: each command is a reset of the device (`porstAssert_eq`, `porstRelease_low`, `railsInRange_starts`), and
`deviceReset_regs` and `deviceReset_fresh` say what a reset leaves. -/
theorem resetPins : Obligations.ResetPins := by
  refine ⟨fun s => ?assert, fun s straps rails hp => ?release, fun s straps rails hp => ⟨_, rfl, porstRelease_high hp⟩,
    fun s hr hp => ?rails⟩
  case assert =>
    obtain ⟨m, he, hm⟩ := porstAssert_eq s
    refine gives_of_exec rfl ?_
    rw [he]
    refine ⟨rfl, rfl, rfl, rfl, rfl, rfl, rfl, rfl, fun hi hz => ?_, rfl, rfl, rfl, rfl, ?_⟩
    · obtain ⟨hc, hd⟩ := outlives_idle hi hz
      rw [hm hi, hc, hd]
      rfl
    · obtain ⟨h1, h2, h3, ho⟩ := deviceReset_regs { s with nv := { s.nv with counter := usedCounter s, zeroDue := owedWipe s, slots := m } }
        true false s.dev.straps
      exact ⟨h1, h2, h3, ho, deviceReset_fresh _ _ _ _⟩
  case release =>
    refine gives_of_exec rfl ?_
    rw [porstRelease_low hp]
    obtain ⟨-, -, -, ho⟩ := deviceReset_regs s (!rails) true straps
    exact ⟨rfl, rfl, rfl, rfl, rfl, rfl, rfl, rfl, by simp, rfl, rfl, ho, deviceReset_fresh _ _ _ _⟩
  case rails =>
    refine gives_of_exec rfl ?_
    rw [railsInRange_starts hr hp]
    obtain ⟨-, -, -, ho⟩ := deviceReset_regs s false true s.dev.straps
    refine ⟨rfl, rfl, rfl, rfl, rfl, rfl, rfl, rfl, rfl, ho, fun p hd => ?_⟩
    have hf := deviceReset_fresh s false true s.dev.straps p hd
    cases p <;> simp_all [samePart]

end Sys2Proof.Machine
end

section
/-! SETTLED. TICK_CMD (R62, R129, R145–R147). -/

namespace Sys2Proof.Machine

section
variable {s t : State}

/-! ### TICK_CMD_STAT -/

theorem getReg_cmdStat (hs : RegsOk s) (last result : Nat) :
    getReg (cmdStat last result s) Reg.tickCmdStat = w32 (16 * last + result) := getReg_setReg_self hs

theorem getReg_cmdStat_ne {o : Nat} (ho : o ≠ Reg.tickCmdStat) (last result : Nat) :
    getReg (cmdStat last result s) o = getReg s o := getReg_setReg_ne s _ o _ ho.symm

theorem OnlyParts.cmdStat {ps : List Part} {last result : Nat} (h : OnlyParts ps s t) (hp : Part.regs ∈ ps) :
    OnlyParts ps s (cmdStat last result t) := h.setReg hp

/-- A command that changes nothing but TICK_CMD_STAT. -/
theorem cmdStat_only (hs : RegsOk s) (last result : Nat) :
    getReg (cmdStat last result s) Reg.tickCmdStat = w32 (16 * last + result) ∧ OnlyParts [.regs] s (cmdStat last result s) :=
  ⟨getReg_cmdStat hs last result, OnlyParts.refl.cmdStat (by simp)⟩

theorem OnlyParts.enterHalt {ps : List Part} {code : Nat} {multi : Bool} (h : OnlyParts ps s t) (hr : Part.regs ∈ ps)
    (ht : Part.tick ∈ ps) : OnlyParts ps s (enterHalt code multi t) := (h.tick ht).setReg hr

theorem getReg_enterHalt (hs : RegsOk s) (code : Nat) (multi : Bool) :
    getReg (enterHalt code multi s) Reg.tickCause = w32 (code + 256 * b2n multi) :=
  getReg_setReg_self (s := { s with tick := _ }) hs

theorem getReg_enterHalt_ne {o : Nat} (ho : o ≠ Reg.tickCause) (code : Nat) (multi : Bool) :
    getReg (enterHalt code multi s) o = getReg s o := getReg_setReg_ne _ _ o _ ho.symm

/-! ### Which branch a start command takes (R62, R129, R147) -/

theorem not_startHeld_of_fault (h : s.tick.st = .fault) : startHeld s = false := by simp [startHeld, h]

theorem engineStill_of_fault (h : s.tick.st = .fault) : engineStill s = false := by simp [engineStill, h]

/-- A start with nothing in its way goes ahead. -/
theorem startCmd_goes {cmd : Nat} {go : State → State} (hp : s.tick.pend = none) (hn : s.tick.numberEnd = false)
    (hb : bndUnreachable s = false) : startCmd cmd go s = go s := by simp [startCmd, hp, hn, hb]

theorem tickRun_notAllowed (h : deviceUp s = false) : tickRun s = cmdStat 1 5 s := by simp [tickRun, engineAllowed, h]
theorem tickPaced_notAllowed (h : deviceUp s = false) : tickPaced s = cmdStat 2 5 s := by simp [tickPaced, engineAllowed, h]
theorem tickStep_notAllowed (n : Nat) (h : deviceUp s = false) : tickStep n s = cmdStat 4 5 s := by
  simp [tickStep, engineAllowed, h]

section
variable (hu : deviceUp s = true)
include hu

theorem tickRun_held (h : startHeld s = true) : tickRun s = holdStart 1 0 s := by simp [tickRun, engineAllowed, hu, h]
theorem tickPaced_held (h : startHeld s = true) : tickPaced s = holdStart 2 0 s := by simp [tickPaced, engineAllowed, hu, h]
theorem tickStep_held (n : Nat) (h : startHeld s = true) : tickStep n s = holdStart 4 n s := by
  simp [tickStep, engineAllowed, hu, h]

theorem tickRun_fault (h : s.tick.st = .fault) : tickRun s = cmdStat 1 2 s := by
  simp [tickRun, engineAllowed, hu, not_startHeld_of_fault h, engineStill_of_fault h, h]
theorem tickPaced_fault (h : s.tick.st = .fault) : tickPaced s = cmdStat 2 2 s := by
  simp [tickPaced, engineAllowed, hu, not_startHeld_of_fault h, engineStill_of_fault h, h]
theorem tickStep_fault (n : Nat) (h : s.tick.st = .fault) : tickStep n s = cmdStat 4 2 s := by
  simp [tickStep, engineAllowed, hu, not_startHeld_of_fault h, engineStill_of_fault h]

variable (hh : startHeld s = false) (he : engineStill s = true) (hp : s.tick.pend = none) (hn : s.tick.numberEnd = false)
  (hb : bndUnreachable s = false)
include hh he hp hn hb

theorem tickRun_starts : tickRun s = cmdStat 1 1 (startTicking .run s) := by
  simp [tickRun, engineAllowed, hu, hh, he, startCmd_goes hp hn hb]

theorem tickPaced_starts : tickPaced s = cmdStat 2 1 (startTicking .paced s) := by
  simp [tickPaced, engineAllowed, hu, hh, he, startCmd_goes hp hn hb]

theorem tickStep_starts {n : Nat} (h0 : n ≠ 0) : tickStep n s = cmdStat 4 1 { startTicking .run s with
    tick := { (startTicking .run s).tick with stepping := true, stepEnd := nextTick (startTicking .run s) + n } } := by
  simp [tickStep, engineAllowed, hu, hh, he, startCmd_goes hp hn hb, h0]

theorem tickStep_zero : tickStep 0 s = cmdStat 4 3 (bump Reg.tickRangeCount s) := by
  simp [tickStep, engineAllowed, hu, hh, he, startCmd_goes hp hn hb]

end

/-- The engine starts with a result: the registers but TICK_CMD_STAT, and every part beside the engine and run-ahead, stay. -/
theorem starts_frame (hs : RegsOk s) (last : Nat) (x : TickEngine) (r : RunAhead) :
    getReg (cmdStat last 1 { s with tick := x, ra := r }) Reg.tickCmdStat = w32 (16 * last + 1) ∧
    OnlyRegs [Reg.tickCmdStat] s (cmdStat last 1 { s with tick := x, ra := r }) ∧
    OnlyParts [.tick, .ra, .regs] s (cmdStat last 1 { s with tick := x, ra := r }) :=
  have ht : OnlyParts [.tick, .ra, .regs] s { s with tick := x } := OnlyParts.refl.tick (by simp)
  ⟨getReg_cmdStat (s := { s with tick := x, ra := r }) hs last 1, (OnlyRegs.of_regs_eq rfl).setReg (by simp),
    (ht.ra (by simp)).cmdStat (by simp)⟩

/-! ### STOP and CLEAR (R129, R145, R146) -/

theorem tickStop_refused (h : ¬ (s.tick.st = .run ∨ s.tick.st = .paced)) : tickStop s = cmdStat 3 2 s := by
  simp only [not_or] at h
  simp [tickStop, h]

/-- STOP while a tick is in progress waits for its end. -/
theorem tickStop_inTick (h : s.tick.st = .run ∨ s.tick.st = .paced) (hi : s.tick.inTick = true) :
    tickStop s = { cmdStat 3 1 s with tick := { s.tick with stopReq := true } } := by
  simp [tickStop, h, cmdStat, hi]

/-- STOP between two ticks halts at once; a rollback that was decided is then re-evaluated. -/
theorem tickStop_between (h : s.tick.st = .run ∨ s.tick.st = .paced) (hi : s.tick.inTick = false) :
    ∃ r, tickStop s = { enterHalt 1 false (cmdStat 3 1 s) with ra := r } := by
  simp only [tickStop, h, cmdStat, setReg_tick, hi, Bool.or_eq_true, beq_iff_eq, if_true, Bool.false_eq_true, if_false]
  by_cases hb : s.ra.rb.isSome = true
  · exact ⟨_, if_pos hb⟩
  · exact ⟨s.ra, if_neg hb⟩

theorem tickClear_notFault (h : s.tick.st ≠ .fault) : tickClear s = cmdStat 5 2 s := by simp [tickClear, h]

theorem tickClear_present (h : s.tick.st = .fault) (hc : ¬ clearable s (fld (getReg s Reg.tickCause) 0 8) = true) :
    tickClear s = cmdStat 5 4 s := by simp [tickClear, h, hc]

/-- CLEAR once the cause is gone: HALTED, and a rollback recorded in FAULT goes on. -/
theorem tickClear_gone (h : s.tick.st = .fault) (hc : clearable s (fld (getReg s Reg.tickCause) 0 8) = true) :
    ∃ r, tickClear s = { cmdStat 5 1 { s with tick := { s.tick with st := .halted, cycle := false } } with ra := r } := by
  simp only [tickClear, h, hc, bne_self_eq_false, Bool.not_true, Bool.false_eq_true, if_false]
  split
  · exact ⟨s.ra, rfl⟩
  · exact ⟨_, rfl⟩

end

/-- Settles O19: each command by the branch that its state selects (`tickRun_held`, `tickRun_starts`, …); what a start leaves
is said by `starts_frame`, what a refusal leaves by `cmdStat_only`. -/
theorem tickCommands : Obligations.TickCommands := by
  refine ⟨fun s hs hu hh => ?held, fun s hs hr hu he hp hn hb hh => ?starts, fun s n hs hr hu => ?notAllowed,
    fun s n hs hr hu hf => ?fault, fun s hs hr => gives_mgmt rfl hs ?stop, fun s hs hr => gives_mgmt rfl hs ?clear,
    fun s cmd hs hr => gives_mgmt rfl hs ⟨getReg_cmdStat hr _ 7, OnlyRegs.refl.setReg (by simp), OnlyParts.refl.cmdStat (by simp)⟩⟩
  case held =>
    have hf (x : TickEngine) : OnlyParts [.tick] s { s with tick := x } := OnlyParts.refl.tick (by simp)
    refine ⟨gives_mgmt rfl hs ?_, gives_mgmt rfl hs ?_, fun n => gives_mgmt rfl hs ?_⟩
    · rw [tickRun_held hu hh]; exact ⟨rfl, hf _⟩
    · rw [tickPaced_held hu hh]; exact ⟨rfl, hf _⟩
    · rw [tickStep_held hu _ hh]; exact ⟨rfl, hf _⟩
  case starts =>
    refine ⟨gives_mgmt rfl hs ?_, gives_mgmt rfl hs ?_, fun n h0 => gives_mgmt rfl hs ?_, gives_mgmt rfl hs ?_⟩
    · rw [tickRun_starts hu hh he hp hn hb]
      exact ⟨rfl, rfl, rfl, starts_frame hr 1 _ _⟩
    · rw [tickPaced_starts hu hh he hp hn hb]
      exact ⟨rfl, rfl, rfl, starts_frame hr 2 _ _⟩
    · have h0 : n.toNat ≠ 0 := fun e => h0 (BitVec.eq_of_toNat_eq e)
      rw [tickStep_starts hu hh he hp hn hb h0]
      exact ⟨rfl, rfl, rfl, starts_frame hr 4 _ _⟩
    · have hz : (0 : BitVec 16).toNat = 0 := rfl
      rw [hz, tickStep_zero hu hh he hp hn hb]
      have hc : getReg (bump Reg.tickRangeCount s) Reg.tickRangeCount = satInc (getReg s Reg.tickRangeCount) := getReg_setReg_self hr
      exact ⟨rfl, getReg_cmdStat hr.setReg 4 3, (getReg_cmdStat_ne (by decide) 4 3).trans hc,
        (OnlyParts.refl.bump (by simp)).cmdStat (by simp)⟩
  case notAllowed =>
    refine ⟨gives_mgmt rfl hs ?_, gives_mgmt rfl hs ?_, gives_mgmt rfl hs ?_⟩
    · rw [tickRun_notAllowed hu]; exact cmdStat_only hr 1 5
    · rw [tickPaced_notAllowed hu]; exact cmdStat_only hr 2 5
    · rw [tickStep_notAllowed _ hu]; exact cmdStat_only hr 4 5
  case fault =>
    refine ⟨gives_mgmt rfl hs ?_, gives_mgmt rfl hs ?_, gives_mgmt rfl hs ?_⟩
    · rw [tickRun_fault hu hf]; exact cmdStat_only hr 1 2
    · rw [tickPaced_fault hu hf]; exact cmdStat_only hr 2 2
    · rw [tickStep_fault hu _ hf]; exact cmdStat_only hr 4 2
  case stop =>
    split_ifs with h hi
    · rw [tickStop_inTick h hi]
      exact ⟨getReg_cmdStat hr 3 1, (OnlyParts.refl.cmdStat (by simp)).tick (by simp), rfl, rfl⟩
    · obtain ⟨r, e⟩ := tickStop_between h (Bool.eq_false_iff.mpr hi)
      rw [e]
      have hst : getReg (enterHalt 1 false (cmdStat 3 1 s)) Reg.tickCmdStat = 0x31#32 :=
        (getReg_enterHalt_ne (by decide) 1 false).trans (getReg_cmdStat hr 3 1)
      exact ⟨hst, ((OnlyParts.refl.cmdStat (by simp)).enterHalt (by simp) (by simp)).ra (by simp), rfl,
        getReg_enterHalt hr.setReg 1 false⟩
    · rw [tickStop_refused h]; exact cmdStat_only hr 3 2
  case clear =>
    split_ifs with h hc
    · obtain ⟨r, e⟩ := tickClear_gone h hc
      rw [e]
      exact ⟨rfl, getReg_cmdStat (s := { s with tick := _ }) hr 5 1,
        ((OnlyParts.refl.tick (by simp)).cmdStat (by simp)).ra (by simp)⟩
    · rw [tickClear_present h hc]; exact cmdStat_only hr 5 4
    · rw [tickClear_notFault h]; exact cmdStat_only hr 5 2

end Sys2Proof.Machine
end

section
/-! SUPPORT. What the shutdown leaves: the health record, the contents of what a test destroyed, and the wiped secure parts
(R336, R470–R472). -/

namespace Sys2Proof.Machine

/-! ### The health record (R472) -/

section
variable {s t : State}

/-- What the health record says depends on the store alone. -/
theorem newestRec_congr (ha : t.nv.healthA = s.nv.healthA) (hb : t.nv.healthB = s.nv.healthB) : newestRec t = newestRec s := by
  unfold newestRec
  rw [ha, hb]

theorem SeqRoom.congr (h : SeqRoom s) (ha : t.nv.healthA = s.nv.healthA) (hb : t.nv.healthB = s.nv.healthB) : SeqRoom t := by
  intro r hr
  exact h r ((newestRec_congr ha hb).symm.trans hr)

/-- The next sequence number is above that of every valid copy. -/
theorem seq_lt_of_room (h : SeqRoom s) {c : HealthRec} (hc : s.nv.healthA = some c ∨ s.nv.healthB = some c) :
    c.seq < (match newestRec s with | some o => o.seq + 1 | none => 1) % 2 ^ 32 := by
  obtain ⟨o, ho, hle⟩ : ∃ o, newestRec s = some o ∧ c.seq ≤ o.seq := by
    unfold newestRec
    rcases hc with hc | hc <;> rw [hc]
    · cases s.nv.healthB with
      | none => exact ⟨c, rfl, le_refl _⟩
      | some b => exact ⟨_, rfl, by split <;> omega⟩
    · cases s.nv.healthA with
      | none => exact ⟨c, rfl, le_refl _⟩
      | some a => exact ⟨_, rfl, by split <;> omega⟩
  have := h o ho
  rw [ho]
  change c.seq < (o.seq + 1) % 2 ^ 32
  rw [Nat.mod_eq_of_lt this]
  omega

/-- A record just written is the newest. -/
theorem newestRec_writeRec (r : HealthRec) (h : SeqRoom s) :
    ∃ n f o, newestRec (writeRec r s) = some { r with seq := n, fails := f, overflow := o } := by
  have hlt := fun c => seq_lt_of_room (c := c) h
  unfold writeRec
  dsimp only
  generalize (match newestRec s with | some o => o.seq + 1 | none => 1) % 2 ^ 32 = n at hlt ⊢
  refine ⟨n, r.fails.take 256, decide (256 < r.fails.length), ?_⟩
  split
  · unfold newestRec
    cases ha : s.nv.healthA with
    | none => rfl
    | some a => simp [hlt a (.inl ha)]
  · unfold newestRec
    cases hb : s.nv.healthB with
    | none => rfl
    | some b => simp [Nat.not_lt.mpr (hlt b (.inr hb)).le]

theorem writeRec_parts (r : HealthRec) : OnlyParts [.nv] s (writeRec r s) := OnlyParts.refl.nv (by simp)

end

/-! ### What a test segment destroys (R470, R475) -/

section
variable {s t : State} {ps : List Part} (h : OnlyParts ps s t)
include h

theorem OnlyParts.setScr {sec : Nat} {x : Scrubber} (hp : Part.scr ∈ ps) : OnlyParts ps s (setScr sec x t) := h.scr hp

theorem OnlyParts.forEach {α : Type} {f : α → State → State} {l : List α}
    (hf : ∀ x t, OnlyParts ps s t → OnlyParts ps s (f x t)) : OnlyParts ps s (forEach f l t) :=
  forEach_keeps (OnlyParts ps s) f hf l t h

end

theorem loseSection_parts (sec : Nat) (s : State) :
    OnlyParts [.fab, .bm, .queues, .ra, .scr, .free] s (loseSection sec s) := by
  refine OnlyParts.setScr (fun p hp => ?_) (by simp)
  cases p <;> simp_all [samePart]

/-- A segment of the self-test destroys what `testedParts` lists, and no more. -/
theorem destroy_parts (k : Nat) (s : State) : OnlyParts (testedParts k) s (destroy k s) := by
  have hfree (ps : List Part) (hp : Part.free ∈ ps) : OnlyParts ps s { s with free := s.free + 2 ^ 30 } := OnlyParts.refl.free hp
  unfold destroy testedParts
  dsimp only
  split_ifs
  · exact loseSection_parts k s
  · exact (hfree _ (by simp)).queues (by simp)
  · exact (hfree _ (by simp)).pool (by simp)
  · exact (hfree _ (by simp)).forEach fun _ _ h => h.setEddy (by simp)
  · exact (hfree _ (by simp)).ra (by simp)
  · exact .refl

/-- No segment destroys the test's own record or the store. -/
theorem destroy_keeps (k : Nat) (s : State) : (destroy k s).rep = s.rep ∧ (destroy k s).nv = s.nv := by
  have hn : Part.rep ∉ testedParts k ∧ Part.nv ∉ testedParts k := by
    unfold testedParts
    split_ifs <;> simp
  exact ⟨destroy_parts k s .rep hn.1, destroy_parts k s .nv hn.2⟩

/-! ### Wiping the secure parts (R336) -/

/-- The secure part of an eddy is wiped. -/
def SecretsGone (x : Eddy) : Prop := x.wipe = false ∧ ∀ i ≥ 7680, mget dHbm x.spad i = dHbm i

theorem secretsGone_wiped (x : Eddy) : SecretsGone (wiped x) := by
  refine ⟨rfl, fun i hi => (mget_filter dHbm (fun k => decide (k < 7680)) x.spad i).trans (if_neg ?_)⟩
  simpa using hi

/-- A wiped eddy is none that is unlisted, so that it reads back in any bank. -/
theorem getEddy_wipeSecure (e : Nat) (s : State) : getEddy (wipeSecure e s) e = wiped (getEddy s e) := by
  have hne : wiped (getEddy s e) ≠ dEddy e := fun he => by simpa [wiped, dEddy] using congrArg Eddy.wipe he
  exact mget_mset_listed dEddy s.eddies e _ hne

theorem getEddy_wipeSecure_ne {e d : Nat} (s : State) (h : d ≠ e) : getEddy (wipeSecure d s) e = getEddy s e :=
  getEddy_setEddy_ne s d e _ h

/-- What the update for one member brings about, and every other keeps, holds after all of them. -/
theorem forEach_reaches {α : Type} {P : State → Prop} {f : α → State → State} {a : α} (ha : ∀ t, P (f a t))
    (hk : ∀ b t, P t → P (f b t)) {l : List α} (hl : a ∈ l) (s : State) : P (forEach f l s) := by
  induction l generalizing s with
  | nil => cases hl
  | cons b l ih =>
    rcases List.mem_cons.mp hl with rfl | hl
    · exact forEach_keeps P f hk l _ (ha s)
    · exact ih hl _

theorem secretsGone_wipeSecrets (s : State) {e : Nat} (he : e < 512) : SecretsGone (getEddy (wipeSecrets s) e) := by
  refine forEach_reaches (P := fun t => SecretsGone (getEddy t e)) (a := e) (fun t => ?_) (fun d t ht => ?_) (mem_upTo.mpr he) s
  · rw [getEddy_wipeSecure]
    exact secretsGone_wiped _
  · by_cases hd : d = e
    · rw [hd, getEddy_wipeSecure]
      exact secretsGone_wiped _
    · rwa [getEddy_wipeSecure_ne t hd]

/-- Wiping counts in the eddies' own registers. -/
theorem wipeSecrets_touches (s : State) : Touches [.eddies, .regs] (fun o => 0x1000060 ≤ o) s (wipeSecrets s) :=
  Touches.refl.forEach fun e _ h => (h.setEddy (by simp)).bump (by simp) (by unfold Reg.eddyWipes; omega)

end Sys2Proof.Machine
end

section
/-! SUPPORT. What a shutdown and a load share: what each of their steps changes (R37, R38, R415). -/

namespace Sys2Proof.Machine

/-- Registers from the tick block on: neither the hub's own, nor the loader's, the mailbox's or the life cycle's. -/
abbrev HighReg (o : Nat) : Prop := 0x80000 ≤ o

section
variable {a s t : State} {ps qs : List Part} {rs rs' : Nat → Prop}

/-- An operation with a frame of its own, inside a wider one. -/
theorem Touches.andThen (h : Touches ps rs a s) (h' : Touches qs rs' s t) (hp : qs ⊆ ps) (hr : ∀ o, rs' o → rs o) :
    Touches ps rs a t := h.trans (h'.mono hp hr)

theorem Touches.trcEvent {bits : Nat} (h : Touches ps rs a s) (hp : Part.regs ∈ ps) (hm : Part.msix ∈ ps)
    (ho : rs Reg.trcEvent) : Touches ps rs a (trcEvent bits s) :=
  have ho : Touches ps rs a (orReg Reg.trcEvent (w32 bits) s) := h.setReg hp ho
  .ite ho (ho.raiseVec hm)

/-- No update at all, of the registers. -/
theorem touches_of_regs_eq (hp : OnlyParts ps s t) (hr : t.regs = s.regs) : Touches ps rs s t := Touches.refl.beside hp hr

/-- DEV_EVENT after an event: its bits are set, and nothing else changes there or in the other registers. -/
theorem devEvent_touches (bits : Nat) (s : State) : Touches [.regs, .msix] (fun o => o = Reg.devEvent) s (devEvent bits s) :=
  have ho : Touches [.regs, .msix] (fun o => o = Reg.devEvent) s (orReg Reg.devEvent (w32 bits) s) := Touches.refl.setReg (by simp) rfl
  .ite ho (ho.raiseVec (by simp))

theorem getReg_devEvent (hs : RegsOk s) (bits : Nat) :
    getReg (devEvent bits s) Reg.devEvent = getReg s Reg.devEvent ||| w32 bits := by
  unfold devEvent
  dsimp only
  split
  · exact getReg_setReg_self hs
  · rw [getReg_raiseVec]
    exact getReg_setReg_self hs

theorem devGo_touches (st : DevState) (cause : Nat) (s : State) :
    Touches [.regs, .dev] (fun o => o = Reg.devCause ∨ o = Reg.devTransitions) s (devGo st cause s) :=
  have hd : Touches [.regs, .dev] (fun o => o = Reg.devCause ∨ o = Reg.devTransitions) s { s with dev := { s.dev with st := st } } :=
    touches_of_regs_eq (OnlyParts.refl.dev (by simp)) rfl
  have hc := hd.setReg (v := w32 cause) (by simp) (.inl rfl)
  .ite (hc.bump (by simp) (.inr rfl)) hc

theorem devGo_dev' (st : DevState) (cause : Nat) (s : State) : (devGo st cause s).dev = { s.dev with st := st } := by
  unfold devGo
  dsimp only
  split <;> rfl

theorem getReg_devGo_cause (hs : RegsOk s) (st : DevState) (cause : Nat) : getReg (devGo st cause s) Reg.devCause = w32 cause := by
  have hd : RegsOk { s with dev := { s.dev with st := st } } := hs
  unfold devGo
  dsimp only
  split
  · exact (getReg_setReg_ne _ _ _ _ (by decide)).trans (getReg_setReg_self hd)
  · exact getReg_setReg_self hd

end

section
variable (s : State)

theorem dropPulse_touches : Touches [.fab] (fun _ => False) s (dropPulse s) :=
  .ite (touches_of_regs_eq (OnlyParts.refl.fab (by simp)) rfl) .refl

theorem snapAbort_touches : Touches [.regs, .trc, .msix] (fun o => o = Reg.trcEvent) s (snapAbort s) :=
  have ht : Touches [.regs, .trc, .msix] (fun o => o = Reg.trcEvent) s
      (trcResult 4 { s with trc := { s.trc with snap := .off, snapVals := none } }) :=
    touches_of_regs_eq (OnlyParts.refl.trc (by simp)) rfl
  .ite .refl (ht.trcEvent (by simp) (by simp) rfl)

theorem mapTiles_parts (f : Nat → Tile → Tile) : OnlyParts [.fab] s (mapTiles f s) := OnlyParts.refl.fab (by simp)

theorem forceSpacer_parts : OnlyParts [.fab, .bm] s (forceSpacer s) :=
  ((mapTiles_parts s _).mono (by simp)).bm (by simp)

theorem gsrAssert_parts : OnlyParts [.fab, .pool] s (gsrAssert s) := fun p hp => by
  cases p <;> simp_all [samePart, gsrAssert, initTiles, mapTiles]

theorem discardFrom_parts (t : Nat) : OnlyParts [.ra, .pool, .queues] s (discardFrom t s) := fun p hp => by
  cases p <;> simp_all [samePart, discardFrom, poolDiscardFrom, qDiscardFrom, journalBack]

/-- Abandoning a tick changes what the fabric drives and what the tick left in holds, and no register. -/
theorem abandonTick_touches :
    Touches [.fab, .bm, .tick, .ra, .pool, .queues] (fun _ => False) s (abandonTick s) := by
  have hd := (discardFrom_parts s (s.tick.nowP1 - 1)).mono (qs := [.fab, .bm, .tick, .ra, .pool, .queues]) (by simp)
  refine .ite (touches_of_regs_eq ?_ rfl) .refl
  exact (hd.tick (by simp)).trans ((forceSpacer_parts _).mono (by simp))

theorem gsrAssert_gsr : (gsrAssert s).fab.gsr = 0xFF#8 := rfl

/-- The tick engine as a shutdown leaves it: of the registers, only TICK_CAUSE changes. -/
theorem shutTick_touches :
    Touches [.regs, .fab, .bm, .tick, .ra, .pool, .queues] (fun o => o = Reg.tickCause) s (shutTick s) := by
  have ha := (abandonTick_touches s).mono (qs := [.regs, .fab, .bm, .tick, .ra, .pool, .queues]) (rs' := fun o => o = Reg.tickCause)
    (by simp) (by simp)
  have hd := ha.beside ((discardFrom_parts _ s.ra.com).mono (by simp)) rfl
  have hq : Touches [.regs, .fab, .bm, .tick, .ra, .pool, .queues] (fun o => o = Reg.tickCause) s
      (qDiscardFrom 0 (discardFrom s.ra.com (abandonTick s))) := hd.beside (OnlyParts.refl.queues (by simp)) rfl
  unfold shutTick
  dsimp only
  refine Touches.enterHalt ?_ (by simp) (by simp) rfl
  refine hq.beside (fun p hp => ?_) rfl
  cases p <;> simp_all [samePart]

theorem shutTick_halted : (shutTick s).tick.st = .halted := rfl

theorem getReg_shutTick_cause (hs : RegsOk s) : getReg (shutTick s) Reg.tickCause = 6#32 := by
  unfold shutTick
  have hd : RegsOk (discardFrom s.ra.com (abandonTick s)) := (Keeps.refl s).abandonTick.discardFrom.regs hs
  exact getReg_enterHalt (s := { qDiscardFrom 0 (discardFrom s.ra.com (abandonTick s)) with ra := _, tick := _ }) hd 6 false

/-- The channels go to DISABLED: no more changes than their causes. -/
theorem loadChans_touches : Touches [.regs, .chans] (fun o => 0x10000C ≤ o) s (loadChans s) := by
  have hf := Touches.refl (s := s) (ps := [.regs, .chans]) (rs := fun o => 0x10000C ≤ o) |>.forEach (l := s.chans)
    (f := fun (p : Nat × Chan) s => if p.2.st == .disabled then s else setReg (Reg.lnkCause p.1) 1 s)
    fun p t h => .ite h (h.setReg (by simp) (by unfold Reg.lnkCause; omega))
  exact hf.beside (OnlyParts.refl.chans (by simp)) rfl

end

/-- Every listed value of a rewritten bank is a rewritten one; the others are defaults. -/
theorem mget_mmap_or {α : Type} [DecidableEq α] (d : Nat → α) (f : Nat → α → α) (m : SMap α) (k : Nat) :
    (∃ v, mget d (mmap d f m) k = f k v) ∨ mget d (mmap d f m) k = d k := by
  induction m with
  | nil => exact .inr rfl
  | cons p m ih =>
    obtain ⟨i, w⟩ := p
    unfold mmap
    split_ifs
    · exact ih
    · by_cases hk : i = k
      · subst hk
        exact .inl ⟨w, by simp [mget]⟩
      · simpa [mget, hk] using ih

/-- Every channel is DISABLED, whether it was listed or not. -/
theorem loadChans_disabled (s : State) (c : Nat) : (getChan (loadChans s) c).st = .disabled := by
  have h := mget_mmap_or dChan (fun _ x => loadChan x) (forEach (fun (p : Nat × Chan) s =>
    if p.2.st == .disabled then s else setReg (Reg.lnkCause p.1) 1 s) s.chans s).chans c
  change (mget dChan (mmap dChan _ _) c).st = _
  rcases h with ⟨v, h⟩ | h <;> rw [h] <;> rfl

end Sys2Proof.Machine
end

section
/-! SETTLED. PWR_OFF_REQ_N and the shutdown self-test (R33, R37–R39, R129, R430, R470–R472). -/

namespace Sys2Proof.Machine

/-! ### The end of a keyed command and of a load (R430, R441) -/

/-- The registers of the mailbox block. -/
abbrev MbxReg (o : Nat) : Prop := 0x10000 ≤ o ∧ o < 0x11000

theorem mbxDone_touches (result block : Nat) (s : State) :
    Touches [.regs, .mbx, .msix] MbxReg s (mbxDone result block s) := by
  have h1 : Touches [.regs, .mbx, .msix] MbxReg s
      (setReg Reg.mbxStat (w32 (block * 2 ^ 16 + mbxCmd s % 256 * 2 ^ 8 + result)) s) := Touches.refl.setReg (by simp) (by decide)
  have h2 := Touches.ite (c := result = 0) (inst := instDecidableEqNat result 0) h1 (h1.bump (o := Reg.mbxRefused) (by simp) (by decide))
  have h3 := Touches.ite (c := result = 0x20) (inst := instDecidableEqNat result 0x20)
    (h2.bump (o := Reg.mbxRangeCount) (by simp) (by decide)) h2
  have h4 := h3.clearRegs (p := fun o => 0x10800 ≤ o && o < 0x11000) (by simp) fun o ho => by
    simp only [Bool.and_eq_true, decide_eq_true_eq] at ho
    omega
  exact (h4.mbx (by simp)).raiseVec (by simp)

theorem zeroised_touches (s : State) : Touches [.regs, .mbx, .msix] MbxReg s (zeroised s) := .ite (mbxDone_touches 0 0 s) .refl

/-- No load is under way, so that nothing is abandoned. -/
theorem abandonLoad_idle {s : State} (hb : s.ldr.busy = false) : abandonLoad s = s := by simp [abandonLoad, hb]

/-- The power-up test only stops. -/
theorem abandonLoad_powering {s : State} (hb : s.ldr.busy = true) (hp : s.ldr.pow ≠ .over) :
    abandonLoad s = { zeroised s with ldr := { s.ldr with busy := false, pow := .over, phase := .idle } } := by
  have hl : (zeroised s).ldr = s.ldr := (zeroised_touches s).parts .ldr (by simp)
  have e : (if s.mbx.phase == .zeroise then mbxDone 0 0 s else s) = zeroised s := rfl
  have hp' : (s.ldr.pow != .over) = true := by simpa using hp
  simp only [abandonLoad, hb, e, hl, hp']
  rfl

/-- A load under way ends as aborted, with its result. -/
theorem abandonLoad_loading {s : State} (hb : s.ldr.busy = true) (hp : s.ldr.pow = .over) :
    abandonLoad s = loadTook { setReg Reg.ldrResult (w32 (0x12 + 256 * s.ldr.attempt + 512 * b2n (zeroised s).dev.cfgErr))
      (setReg Reg.ldrLoc 0 (setAttempt (phaseCode s.ldr.phase) 0x12 (zeroised s))) with
      ldr := { s.ldr with phase := .aborted, busy := false, locked := false, due := [], starts := [], zeroise := false, erase := 0 } } := by
  have hl : (zeroised s).ldr = s.ldr := (zeroised_touches s).parts .ldr (by simp)
  have e : (if s.mbx.phase == .zeroise then mbxDone 0 0 s else s) = zeroised s := rfl
  simp only [abandonLoad, hb, e, hl, hp]
  rfl

theorem abandonLoad_parts (s : State) : OnlyParts [.regs, .mbx, .msix, .ldr, .free] s (abandonLoad s) := by
  have hm : OnlyParts [.regs, .mbx, .msix, .ldr, .free] s (zeroised s) := (zeroised_touches s).parts.mono (by simp)
  cases hb : s.ldr.busy with
  | false => rw [abandonLoad_idle hb]; exact .refl
  | true =>
    by_cases hp : s.ldr.pow = .over
    · have hr : OnlyParts [.regs, .mbx, .msix, .ldr, .free] s
          (setReg Reg.ldrLoc 0 (setAttempt (phaseCode s.ldr.phase) 0x12 (zeroised s))) := (hm.setReg (by simp)).setReg (by simp)
      rw [abandonLoad_loading hb hp]
      exact (((hr.setReg (by simp)).ldr (by simp)).free (by simp)).setReg (by simp)
    · rw [abandonLoad_powering hb hp]
      exact hm.ldr (by simp)

/-- A load under way is abandoned with LOAD_ABORTED. -/
theorem abandonLoad_aborted {s : State} (hs : RegsOk s) (hb : s.ldr.busy = true) (hp : s.ldr.pow = .over) :
    (abandonLoad s).ldr.phase = .aborted ∧ fld (getReg (abandonLoad s) Reg.ldrResult) 0 8 = 0x12 := by
  have hr : RegsOk (setReg Reg.ldrLoc 0 (setAttempt (phaseCode s.ldr.phase) 0x12 (zeroised s))) :=
    RegsOk.setReg (RegsOk.setReg ((Keeps.refl s).zeroised.regs hs))
  rw [abandonLoad_loading hb hp]
  refine ⟨rfl, ?_⟩
  rw [loadTook, getReg_setReg_ne _ _ _ _ (by decide), getReg_drawFree]
  change fld (getReg (setReg Reg.ldrResult _ _) Reg.ldrResult) 0 8 = 0x12
  rw [getReg_setReg_self hr]
  simp only [fld, w32, BitVec.toNat_ofNat, Nat.shiftRight_zero]
  omega

/-- A slot that was being written or erased is left empty: nothing else of the store changes (R454). -/
theorem abortSlot_parts (s : State) : OnlyParts [.regs, .mbx, .msix, .nv] s (abortSlot s) ∧
    ∃ m, (abortSlot s).nv = { s.nv with slots := m } := by
  have he (n : Nat) : OnlyParts [.regs, .mbx, .msix, .nv] s (mbxDone 0x0A 0 (eraseSlot n s)) ∧
      (mbxDone 0x0A 0 (eraseSlot n s)).nv = (eraseSlot n s).nv :=
    have hm := (mbxDone_touches 0x0A 0 (eraseSlot n s)).parts
    have hn : OnlyParts [.regs, .mbx, .msix, .nv] s (eraseSlot n s) := OnlyParts.refl.nv (by simp)
    ⟨hn.trans (hm.mono (by simp)), hm .nv (by simp)⟩
  unfold abortSlot
  split
  next => exact ⟨(he _).1, _, (he _).2⟩
  next => exact ⟨(he _).1, _, (he _).2⟩
  next => exact ⟨.refl, s.nv.slots, rfl⟩

theorem abortSlot_idle {s : State} (h : s.mbx.phase = .idle) : abortSlot s = s := by simp [abortSlot, h]

/-! ### Entering SHUTTING_DOWN (R37, R38) -/

/-- Engine, snapshot, set-reset pulse and channels stopped, and GSR asserted. -/
def halted (s : State) : State := loadChans (gsrAssert (shutTick (snapAbort (dropPulse s))))

/-- The device as a shutdown silences it: halted, outputs, writes, leases and trace off, and the test's record begun anew. -/
def silenced (s : State) : State :=
  let s := halted s
  { s with
    fab := { s.fab with tapsOn := false, writesOn := false }
    bg := { s.bg with leases := [] }
    trc := { s.trc with exporting := false, words := [], held := [] }
    pins := { s.pins with gioOut := 0, gioOe := 0, gioFirst := 0 }
    rep := { s.rep with seg := 0, found := [], segFail := 0, sweep := false } }

theorem enterShutdown_eq (cause events : Nat) (s : State) : enterShutdown cause events s =
    writeRec (shutRec (devEvent events (devGo .shuttingDown cause (silenced (abandonLoad s)))) false)
      (devEvent events (devGo .shuttingDown cause (silenced (abandonLoad s)))) := rfl

/-- What silencing may change: not the device state, the store, the loader or the mailbox. -/
def silenceParts : List Part :=
  [.regs, .fab, .bm, .tick, .ra, .chans, .pool, .queues, .msix, .bg, .trc, .pins, .rep]

theorem halted_touches (s : State) : Touches silenceParts HighReg s (halted s) := by
  have h1 := (Touches.refl (ps := silenceParts) (rs := HighReg)).andThen (dropPulse_touches s) (by decide) (by simp)
  have h2 := h1.andThen (snapAbort_touches _) (by decide) (by rintro _ rfl; decide)
  have h3 := h2.andThen (shutTick_touches _) (by decide) (by rintro _ rfl; decide)
  have h4 := h3.beside ((gsrAssert_parts _).mono (by decide)) rfl
  exact h4.andThen (loadChans_touches _) (by decide) (by intro o ho; omega)

theorem silenced_halted_parts (s : State) : OnlyParts [.fab, .bg, .trc, .pins, .rep] (halted s) (silenced s) := fun p hp => by
  cases p <;> simp_all [samePart, silenced]

theorem silenced_touches (s : State) : Touches silenceParts HighReg s (silenced s) :=
  (halted_touches s).beside ((silenced_halted_parts s).mono (by decide)) rfl

/-- The engine is halted with TICK_SHUTDOWN, GSR asserted, and every channel DISABLED. -/
theorem halted_spec {s : State} (hs : RegsOk s) :
    (halted s).tick.st = .halted ∧ getReg (halted s) Reg.tickCause = 6#32 ∧ (halted s).fab.gsr = 0xFF#8 ∧
    ∀ c, (getChan (halted s) c).st = .disabled := by
  have hq : RegsOk (snapAbort (dropPulse s)) := (Keeps.refl s).dropPulse.snapAbort.regs hs
  unfold halted
  generalize snapAbort (dropPulse s) = u at hq ⊢
  have hc := loadChans_touches (gsrAssert (shutTick u))
  have ht : (loadChans (gsrAssert (shutTick u))).tick = (shutTick u).tick := hc.parts .tick (by simp)
  have hg : (loadChans (gsrAssert (shutTick u))).fab = (gsrAssert (shutTick u)).fab := hc.parts .fab (by simp)
  refine ⟨?_, ?_, ?_, loadChans_disabled _⟩
  · rw [ht, shutTick_halted]
  · exact (hc.regs _ (by decide)).trans (getReg_shutTick_cause u hq)
  · rw [hg, gsrAssert_gsr]

/-- What is recorded once the device is silenced: the device state, its cause and events, and a health record. -/
theorem enterShutdown_touches (cause events : Nat) (s : State) :
    Touches [.regs, .dev, .msix, .nv] (fun o => o < 0x100) (silenced (abandonLoad s)) (enterShutdown cause events s) := by
  rw [enterShutdown_eq]
  generalize silenced (abandonLoad s) = u
  have h1 := (Touches.refl (s := u) (ps := [.regs, .dev, .msix, .nv]) (rs := fun o => o < 0x100)).andThen
    (devGo_touches .shuttingDown cause u) (by decide) (by rintro _ (rfl | rfl) <;> decide)
  exact (h1.andThen (devEvent_touches events _) (by decide) (by rintro _ rfl; decide)).beside
    ((writeRec_parts _).mono (by decide)) rfl

/-- Entering SHUTTING_DOWN: the device state and its cause, the events, and a health record that is not complete. -/
theorem enterShutdown_spec {s : State} (hs : RegsOk s) (hq : SeqRoom s) (cause events : Nat) :
    (enterShutdown cause events s).dev = { s.dev with st := .shuttingDown } ∧
    getReg (enterShutdown cause events s) Reg.devCause = w32 cause ∧
    (∃ v, getReg (enterShutdown cause events s) Reg.devEvent = v ||| w32 events) ∧
    (newestRec (enterShutdown cause events s)).map HealthRec.complete = some false := by
  have hk : Keeps s (silenced (abandonLoad s)) :=
    (Keeps.refl s).abandonLoad.dropPulse.snapAbort.shutTick.gsrAssert.loadChans.beside
  have hu := hk.regs hs
  have hdev : (silenced (abandonLoad s)).dev = s.dev :=
    ((silenced_touches _).parts .dev (by decide)).trans (abandonLoad_parts s .dev (by decide))
  have hnv : (silenced (abandonLoad s)).nv = s.nv :=
    ((silenced_touches _).parts .nv (by decide)).trans (abandonLoad_parts s .nv (by decide))
  rw [enterShutdown_eq]
  generalize silenced (abandonLoad s) = u at hu hdev hnv
  have hg : RegsOk (devGo .shuttingDown cause u) := (Keeps.refl u).devGo.regs hu
  have hr : SeqRoom (devEvent events (devGo .shuttingDown cause u)) := hq.congr (by simp [hnv]) (by simp [hnv])
  refine ⟨?_, ?_, ⟨_, getReg_devEvent hg events⟩, ?_⟩
  · exact (devEvent_dev _ _).trans ((devGo_dev' _ _ _).trans (by rw [hdev]))
  · exact ((devEvent_touches events _).regs _ (by decide)).trans (getReg_devGo_cause hu _ _)
  · obtain ⟨n, f, o, h⟩ := newestRec_writeRec (shutRec (devEvent events (devGo .shuttingDown cause u)) false) hr
    rw [h]
    rfl

/-! ### PWR_OFF_REQ_N and the self-test (R37, R38, R470, R471) -/

/-- PWR_OFF_REQ_N as it is taken: the pin is noted, and a slot under way is abandoned. -/
def pwrOffTaken (s : State) : State := abortSlot { s with dev := { s.dev with pwrOff := true } }

theorem pwrOffTaken_parts (s : State) : OnlyParts [.dev, .regs, .mbx, .msix, .nv] s (pwrOffTaken s) ∧
    (pwrOffTaken s).dev = { s.dev with pwrOff := true } ∧ ∃ m, (pwrOffTaken s).nv = { s.nv with slots := m } := by
  obtain ⟨hp, hn⟩ := abortSlot_parts { s with dev := { s.dev with pwrOff := true } }
  exact ⟨(OnlyParts.refl.dev (by simp)).trans (hp.mono (by simp)), hp .dev (by simp), hn⟩

/-- The pin is taken once, out of reset. -/
theorem pwrOff_taken {s : State} (hr : s.dev.inReset = false) (hp : s.dev.pwrOff = false) : pwrOff s =
    if s.dev.st == .shuttingDown then devEvent 0x80 (pwrOffTaken s) else enterShutdown 6 0x80 (pwrOffTaken s) := by
  obtain ⟨-, hd, -⟩ := pwrOffTaken_parts s
  have hst : s.dev.st = (pwrOffTaken s).dev.st := by rw [hd]
  have h : (s.dev.inReset || s.dev.pwrOff) = false := by simp [hr, hp]
  unfold pwrOff
  rw [h, hst]
  rfl

theorem pwrOffTaken_idle {s : State} (hi : s.mbx.phase = .idle) :
    pwrOffTaken s = { s with dev := { s.dev with pwrOff := true } } := abortSlot_idle hi

theorem segmentDone_runs {s : State} {fails : List Mark} (hr : s.dev.inReset = false) (hst : s.dev.st = .shuttingDown)
    (hseg : s.rep.seg < 16) : ∃ bad, segmentDone fails s =
      writeRec (shutRec { s with rep := { s.rep with seg := s.rep.seg + 1, found := s.rep.found ++ fails, segFail := bad } } false)
        (destroy s.rep.seg { s with rep := { s.rep with seg := s.rep.seg + 1, found := s.rep.found ++ fails, segFail := bad } }) := by
  refine ⟨if fails.isEmpty then s.rep.segFail else setBit s.rep.segFail s.rep.seg true, ?_⟩
  have hge : decide (16 ≤ s.rep.seg) = false := decide_eq_false (by omega)
  simp only [segmentDone, hr, hst, hge]
  rfl

/-- The end of the test, once the secure parts are wiped: the complete record and SHDN_DONE. -/
def testEnded (w : State) : State := { writeRec (shutRec w true) w with dev := { w.dev with shdnDone := true } }

theorem testEnded_eq (w : State) : testEnded w =
    let s := writeRec (shutRec w true) w
    { s with dev := { s.dev with shdnDone := true } } := rfl

theorem shutdownDone_runs {s : State} (hr : s.dev.inReset = false) (hst : s.dev.st = .shuttingDown) (hseg : s.rep.seg = 16)
    (hd : s.dev.shdnDone = false) : shutdownDone s = testEnded (wipeSecrets s) := by
  unfold shutdownDone
  rw [if_neg (by simp [hr, hst, hseg, hd]), testEnded_eq]
/-- An event bit that has been set. -/
theorem bitAt_or_shutPin (v : Word) : bitAt (v ||| w32 0x80) 7 = true := by
  rw [bitAt_eq_getLsbD, BitVec.getLsbD_or]
  simp [w32]

/-- A silenced device: the engine halted with TICK_SHUTDOWN, GSR asserted, writes, outputs and channels off, the test at its start. -/
theorem silenced_spec {s : State} (hs : RegsOk s) :
    (silenced s).tick.st = .halted ∧ getReg (silenced s) Reg.tickCause = 6#32 ∧ (silenced s).fab.gsr = 0xFF#8 ∧
    (silenced s).fab.writesOn = false ∧ (silenced s).pins.gioOe = 0#480 ∧ (∀ c, (getChan (silenced s) c).st = .disabled) ∧
    (silenced s).rep.seg = 0 := by
  obtain ⟨ht, hc, hg, hch⟩ := halted_spec hs
  unfold silenced
  generalize halted s = u at *
  exact ⟨ht, hc, hg, rfl, rfl, hch, rfl⟩

/-- The health record while the test runs, or as it ends. -/
theorem newestRec_writeRec_shutRec {s u : State} (complete : Bool) (hq : SeqRoom s) :
    (newestRec (writeRec (shutRec u complete) s)).map HealthRec.complete = some complete ∧
    (newestRec (writeRec (shutRec u complete) s)).map HealthRec.reached = some (65536 * u.rep.seg) ∧
    (newestRec (writeRec (shutRec u complete) s)).map HealthRec.fail = some (complete && !u.rep.found.isEmpty) := by
  obtain ⟨n, f, o, h⟩ := newestRec_writeRec (shutRec u complete) hq
  rw [h]
  exact ⟨rfl, rfl, rfl⟩

/-- A segment ends: its failures and patterns are in the record, and what it tests is destroyed. -/
theorem segmentDone_record {s : State} (fails : List Mark) (bad : BitVec 16) (hq : SeqRoom s) {u t : State}
    (hu : u = { s with rep := { s.rep with seg := s.rep.seg + 1, found := s.rep.found ++ fails, segFail := bad } })
    (ht : t = writeRec (shutRec u false) (destroy s.rep.seg u)) :
    t.rep.seg = s.rep.seg + 1 ∧ t.rep.found = s.rep.found ++ fails ∧
    (newestRec t).map HealthRec.reached = some (65536 * (s.rep.seg + 1)) ∧
    (newestRec t).map HealthRec.complete = some false ∧ OnlyParts ([.rep, .nv] ++ testedParts s.rep.seg) s t := by
  obtain ⟨hrep, hnv⟩ := destroy_keeps s.rep.seg u
  have hw : t.rep = u.rep := by rw [ht]; exact hrep
  have hn : u.nv = s.nv := by rw [hu]
  obtain ⟨hc, hr, -⟩ := newestRec_writeRec_shutRec (u := u) false
    (hq.congr (t := destroy s.rep.seg u) (by rw [hnv, hn]) (by rw [hnv, hn]))
  rw [← ht, hu] at hr
  refine ⟨by rw [hw, hu], by rw [hw, hu], hr, ht ▸ hc, ?_⟩
  have h1 : OnlyParts ([.rep, .nv] ++ testedParts s.rep.seg) s u := hu ▸ OnlyParts.refl.rep (by simp)
  exact ht ▸ (h1.trans ((destroy_parts _ u).mono (by simp))).trans ((writeRec_parts _).mono (by simp))

/-- The end of the test: the complete record, and no secure part left. -/
theorem testEnded_record {s w t : State} (hseg : s.rep.seg = 16) (hq : SeqRoom s)
    (hw : Touches [.eddies, .regs] (fun o => 0x1000060 ≤ o) s w)
    (he : ∀ e < 512, SecretsGone (getEddy w e)) (ht : t = testEnded w) :
    t.dev.shdnDone = true ∧ (newestRec t).map HealthRec.complete = some true ∧
    (newestRec t).map HealthRec.reached = some 0x100000 ∧ (newestRec t).map HealthRec.fail = some (!s.rep.found.isEmpty) ∧
    (∀ e < 512, (getEddy t e).wipe = false) ∧
    (∀ e < 512, ∀ i ≥ 7680, mget dHbm (getEddy t e).spad i = dHbm i) ∧ OnlyParts [.dev, .nv, .eddies, .regs] s t := by
  have hrep : w.rep = s.rep := hw.parts .rep (by simp)
  have hnv : w.nv = s.nv := hw.parts .nv (by simp)
  obtain ⟨hc, hr, hf⟩ := newestRec_writeRec_shutRec (u := w) true (hq.congr (t := w) (by rw [hnv]) (by rw [hnv]))
  rw [hrep, hseg] at hr
  rw [hrep] at hf
  subst ht
  refine ⟨rfl, hc, hr, hf, fun e h => (he e h).1, fun e h => (he e h).2, ?_⟩
  exact ((hw.parts.mono (by simp)).trans ((writeRec_parts _).mono (by simp))).dev (by simp)

/-- The pin taken again: only DEV_EVENT says so. -/
theorem pwrOff_again {s t : State} (hs : RegsOk s) (hst : s.dev.st = .shuttingDown)
    (ht : t = devEvent 0x80 { s with dev := { s.dev with pwrOff := true } }) :
    t.dev.st = .shuttingDown ∧ t.dev.pwrOff = true ∧
    bitAt (getReg t Reg.devEvent) 7 = true ∧ OnlyRegs [Reg.devEvent] s t ∧ OnlyParts [.dev, .regs, .msix] s t := by
  subst ht
  have hu : RegsOk { s with dev := { s.dev with pwrOff := true } } := hs
  have h := devEvent_touches 0x80 { s with dev := { s.dev with pwrOff := true } }
  have hd : (devEvent 0x80 { s with dev := { s.dev with pwrOff := true } }).dev = { s.dev with pwrOff := true } := h.parts .dev (by simp)
  refine ⟨by rw [hd]; exact hst, by rw [hd], ?_, fun o ho => h.regs o (by simpa using ho), ?_⟩
  · rw [getReg_devEvent hu]
    exact bitAt_or_shutPin _
  · exact (OnlyParts.refl.dev (by simp)).trans (h.parts.mono (by simp))

/-- Settles O11: the pin by `enterShutdown_spec`, `silenced_touches` and `halted_spec`, a segment by `destroy_parts`, the end of
the test by `secretsGone_wipeSecrets`; the health record by `newestRec_writeRec`. -/
theorem shutdownEntry : Obligations.ShutdownEntry := by
  refine ⟨fun s hs hr hp hst hq => ?enter, fun s hs hr hp hst hi => ?again, fun s => ⟨_, rfl, rfl, rfl, OnlyParts.refl.dev (by simp)⟩,
    fun s fails hr hst hseg hq => ?segment, fun s hr hst hseg hd hq => ?done⟩
  case enter =>
    refine gives_of_exec rfl ?_
    rw [pwrOff_taken hr hp, if_neg (by simpa using hst)]
    obtain ⟨htaken, hdev, m, hnv⟩ := pwrOffTaken_parts s
    have hldr : (pwrOffTaken s).ldr = s.ldr := htaken .ldr (by simp)
    have hs' : RegsOk (pwrOffTaken s) := (Keeps.refl s).beside.abortSlot.regs hs
    obtain ⟨hdev', hcause, ⟨v, hev⟩, hrec⟩ := enterShutdown_spec hs' (hq.congr (by rw [hnv]) (by rw [hnv])) 6 0x80
    obtain ⟨hhalt, htc, hgsr, hwr, hoe, hch, hseg⟩ := silenced_spec (s := abandonLoad (pwrOffTaken s))
      ((Keeps.refl _).abandonLoad.regs hs')
    have hsil := silenced_touches (abandonLoad (pwrOffTaken s))
    have hent := enterShutdown_touches 6 0x80 (pwrOffTaken s)
    have hab := abandonLoad_aborted (s := pwrOffTaken s) hs'
    rw [hldr] at hab
    generalize abandonLoad (pwrOffTaken s) = b at *
    generalize enterShutdown 6 0x80 (pwrOffTaken s) = t at *
    generalize silenced b = u at *
    have hP (p : Part) (hp : p ∉ [Part.regs, .dev, .msix, .nv]) : samePart u t p := hent.parts p hp
    have hchans : t.chans = u.chans := hP .chans (by decide)
    have hfab : t.fab = u.fab := hP .fab (by decide)
    have hlu : t.ldr = b.ldr := (hP .ldr (by decide)).trans (hsil.parts .ldr (by decide))
    have hres : getReg t Reg.ldrResult = getReg b Reg.ldrResult :=
      (hent.regs _ (by decide)).trans (hsil.regs _ (by decide))
    refine ⟨by rw [hdev'], by rw [hdev', hdev], hcause, by rw [hev]; exact bitAt_or_shutPin v, ?_, ?_, by rw [hfab, hgsr],
      by rw [hfab, hwr], ?_, fun c => ?_, ?_, hrec, fun hb ho => ?_⟩
    · exact (congrArg TickEngine.st (hP .tick (by decide))).trans hhalt
    · exact (hent.regs _ (by decide)).trans htc
    · exact (congrArg Pins.gioOe (hP .pins (by decide))).trans hoe
    · rw [getChan, hchans]
      exact hch c
    · exact (congrArg Repair.seg (hP .rep (by decide))).trans hseg
    · rw [hlu, hres]
      exact hab hb ho
  case again =>
    refine gives_of_exec rfl ?_
    rw [pwrOff_taken hr hp, if_pos (by simpa using hst), pwrOffTaken_idle hi]
    exact pwrOff_again hs hst rfl
  case segment =>
    obtain ⟨bad, e⟩ := segmentDone_runs (fails := fails) hr hst hseg
    exact gives_of_exec rfl (segmentDone_record fails bad hq rfl e)
  case done =>
    refine gives_of_exec rfl ?_
    exact testEnded_record hseg hq (wipeSecrets_touches s) (fun e he => secretsGone_wipeSecrets s he) (shutdownDone_runs hr hst hseg hd)

end Sys2Proof.Machine
end

section
/-! SETTLED. One tick: its completion can halt the engine without a halt cause of its own (R132, R239, R275). -/

namespace Sys2Proof.Machine

/-- RUN, in the spacer wave of tick 2 at depth 0. BND_OUT_MAP sends output group 0 to device 1, FAB_ROUTE has no entry for
that device, and the frames of ticks 0 and 1 have not left: as many as the boundary output registers hold. -/
def sFramesFull : State :=
  let s := Tests.sSpacer
  setReg (Reg.bndOutMap 0) 0x80001000#32 { s with
    tick := { s.tick with nowP1 := 3, hiP1 := 3 }
    ra := { s.ra with com := 2, alone := false, outPend := [(0, 0), (1, 0)], outReg := [⟨0, 0, 0⟩, ⟨1, 0, 0⟩] } }

/-- Tick 2 of that state may complete, and no halt cause of R129 applies to it. -/
theorem sFramesFull_completes :
    RegsOk sFramesFull ∧ sFramesFull.tick.inTick = true ∧ sFramesFull.tick.spacer = true ∧ sFramesFull.tick.lastCls < 5 ∧
    tilesReported Tile.spacerDone sFramesFull = true ∧ ctPending sFramesFull = false ∧
    haltCodes { sFramesFull with tick := { sFramesFull.tick with inTick := false, spacer := false } } = [] := by
  unfold RegsOk
  decide +kernel

/-- As tick 2 completes, the frame of tick 0 leaves to make room (R275). It finds no route, so that the engine halts (R239). -/
theorem sFramesFull_halts :
    sFramesFull.tick.st = .run ∧ (tickComplete 1000 0 false sFramesFull).tick.st = .halted ∧
    getReg (tickComplete 1000 0 false sFramesFull) Reg.tickCause = 4#32 := by
  decide +kernel

/-- Refutes O21: a TICK_COMPLETE without a halt cause of its own does not always leave the engine's state. At `sFramesFull` a
boundary frame leaves without a route, and the engine enters HALTED with cause 0x04. -/
theorem not_tickCycle : ¬ Obligations.TickCycle := by
  rintro ⟨-, -, -, -, hcomplete⟩
  obtain ⟨hok, hin, hsp, hcls, hrep, hct, hcodes⟩ := sFramesFull_completes
  obtain ⟨hrun, hhalt, -⟩ := sFramesFull_halts
  obtain ⟨t, ht, -, -, -, -, hst, -⟩ := hcomplete sFramesFull 1000 0 false hok hin hsp hcls hrep hct
  obtain rfl : tickComplete 1000 0 false sFramesFull = t := Host.Outcome.next.inj ht
  rw [hst hcodes, hrun] at hhalt
  cases hhalt

end Sys2Proof.Machine
end

section
/-! SUPPORT. The start of a load: what its steps change, and what it leaves (R414, R415). -/

namespace Sys2Proof.Machine

section
variable {a s t : State} {ps : List Part} {rs : Nat → Prop} (h : Touches ps rs a s)
include h

theorem Touches.trc {x : Trace} (hp : Part.trc ∈ ps) : Touches ps rs a { s with trc := x } := h.beside (OnlyParts.refl.trc hp) rfl

theorem Touches.tickRa {x : TickEngine} {y : RunAhead} (ht : Part.tick ∈ ps) (hr : Part.ra ∈ ps) :
    Touches ps rs a { s with tick := x, ra := y } :=
  h.beside ((OnlyParts.refl.tick (x := x) ht).ra hr) rfl

theorem Touches.queues {x : SMap Queue} (hp : Part.queues ∈ ps) : Touches ps rs a { s with queues := x } :=
  h.beside (OnlyParts.refl.queues hp) rfl

theorem Touches.setQ {q : Nat} {x : Queue} (hp : Part.queues ∈ ps) (he : Part.eddies ∈ ps) : Touches ps rs a (setQ q x s) :=
  .ite ((h.queues hp).setEddy he) (h.queues hp)

theorem Touches.setPort {p : Nat} {x : Port} (hp : Part.pool ∈ ps) : Touches ps rs a (setPort p x s) :=
  h.beside (OnlyParts.refl.pool hp) rfl

end

/-! ### Crossings and queues (R263, R286, R288) -/

/-- The parts that resetting queues and pool ports may change. -/
def sideParts : List Part := [.regs, .queues, .pool, .eddies, .msix]

section
variable {a s : State} (h : Touches sideParts HighReg a s)
include h

theorem Touches.xingDiscard {sec kind side idx : Nat} : Touches sideParts HighReg a (xingDiscard sec kind side idx s) :=
  (h.bump (by decide) (by unfold Reg.xingDiscard; omega)).latchFirst (by decide) (by unfold Reg.xingLoc; omega)

theorem Touches.wrReset {q : Nat} : Touches sideParts HighReg a (wrReset q s) := .setQ (.ite h.xingDiscard h) (by decide) (by decide)

theorem Touches.rdReset {q : Nat} : Touches sideParts HighReg a (rdReset q s) := .setQ (.ite h.xingDiscard h) (by decide) (by decide)

theorem Touches.qEvent {q bits : Nat} : Touches sideParts HighReg a (qEvent q bits s) := by
  have ho : Touches sideParts HighReg a (orReg (Reg.qevent q) (w32 bits) s) :=
    h.setReg (by decide) (by unfold Reg.qevent; omega)
  exact .ite ho (ho.raiseVec (by decide))

theorem Touches.loadQueue {q : Nat} : Touches sideParts HighReg a (loadQueue q s) := by
  have hd (n : Nat) : Touches sideParts HighReg a (Machine.bumpBy (Reg.qPeerDiscard q) n s) :=
    h.bumpBy (by decide) (by unfold Reg.qPeerDiscard; omega)
  unfold Machine.loadQueue
  dsimp only
  exact (Touches.ite h (hd _).qEvent).wrReset.rdReset.queues (by decide)

theorem Touches.loadPort {p : Nat} : Touches sideParts HighReg a (loadPort p s) :=
  (h.forEach fun _ _ h => h.xingDiscard).setPort (by decide)

end

/-! ### Requests held and accesses that wait (R341, R385, R451) -/

section
variable {a s : State}

theorem Touches.sendAns (h : Touches netParts NetReg a s) {dst tag code : Nat} {data : BitVec 64} :
    Touches netParts NetReg a (sendAns dst tag code data s) := h.forward

theorem answerHeld_touches (s : State) : Touches (.pool :: netParts) NetReg s (answerHeld s) :=
  have hf : Touches netParts NetReg s
      (forEach (fun (h : Nat × Payload) s => Machine.sendAns (msgSrc h.2) (payN h.2 2 2) 6 0 s) s.pool.remHeld s) :=
    Touches.refl.forEach fun _ _ h => h.sendAns
  (hf.mono (by simp) fun _ h => h).beside (OnlyParts.refl.pool (by simp)) rfl

theorem hostAbort_parts (s : State) : OnlyParts [.host, .rdata] s (hostAbort s) := fun p hp => by
  cases p <;> simp_all [samePart, hostAbort]

theorem dropAsks_touches (s : State) : Touches [.regs, .host, .rdata] (fun o => o = Reg.hostNotReadyCount) s (dropAsks s) := by
  have h0 : Touches [.regs, .host, .rdata] (fun o => o = Reg.hostNotReadyCount) s { s with host := { s.host with ask := [] } } :=
    touches_of_regs_eq (OnlyParts.refl.host (by simp)) rfl
  refine h0.forEach fun x t h => ?_
  have hb : Touches [.regs, .host, .rdata] (fun o => o = Reg.hostNotReadyCount) s (bump Reg.hostNotReadyCount t) := h.bump (by simp) rfl
  exact .ite (hb.beside ((hostAbort_parts _).mono (by simp)) rfl) hb

theorem loadTrace_touches (s : State) : Touches [.regs, .trc, .msix] (fun o => o = Reg.trcEvent) s (loadTrace s) :=
  (Touches.refl.trc (by simp)).andThen (snapAbort_touches _) (by simp) fun _ h => h

/-! ### The engine (R129, R130) -/

theorem snapPromote_parts (s : State) : OnlyParts [.trc] s (snapPromote s) := by
  unfold snapPromote
  split
  · split
    · exact OnlyParts.refl.trc (by simp)
    · exact .refl
  · exact .refl

theorem freshRun_parts (s : State) : OnlyParts [.trc, .tick, .ra, .net] s (freshRun s) := by
  have h : OnlyParts [.trc, .tick, .ra, .net] s (snapPromote s) := (snapPromote_parts s).mono (by simp)
  refine h.trans fun p hp => ?_
  unfold freshRun
  generalize snapPromote s = u
  cases p <;> simp_all [samePart]

theorem resetTick_touches (s : State) : Touches [.regs, .trc, .tick, .ra, .net] (fun o => o = Reg.tickCause) s (resetTick s) := by
  have h : Touches [.regs, .trc, .tick, .ra, .net] (fun o => o = Reg.tickCause) s (freshRun s) :=
    touches_of_regs_eq ((freshRun_parts s).mono (by simp)) (freshRun_parts s .regs (by simp))
  unfold resetTick
  dsimp only
  generalize freshRun s = u at h
  exact (h.tickRa (by simp) (by simp)).setReg (by simp) rfl

theorem resetTick_idle (s : State) : (resetTick s).tick.st = .idle := rfl

/-! ### The whole of the start -/

/-- The parts that the start of a load may change: not the store, the mailbox, the paths, the test access port or what is pending. -/
def loadParts : List Part :=
  [.regs, .dev, .fab, .bm, .tick, .ra, .chans, .net, .queues, .pool, .eddies, .msix, .host, .rdata, .claims, .ldr, .frz, .bg, .rep, .trc,
   .pins, .free]

/-- The registers that the start of a load may change: not those of the mailbox or the life cycle. -/
abbrev LoadReg (o : Nat) : Prop := o < 0x10000 ∨ 0x20000 ≤ o ∧ o < 0x30000 ∨ 0x80000 ≤ o

/-- The device with its engine reset and GSR asserted, before queues, ports and channels are. -/
def loadHushed (s : State) : State :=
  let s := dropAsks (loadTrace (dropPulse (answerHeld s)))
  resetTick (gsrAssert { s with dev := { s.dev with cfgDone := false },
                                fab := { s.fab with tapsOn := false, writesOn := false, censusRunning := false } })

/-- Then every queue, port and channel reset. -/
def loadDrained (s : State) : State :=
  let s := loadHushed s
  let s := forEach loadQueue (s.queues.map Prod.fst) s
  loadChans (forEach loadPort (s.pool.ports.map Prod.fst) s)

/-- Then what firmware, fabric, pools and pins kept is dropped. -/
def loadEmptied (s : State) : State :=
  { s with
    eddies := mmap dEddy (fun _ x => loadEddy x) s.eddies
    net := { epoch := s.net.epoch, commitEpoch := s.net.commitEpoch }
    pool := { s.pool with inbox := [], outst := [], initWait := [], initAsk := [], remAns := [], dcache := [] }
    pins := { s.pins with gioBank := [], gioBall := [], gioOut := 0, gioOe := 0, gioFirst := 0 }
    frz := { s.frz with eddy := 0, port := 0, remote := 0 }
    bg := {}, claims := []
    rep := { s.rep with susp := true, raw := false, sweep := false } }

theorem loadReset_eq (s : State) : loadReset s = clearRegs loadClears (loadEmptied (loadDrained s)) := by
  unfold loadReset loadEmptied loadDrained loadHushed
  dsimp only

theorem loadHushed_touches (s : State) : Touches loadParts LoadReg s (loadHushed s) := by
  have h1 := (Touches.refl (ps := loadParts) (rs := LoadReg)).andThen (answerHeld_touches s) (by decide) (by intro o ho; omega)
  have h2 := h1.andThen (dropPulse_touches _) (by decide) (by simp)
  have h3 := h2.andThen (loadTrace_touches _) (by decide) (by rintro _ rfl; decide)
  have h4 := h3.andThen (dropAsks_touches _) (by decide) (by rintro _ rfl; decide)
  unfold loadHushed
  dsimp only
  generalize dropAsks (loadTrace (dropPulse (answerHeld s))) = u at h4
  have h5 : Touches loadParts LoadReg s { u with dev := { u.dev with cfgDone := false }
                                                 fab := { u.fab with tapsOn := false, writesOn := false, censusRunning := false } } :=
    h4.beside ((OnlyParts.refl.dev (x := { u.dev with cfgDone := false }) (by decide)).fab (by decide)) rfl
  exact (h5.beside ((gsrAssert_parts _).mono (by decide)) rfl).andThen (resetTick_touches _) (by decide) (by rintro _ rfl; decide)

theorem loadDrained_touches (s : State) :
    Touches (.chans :: sideParts) HighReg (loadHushed s) (loadDrained s) := by
  have hq (u : State) : Touches sideParts HighReg u (forEach loadQueue (u.queues.map Prod.fst) u) :=
    Touches.refl.forEach fun _ _ h => h.loadQueue
  have hp (u : State) : Touches sideParts HighReg u (forEach loadPort (u.pool.ports.map Prod.fst) u) :=
    Touches.refl.forEach fun _ _ h => h.loadPort
  exact ((Touches.trans (hq _) (hp _)).mono (by decide) fun _ h => h).andThen (loadChans_touches _) (by decide) (by intro o ho; omega)

/-- The engine is idle, GSR asserted, and the device state as it was. -/
theorem loadHushed_spec (s : State) :
    (loadHushed s).tick.st = .idle ∧ (loadHushed s).fab.gsr = 0xFF#8 ∧ (loadHushed s).dev.st = s.dev.st := by
  have h1 : Touches (.trc :: .fab :: .host :: .rdata :: .pool :: netParts) LoadReg s
      (dropAsks (loadTrace (dropPulse (answerHeld s)))) := by
    have h1 := (Touches.refl (ps := .trc :: .fab :: .host :: .rdata :: .pool :: netParts) (rs := LoadReg)).andThen
      (answerHeld_touches s) (by decide) (by intro o ho; omega)
    have h2 := h1.andThen (dropPulse_touches _) (by decide) (by simp)
    have h3 := h2.andThen (loadTrace_touches _) (by decide) (by rintro _ rfl; decide)
    exact h3.andThen (dropAsks_touches _) (by decide) (by rintro _ rfl; decide)
  unfold loadHushed
  dsimp only
  generalize dropAsks (loadTrace (dropPulse (answerHeld s))) = u at h1
  have hd : u.dev = s.dev := h1.parts .dev (by decide)
  have hr (v : State) : (resetTick v).fab = v.fab ∧ (resetTick v).dev = v.dev :=
    ⟨(resetTick_touches v).parts .fab (by simp), (resetTick_touches v).parts .dev (by simp)⟩
  refine ⟨resetTick_idle _, ?_, ?_⟩
  · rw [(hr _).1, gsrAssert_gsr]
  · rw [(hr _).2, gsrAssert_parts _ .dev (by simp), hd]

theorem loadEmptied_parts (s : State) : OnlyParts [.eddies, .net, .pool, .pins, .frz, .bg, .claims, .rep] s (loadEmptied s) := fun p hp => by
  cases p <;> simp_all [samePart, loadEmptied]

theorem loadEmptied_touches (s : State) : Touches loadParts LoadReg s (loadEmptied s) :=
  touches_of_regs_eq ((loadEmptied_parts s).mono (by decide)) rfl

theorem loadReset_touches (s : State) : Touches loadParts LoadReg s (loadReset s) := by
  rw [loadReset_eq]
  have h := (loadHushed_touches s).andThen (loadDrained_touches s) (by decide) (by intro o ho; omega)
  refine (h.trans (loadEmptied_touches _)).clearRegs (by decide) fun o ho => ?_
  unfold loadClears at ho
  simp only [Bool.or_eq_true, Bool.and_eq_true, decide_eq_true_eq] at ho
  unfold Reg.cadLen Reg.tickCfg Reg.raCfg Reg.raPred Reg.bndOutMap Reg.bndInMap Reg.fabRoute Reg.poolSecCfg Reg.tickVf Reg.trcSecCfg at ho
  omega

/-- Engine, GSR, claims, channels and device state after the reset. -/
theorem loadReset_spec (s : State) :
    (loadReset s).tick.st = .idle ∧ (loadReset s).fab.gsr = 0xFF#8 ∧ (loadReset s).claims = [] ∧ (loadReset s).dev.st = s.dev.st ∧
    ∀ c, (getChan (loadReset s) c).st = .disabled := by
  obtain ⟨ht, hg, hd⟩ := loadHushed_spec s
  have hp := (loadDrained_touches s).parts
  have hc : ∀ c, (getChan (loadDrained s) c).st = .disabled := loadChans_disabled _
  rw [loadReset_eq]
  generalize loadDrained s = u at *
  refine ⟨?_, ?_, rfl, ?_, hc⟩
  · exact (congrArg TickEngine.st (hp .tick (by decide))).trans ht
  · exact (congrArg Fabric.gsr (hp .fab (by decide))).trans hg
  · exact (congrArg (fun d => d.st) (hp .dev (by decide))).trans hd

theorem finishWipes_touches (s : State) : Touches [.regs, .dev, .eddies] (fun o => 0x1000060 ≤ o) s (finishWipes s) := by
  have hf : Touches [.regs, .dev, .eddies] (fun o => 0x1000060 ≤ o) s
      (forEach (fun e t => if wipeDue s e then bump (Reg.eddyWipes e) t else t) (upTo 512) s) :=
    Touches.refl.forEach fun e _ h => .ite (h.bump (by simp) (by unfold Reg.eddyWipes; omega)) h
  unfold finishWipes
  dsimp only
  generalize forEach (fun e t => if wipeDue s e then bump (Reg.eddyWipes e) t else t) (upTo 512) s = u at hf
  refine hf.beside (fun p hp => ?_) rfl
  cases p <;> simp_all [samePart]

theorem wipeAll_touches (s : State) : Touches [.regs] (fun o => 0x1000060 ≤ o) s (wipeAll s) :=
  Touches.refl.forEach fun e _ h => h.bump (by simp) (by unfold Reg.eddyWipes; omega)

/-- The device made ready for a load that a command starts. -/
def loadReady (s : State) : State := wipeAll (clearRegs startClears (loadReset (devEvent 2 (devGo .starting 2 (finishWipes s)))))

/-- A load that a command starts, on a device that is ready for it. -/
def loadBegun (src off len : Nat) (s : State) : State := { s with
  ldr := { s.ldr with
    phase := .header, pow := .over, busy := true, powerUp := false, src := src, off := off, len := len,
    locked := true, attempt := 0, work := {}, steps := 0, due := [], starts := [], chanEn := 0,
    tagOk := false, image := none }
  rep := { s.rep with susp := true } }

theorem loadStart_cmd (src off len : Nat) (s : State) : loadStart true src off len s = loadBegun src off len (loadReady s) := by
  unfold loadStart loadReady loadBegun
  dsimp only
  rw [if_pos rfl, Bool.not_true]

theorem loadBegun_parts (src off len : Nat) (s : State) : OnlyParts [.ldr, .rep] s (loadBegun src off len s) := fun p hp => by
  cases p <;> simp_all [samePart, loadBegun]

theorem loadBegun_touches (src off len : Nat) (s : State) : Touches loadParts LoadReg s (loadBegun src off len s) :=
  touches_of_regs_eq ((loadBegun_parts src off len s).mono (by decide)) rfl

theorem loadBegun_started {src off len : Nat} {s : State} (ht : s.tick.st = .idle) (hg : s.fab.gsr = 0xFF#8) (hc : s.claims = [])
    (hd : s.dev.st = .starting) : LoadStarted src (loadBegun src off len s) := ⟨hd, rfl, rfl, rfl, rfl, rfl, hg, ht, hc⟩

theorem loadReady_touches (s : State) : Touches loadParts LoadReg s (loadReady s) := by
  have h1 := (Touches.refl (ps := loadParts) (rs := LoadReg)).andThen (finishWipes_touches s) (by decide) (by intro o ho; omega)
  have h2 := h1.andThen (devGo_touches .starting 2 _) (by decide) (by rintro _ (rfl | rfl) <;> decide)
  have h3 := h2.andThen (devEvent_touches 2 _) (by decide) (by rintro _ rfl; decide)
  have h4 := h3.trans (loadReset_touches _)
  have h5 := h4.clearRegs (p := startClears) (by decide) fun o ho => by
    unfold startClears at ho
    simp only [Bool.or_eq_true, Bool.and_eq_true, decide_eq_true_eq] at ho
    unfold Reg.poolCfgLoc Reg.poolCfgCount Reg.ldrLoc Reg.ldrProgress Reg.ldrAttempt Reg.tickToLoc Reg.tickToCount at ho
    omega
  exact h5.andThen (wipeAll_touches _) (by decide) (by intro o ho; omega)

theorem loadReady_spec (s : State) :
    (loadReady s).tick.st = .idle ∧ (loadReady s).fab.gsr = 0xFF#8 ∧ (loadReady s).claims = [] ∧ (loadReady s).dev.st = .starting ∧
    ∀ c, (getChan (loadReady s) c).st = .disabled := by
  unfold loadReady
  generalize hu : devEvent 2 (devGo .starting 2 (finishWipes s)) = u
  have hst : u.dev.st = .starting := by rw [← hu, devEvent_dev, devGo_dev']
  obtain ⟨ht, hg, hcl, hd, hc⟩ := loadReset_spec u
  generalize loadReset u = v at *
  have hp := (wipeAll_touches (clearRegs startClears v)).parts
  generalize wipeAll (clearRegs startClears v) = w at *
  have hch : w.chans = v.chans := hp .chans (by simp)
  refine ⟨?_, ?_, ?_, ?_, fun c => ?_⟩
  · exact (congrArg TickEngine.st (hp .tick (by simp))).trans ht
  · exact (congrArg Fabric.gsr (hp .fab (by simp))).trans hg
  · exact (hp .claims (by simp)).trans hcl
  · exact (congrArg (fun d => d.st) (hp .dev (by simp))).trans (hd.trans hst)
  · rw [getChan, hch]
    exact hc c

theorem loadStart_touches (src off len : Nat) (s : State) : Touches loadParts LoadReg s (loadStart true src off len s) := by
  rw [loadStart_cmd]
  exact (loadReady_touches s).trans (loadBegun_touches _ _ _ _)

theorem loadStart_started (src off len : Nat) (s : State) : LoadStarted src (loadStart true src off len s) := by
  rw [loadStart_cmd]
  obtain ⟨ht, hg, hcl, hd, -⟩ := loadReady_spec s
  exact loadBegun_started ht hg hcl hd

/-- A load that a command starts finds every channel DISABLED. -/
theorem loadStart_disabled (src off len : Nat) (s : State) (c : Nat) :
    (getChan (loadStart true src off len s) c).st = .disabled := by
  have hc : (loadStart true src off len s).chans = (loadReady s).chans := by
    rw [loadStart_cmd]
    exact loadBegun_parts _ _ _ _ .chans (by simp)
  obtain ⟨-, -, -, -, h⟩ := loadReady_spec s
  rw [getChan, hc]
  exact h c

end

end Sys2Proof.Machine
end

section
/-! SUPPORT. The tamper response: what a tamper event records, and what the zeroise response does in each state of the device
(R449, R450). -/

namespace Sys2Proof.Machine

theorem bitAt_setBit_self (x : BitVec 5) {i : Nat} (hi : i < 5) : bitAt (setBit x i true) i = true := by
  have h : ∀ (x : BitVec 5) (i : Fin 5), bitAt (setBit x i true) i = true := by decide
  exact h x ⟨i, hi⟩

/-! ### The record of an event (R449) -/

/-- A tamper event as it is recorded and counted. -/
def tamperNoted (src : Nat) (s : State) : State :=
  bump Reg.tamperCount { s with nv := { s.nv with tamper := setBit s.nv.tamper src true }
                                dev := { s.dev with cond := setBit s.dev.cond src true } }

section
variable {s : State} {src : Nat}

theorem tamper_unarmed (h : armed s src = false) : tamper src s = tamperNoted src s := by
  change (if armed s src = true then zeroise false 0 (tamperNoted src s) else tamperNoted src s) = _
  rw [h]
  rfl

theorem tamper_armed (h : armed s src = true) : tamper src s = zeroise false 0 (tamperNoted src s) := by
  change (if armed s src = true then zeroise false 0 (tamperNoted src s) else tamperNoted src s) = _
  rw [if_pos h]

theorem tamperNoted_nv : (tamperNoted src s).nv = { s.nv with tamper := setBit s.nv.tamper src true } := rfl
theorem tamperNoted_dev : (tamperNoted src s).dev = { s.dev with cond := setBit s.dev.cond src true } := rfl

theorem tamperNoted_touches : Touches [.nv, .regs, .dev] (fun o => o = Reg.tamperCount) s (tamperNoted src s) := by
  have h : Touches [.nv, .regs, .dev] (fun o => o = Reg.tamperCount) s
      { s with nv := { s.nv with tamper := setBit s.nv.tamper src true }, dev := { s.dev with cond := setBit s.dev.cond src true } } :=
    touches_of_regs_eq ((OnlyParts.refl.nv (x := { s.nv with tamper := setBit s.nv.tamper src true }) (by simp)).dev (by simp)) rfl
  exact h.bump (by simp) rfl

theorem getReg_tamperNoted (hs : RegsOk s) : getReg (tamperNoted src s) Reg.tamperCount = satInc (getReg s Reg.tamperCount) :=
  getReg_setReg_self (s := { s with nv := _, dev := _ }) hs

end

/-! ### The zeroise response (R450) -/

/-- K_BBK and the secure parts go at once. -/
def secretsDropped (s : State) : State := wipeSecrets (useCounter { s with nv := { s.nv with kBbk := none } })

/-- A keyed command in progress has ended: none was, or it was a write or an erasure of a slot, or it was another. -/
def KeyedEnded (s t : State) : Prop :=
  s.mbx.phase = .idle ∧ t = s ∨ s.mbx.phase ≠ .idle ∧ (t = abortSlot s ∨ t = mbxDone 0x0A 0 s)

/-- A load becomes the zeroising one. -/
def zeroLoaded (mask : BitVec 4) (s : State) : State :=
  { s with ldr := { s.ldr with zeroise := true, erase := mask ||| s.ldr.erase } }

/-- The load that first zeroes HBM and erases the slots of `mask`. -/
def zeroLoad (mask : BitVec 4) (s : State) : State :=
  zeroLoaded mask (loadStart true 0 0 0 { s with nv := { s.nv with zeroDue := none } })

/-- That load starts, falls due at the next power-up, or does not come. -/
def zeroLoadOrDue (mask : BitVec 4) (s : State) : State :=
  if s.dev.inReset then { s with nv := { s.nv with zeroDue := some mask } }
  else if s.dev.st == .shuttingDown then s
  else zeroLoad mask s

theorem zeroise_steps (s : State) : ∃ u m, KeyedEnded (secretsDropped s) u ∧ m = u.nv.zeroDue.getD 0 ∧
    zeroise false 0 s = zeroLoadOrDue m u := by
  unfold zeroise secretsDropped zeroLoadOrDue zeroLoad zeroLoaded
  dsimp only
  generalize wipeSecrets (useCounter { s with nv := { s.nv with kBbk := none } }) = w
  rw [Bool.false_or]
  by_cases hi : w.mbx.phase = .idle
  · rw [if_pos (beq_iff_eq.mpr hi)]
    exact ⟨w, _, .inl ⟨hi, rfl⟩, BitVec.zero_or, rfl⟩
  · rw [if_neg (mt beq_iff_eq.mp hi)]
    split
    next => exact ⟨_, _, .inr ⟨hi, .inl rfl⟩, BitVec.zero_or, rfl⟩
    next => exact ⟨_, _, .inr ⟨hi, .inl rfl⟩, BitVec.zero_or, rfl⟩
    next => exact ⟨_, _, .inr ⟨hi, .inr rfl⟩, BitVec.zero_or, rfl⟩

section
variable {s t : State}

/-- The store keeps its counter, unless the command in progress had used it up. -/
theorem secretsDropped_spec (s : State) : OnlyParts [.regs, .nv, .eddies] s (secretsDropped s) ∧
    (secretsDropped s).nv = { s.nv with kBbk := none, counter := usedCounter s } := by
  obtain ⟨r, hr⟩ := useCounter_eq { s with nv := { s.nv with kBbk := none } }
  have hw := (wipeSecrets_touches (useCounter { s with nv := { s.nv with kBbk := none } })).parts
  have hn : (secretsDropped s).nv = (useCounter { s with nv := { s.nv with kBbk := none } }).nv := hw .nv (by simp)
  refine ⟨?_, by rw [hn, hr]; rfl⟩
  unfold secretsDropped
  generalize wipeSecrets (useCounter { s with nv := { s.nv with kBbk := none } }) = w at hw
  rw [hr] at hw
  refine OnlyParts.trans (fun p hp => ?_) (hw.mono (by simp))
  cases p <;> simp_all [samePart]

/-- With no keyed command in progress only K_BBK and the secure parts go. -/
theorem secretsDropped_idle (hi : s.mbx.phase = .idle) :
    Touches [.regs, .nv, .eddies] (fun o => 0x1000060 ≤ o) s (secretsDropped s) ∧
    (secretsDropped s).nv = { s.nv with kBbk := none } := by
  have hu : useCounter { s with nv := { s.nv with kBbk := none } } = { s with nv := { s.nv with kBbk := none } } :=
    if_neg (by simp [hi])
  unfold secretsDropped
  rw [hu]
  have hw := wipeSecrets_touches { s with nv := { s.nv with kBbk := none } }
  have h0 : Touches [.regs, .nv, .eddies] (fun o => 0x1000060 ≤ o) s { s with nv := { s.nv with kBbk := none } } :=
    touches_of_regs_eq (OnlyParts.refl.nv (by simp)) rfl
  exact ⟨h0.andThen hw (by simp) fun _ h => h, hw.parts .nv (by simp)⟩

theorem KeyedEnded.spec (h : KeyedEnded s t) : OnlyParts [.regs, .mbx, .msix, .nv] s t ∧ ∃ m, t.nv = { s.nv with slots := m } := by
  rcases h with ⟨-, rfl⟩ | ⟨-, rfl | rfl⟩
  · exact ⟨.refl, _, rfl⟩
  · exact abortSlot_parts s
  · have hm := (mbxDone_touches 0x0A 0 s).parts
    exact ⟨hm.mono (by simp), s.nv.slots, hm .nv (by simp)⟩

theorem KeyedEnded.eq_of_idle (h : KeyedEnded s t) (hi : s.mbx.phase = .idle) : t = s := by
  rcases h with ⟨-, rfl⟩ | ⟨hn, -⟩
  · rfl
  · exact absurd hi hn

/-! ### The zeroising load -/

theorem zeroLoaded_touches (mask : BitVec 4) (s : State) : Touches loadParts LoadReg s (zeroLoaded mask s) :=
  touches_of_regs_eq (OnlyParts.refl.ldr (by decide)) rfl

theorem zeroLoaded_spec {mask : BitVec 4} {src : Nat} (hs : LoadStarted src s) (hc : ∀ c, (getChan s c).st = .disabled) :
    LoadStarted src (zeroLoaded mask s) ∧ (zeroLoaded mask s).ldr.zeroise = true ∧
    ∀ c, (getChan (zeroLoaded mask s) c).st = .disabled := ⟨hs, rfl, hc⟩

theorem zeroLoad_touches (mask : BitVec 4) (s : State) :
    Touches loadParts LoadReg { s with nv := { s.nv with zeroDue := none } } (zeroLoad mask s) :=
  (loadStart_touches 0 0 0 _).trans (zeroLoaded_touches mask _)

/-- The zeroising load has started, and nothing of it is due any more. -/
theorem zeroLoad_spec (mask : BitVec 4) (s : State) :
    Touches (.nv :: loadParts) LoadReg s (zeroLoad mask s) ∧ (zeroLoad mask s).nv = { s.nv with zeroDue := none } ∧
    LoadStarted 0 (zeroLoad mask s) ∧ (zeroLoad mask s).ldr.zeroise = true ∧
    ∀ c, (getChan (zeroLoad mask s) c).st = .disabled := by
  have h0 : Touches (.nv :: loadParts) LoadReg s { s with nv := { s.nv with zeroDue := none } } :=
    touches_of_regs_eq (OnlyParts.refl.nv (by simp)) rfl
  have h := zeroLoad_touches mask s
  exact ⟨h0.andThen h (by simp) fun _ h => h, h.parts .nv (by decide),
    zeroLoaded_spec (loadStart_started 0 0 0 _) (loadStart_disabled 0 0 0 _)⟩

theorem zeroLoadOrDue_inReset {mask : BitVec 4} (h : s.dev.inReset = true) :
    zeroLoadOrDue mask s = { s with nv := { s.nv with zeroDue := some mask } } := if_pos h

theorem zeroLoadOrDue_shut {mask : BitVec 4} (h : s.dev.inReset = false) (hs : s.dev.st = .shuttingDown) :
    zeroLoadOrDue mask s = s := by
  unfold zeroLoadOrDue
  rw [h, hs]
  rfl

theorem zeroLoadOrDue_runs {mask : BitVec 4} (h : s.dev.inReset = false) (hs : s.dev.st ≠ .shuttingDown) :
    zeroLoadOrDue mask s = zeroLoad mask s := by
  unfold zeroLoadOrDue
  rw [if_neg (by simp [h]), if_neg (by simpa using hs)]

/-- In each state of the device: what is kept, and whether the load has started. -/
theorem zeroLoadOrDue_spec (mask : BitVec 4) (s : State) :
    Touches (.nv :: loadParts) LoadReg s (zeroLoadOrDue mask s) ∧ (∃ z, (zeroLoadOrDue mask s).nv = { s.nv with zeroDue := z }) ∧
    (s.dev.inReset = false → s.dev.st ≠ .shuttingDown → LoadStarted 0 (zeroLoadOrDue mask s) ∧
      (zeroLoadOrDue mask s).ldr.zeroise = true ∧ ∀ c, (getChan (zeroLoadOrDue mask s) c).st = .disabled) := by
  cases hr : s.dev.inReset with
  | true =>
    rw [zeroLoadOrDue_inReset hr]
    exact ⟨touches_of_regs_eq (OnlyParts.refl.nv (by simp)) rfl, ⟨_, rfl⟩, fun h => by cases h⟩
  | false =>
    by_cases hst : s.dev.st = .shuttingDown
    · rw [zeroLoadOrDue_shut hr hst]
      exact ⟨.refl, ⟨s.nv.zeroDue, rfl⟩, fun _ h => absurd hst h⟩
    · rw [zeroLoadOrDue_runs hr hst]
      obtain ⟨ht, hn, hl⟩ := zeroLoad_spec mask s
      exact ⟨ht, ⟨_, hn⟩, fun _ _ => hl⟩

/-! ### The response in each state -/

/-- Whatever keyed command is in progress. -/
theorem zeroise_spec (s : State) : OnlyParts (.mbx :: .nv :: loadParts) s (zeroise false 0 s) ∧
    (zeroise false 0 s).nv.kBbk = none ∧ (zeroise false 0 s).nv.tamper = s.nv.tamper ∧
    (s.dev.inReset = false → s.dev.st ≠ .shuttingDown → (zeroise false 0 s).ldr.zeroise = true) := by
  obtain ⟨hp, hn⟩ := secretsDropped_spec s
  obtain ⟨u, mask, hu, -, e⟩ := zeroise_steps s
  obtain ⟨hq, m, hm⟩ := hu.spec
  rw [e]
  obtain ⟨ht, ⟨z, hz⟩, hl⟩ := zeroLoadOrDue_spec mask u
  have hd : u.dev = s.dev := (hq .dev (by simp)).trans (hp .dev (by simp))
  refine ⟨((hp.mono (by decide)).trans (hq.mono (by decide))).trans (ht.parts.mono (by simp)), ?_, ?_, fun hr hst => ?_⟩
  · rw [hz, hm, hn]
  · rw [hz, hm, hn]
  · obtain ⟨-, h, -⟩ := hl (by rw [hd]; exact hr) (by rw [hd]; exact hst)
    exact h

/-- With no keyed command in progress, once the secrets are dropped. -/
theorem zeroLoadOrDue_idle {u : State} {mask : BitVec 4} (hp : Touches [.regs, .nv, .eddies] (fun o => 0x1000060 ≤ o) s u)
    (hn : u.nv = { s.nv with kBbk := none }) (hm : mask = u.nv.zeroDue.getD 0) (ht : t = zeroLoadOrDue mask u) :
    Touches (.nv :: loadParts) LoadReg s t ∧
    (s.dev.inReset = true → t.nv = { s.nv with kBbk := none, zeroDue := some (s.nv.zeroDue.getD 0) } ∧ t.ldr = s.ldr) ∧
    (s.dev.inReset = false → s.dev.st ≠ .shuttingDown →
      LoadStarted 0 t ∧ t.ldr.zeroise = true ∧ ∀ c, (getChan t c).st = .disabled) := by
  have hd : u.dev = s.dev := hp.parts .dev (by simp)
  obtain ⟨hu, -, hs⟩ := zeroLoadOrDue_spec mask u
  rw [hd] at hs
  subst ht
  refine ⟨(hp.mono (by decide) (by intro o ho; omega)).trans hu, fun hr => ?_, hs⟩
  rw [zeroLoadOrDue_inReset (by rw [hd]; exact hr), hm, hn]
  exact ⟨rfl, hp.parts .ldr (by simp)⟩

/-- With no keyed command in progress. -/
theorem zeroise_idle (hi : s.mbx.phase = .idle) :
    Touches (.nv :: loadParts) LoadReg s (zeroise false 0 s) ∧
    (s.dev.inReset = true → (zeroise false 0 s).nv = { s.nv with kBbk := none, zeroDue := some (s.nv.zeroDue.getD 0) } ∧
      (zeroise false 0 s).ldr = s.ldr) ∧
    (s.dev.inReset = false → s.dev.st ≠ .shuttingDown → LoadStarted 0 (zeroise false 0 s) ∧
      (zeroise false 0 s).ldr.zeroise = true ∧ ∀ c, (getChan (zeroise false 0 s) c).st = .disabled) := by
  obtain ⟨hp, hn⟩ := secretsDropped_idle hi
  obtain ⟨u, mask, hu, hk, e⟩ := zeroise_steps s
  have hm : (secretsDropped s).mbx = s.mbx := hp.parts .mbx (by simp)
  rw [hu.eq_of_idle (by rw [hm]; exact hi)] at e hk
  exact zeroLoadOrDue_idle hp hn hk e

end

end Sys2Proof.Machine
end

section
/-! SUPPORT. How a keyed command completes, and what the commands of the store, the keys and the routes leave (R430, R437, R439,
R447, R448, R233). -/

namespace Sys2Proof.Machine

/-! ### The mailbox after a command (R441, R442) -/

/-- Every register that a row with an entry between two offsets names has the reset value 0, for the command buffer. -/
theorem mbxBuf_rows_reset :
    regTable.all (fun r => decide (r.reset = 0) || decide (r.top < 0x10800) || decide (0x11000 ≤ r.base)) = true := by
  decide +kernel

theorem resetOf_mbxBuf {i : Nat} (hi : i < 512) : resetOf (Reg.mbxBuf i) = 0#32 := by
  unfold resetOf
  split
  next r hr =>
    obtain ⟨hb, ht⟩ := regHit_range (List.find?_some hr)
    have hp := List.all_eq_true.mp mbxBuf_rows_reset r (List.mem_of_find?_eq_some hr)
    simp only [Bool.or_eq_true, decide_eq_true_eq] at hp
    unfold Reg.mbxBuf at hb ht
    rw [show r.reset = 0 by omega]
    rfl
  next => rfl

theorem getReg_clearRegs (p : Nat → Bool) (s : State) (o : Nat) :
    getReg (clearRegs p s) o = if p o then resetOf o else getReg s o := by
  refine (mget_filter resetOf (fun o => !p o) s.regs o).trans ?_
  cases p o <;> rfl

/-- The buffer of commands. -/
def inMbxBuf (o : Nat) : Bool := 0x10800 ≤ o && o < 0x11000

section
variable {a s : State} {result block : Nat}

/-- The status of a command that completes, with its result, and the counters. -/
def mbxCounted (result block : Nat) (s : State) : State :=
  let s := setReg Reg.mbxStat (w32 (block * 2 ^ 16 + mbxCmd s % 256 * 2 ^ 8 + result)) s
  let s := if result = 0 then s else bump Reg.mbxRefused s
  if result = 0x20 then bump Reg.mbxRangeCount s else s

theorem mbxDone_eq (result block : Nat) (s : State) : mbxDone result block s =
    raiseVec 15 { clearRegs inMbxBuf (mbxCounted result block s) with
      mbx := { (mbxCounted result block s).mbx with phase := .idle } } := rfl

theorem getReg_mbxDone (result block : Nat) (s : State) (o : Nat) : getReg (mbxDone result block s) o =
    if inMbxBuf o then resetOf o else getReg (mbxCounted result block s) o := by
  rw [mbxDone_eq, getReg_raiseVec]
  exact getReg_clearRegs _ _ o

theorem getReg_mbxCounted_stat (hs : RegsOk s) : getReg (mbxCounted result block s) Reg.mbxStat =
    w32 (block * 2 ^ 16 + mbxCmd s % 256 * 2 ^ 8 + result) := by
  unfold mbxCounted
  generalize w32 (block * 2 ^ 16 + mbxCmd s % 256 * 2 ^ 8 + result) = v
  have h0 : getReg (setReg Reg.mbxStat v s) Reg.mbxStat = v := getReg_setReg_self hs
  have h1 : getReg (if result = 0 then setReg Reg.mbxStat v s else bump Reg.mbxRefused (setReg Reg.mbxStat v s)) Reg.mbxStat = v := by
    split
    · exact h0
    · exact (getReg_setReg_ne _ _ _ _ (by decide)).trans h0
  dsimp only
  split
  · exact (getReg_setReg_ne _ _ _ _ (by decide)).trans h1
  · exact h1

theorem getReg_mbxCounted_refused (hs : RegsOk s) : getReg (mbxCounted result block s) Reg.mbxRefused =
    if result = 0 then getReg s Reg.mbxRefused else satInc (getReg s Reg.mbxRefused) := by
  unfold mbxCounted
  generalize w32 (block * 2 ^ 16 + mbxCmd s % 256 * 2 ^ 8 + result) = v
  have h0 : getReg (setReg Reg.mbxStat v s) Reg.mbxRefused = getReg s Reg.mbxRefused := getReg_setReg_ne _ _ _ _ (by decide)
  have h1 : getReg (if result = 0 then setReg Reg.mbxStat v s else bump Reg.mbxRefused (setReg Reg.mbxStat v s)) Reg.mbxRefused =
      if result = 0 then getReg s Reg.mbxRefused else satInc (getReg s Reg.mbxRefused) := by
    split
    · exact h0
    · rw [bump, getReg_setReg_self hs.setReg, h0]
  dsimp only
  split
  · exact (getReg_setReg_ne _ _ _ _ (by decide)).trans h1
  · exact h1

theorem getReg_mbxDone_stat (hs : RegsOk s) : getReg (mbxDone result block s) Reg.mbxStat =
    w32 (block * 2 ^ 16 + mbxCmd s % 256 * 2 ^ 8 + result) := by
  rw [getReg_mbxDone, if_neg (by decide), getReg_mbxCounted_stat hs]

theorem getReg_mbxDone_refused (hs : RegsOk s) : getReg (mbxDone result block s) Reg.mbxRefused =
    if result = 0 then getReg s Reg.mbxRefused else satInc (getReg s Reg.mbxRefused) := by
  rw [getReg_mbxDone, if_neg (by decide), getReg_mbxCounted_refused hs]

theorem getReg_mbxDone_buf {i : Nat} (hi : i < 512) : getReg (mbxDone result block s) (Reg.mbxBuf i) = 0#32 := by
  rw [getReg_mbxDone, if_pos, resetOf_mbxBuf hi]
  unfold inMbxBuf Reg.mbxBuf
  simp only [Bool.and_eq_true, decide_eq_true_eq]
  omega

theorem mbxDone_idle : (mbxDone result block s).mbx.phase = .idle := by
  rw [mbxDone_eq, raiseVec_mbx]

/-- A keyed command completes with its result, seen from a state that counts as many refusals. -/
theorem mbxEnds_mbxDone (hs : RegsOk s) (hr : result < 256) (hb : block < 256)
    (ha : getReg s Reg.mbxRefused = getReg a Reg.mbxRefused) : MbxEnds result block a (mbxDone result block s) := by
  have hn : (w32 (block * 2 ^ 16 + mbxCmd s % 256 * 2 ^ 8 + result)).toNat = block * 2 ^ 16 + mbxCmd s % 256 * 2 ^ 8 + result := by
    simp only [w32, BitVec.toNat_ofNat]
    omega
  refine ⟨?_, ?_, ?_, mbxDone_idle, fun i hi => getReg_mbxDone_buf hi, ?_⟩
  · rw [getReg_mbxDone_stat hs, fld, hn, Nat.shiftRight_zero]
    omega
  · rw [getReg_mbxDone_stat hs, fld, hn, Nat.shiftRight_eq_div_pow]
    omega
  · rw [getReg_mbxDone_stat hs, bitAt, hn, Nat.shiftRight_eq_div_pow]
    simp only [beq_eq_false_iff_ne]
    omega
  · rw [getReg_mbxDone_refused hs, ha]

/-- A command that completes after a change of the store alone. -/
theorem mbxEnds_nv {v : Nv} (hs : RegsOk s) :
    MbxEnds 0 0 s (mbxDone 0 0 { s with nv := v }) ∧ (mbxDone 0 0 { s with nv := v }).nv = v ∧
    OnlyParts [.regs, .mbx, .msix, .nv] s (mbxDone 0 0 { s with nv := v }) := by
  have hv : RegsOk { s with nv := v } := hs
  have hm := (mbxDone_touches 0 0 { s with nv := v }).parts
  exact ⟨mbxEnds_mbxDone hv (by omega) (by omega) rfl, hm .nv (by simp), (OnlyParts.refl.nv (by simp)).trans (hm.mono (by simp))⟩

end

/-! ### Slots (R437, R447) -/

section
variable {s : State}

/-- Reading the staging area where no word has an error changes nothing. -/
theorem srcRead_clean {c : Source} (h : (s.pool.hbm.all (fun p => p.2.err == 0)) = true) : srcRead c s = s := by
  unfold srcRead
  split
  · rfl
  · have hf : s.pool.hbm.filter (fun p => stageWord + c.off / 8 ≤ p.1 && p.1 < stageWord + (c.off + c.len + 7) / 8 && p.2.err != 0) = [] :=
      List.filter_eq_nil_iff.mpr fun p hp => by
        have he := List.all_eq_true.mp h p hp
        simp only [beq_iff_eq] at he
        simp [he]
    dsimp only
    rw [hf]
    rfl

/-- The floor of a key goes up to that of the image. -/
def floorsRaised (fl : Option (Nat × Nat)) (v : Nv) : Nv :=
  match fl with
  | some (1, k) => { v with floor1 := max v.floor1 k }
  | some (2, k) => { v with floor2 := max v.floor2 k }
  | _ => v

/-- The floors depend on nothing else of the store. -/
theorem floorsRaised_slots (fl : Option (Nat × Nat)) (v : Nv) (m : SMap Slot) (b : Nat) :
    floorsRaised fl { v with slots := m, boot := b } = { floorsRaised fl v with slots := m, boot := b } := by
  rcases fl with _ | ⟨_ | _ | _ | key, k⟩ <;> rfl

/-- The words of the staging area that a slot takes. -/
def stagedWords (s : State) (off len : Nat) : SMap (BitVec 64) :=
  (upTo ((len + 7) / 8)).foldl (fun m i => mset (fun _ => 0) m i
    (BitVec.ofNat 64 (leNat (srcBytes s ⟨none, off, len⟩ (8 * i) (min 8 (len - 8 * i)))))) []

theorem slotWriteDone_runs {n off len : Nat} {boot : Bool} {fl : Option (Nat × Nat)} (hp : s.mbx.phase = .slotWrite n off len boot fl)
    (hh : (s.pool.hbm.all (fun p => p.2.err == 0)) = true) : slotWriteDone s = mbxDone 0 0 { s with
      nv := floorsRaised fl { s.nv with
        slots := mset dSlotStore s.nv.slots n { len := len, words := stagedWords s off len, wear := (getSlot s n).wear + 1 }
        boot := if boot then n else s.nv.boot } } := by
  unfold slotWriteDone
  rw [hp]
  dsimp only
  rw [srcRead_clean hh]
  rcases fl with _ | ⟨_ | _ | _ | key, k⟩ <;> cases boot <;> rfl

theorem slotWriteDone_other (h : ∀ n off len boot fl, s.mbx.phase ≠ .slotWrite n off len boot fl) : slotWriteDone s = s := by
  unfold slotWriteDone
  split
  next hp => exact absurd hp (h _ _ _ _ _)
  next => rfl

theorem slotEraseDone_runs {n : Nat} {boot : Bool} (hp : s.mbx.phase = .slotErase n boot) : slotEraseDone s = mbxDone 0 0 { s with
      nv := { s.nv with
        slots := mset dSlotStore s.nv.slots n { getSlot s n with len := 0, words := [] }
        boot := if boot then n else s.nv.boot } } := by
  unfold slotEraseDone
  rw [hp]
  cases boot <;> rfl

theorem keyStored_runs {bbk : Bool} {k : BitVec 256} (hp : s.mbx.phase = .key bbk k) : keyStored s = mbxDone 0 0 { s with
      nv := if bbk then { s.nv with kBbk := some k, bbkLost := false, floor2 := 0 } else { s.nv with kFuse := some k } } := by
  unfold keyStored
  rw [hp]

end

end Sys2Proof.Machine
end

section
/-! SUPPORT. What the end of a life-cycle transition, of a pending route table and of an HBM sweep leave (R233, R439, R480), and the
ford ports at the loss of their clock (R30). -/

namespace Sys2Proof.Machine

/-- What every update of a list keeps holds after all of them. -/
theorem forEach_keeps_mem {α : Type} {P : State → Prop} {f : α → State → State} {l : List α} (h : ∀ b ∈ l, ∀ t, P t → P (f b t))
    {s : State} (hs : P s) : P (forEach f l s) := by
  induction l generalizing s with
  | nil => exact hs
  | cons b l ih => exact ih (fun c hc => h c (List.mem_cons_of_mem b hc)) (h b List.mem_cons_self s hs)

/-- An update for each of several things, each thing once: what its own update brings about under a condition holds at the end, if no
other update disturbs either. -/
theorem forEach_once {α : Type} {P Q : State → Prop} {f : α → State → State} {a : α} {l : List α} (hn : l.Nodup) (hl : a ∈ l)
    (hP : ∀ b ∈ l, b ≠ a → ∀ t, P t → P (f b t)) (ha : ∀ t, P t → Q (f a t)) (hQ : ∀ b ∈ l, b ≠ a → ∀ t, Q t → Q (f b t))
    {s : State} (hs : P s) : Q (forEach f l s) := by
  induction l generalizing s with
  | nil => cases hl
  | cons b l ih =>
    obtain ⟨hb, hn⟩ := List.nodup_cons.mp hn
    by_cases hba : b = a
    · subst hba
      exact forEach_keeps_mem (P := Q) (fun c hc => hQ c (List.mem_cons_of_mem b hc) fun e => hb (e ▸ hc)) (ha s hs)
    · exact ih hn ((List.mem_cons.mp hl).resolve_left (Ne.symm hba)) (fun c hc => hP c (List.mem_cons_of_mem b hc))
        (fun c hc => hQ c (List.mem_cons_of_mem b hc)) (hP b List.mem_cons_self hba s hs)

theorem nodup_upTo (n : Nat) : (upTo n).Nodup := upTo_eq_range n ▸ List.nodup_range

/-! ### The end of a transition (R439) -/

section
variable {s : State}

theorem eraseSlots_lc (m : Nat) (s : State) : OnlyParts [.nv] s (eraseSlots m s) ∧ (eraseSlots m s).nv.lc = s.nv.lc :=
  forEach_keeps (fun t => OnlyParts [.nv] s t ∧ t.nv.lc = s.nv.lc) eraseSlot
    (fun _ _ h => ⟨h.1.trans (OnlyParts.refl.nv (by simp)), h.2⟩) _ s ⟨.refl, rfl⟩

theorem hbmAt_wipeHbm {a : Nat} (h : a < 0x400000 ∨ stageWord ≤ a) : hbmAt (wipeHbm s) a = {} := by
  refine (mget_filter dHbm (fun k => 0x400000 ≤ k && k < stageWord) s.pool.hbm a).trans (if_neg ?_)
  simp only [Bool.and_eq_true, decide_eq_true_eq]
  omega

/-- HBM is zeroed, the marks of the wipe are gone, and the life cycle is as it was. -/
theorem wipeStore_spec (l : LifeCycle) (s : State) : OnlyParts [.nv, .pool] s (wipeStore l s) ∧
    (wipeStore l s).pool = (wipeHbm s).pool ∧ (wipeStore l s).nv.wipe = none ∧ (wipeStore l s).nv.lc = s.nv.lc := by
  have h0 : OnlyParts [.nv, .pool] s (wipeHbm s) := OnlyParts.refl.pool (by simp)
  obtain ⟨he, hlc⟩ := eraseSlots_lc 15 (wipeHbm s)
  unfold wipeStore
  dsimp only
  split
  · exact ⟨(h0.trans (he.mono (by simp))).nv (by simp), he .pool (by simp), rfl, hlc⟩
  · exact ⟨h0.nv (by simp), rfl, rfl, rfl⟩

theorem transitionDone_runs {l : LifeCycle} (hp : s.mbx.phase = .transition) (hw : s.nv.wipe = some l) :
    transitionDone s = mbxDone 0 0 (wipeStore l s) := by
  unfold transitionDone
  rw [hp, hw]
  rfl

/-! ### The end of a wait for the route tables (R233) -/

/-- The registers that a route's entry reaches: FAB_ROUTE, and the channels' copies. -/
def RouteReg (d o : Nat) : Prop := o = Reg.fabRoute d ∨ ∃ c, o = Reg.lnkFwd c d

theorem setRoute_touches (d : Nat) (v : Word) (s : State) : Touches [.regs] (RouteReg d) s (setRoute d v s) :=
  (Touches.refl.setReg (by simp) (.inl rfl)).forEach fun c _ h => h.setReg (by simp) (.inr ⟨c, rfl⟩)

theorem getReg_setRoute_self (hs : RegsOk s) (d : Nat) (v : Word) :
    getReg (setRoute d v s) (Reg.fabRoute d) = v &&& 0x10FFFFFF#32 := by
  have hc : Touches [.regs] (fun o => ∃ c, o = Reg.lnkFwd c d) (setReg (Reg.fabRoute d) (v &&& 0x10FFFFFF#32) s) (setRoute d v s) :=
    Touches.refl.forEach fun c _ h => h.setReg (by simp) ⟨c, rfl⟩
  rw [hc.regs, getReg_setReg_self hs]
  rintro ⟨c, hc⟩
  unfold Reg.fabRoute Reg.lnkFwd at hc
  omega

theorem getReg_setRoute_ne {d e : Nat} (hd : d < 1022) (he : e < 1022) (hne : d ≠ e) (v : Word) :
    getReg (setRoute d v s) (Reg.fabRoute e) = getReg s (Reg.fabRoute e) := by
  refine (setRoute_touches d v s).regs _ ?_
  rintro (h | ⟨c, h⟩)
  · unfold Reg.fabRoute at h
    omega
  · unfold Reg.fabRoute Reg.lnkFwd at h
    omega

theorem installTable_touches (tab : Nat → Word) (s : State) : Touches [.regs] (fun o => 0x100000 ≤ o) s (installTable tab s) :=
  Touches.refl.forEach fun d t h => h.andThen (setRoute_touches d (tab d) t) (by simp) fun o ho => by
    rcases ho with rfl | ⟨c, rfl⟩
    · unfold Reg.fabRoute; omega
    · unfold Reg.lnkFwd; omega

theorem getReg_installTable (hs : RegsOk s) (tab : Nat → Word) {d : Nat} (hd : d < 1022) :
    getReg (installTable tab s) (Reg.fabRoute d) = tab d &&& 0x10FFFFFF#32 := by
  have h := forEach_once (P := RegsOk) (Q := fun t => RegsOk t ∧ getReg t (Reg.fabRoute d) = tab d &&& 0x10FFFFFF#32)
    (f := fun d s => setRoute d (tab d) s) (s := s) (nodup_upTo 1022) (mem_upTo.mpr hd)
    (fun _ _ _ t ht => (Keeps.refl t).setRoute.regs ht)
    (fun t ht => ⟨(Keeps.refl t).setRoute.regs ht, getReg_setRoute_self ht d _⟩)
    (fun e he hne t ht => ⟨(Keeps.refl t).setRoute.regs ht.1,
      (getReg_setRoute_ne (mem_upTo.mp he) hd hne _).trans ht.2⟩) hs
  exact h.2

/-- A table that has been installed comes into force, with the masks. -/
def tableInForce (up ch : BitVec 20) (s : State) : State :=
  fabCause 0 (newTables (routeSrc { s with net := { s.net with upMask := up, children := ch } }))

theorem tableInForce_touches (up ch : BitVec 20) (s : State) : Touches netParts NetReg s (tableInForce up ch s) := by
  have h0 : Touches netParts NetReg s { s with net := { s.net with upMask := up, children := ch } } := Touches.refl.netBeside
  have h1 : Touches netParts NetReg s (routeSrc { s with net := { s.net with upMask := up, children := ch } }) :=
    h0.setReg (by decide) (by decide)
  exact h1.newTables.fabCause

theorem applyRoutes_eq (s : State) : ∃ up ch, applyRoutes s =
    mbxDone 0 0 (tableInForce up ch (installTable (mget (fun _ => 0) s.net.shadow) s)) := by
  unfold applyRoutes tableInForce
  dsimp only
  exact ⟨_, _, rfl⟩

theorem applyDrained_busy (hp : s.mbx.phase = .apply) (hb : flitsBuffered s = true) : applyDrained s = mbxDone 6 4 (fabCause 4 s) := by
  unfold applyDrained
  rw [hp, hb]
  rfl

theorem applyDrained_free (hp : s.mbx.phase = .apply) (hb : flitsBuffered s = false) : applyDrained s = applyRoutes s := by
  unfold applyDrained
  rw [hp, hb, if_neg (by decide), if_neg (by decide)]

theorem applyDrained_idle (hp : s.mbx.phase = .idle) : applyDrained s = s := by
  unfold applyDrained
  rw [hp]
  rfl

/-- The wait is over with flits still buffered: FAB_BUSY. -/
theorem fabBusy_spec (hs : RegsOk s) : MbxEnds 6 4 s (mbxDone 6 4 (fabCause 4 s)) ∧ (mbxDone 6 4 (fabCause 4 s)).net = s.net ∧
    getReg (mbxDone 6 4 (fabCause 4 s)) Reg.fabCause = 4#32 := by
  have hm := mbxDone_touches 6 4 (fabCause 4 s)
  refine ⟨mbxEnds_mbxDone (RegsOk.setReg hs) (by omega) (by omega) (getReg_setReg_ne _ _ _ _ (by decide)), hm.parts .net (by simp), ?_⟩
  exact (hm.regs _ (by decide)).trans (getReg_setReg_self hs)

theorem applyRoutes_spec (hs : RegsOk s) : MbxEnds 0 0 s (applyRoutes s) ∧
    ∀ d < 1022, getReg (applyRoutes s) (Reg.fabRoute d) = mget (fun _ => 0) s.net.shadow d &&& 0x10FFFFFF#32 := by
  obtain ⟨up, ch, e⟩ := applyRoutes_eq s
  rw [e]
  have hi := installTable_touches (mget (fun _ => 0) s.net.shadow) s
  have ht := tableInForce_touches up ch (installTable (mget (fun _ => 0) s.net.shadow) s)
  have hk : RegsOk (tableInForce up ch (installTable (mget (fun _ => 0) s.net.shadow) s)) :=
    (Keeps.refl s).installTable.beside.routeSrc.newTables.fabCause.regs hs
  refine ⟨mbxEnds_mbxDone hk (by omega) (by omega) ((ht.regs _ (by decide)).trans (hi.regs _ (by decide))), fun d hd => ?_⟩
  exact ((mbxDone_touches 0 0 _).regs _ (by unfold Reg.fabRoute; omega)).trans
    ((ht.regs _ (by unfold Reg.fabRoute; omega)).trans (getReg_installTable hs _ hd))

/-! ### The end of an HBM sweep (R480) -/

theorem sweepDone_off (h : s.rep.sweep = false) : sweepDone s = s := by simp [sweepDone, h]

/-- A sweep that met no error changes nothing else. -/
theorem sweepDone_clean (h : s.rep.sweep = true) (hh : (s.pool.hbm.all (fun p => p.2.err == 0)) = true) :
    sweepDone s = { s with rep := { s.rep with sweep := false } } := by
  have hf : s.pool.hbm.filter (fun p => 0xC0000000 / 8 ≤ p.1 && p.2.err != 0) = [] :=
    List.filter_eq_nil_iff.mpr fun p hp => by
      have he := List.all_eq_true.mp hh p hp
      simp only [beq_iff_eq] at he
      simp [he]
  unfold sweepDone
  dsimp only
  rw [hf, h]
  rfl

theorem sweepDone_sweep (s : State) : (sweepDone s).rep.sweep = false := by
  unfold sweepDone
  cases h : s.rep.sweep with
  | false => exact h
  | true => rfl

/-! ### The ford ports (R30, R212) -/

theorem startRetrain_down {c : Nat} {cause : Option Nat} (h : linkUp s c = false) : startRetrain c cause s = s := by
  simp [startRetrain, h]

theorem startRetrain_up {c : Nat} (hs : RegsOk s) (hc : ChansOk s) (h : linkUp s c = true) :
    (getChan (startRetrain c none s) c).st = .retraining ∧
    getReg (startRetrain c none s) (Reg.retrains c) = satInc (getReg s (Reg.retrains c)) := by
  simp only [startRetrain, h, Bool.not_true, Bool.false_eq_true, if_false]
  generalize hx : ({ getChan s c with st := .retraining, attempts := 0, firstTrain := false, partner := none, replay := none } : Chan) = x
  refine ⟨?_, getReg_setReg_self (s := setChan c x s) hs⟩
  change (getChan (setChan c x s) c).st = .retraining
  rw [getChan_setChan_self hc, ← hx]

/-- A retrain of one channel is no change of another. -/
theorem startRetrain_touches (c : Nat) (s : State) : Touches [.regs, .chans] (fun o => o = Reg.retrains c) s (startRetrain c none s) := by
  unfold startRetrain
  dsimp only
  exact .ite .refl ((Touches.refl.setChan (by simp)).bump (by simp) rfl)

theorem getChan_startRetrain_ne {c d : Nat} (h : c ≠ d) : getChan (startRetrain c none s) d = getChan s d := by
  have hb (x : Chan) : getChan (bump (Reg.retrains c) (setChan c x s)) d = getChan s d := getChan_setChan_ne s c d x h
  unfold startRetrain
  dsimp only
  split
  · rfl
  · exact hb _

theorem startRetrain_chansOk {c : Nat} (h : ChansOk s) : ChansOk (startRetrain c none s) := by
  unfold startRetrain
  dsimp only
  exact .ite h h.setChan.bump

/-- Each ford port that is up retrains. -/
def fordRetrain (s : State) : State := forEach (fun i s => startRetrain (16 + i) none s) (upTo 4) s

theorem fordRetrain_touches (s : State) : Touches [.regs, .chans] (fun o => ∃ i, o = Reg.retrains (16 + i)) s (fordRetrain s) :=
  Touches.refl.forEach fun i t h => h.andThen (startRetrain_touches (16 + i) t) (by simp) fun _ ho => ⟨i, ho⟩

theorem fordRetrain_down (h : ∀ c, linkUp s c = false) : fordRetrain s = s :=
  forEach_keeps (fun t => t = s) _ (fun _ t ht => by rw [ht]; exact startRetrain_down (h _)) (upTo 4) s rfl

theorem getChan_fordRetrain_ne {c : Nat} (hc : c < 16) : getChan (fordRetrain s) c = getChan s c :=
  forEach_keeps (fun t => getChan t c = getChan s c) _ (fun i _ ht => (getChan_startRetrain_ne (by omega)).trans ht) (upTo 4) s rfl

theorem getChan_fordRetrain (hs : RegsOk s) (hc : ChansOk s) {i : Nat} (hi : i < 4) :
    if linkUp s (16 + i) then (getChan (fordRetrain s) (16 + i)).st = .retraining ∧
      getReg (fordRetrain s) (Reg.retrains (16 + i)) = satInc (getReg s (Reg.retrains (16 + i)))
    else getChan (fordRetrain s) (16 + i) = getChan s (16 + i) := by
  have hother (j : Nat) (hj : j ≠ i) (t : State) : getChan (startRetrain (16 + j) none t) (16 + i) = getChan t (16 + i) ∧
      getReg (startRetrain (16 + j) none t) (Reg.retrains (16 + i)) = getReg t (Reg.retrains (16 + i)) :=
    ⟨getChan_startRetrain_ne (by omega), (startRetrain_touches _ t).regs _ (by unfold Reg.retrains; omega)⟩
  refine forEach_once (P := fun t => (RegsOk t ∧ ChansOk t) ∧ getChan t (16 + i) = getChan s (16 + i) ∧
      getReg t (Reg.retrains (16 + i)) = getReg s (Reg.retrains (16 + i)))
    (Q := fun t => if linkUp s (16 + i) then (getChan t (16 + i)).st = .retraining ∧
      getReg t (Reg.retrains (16 + i)) = satInc (getReg s (Reg.retrains (16 + i))) else getChan t (16 + i) = getChan s (16 + i))
    (nodup_upTo 4) (mem_upTo.mpr hi) ?_ ?_ ?_ ⟨⟨hs, hc⟩, rfl, rfl⟩
  · rintro j - hj t ⟨⟨hr, hk⟩, he, ho⟩
    obtain ⟨h1, h2⟩ := hother j hj t
    exact ⟨⟨(Keeps.refl t).startRetrain.regs hr, startRetrain_chansOk hk⟩, h1.trans he, h2.trans ho⟩
  · rintro t ⟨⟨hr, hk⟩, he, ho⟩
    have hl : linkUp t (16 + i) = linkUp s (16 + i) := by rw [linkUp, linkUp, he]
    split
    next h =>
      obtain ⟨h1, h2⟩ := startRetrain_up hr hk (hl.trans h)
      exact ⟨h1, by rw [h2, ho]⟩
    next h =>
      rw [startRetrain_down (hl.trans (Bool.eq_false_iff.mpr h))]
      exact he
  · intro j _ hj t ht
    obtain ⟨h1, h2⟩ := hother j hj t
    rw [h1, h2]
    exact ht

end

end Sys2Proof.Machine
end

section
/-! SETTLED. What completes keyed commands, tamper sources, and FRZ_POP (R30, R435, R437, R439, R447–R450, R453, R455, R456, R517). -/

namespace Sys2Proof.Machine

/-! ### Completions, as the store and the mailbox show them -/

section
variable {s : State}

theorem slotWriteDone_spec {n off len : Nat} {boot : Bool} {fl : Option (Nat × Nat)} (hs : RegsOk s)
    (hp : s.mbx.phase = .slotWrite n off len boot fl) (hh : (s.pool.hbm.all (fun p => p.2.err == 0)) = true) {t : State}
    (ht : t = slotWriteDone s) :
    MbxEnds 0 0 s t ∧ (getSlot t n).len = len ∧ (getSlot t n).wear = (getSlot s n).wear + 1 ∧
    t.nv.floor1 = (floorsRaised fl s.nv).floor1 ∧ t.nv.floor2 = (floorsRaised fl s.nv).floor2 ∧
    t.nv.boot = (if boot then n else s.nv.boot) ∧ OnlyParts [.regs, .mbx, .msix, .nv] s t := by
  rw [slotWriteDone_runs hp hh, floorsRaised_slots] at ht
  obtain ⟨hm, hn, ho⟩ := mbxEnds_nv (s := s) (v := _) hs
  have hslot : getSlot t n = { len := len, words := stagedWords s off len, wear := (getSlot s n).wear + 1 } := by
    rw [getSlot, ht, hn]
    exact mget_mset_listed dSlotStore _ _ _ fun e => by simpa [dSlotStore] using congrArg Slot.wear e
  exact ⟨ht ▸ hm, by rw [hslot], by rw [hslot], by rw [ht, hn], by rw [ht, hn], by rw [ht, hn], ht ▸ ho⟩

theorem slotEraseDone_spec {n : Nat} {boot : Bool} (hs : RegsOk s) (hw : mwf dSlotStore s.nv.slots = true)
    (hp : s.mbx.phase = .slotErase n boot) {t : State} (ht : t = slotEraseDone s) :
    MbxEnds 0 0 s t ∧ (getSlot t n).len = 0 ∧ (getSlot t n).words = [] ∧ t.nv.boot = (if boot then n else s.nv.boot) ∧
    OnlyParts [.regs, .mbx, .msix, .nv] s t := by
  rw [slotEraseDone_runs hp] at ht
  obtain ⟨hm, hn, ho⟩ := mbxEnds_nv (s := s) (v := _) hs
  have hslot : getSlot t n = { getSlot s n with len := 0, words := [] } := by
    rw [getSlot, ht, hn]
    simp only [mwf, Bool.and_eq_true] at hw
    exact (mget_mset dSlotStore _ n n _ hw.1).trans (if_pos rfl)
  exact ⟨ht ▸ hm, by rw [hslot], by rw [hslot], by rw [ht, hn], ht ▸ ho⟩

theorem keyStored_spec {bbk : Bool} {k : BitVec 256} (hs : RegsOk s) (hp : s.mbx.phase = .key bbk k) {t : State} (ht : t = keyStored s) :
    MbxEnds 0 0 s t ∧ t.nv = (if bbk then { s.nv with kBbk := some k, bbkLost := false, floor2 := 0 } else { s.nv with kFuse := some k }) ∧
    OnlyParts [.regs, .mbx, .msix, .nv] s t := by
  rw [keyStored_runs hp] at ht
  exact ht ▸ mbxEnds_nv hs

theorem transitionDone_spec {l : LifeCycle} (hs : RegsOk s) (hp : s.mbx.phase = .transition) (hw : s.nv.wipe = some l) {t : State}
    (ht : t = transitionDone s) : MbxEnds 0 0 s t ∧ t.nv.wipe = none ∧ t.nv.lc = s.nv.lc ∧
      (∀ a, (a < 0x400000 ∨ stageWord ≤ a) → hbmAt t a = {}) ∧ t.pool.gran = [] := by
  rw [transitionDone_runs hp hw] at ht
  obtain ⟨hparts, hpool, hwipe, hlc⟩ := wipeStore_spec l s
  have hr : (wipeStore l s).regs = s.regs := hparts .regs (by simp)
  have hm := (mbxDone_touches 0 0 (wipeStore l s)).parts
  have hn : t.nv = (wipeStore l s).nv := ht ▸ hm .nv (by simp)
  have hpl : t.pool = (wipeHbm s).pool := ht ▸ (hm .pool (by simp)).trans hpool
  have hk : RegsOk (wipeStore l s) := by rw [RegsOk, hr]; exact hs
  refine ⟨ht ▸ mbxEnds_mbxDone hk (by omega) (by omega) (by rw [getReg, getReg, hr]), by rw [hn, hwipe], by rw [hn, hlc], fun a ha => ?_,
    by rw [hpl]; rfl⟩
  rw [hbmAt, hpl]
  exact hbmAt_wipeHbm ha

/-- A completion that nothing waits for. -/
theorem completions_idle (hi : s.mbx.phase = .idle) : slotEraseDone s = s ∧ keyStored s = s ∧ transitionDone s = s ∧ applyDrained s = s := by
  refine ⟨?_, ?_, ?_, applyDrained_idle hi⟩
  · simp [slotEraseDone, hi]
  · simp [keyStored, hi]
  · simp [transitionDone, hi]

end

/-! ### Tamper events, as each source raises them (R435, R449, R450) -/

section
variable {s : State} {src : Nat}

theorem armed_nv {v : Nv} (hlc : v.lc = s.nv.lc) (hp : v.policy = s.nv.policy) : armed { s with nv := v } src = armed s src := by
  unfold armed
  rw [hlc, hp]

/-- The channels that are DISABLED carry no flits. -/
theorem linkUp_of_disabled {c : Nat} (h : (getChan s c).st = .disabled) : linkUp s c = false := by
  rw [linkUp, h]
  rfl

/-- An event out of reset that is raised with the store as `v`. -/
theorem tamper_row {i : Instr} {v : Nv} (hs : RegsOk s) (hr : s.dev.inReset = false) (hsrc : src < 5)
    (hlc : v.lc = s.nv.lc) (hpol : v.policy = s.nv.policy) (htam : v.tamper = s.nv.tamper)
    (he : exec i s = .next (tamper src { s with nv := v })) :
    (armed s src = false → Gives i s (fun t => t.nv = { v with tamper := setBit s.nv.tamper src true } ∧
      getReg t Reg.tamperCount = satInc (getReg s Reg.tamperCount) ∧ t.dev = { s.dev with cond := setBit s.dev.cond src true } ∧
      OnlyRegs [Reg.tamperCount] s t ∧ OnlyParts [.nv, .regs, .dev] s t)) ∧
    (armed s src = true → s.mbx.phase = .idle → Gives i s (fun t =>
      bitAt t.nv.tamper src = true ∧ t.nv.kBbk = none ∧ getReg t Reg.tamperCount = satInc (getReg s Reg.tamperCount) ∧
      (s.dev.st ≠ .shuttingDown → LoadStarted 0 t ∧ t.ldr.zeroise = true))) := by
  have hs' : RegsOk { s with nv := v } := hs
  have hcount := getReg_tamperNoted (src := src) hs'
  have hnote := tamperNoted_touches (s := { s with nv := v }) (src := src)
  refine ⟨fun ha => gives_of_exec he ?_, fun ha hi => gives_of_exec he ?_⟩
  · rw [tamper_unarmed ((armed_nv hlc hpol).trans ha)]
    refine ⟨by rw [tamperNoted_nv, htam], hcount, tamperNoted_dev, fun o ho => hnote.regs o (by simpa using ho), ?_⟩
    exact (OnlyParts.refl.nv (by simp)).trans hnote.parts
  · rw [tamper_armed ((armed_nv hlc hpol).trans ha)]
    obtain ⟨-, hk, htm, -⟩ := zeroise_spec (tamperNoted src { s with nv := v })
    obtain ⟨ht, -, hl⟩ := zeroise_idle (s := tamperNoted src { s with nv := v }) hi
    generalize zeroise false 0 (tamperNoted src { s with nv := v }) = t at *
    refine ⟨?_, hk, (ht.regs _ (by decide)).trans hcount, fun hst => ?_⟩
    · rw [htm, tamperNoted_nv]
      exact bitAt_setBit_self _ hsrc
    · obtain ⟨hl, hz, -⟩ := hl hr hst
      exact ⟨hl, hz⟩

/-- An event in reset. -/
theorem tamper_inReset {i : Instr} (hs : RegsOk s) (hr : s.dev.inReset = true) (hi : s.mbx.phase = .idle) (hsrc : src < 5)
    (he : exec i s = .next (tamper src s)) : Gives i s (fun t =>
      bitAt t.nv.tamper src = true ∧ getReg t Reg.tamperCount = satInc (getReg s Reg.tamperCount) ∧ t.ldr = s.ldr ∧
      (armed s src = true → t.nv.kBbk = none ∧ t.nv.zeroDue = some (s.nv.zeroDue.getD 0)) ∧
      (armed s src = false → t.nv = { s.nv with tamper := setBit s.nv.tamper src true })) := by
  refine gives_of_exec he ?_
  have hcount := getReg_tamperNoted (src := src) hs
  cases ha : armed s src with
  | false =>
    rw [tamper_unarmed ha]
    exact ⟨bitAt_setBit_self _ hsrc, hcount, rfl, fun h => (by cases h), fun _ => rfl⟩
  | true =>
    rw [tamper_armed ha]
    obtain ⟨ht, hz, -⟩ := zeroise_idle (s := tamperNoted src s) hi
    obtain ⟨hn, hl⟩ := hz hr
    generalize zeroise false 0 (tamperNoted src s) = t at *
    refine ⟨?_, (ht.regs _ (by decide)).trans hcount, hl, fun _ => ⟨by rw [hn], by rw [hn]; rfl⟩, fun h => by cases h⟩
    rw [hn]
    exact bitAt_setBit_self _ hsrc

/-- Any event, in any state: what of it a reset would still find. -/
theorem tamper_outlives (src : Nat) (hsrc : src < 5) (s : State) :
    (tamper src s).pending = s.pending ∧ bitAt (tamper src s).nv.tamper src = true ∧
    (armed s src = true → (tamper src s).nv.kBbk = none ∧
      (s.dev.inReset = false → s.dev.st ≠ .shuttingDown → (tamper src s).ldr.zeroise = true)) := by
  have hp : (tamperNoted src s).pending = s.pending := tamperNoted_touches.parts .pending (by simp)
  cases ha : armed s src with
  | false =>
    rw [tamper_unarmed ha]
    exact ⟨hp, bitAt_setBit_self _ hsrc, fun h => by cases h⟩
  | true =>
    rw [tamper_armed ha]
    obtain ⟨hparts, hk, ht, hz⟩ := zeroise_spec (tamperNoted src s)
    refine ⟨(hparts .pending (by decide)).trans hp, ?_, fun _ => ⟨hk, hz⟩⟩
    rw [ht]
    exact bitAt_setBit_self _ hsrc

/-! ### VBAT, and the halves of 64-bit values (R435, R455, R456) -/

theorem vbatLoss_runs (hr : s.dev.inReset = false) :
    vbatLoss s = tamper 1 { s with nv := { s.nv with kBbk := none, bbkLost := true } } := by
  unfold vbatLoss
  dsimp only
  rw [if_neg (by simp [hr])]

theorem vbatLoss_inReset (hr : s.dev.inReset = true) : vbatLoss s = { s with
    nv := { s.nv with kBbk := none, bbkLost := true, tamper := setBit s.nv.tamper 1 true, vbatFound := true }
    dev := { s.dev with cond := setBit s.dev.cond 1 true } } := by
  unfold vbatLoss
  dsimp only
  rw [if_pos hr]

/-- A read of a low half latches the high half. -/
theorem readHalves_spec (hs : RegsOk s) (hi v : Nat) :
    (readHalves hi v s).rdata = w32 v ∧ getReg (readHalves hi v s) hi = w32 (v / 2 ^ 32) ∧
    OnlyRegs [hi] s (readHalves hi v s) ∧ OnlyParts [.regs, .rdata] s (readHalves hi v s) := by
  have hlo : w32 (v % 2 ^ 32) = w32 v := BitVec.eq_of_toNat_eq (by simp [w32])
  exact ⟨hlo, lowRead_frame hs⟩

/-! ### VCC_HUB below its range, and REFCLK_SYS (R30, R449, R517) -/

/-- What a reset keeps of the store is all that a tamper event left there. -/
theorem porstAssert_keeps (s : State) :
    (porstAssert s).dev.inReset = true ∧ (porstAssert s).pending = s.pending ∧ (porstAssert s).nv.tamper = s.nv.tamper ∧
    (porstAssert s).nv.kBbk = s.nv.kBbk ∧ (s.ldr.zeroise = true → (porstAssert s).nv.zeroDue.isSome = true) := by
  obtain ⟨m, e, -⟩ := porstAssert_eq s
  rw [e]
  refine ⟨rfl, rfl, rfl, rfl, fun h => ?_⟩
  change (owedWipe s).isSome = true
  rw [owedWipe, h]
  rfl

/-- A supply below its range resets the device, which keeps the level of PORST_N. -/
theorem hubLow_spec (s : State) {u t : State} (hu : u = if watched s then tamper 3 s else s) (ht : t = hubExcursion true s) :
    t.dev.inReset = true ∧ t.dev.porstHigh = s.dev.porstHigh ∧ t.pending = u.pending ∧ bitAt t.dev.cond 3 = true ∧
    t.nv.tamper = u.nv.tamper ∧ t.nv.kBbk = u.nv.kBbk ∧ (u.ldr.zeroise = true → t.nv.zeroDue.isSome = true) := by
  obtain ⟨hr, hp, htm, hk, hz⟩ := porstAssert_keeps u
  have e : ∃ w, t = { porstAssert u with
      dev := { (porstAssert u).dev with porstHigh := s.dev.porstHigh, watch := w, cond := setBit s.dev.cond 3 true } } := by
    rw [ht, hu]
    exact ⟨_, rfl⟩
  obtain ⟨w, rfl⟩ := e
  exact ⟨hr, rfl, hp, bitAt_setBit_self _ (by omega), htm, hk, hz⟩

theorem refclkSysLoss_eq (s : State) : refclkSysLoss s =
    fordRetrain (if watched s then tamper 4 s else { s with dev := { s.dev with cond := setBit s.dev.cond 4 true } }) := rfl

/-- The loss of REFCLK_SYS as it is noted: as a tamper event where it is watched. -/
def refclkNoted (s : State) : State :=
  if watched s then tamperNoted 4 s else { s with dev := { s.dev with cond := setBit s.dev.cond 4 true } }

theorem refclkNoted_spec (hs : RegsOk s) :
    Touches [.nv, .regs, .dev] (fun o => o = Reg.tamperCount) s (refclkNoted s) ∧
    (refclkNoted s).nv = (if watched s then { s.nv with tamper := setBit s.nv.tamper 4 true } else s.nv) ∧
    getReg (refclkNoted s) Reg.tamperCount =
      (if watched s then satInc (getReg s Reg.tamperCount) else getReg s Reg.tamperCount) ∧
    (refclkNoted s).dev = { s.dev with cond := setBit s.dev.cond 4 true } ∧ RegsOk (refclkNoted s) := by
  unfold refclkNoted
  cases watched s with
  | false => exact ⟨touches_of_regs_eq (OnlyParts.refl.dev (by simp)) rfl, rfl, rfl, rfl, hs⟩
  | true => exact ⟨tamperNoted_touches, rfl, getReg_tamperNoted hs, rfl, RegsOk.setReg (s := { s with nv := _, dev := _ }) hs⟩

/-- Where no zeroise response follows, the ford ports retrain. -/
theorem refclkSysLoss_unarmed (hs : RegsOk s) (hc : ChansOk s) (h : watched s = false ∨ armed s 4 = false) {t : State}
    (ht : t = refclkSysLoss s) :
    t.nv = (if watched s then { s.nv with tamper := setBit s.nv.tamper 4 true } else s.nv) ∧
    getReg t Reg.tamperCount = (if watched s then satInc (getReg s Reg.tamperCount) else getReg s Reg.tamperCount) ∧
    (∀ i < 4, if linkUp s (16 + i) then (getChan t (16 + i)).st = .retraining ∧
        getReg t (Reg.retrains (16 + i)) = satInc (getReg s (Reg.retrains (16 + i)))
      else getChan t (16 + i) = getChan s (16 + i)) ∧
    t.dev = { s.dev with cond := setBit s.dev.cond 4 true } ∧
    (∀ c < 16, getChan t c = getChan s c) ∧ OnlyParts [.nv, .regs, .chans, .dev] s t := by
  have e : t = fordRetrain (refclkNoted s) := by
    rw [ht, refclkSysLoss_eq, refclkNoted]
    rcases h with h | h
    · rw [h]; rfl
    · rw [tamper_unarmed h]
  obtain ⟨hn, hnv, hcount, hdev, hr⟩ := refclkNoted_spec hs
  generalize refclkNoted s = u at *
  have hch (c : Nat) : getChan u c = getChan s c := by rw [getChan, hn.parts .chans (by simp), getChan]
  have hf := fordRetrain_touches u
  have hko : ChansOk u := by rw [ChansOk, hn.parts .chans (by simp)]; exact hc
  subst e
  refine ⟨(hf.parts .nv (by simp)).trans hnv, (hf.regs _ ?_).trans hcount, fun i hi => ?_, (hf.parts .dev (by simp)).trans hdev,
    fun c hc => (getChan_fordRetrain_ne hc).trans (hch c), (hn.parts.mono (by simp)).trans (hf.parts.mono (by simp))⟩
  · rintro ⟨i, hi⟩
    unfold Reg.tamperCount Reg.retrains at hi
    omega
  · have h := getChan_fordRetrain hr hko hi
    have hreg : getReg u (Reg.retrains (16 + i)) = getReg s (Reg.retrains (16 + i)) :=
      hn.regs _ (by unfold Reg.tamperCount Reg.retrains; omega)
    rwa [linkUp, hch, ← linkUp, hreg] at h

/-- An armed source starts the zeroising load, which leaves no port up to retrain. -/
theorem refclkSysLoss_armed (hs : RegsOk s) (hw : watched s = true) (ha : armed s 4 = true) (hi : s.mbx.phase = .idle)
    (hr : s.dev.inReset = false) (hst : s.dev.st ≠ .shuttingDown) {t : State} (ht : t = refclkSysLoss s) :
    bitAt t.nv.tamper 4 = true ∧ t.nv.kBbk = none ∧ getReg t Reg.tamperCount = satInc (getReg s Reg.tamperCount) ∧
    LoadStarted 0 t ∧ t.ldr.zeroise = true := by
  have hcount := getReg_tamperNoted (src := 4) hs
  obtain ⟨-, hk, htm, -⟩ := zeroise_spec (tamperNoted 4 s)
  obtain ⟨htouch, -, hl⟩ := zeroise_idle (s := tamperNoted 4 s) hi
  obtain ⟨hl, hz, hd⟩ := hl hr hst
  rw [refclkSysLoss_eq, hw, if_pos rfl, tamper_armed ha] at ht
  generalize zeroise false 0 (tamperNoted 4 s) = u at *
  rw [fordRetrain_down fun c => linkUp_of_disabled (hd c)] at ht
  subst ht
  exact ⟨by rw [htm]; exact bitAt_setBit_self _ (by omega), hk, (htouch.regs _ (by decide)).trans hcount, hl, hz⟩

end

/-- Settles O57: the completions by what they leave in the store (`slotWriteDone_spec`, …), the tamper sources by `tamper_row`,
`tamper_inReset` and `tamper_outlives`, the lost clock by `refclkSysLoss_unarmed` and `refclkSysLoss_armed`. -/
theorem securityEvents : Obligations.SecurityEvents := by
  refine ⟨fun s n off len boot fl hs hp hh => ?write, fun s n boot hs hw hp => gives_of_exec rfl (slotEraseDone_spec hs hw hp rfl),
    fun s bbk k hs hp => gives_of_exec rfl (keyStored_spec hs hp rfl),
    fun s l hs hp hw => gives_of_exec rfl (transitionDone_spec hs hp hw rfl),
    fun s h => gives_of_exec rfl (slotWriteDone_other h), fun s hi => ?idle, fun s hs hp => ?routes, fun s => ?sweep,
    fun s two hs hr => ?reads, fun s hs hr => ?rows, fun s hs hr hi => ?inReset, fun s hr => ?vbat, fun s hs hk => ⟨?clock, ?armedClock⟩,
    fun s => ?hub, fun s v hm => ?pop⟩
  case write =>
    obtain ⟨hm, hl, hw, h1, h2, hb, ho⟩ := slotWriteDone_spec hs hp hh rfl
    refine gives_of_exec rfl ⟨hm, hl, hw, h1.trans ?_, h2.trans ?_, hb, ho⟩
    all_goals rcases fl with _ | ⟨_ | _ | _ | key, k⟩ <;> rfl
  case idle =>
    obtain ⟨he, hk, ht, ha⟩ := completions_idle hi
    exact ⟨gives_of_exec rfl he, gives_of_exec rfl hk, gives_of_exec rfl ht, gives_of_exec rfl ha⟩
  case routes =>
    refine gives_of_exec rfl ?_
    cases hb : flitsBuffered s with
    | true =>
      rw [if_pos rfl, applyDrained_busy hp hb]
      exact fabBusy_spec hs
    | false =>
      rw [if_neg (by decide), applyDrained_free hp hb]
      exact applyRoutes_spec hs
  case sweep =>
    refine gives_of_exec rfl ⟨sweepDone_sweep s, fun h => ?_⟩
    cases hs : s.rep.sweep with
    | false => rw [sweepDone_off hs]; exact .refl
    | true =>
      rw [sweepDone_clean hs (h.resolve_left (by simp [hs]))]
      exact OnlyParts.refl.rep (by simp)
  case reads =>
    have hn : ¬ s.dev.inReset = true := by simp [hr]
    refine ⟨gives_of_exec rfl ?_, gives_of_exec rfl ?_⟩
    · rw [if_neg hn]
      exact readHalves_spec hs _ _
    · rw [if_neg hn]
      cases two with
      | true =>
        obtain ⟨hlo, hhi, -, ho⟩ := readHalves_spec hs Reg.lcFloor2Hi s.nv.floor2
        exact ⟨hlo, hhi, ho⟩
      | false =>
        obtain ⟨hlo, hhi, -, ho⟩ := readHalves_spec hs Reg.lcFloor1Hi s.nv.floor1
        exact ⟨hlo, hhi, ho⟩
  case rows =>
    intro rows p hp
    simp only [rows, List.mem_cons, List.not_mem_nil, or_false] at hp
    rcases hp with rfl | rfl | rfl | rfl
    · exact tamper_row (src := 0) hs hr (by decide) rfl rfl rfl rfl
    · exact tamper_row (src := 1) hs hr (by decide) rfl rfl rfl (by rw [← vbatLoss_runs hr]; rfl)
    · exact tamper_row (src := 2) hs hr (by decide) rfl rfl rfl rfl
    · exact tamper_row (src := 3) hs hr (by decide) rfl rfl rfl rfl
  case inReset =>
    intro p hp
    simp only [List.mem_cons, List.not_mem_nil, or_false] at hp
    rcases hp with rfl | rfl | rfl
    · exact tamper_inReset hs hr hi (by omega) rfl
    · exact tamper_inReset hs hr hi (by omega) rfl
    · exact tamper_inReset hs hr hi (by omega) rfl
  case vbat =>
    refine gives_of_exec rfl ?_
    rw [vbatLoss_inReset hr]
    exact ⟨(OnlyParts.refl.nv (x := { s.nv with kBbk := none, bbkLost := true, tamper := setBit s.nv.tamper 1 true, vbatFound := true })
      (by simp)).dev (by simp), rfl, rfl⟩
  case clock => exact fun h => gives_of_exec rfl (refclkSysLoss_unarmed hs hk.chans h rfl)
  case armedClock => exact fun hw ha hi hr hst => gives_of_exec rfl (refclkSysLoss_armed hs hw ha hi hr hst rfl)
  case hub =>
    refine gives_of_exec rfl ?_
    obtain ⟨hr, hph, hp, hc, htm, hk, hz⟩ := hubLow_spec s rfl rfl
    cases hw : watched s with
    | false =>
      rw [hw, if_neg (by decide)] at hp
      exact ⟨hr, hph, hp, hc, fun h => by cases h⟩
    | true =>
      rw [hw, if_pos rfl] at hp htm hk hz
      obtain ⟨hp', ht', ha'⟩ := tamper_outlives 3 (by omega) s
      refine ⟨hr, hph, hp.trans hp', hc, fun _ => ⟨by rw [htm]; exact ht', fun ha => ?_⟩⟩
      obtain ⟨hk', hz'⟩ := ha' ha
      exact ⟨hk.trans hk', fun hr hst => hz (hz' hr hst)⟩
  case pop =>
    refine gives_mgmt rfl hm ?_
    unfold frzPop
    cases bitAt v 0 with
    | false => exact ⟨rfl, .refl⟩
    | true => exact ⟨rfl, OnlyParts.refl.frz (by simp)⟩

end Sys2Proof.Machine
end

section
/-! SUPPORT. What every operation of the model keeps: the canonical form of the stores and tables of the device. One lemma for
each operation, in the order of the model's files, as for `Keeps`: a chain `h.f.g` reads in the order in which the operations
act. An operation that only writes other parts is a case of `Canon.beside`; one that writes a store rests on what `mset`,
`mmap`, `msplice`, `mtab` and `filter` keep. -/

namespace Sys2Proof.Machine

/-! ### The stores -/

/-- The queues and their words are in canonical form. -/
abbrev QueuesOk (m : SMap Queue) : Prop := mwf dQueue m = true ∧ m.all (fun p => mwf dWord p.2.mem) = true

/-- The eddies and their banks are in canonical form. -/
abbrev EddiesOk (m : SMap Eddy) : Prop := mwf dEddy m = true ∧ m.all (fun p => eddyOk p.2) = true

/-- The rewrites that each scrubber owes are in canonical form. -/
abbrev RewritesOk (m : SMap Scrubber) : Prop := m.all (fun p => mwf dBits p.2.rewrites) = true

/-- From `a` to `s` no store and no table lost its canonical form. -/
structure Canon (a s : State) : Prop where
  stores : StoresOk a → StoresOk s
  tables : TablesOk a → TablesOk s

/-- An operation that may not go through loses no canonical form where it does. -/
def CanonOpt (a : State) (o : Option State) : Prop := ∀ t, o = some t → Canon a t

/-! ### Sparse data whose values meet a condition -/

section
variable {α : Type} {d : Nat → α} {p : α → Bool} {m : SMap α} {k : Nat}

theorem all_mget (h : m.all (fun q => p q.2) = true) (hd : p (d k) = true) : p (mget d m k) = true := by
  induction m with
  | nil => exact hd
  | cons q m ih =>
    obtain ⟨j, v⟩ := q
    simp only [List.all_cons, Bool.and_eq_true] at h
    by_cases hj : j = k
    · simpa [mget, hj] using h.1
    · simpa [mget, hj] using ih h.2

theorem all_merase (h : m.all (fun q => p q.2) = true) : (merase m k).all (fun q => p q.2) = true := by
  induction m with
  | nil => exact h
  | cons q m ih =>
    obtain ⟨j, v⟩ := q
    simp only [List.all_cons, Bool.and_eq_true] at h
    unfold merase
    split
    · exact h.2
    · simp only [List.all_cons, Bool.and_eq_true]
      exact ⟨h.1, ih h.2⟩

theorem all_mput {v : α} (h : m.all (fun q => p q.2) = true) (hv : p v = true) : (mput m k v).all (fun q => p q.2) = true := by
  induction m with
  | nil => simp [mput, hv]
  | cons q m ih =>
    obtain ⟨j, w⟩ := q
    simp only [List.all_cons, Bool.and_eq_true] at h
    unfold mput
    split_ifs <;> simp only [List.all_cons, Bool.and_eq_true]
    · exact ⟨hv, h.1, h.2⟩
    · exact ⟨hv, h.2⟩
    · exact ⟨h.1, ih h.2⟩

variable [DecidableEq α]

theorem all_mset {v : α} (h : m.all (fun q => p q.2) = true) (hv : p v = true) :
    (mset d m k v).all (fun q => p q.2) = true := by
  unfold mset
  split
  · exact all_merase h
  · exact all_mput h hv

theorem all_mmap {f : Nat → α → α} (h : m.all (fun q => p q.2) = true) (hf : ∀ k v, p v = true → p (f k v) = true) :
    (mmap d f m).all (fun q => p q.2) = true := by
  induction m with
  | nil => rfl
  | cons q m ih =>
    obtain ⟨j, w⟩ := q
    simp only [List.all_cons, Bool.and_eq_true] at h
    unfold mmap
    split
    · exact ih h.2
    · simp only [List.all_cons, Bool.and_eq_true]
      exact ⟨hf j w h.1, ih h.2⟩

/-- Writes of several keys, one after the other. -/
theorem mwf_foldl {β : Type} {l : List β} {key : β → Nat} {v : β → α} (h : mwf d m = true) :
    mwf d (l.foldl (fun m i => mset d m (key i) (v i)) m) = true := by
  induction l generalizing m with
  | nil => exact h
  | cons i l ih => exact ih (mwf_mset d m _ _ h)

theorem mwf_merase (h : mwf d m = true) : mwf d (merase m k) = true := by
  simp only [mwf, Bool.and_eq_true] at h ⊢
  exact ⟨mrising_merase m 0 k h.1, mproper_merase d m k h.2⟩

theorem mwf_mtab {f : Nat → α} {lo n : Nat} : mwf d (mtab d f lo n) = true := by
  have h := mrising_mtab d f lo n 0 [] (Nat.zero_le _) rfl
  rw [List.append_nil] at h
  simp [mwf, h, mproper_mtab]

end

/-- Scrubbers are changed, their rewrites in a way that keeps their form. -/
theorem rewritesOk_mmap {m : SMap Scrubber} {f : Nat → Scrubber → Scrubber} (hm : RewritesOk m)
    (hf : ∀ k x, mwf dBits x.rewrites = true → mwf dBits (f k x).rewrites = true) : RewritesOk (mmap dScr f m) :=
  all_mmap (p := fun x : Scrubber => mwf dBits x.rewrites) hm hf

/-! ### Shapes of operations -/

theorem Canon.refl (a : State) : Canon a a := ⟨id, id⟩

section
variable {a s t : State}

theorem Canon.ite {c : Prop} {inst : Decidable c} (hs : Canon a s) (ht : Canon a t) : Canon a (if c then s else t) := by
  split <;> assumption

theorem Canon.iteSnd {α : Type} {c : Prop} {inst : Decidable c} {p q : α × State} (hp : Canon a p.2) (hq : Canon a q.2) :
    Canon a (if c then p else q).2 := by
  split <;> assumption

theorem Canon.iteThird {α β : Type} {c : Prop} {inst : Decidable c} {p q : α × β × State} (hp : Canon a p.2.2)
    (hq : Canon a q.2.2) : Canon a (if c then p else q).2.2 := by
  split <;> assumption

/-- The state of a pair that an operation answers. -/
theorem Canon.snd {α : Type} {p : α × State} {x : α} (h : Canon a p.2) (e : p = (x, t)) : Canon a t := by
  subst e
  exact h

/-- The state of a triple that an operation answers. -/
theorem Canon.third {α β : Type} {p : α × β × State} {x : α} {y : β} (h : Canon a p.2.2) (e : p = (x, y, t)) :
    Canon a t := by
  subst e
  exact h

theorem CanonOpt.none : CanonOpt a none := by rintro _ ⟨⟩

theorem CanonOpt.some (h : Canon a s) : CanonOpt a (some s) := by rintro _ ⟨⟩; exact h

theorem CanonOpt.ite {c : Prop} {inst : Decidable c} {o p : Option State} (ho : CanonOpt a o) (hp : CanonOpt a p) :
    CanonOpt a (if c then o else p) := by
  split <;> assumption

theorem Canon.foldl {α : Type} {f : State → α → State} {l : List α} (h : Canon a s)
    (hf : ∀ t x, Canon a t → Canon a (f t x)) : Canon a (l.foldl f s) := by
  induction l generalizing s with
  | nil => exact h
  | cons x l ih => exact ih (hf _ _ h)

theorem Canon.foldlSnd {α β : Type} {f : β × State → α → β × State} {l : List α} {p : β × State} (h : Canon a p.2)
    (hf : ∀ p x, Canon a p.2 → Canon a (f p x).2) : Canon a (l.foldl f p).2 := by
  induction l generalizing p with
  | nil => exact h
  | cons x l ih => exact ih (hf _ _ h)

end

/-! ### One queue, one eddy, one scrubber -/

/-- The words of a queue are in canonical form if the stores of `a` are. -/
def WordsOk (a : State) (x : Queue) : Prop := StoresOk a → mwf dWord x.mem = true

/-- The banks of an eddy are in canonical form if the stores of `a` are. -/
def BanksOk (a : State) (x : Eddy) : Prop := StoresOk a → eddyOk x = true

section
variable {a : State} {x y : Queue}

theorem WordsOk.ite {c : Prop} {inst : Decidable c} (hx : WordsOk a x) (hy : WordsOk a y) : WordsOk a (if c then x else y) := by
  split <;> assumption

theorem WordsOk.beside (hx : WordsOk a x) {wp rp pwp rpW pwpR openSpill spillSeen sealReq inItem itemOpen last lastTag
    flush flushing discarding flushN flushTail wr rd hold hostPush staleFired above} :
    WordsOk a ⟨x.mem, wp, rp, pwp, rpW, pwpR, openSpill, spillSeen, sealReq, inItem, itemOpen, last, lastTag, flush, flushing,
      discarding, flushN, flushTail, wr, rd, hold, hostPush, staleFired, above⟩ := hx

theorem WordsOk.qStore (hx : WordsOk a x) {w : Word} {p : Nat} {v : QWord} : WordsOk a (qStore w p v x) :=
  fun ha => mwf_mset _ _ _ _ (hx ha)

theorem WordsOk.sealAsk (hx : WordsOk a x) {w : Word} : WordsOk a (sealAsk w x) := .ite hx.beside hx

theorem WordsOk.dropFlush (hx : WordsOk a x) : WordsOk a (dropFlush x) := .ite hx.beside hx

end

section
variable {a : State} {x y : Eddy}

theorem eddyOk_iff : eddyOk x = true ↔ mwf dG x.g = true ∧ mwf dHbm x.spad = true ∧ mwf dInfo x.qinfo = true ∧
    mwf (fun _ => (0 : Word)) x.ph = true := by
  simp [eddyOk, and_assoc]

theorem BanksOk.ite {c : Prop} {inst : Decidable c} (hx : BanksOk a x) (hy : BanksOk a y) : BanksOk a (if c then x else y) := by
  split <;> assumption

/-- A change of an eddy that leaves its banks. -/
theorem BanksOk.beside (hx : BanksOk a x) {x0 x1 x2 x3 x4 x5 x6 x8 x9 x10 x11 x12 x13 x14 x15 x16 x17 x18 x20 x21 x22 x23 x24
    x25 x26 x27 x28 x29 x30 x31 x33 x34 x35 x36 x37 x39 x40 x41} :
BanksOk a ⟨x0, x1, x2, x3, x4, x5, x6, x.g, x8, x9, x10, x11, x12, x13, x14, x15, x16, x17, x18, x.spad, x20, x21, x22, x23,
      x24, x25, x26, x27, x28, x29, x30, x31, x.ph, x33, x34, x35, x36, x37, x.qinfo, x39, x40, x41⟩ :=
  hx

theorem BanksOk.withG (hx : BanksOk a x) {m : SMap (BitVec 64)} (hm : mwf dG x.g = true → mwf dG m = true) :
    BanksOk a { x with g := m } := fun ha =>
  have ⟨hg, hs, hq, hp⟩ := eddyOk_iff.mp (hx ha)
  eddyOk_iff.mpr ⟨hm hg, hs, hq, hp⟩

theorem BanksOk.withSpad (hx : BanksOk a x) {m : SMap HWord} (hm : mwf dHbm x.spad = true → mwf dHbm m = true) :
    BanksOk a { x with spad := m } := fun ha =>
  have ⟨hg, hs, hq, hp⟩ := eddyOk_iff.mp (hx ha)
  eddyOk_iff.mpr ⟨hg, hm hs, hq, hp⟩

theorem BanksOk.withQinfo (hx : BanksOk a x) {m : SMap Word} (hm : mwf dInfo x.qinfo = true → mwf dInfo m = true) :
    BanksOk a { x with qinfo := m } := fun ha =>
  have ⟨hg, hs, hq, hp⟩ := eddyOk_iff.mp (hx ha)
  eddyOk_iff.mpr ⟨hg, hs, hm hq, hp⟩

theorem BanksOk.withPh (hx : BanksOk a x) {m : SMap Word}
    (hm : mwf (fun _ => (0 : Word)) x.ph = true → mwf (fun _ => (0 : Word)) m = true) :
    BanksOk a { x with ph := m } := fun ha =>
  have ⟨hg, hs, hq, hp⟩ := eddyOk_iff.mp (hx ha)
  eddyOk_iff.mpr ⟨hg, hs, hq, hm hp⟩

/-- The scratchpad image of a firmware module. -/
theorem fwSpad_ok (m : Nat) : mwf dHbm (fwSpad m) = true := by
  unfold fwSpad
  exact mwf_foldl rfl

/-- A firmware module is placed in an eddy: its scratchpad is the module's. -/
theorem BanksOk.firmware (hx : BanksOk a x) {spad : SMap HWord} (hs : mwf dHbm spad = true) {st kind fwId secure param prev} :
    BanksOk a { x with st := st, kind := kind, fwId := fwId, secure := secure, fwParam := param, prevFw := prev, spad := spad } :=
  hx.withSpad (fun _ => hs)

theorem BanksOk.setSpad (hx : BanksOk a x) {i : Nat} {w : HWord} : BanksOk a { x with spad := mset dHbm x.spad i w } :=
  hx.withSpad (mwf_mset _ _ _ _)

theorem BanksOk.setG (hx : BanksOk a x) {r : Nat} {v : BitVec 64} : BanksOk a (setG r v x) :=
  .ite hx (hx.withG (mwf_mset _ _ _ _))

theorem BanksOk.setC (hx : BanksOk a x) {n : Nat} {v : Word} : BanksOk a (setC n v x) := by
  unfold Machine.setC
  split
  all_goals exact hx.beside

theorem BanksOk.nextPc (hx : BanksOk a x) : BanksOk a (nextPc x) := hx.beside

theorem BanksOk.loopBranch (hx : BanksOk a x) {isBranch : Bool} {b t : Nat} : BanksOk a (loopBranch isBranch b t x) := by
  unfold Machine.loopBranch
  split
  · exact .ite hx.beside (.ite hx.beside (.ite hx.beside hx))
  · exact .ite hx.beside hx

theorem BanksOk.jump (hx : BanksOk a x) {isBranch : Bool} {t : Word} : BanksOk a (jump isBranch t x) := hx.loopBranch.beside

theorem BanksOk.eddyRaise (hx : BanksOk a x) {code pool trap : Nat} {addr : Option Word} {epc : Word} :
    BanksOk a (eddyRaise code pool trap addr epc x) := by
  unfold Machine.eddyRaise
  dsimp only
  cases addr with
  | none => exact .ite hx.beside hx.beside
  | some _ => exact .ite hx.beside hx.beside

theorem BanksOk.loopHit (hx : BanksOk a x) {b n : Nat} : BanksOk a (loopHit b n x) := by
  unfold Machine.loopHit
  split
  · exact .ite hx.beside hx
  · exact hx

theorem BanksOk.loopCapture (hx : BanksOk a x) {b : Nat} {w : Word} : BanksOk a (loopCapture b w x) := by
  unfold Machine.loopCapture
  split
  · exact .ite hx.beside hx
  · exact hx

theorem BanksOk.haltNow (hx : BanksOk a x) : BanksOk a (haltNow x) := .ite hx.beside hx

theorem BanksOk.stopHere (hx : BanksOk a x) {pc : Word} : BanksOk a (stopHere pc x) := .haltNow hx.beside

theorem BanksOk.startFront (hx : BanksOk a x) : BanksOk a (startFront x) := by
  unfold Machine.startFront
  split
  exacts [hx.beside, hx]

theorem BanksOk.startEddy (hx : BanksOk a x) {due : Bool} {entry : Word} : BanksOk a (startEddy due entry x) :=
  .ite hx.beside hx.beside

theorem BanksOk.resetEddy (hx : BanksOk a x) : BanksOk a (resetEddy x) :=
  .ite ((hx.withG fun _ => rfl).withPh fun _ => rfl).beside ((hx.withG fun _ => rfl).withPh fun _ => rfl).beside

theorem BanksOk.wiped (hx : BanksOk a x) : BanksOk a (wiped x) := hx.withSpad (mwf_filter _ _ _)

end

/-! ### What canonical stores hold -/

section
variable {s : State}

theorem StoresOk.queueMem (h : StoresOk s) (q : Nat) : mwf dWord (getQ s q).mem = true := by
  obtain ⟨-, -, -, -, hm, -⟩ := h
  exact all_mget (p := fun x : Queue => mwf dWord x.mem) hm rfl

theorem StoresOk.eddy (h : StoresOk s) (e : Nat) : eddyOk (getEddy s e) = true := by
  obtain ⟨-, -, -, -, -, -, -, -, hm, -⟩ := h
  exact all_mget hm rfl

theorem TablesOk.slots (h : TablesOk s) : mwf dSlotStore s.nv.slots = true := by
  obtain ⟨hs, -⟩ := h
  exact hs

theorem TablesOk.rewrites (h : TablesOk s) (sec : Nat) : mwf dBits (getScr s sec).rewrites = true := by
  obtain ⟨-, -, -, -, hm, -⟩ := h
  exact all_mget (p := fun x : Scrubber => mwf dBits x.rewrites) hm rfl

end

section
variable {a s : State} (h : Canon a s)
include h

/-- A change of the parts beside the stores and the tables. -/
theorem Canon.beside {regs dev tick ra paths msix host rdata claims ldr mbx frz bg rep jtag smb pins free f1 f2 f3 f4 f5 f6 f7
    f8 f9 f10 f11 d0 d1 d2 d3 d4 d5 d6 d7 d8 d9 d10 d11 d12 d13 d14 d16 d17 d18 d19 d20 d21 d22 p2 p3 p4 p5 p6 p7 p8 p10 p11 p12
    p13 p14 p15 n0 n1 n2 n3 n4 n5 n6 n7 n8 n9 n11 n12 n13 n14 n15 n16 n17 n18 n19 t0 t1 t2 t3 t6 t7 t8 t9 t10 t11} :
    Canon a ⟨s.pending, regs, dev, ⟨s.fab.tiles, f1, f2, f3, f4, f5, f6, f7, f8, f9, f10, f11⟩, s.bm, tick, ra, s.chans,
      ⟨d0, d1, d2, d3, d4, d5, d6, d7, d8, d9, d10, d11, d12, d13, d14, s.net.shadow, d16, d17, d18, d19, d20, d21, d22⟩,
      paths, s.queues, ⟨s.pool.hbm, s.pool.ports, p2, p3, p4, p5, p6, p7, p8, s.pool.dcache, p10, p11, p12, p13, p14, p15⟩,
      s.eddies, msix, host, rdata, claims, ldr, ⟨n0, n1, n2, n3, n4, n5, n6, n7, n8, n9, s.nv.slots, n11, n12, n13, n14, n15,
      n16, n17, n18, n19⟩, mbx, frz, s.scr, bg, rep, ⟨t0, t1, t2, t3, s.trc.ring, s.trc.exp, t6, t7, t8, t9, t10, t11⟩, jtag,
      smb, pins, free⟩ :=
  ⟨h.stores, h.tables⟩

/-- The same, for a state too large for its parts to be compared by unfolding: that the stores are those of `s` is shown. -/
theorem Canon.besideOf {regs dev fab bm tick ra chans net paths queues pool eddies msix host rdata claims ldr nv mbx frz scr bg
    rep trc jtag smb pins free}
    (e : (fab.tiles, bm, chans, queues, pool.ports, pool.hbm, eddies, scr, nv.slots, pool.dcache, trc.ring, trc.exp, net.shadow) =
      (s.fab.tiles, s.bm, s.chans, s.queues, s.pool.ports, s.pool.hbm, s.eddies, s.scr, s.nv.slots, s.pool.dcache, s.trc.ring,
        s.trc.exp, s.net.shadow)) :
    Canon a ⟨s.pending, regs, dev, fab, bm, tick, ra, chans, net, paths, queues, pool, eddies, msix, host, rdata, claims, ldr,
      nv, mbx, frz, scr, bg, rep, trc, jtag, smb, pins, free⟩ := by
  simp only [Prod.mk.injEq] at e
  obtain ⟨e1, e2, e3, e4, e5, e6, e7, e8, f1, f2, f3, f4, f5⟩ := e
  constructor
  · intro ha
    have hs := h.stores ha
    unfold StoresOk at hs ⊢
    rwa [e1, e2, e3, e4, e5, e6, e7, e8]
  · intro ha
    have hs := h.tables ha
    unfold TablesOk at hs ⊢
    rwa [f1, f2, f3, f4, e8, f5]

theorem Canon.setFree {n : Nat} : Canon a { s with free := n } := h.beside

/-- Registers put back to their reset values. -/
theorem Canon.filterRegs {p : Nat × Word → Bool} : Canon a { s with regs := s.regs.filter p } := h.beside

/-! ### Writes of one store -/

theorem Canon.withTiles {m : SMap Tile} (hm : mwf dTile s.fab.tiles = true → mwf dTile m = true) :
    Canon a { s with fab := { s.fab with tiles := m } } :=
  ⟨fun ha => have ⟨hT, hr⟩ := h.stores ha; ⟨hm hT, hr⟩, h.tables⟩

theorem Canon.withBlocks {m : SMap Block} (hm : mwf dBlock s.bm = true → mwf dBlock m = true) :
    Canon a { s with bm := m } :=
  ⟨fun ha => have ⟨hT, hB, hr⟩ := h.stores ha; ⟨hT, hm hB, hr⟩, h.tables⟩

theorem Canon.withChans {m : SMap Chan} (hm : mwf dChan s.chans = true → mwf dChan m = true) :
    Canon a { s with chans := m } :=
  ⟨fun ha => have ⟨hT, hB, hC, hr⟩ := h.stores ha; ⟨hT, hB, hm hC, hr⟩, h.tables⟩

theorem Canon.withQueues {m : SMap Queue} (hm : QueuesOk s.queues → QueuesOk m) : Canon a { s with queues := m } :=
  ⟨fun ha => have ⟨hT, hB, hC, hQ, hM, hr⟩ := h.stores ha
    ⟨hT, hB, hC, (hm ⟨hQ, hM⟩).1, (hm ⟨hQ, hM⟩).2, hr⟩, h.tables⟩

theorem Canon.withPorts {m : SMap Port} (hm : mwf dPort s.pool.ports = true → mwf dPort m = true) :
    Canon a { s with pool := { s.pool with ports := m } } :=
  ⟨fun ha => have ⟨hT, hB, hC, hQ, hM, hP, hr⟩ := h.stores ha; ⟨hT, hB, hC, hQ, hM, hm hP, hr⟩, h.tables⟩

theorem Canon.withHbm {m : SMap HWord} (hm : mwf dHbm s.pool.hbm = true → mwf dHbm m = true) :
    Canon a { s with pool := { s.pool with hbm := m } } :=
  ⟨fun ha => have ⟨hT, hB, hC, hQ, hM, hP, hH, hr⟩ := h.stores ha; ⟨hT, hB, hC, hQ, hM, hP, hm hH, hr⟩, h.tables⟩

theorem Canon.withEddies {m : SMap Eddy} (hm : EddiesOk s.eddies → EddiesOk m) : Canon a { s with eddies := m } :=
  ⟨fun ha => have ⟨hT, hB, hC, hQ, hM, hP, hH, hE, hK, hS⟩ := h.stores ha
    ⟨hT, hB, hC, hQ, hM, hP, hH, (hm ⟨hE, hK⟩).1, (hm ⟨hE, hK⟩).2, hS⟩, h.tables⟩

theorem Canon.withScr {m : SMap Scrubber} (hm : mwf dScr s.scr = true → mwf dScr m = true)
    (hr : RewritesOk s.scr → RewritesOk m) : Canon a { s with scr := m } :=
  ⟨fun ha => have ⟨hT, hB, hC, hQ, hM, hP, hH, hE, hK, hS⟩ := h.stores ha
    ⟨hT, hB, hC, hQ, hM, hP, hH, hE, hK, hm hS⟩,
   fun ha => have ⟨hS, hD, hR, hX, hW, hN⟩ := h.tables ha; ⟨hS, hD, hR, hX, hr hW, hN⟩⟩

theorem Canon.withNv {n : Nv} (hm : mwf dSlotStore s.nv.slots = true → mwf dSlotStore n.slots = true) :
    Canon a { s with nv := n } :=
  ⟨h.stores, fun ha => have ⟨hS, hr⟩ := h.tables ha; ⟨hm hS, hr⟩⟩

theorem Canon.withDcache {m : SMap (List (Nat × List Word))} (hm : mwf dDescs s.pool.dcache = true → mwf dDescs m = true) :
    Canon a { s with pool := { s.pool with dcache := m } } :=
  ⟨h.stores, fun ha => have ⟨hS, hD, hr⟩ := h.tables ha; ⟨hS, hm hD, hr⟩⟩

theorem Canon.withRing {m : SMap TrcStream} (hm : mwf dStream s.trc.ring = true → mwf dStream m = true) :
    Canon a { s with trc := { s.trc with ring := m } } :=
  ⟨h.stores, fun ha => have ⟨hS, hD, hR, hr⟩ := h.tables ha; ⟨hS, hD, hm hR, hr⟩⟩

theorem Canon.withExp {m : SMap TrcStream} (hm : mwf dStream s.trc.exp = true → mwf dStream m = true) :
    Canon a { s with trc := { s.trc with exp := m } } :=
  ⟨h.stores, fun ha => have ⟨hS, hD, hR, hX, hr⟩ := h.tables ha; ⟨hS, hD, hR, hm hX, hr⟩⟩

theorem Canon.withShadow {m : SMap Word}
    (hm : mwf (fun _ => (0 : Word)) s.net.shadow = true → mwf (fun _ => (0 : Word)) m = true) :
    Canon a { s with net := { s.net with shadow := m } } :=
  ⟨h.stores, fun ha => have ⟨hS, hD, hR, hX, hW, hN⟩ := h.tables ha; ⟨hS, hD, hR, hX, hW, hm hN⟩⟩

/-- A queue whose words are in canonical form is stored. -/
theorem Canon.setQueues {q : Nat} {x : Queue} (hx : WordsOk a x) :
    Canon a { s with queues := mset dQueue s.queues q x } := by
  refine ⟨fun ha => ?_, h.tables⟩
  obtain ⟨hT, hB, hC, hQ, hM, hr⟩ := h.stores ha
  exact ⟨hT, hB, hC, mwf_mset _ _ _ _ hQ, all_mset (p := fun x : Queue => mwf dWord x.mem) hM (hx ha), hr⟩

/-- An eddy whose banks are in canonical form is stored. -/
theorem Canon.setEddyOk {e : Nat} {x : Eddy} (hx : BanksOk a x) : Canon a (setEddy e x s) := by
  refine ⟨fun ha => ?_, h.tables⟩
  obtain ⟨hT, hB, hC, hQ, hM, hP, hH, hE, hK, hS⟩ := h.stores ha
  exact ⟨hT, hB, hC, hQ, hM, hP, hH, mwf_mset _ _ _ _ hE, all_mset hK (hx ha), hS⟩

/-- A scrubber whose rewrites are in canonical form is stored. -/
theorem Canon.setScrOk {sec : Nat} {x : Scrubber} (hx : TablesOk a → mwf dBits x.rewrites = true) :
    Canon a (setScr sec x s) := by
  constructor
  · intro ha
    obtain ⟨hT, hB, hC, hQ, hM, hP, hH, hE, hK, hS⟩ := h.stores ha
    exact ⟨hT, hB, hC, hQ, hM, hP, hH, hE, hK, mwf_mset _ _ _ _ hS⟩
  · intro ha
    obtain ⟨hS, hD, hR, hX, hW, hN⟩ := h.tables ha
    exact ⟨hS, hD, hR, hX, all_mset (p := fun x : Scrubber => mwf dBits x.rewrites) hW (hx ha), hN⟩

theorem Canon.words (q : Nat) : WordsOk a (getQ s q) := fun ha => (h.stores ha).queueMem q

theorem Canon.banks (e : Nat) : BanksOk a (getEddy s e) := fun ha => (h.stores ha).eddy e

theorem Canon.scrRewrites (sec : Nat) (ha : TablesOk a) : mwf dBits (getScr s sec).rewrites = true := (h.tables ha).rewrites sec

/-- An eddy with the banks that it had is stored. -/
theorem Canon.setEddy {e : Nat} {x0 x1 x2 x3 x4 x5 x6 x8 x9 x10 x11 x12 x13 x14 x15 x16 x17 x18 x20 x21 x22 x23 x24 x25 x26 x27
    x28 x29 x30 x31 x33 x34 x35 x36 x37 x39 x40 x41} :
Canon a (Machine.setEddy e ⟨x0, x1, x2, x3, x4, x5, x6, (getEddy s e).g, x8, x9, x10, x11, x12, x13, x14, x15, x16, x17, x18,
      (getEddy s e).spad, x20, x21, x22, x23, x24, x25, x26, x27, x28, x29, x30, x31, (getEddy s e).ph, x33, x34, x35, x36, x37,
      (getEddy s e).qinfo, x39, x40, x41⟩ s) :=
  h.setEddyOk (h.banks e)

theorem Canon.latchIrq {e n : Nat} : Canon a (latchIrq e n s) := h.setEddy

theorem Canon.setQOk {q : Nat} {x : Queue} (hx : WordsOk a x) : Canon a (setQ q x s) :=
  .ite (h.setQueues hx).latchIrq (h.setQueues hx)

/-- A queue with the words that it had is stored. -/
theorem Canon.setQ {q : Nat} {q1 q2 q3 q4 q5 q6 q7 q8 q9 q10 q11 q12 q13 q14 q15 q16 q17 q18 q19 q20 q21 q22 q23} :
Canon a (Machine.setQ q ⟨(getQ s q).mem, q1, q2, q3, q4, q5, q6, q7, q8, q9, q10, q11, q12, q13, q14, q15, q16, q17, q18, q19,
      q20, q21, q22, q23⟩ s) :=
  h.setQOk (h.words q)

/-- A scrubber with the rewrites that it had is stored. -/
theorem Canon.setScr {sec : Nat} {x0 x1 x3 x4 x5 x6 x7 x8 x9 x10 x11} :
Canon a (Machine.setScr sec ⟨x0, x1, (getScr s sec).rewrites, x3, x4, x5, x6, x7, x8, x9, x10, x11⟩ s) :=
  h.setScrOk (h.scrRewrites sec)


/-- An eddy is changed, its banks in a way that keeps their form. -/
theorem Canon.modEddyOk {e : Nat} {f : Eddy → Eddy} (hf : ∀ x, BanksOk a x → BanksOk a (f x)) :
    Canon a (Machine.modEddy e f s) := h.setEddyOk (hf _ (h.banks e))

theorem Canon.setTile {t : Nat} {x : Tile} : Canon a (setTile t x s) := h.withTiles (mwf_mset _ _ _ _)

theorem Canon.setBlock {m : Nat} {b : Block} : Canon a (setBlock m b s) := h.withBlocks (mwf_mset _ _ _ _)

theorem Canon.mapTiles {f : Nat → Tile → Tile} : Canon a (mapTiles f s) := h.withTiles (mwf_mmap _ _ _)

theorem Canon.setChan {c : Nat} {x : Chan} : Canon a (setChan c x s) := h.withChans (mwf_mset _ _ _ _)

theorem Canon.setHbm {wa : Nat} {w : HWord} : Canon a (setHbm wa w s) := h.withHbm (mwf_mset _ _ _ _)

theorem Canon.setPort {p : Nat} {x : Port} : Canon a (setPort p x s) := h.withPorts (mwf_mset _ _ _ _)

theorem Canon.setStream {ex : Bool} {sec : Nat} {x : TrcStream} : Canon a (setStream ex sec x s) :=
  .ite (h.withExp (mwf_mset _ _ _ _)) (h.withRing (mwf_mset _ _ _ _))

theorem Canon.setSlot {n : Nat} {x : Slot} : Canon a (setSlot n x s) := h.withNv (mwf_mset _ _ _ _)

/-! ### Ops -/

theorem Canon.setReg {o : Nat} {v : Word} : Canon a (setReg o v s) := h.beside

theorem Canon.bump {o : Nat} : Canon a (bump o s) := h.setReg

theorem Canon.bumpBy {o n : Nat} : Canon a (bumpBy o n s) := .ite h h.setReg

theorem Canon.orReg {o : Nat} {m : Word} : Canon a (orReg o m s) := h.setReg

theorem Canon.andNotReg {o : Nat} {m : Word} : Canon a (andNotReg o m s) := h.setReg

theorem Canon.setRegFld {o lo len v : Nat} : Canon a (setRegFld o lo len v s) := h.setReg

theorem Canon.latchFirst {o : Nat} {v : Word} : Canon a (latchFirst o v s) := .ite h h.setReg

theorem Canon.drawFree : Canon a (drawFree s) := h.beside

theorem Canon.mgmt {f : State → State} (hf : ∀ t, Canon a t → Canon a (f t)) : Canon a (mgmt f s) := .ite (hf _ h) h

theorem Canon.mgmtRd {f : State → State} (hf : ∀ t, Canon a t → Canon a (f t)) : Canon a (mgmtRd f s) :=
  .ite h (.ite h.beside (hf _ h))

theorem Canon.awake {f : State → State} (hf : ∀ t, Canon a t → Canon a (f t)) : Canon a (awake f s) := .ite h (hf _ h)

theorem Canon.forEach {α : Type} {f : α → State → State} {l : List α} (hf : ∀ x t, Canon a t → Canon a (f x t)) :
    Canon a (forEach f l s) :=
  forEach_keeps (Canon a) f hf l s h

theorem Canon.raiseVec {v : Nat} : Canon a (raiseVec v s) := .ite h.beside h.beside

theorem Canon.devEvent {bits : Nat} : Canon a (devEvent bits s) := .ite h.orReg h.orReg.raiseVec

theorem Canon.devGo {st : DevState} {cause : Nat} : Canon a (devGo st cause s) := .ite h.beside.setReg.bump h.beside.setReg

theorem Canon.setCause {code : Nat} {multi : Bool} : Canon a (setCause code multi s) := h.setReg

theorem Canon.enterHalt {code : Nat} {multi : Bool} : Canon a (enterHalt code multi s) := h.beside.setCause

theorem Canon.joinFault {code : Nat} : Canon a (joinFault code s) := .ite h (.ite h.drawFree.setCause h.drawFree.beside)

theorem Canon.setPath {sec : Nat} {p : RegPath} : Canon a (setPath sec p s) := h.beside

theorem Canon.viaPath {sec o : Nat} {v : Word} {act : State → State} (hact : ∀ t, Canon a t → Canon a (act t)) :
    Canon a (viaPath sec o v act s) :=
  .ite h.setPath.bump (hact _ h)

/-! ### Fabric -/

theorem Canon.endSpoilt : Canon a (endSpoilt s) := h.beside

theorem Canon.refreshAcks : Canon a (refreshAcks s) := h.mapTiles

theorem Canon.quietPort {t : Nat} : Canon a (quietPort t s) := .ite h.setTile h

theorem Canon.lcEval {t n : Nat} : Canon a (lcEval t n s) :=
  .ite h (.ite h.quietPort (.refreshAcks (.endSpoilt (.ite h.setTile.setTile h.setTile))))

theorem Canon.countRail {t c pcol : Nat} : Canon a (countRail t c pcol s) := .ite h h.setTile.bump.latchFirst

theorem Canon.forceSpacer : Canon a (forceSpacer s) := h.mapTiles.withBlocks (mwf_mmap _ _ _)

theorem Canon.initTiles {tokens : Bool} : Canon a (initTiles tokens s) := h.mapTiles

theorem Canon.gsrAssert : Canon a (gsrAssert s) :=
  .initTiles (.beside (h.withPorts (mwf_mmap _ _ _)))

theorem Canon.gsrRelease : Canon a (gsrRelease s) := .refreshAcks (h.initTiles.withBlocks (mwf_mmap _ _ _)).beside

/-! ### Repair -/

theorem Canon.countRails : Canon a (countRails s) :=
  h.forEach (fun _ _ h => .ite h (h.forEach (fun _ _ h => .ite h.countRail h)))

/-! ### Freeze -/

theorem Canon.freezeRecord {cls idx cause code pool addr : Nat} :
    Canon a (freezeRecord cls idx cause code pool addr s) :=
  .ite h.beside.bump.beside.raiseVec h.beside.bump.bump

theorem Canon.setFrozen {cls idx : Nat} {on : Bool} : Canon a (setFrozen cls idx on s) := h.beside

theorem Canon.freezeMaster {cls idx cause code pool addr : Nat} :
    Canon a (freezeMaster cls idx cause code pool addr s) :=
  h.setFrozen.freezeRecord

theorem Canon.poolViolation {cls idx cause pool addr : Nat} : Canon a (poolViolation cls idx cause pool addr s) :=
  h.freezeMaster.bump.raiseVec

/-! ### Net -/

theorem Canon.freeSlot {f : Flit} : Canon a (freeSlot f s) := by
  unfold Machine.freeSlot
  split
  · exact .ite h.setChan h
  · exact h

theorem Canon.deliverHere {f : Flit} : Canon a (deliverHere f s) := h.beside.freeSlot

theorem Canon.enqueue {c dl : Nat} {f : Flit} : Canon a (enqueue c dl f s) := h.setChan

theorem Canon.sendChan {c vl : Nat} {p : Payload} : Canon a (sendChan c vl p s) := h.enqueue

theorem Canon.takeMsg {p : Payload} : Canon a (takeMsg p s) := h.beside

theorem Canon.holdFlit {h' : HeldFlit} : Canon a (holdFlit h' s) := h.beside

theorem Canon.haltNoRoute : Canon a (haltNoRoute s) := .ite h.enterHalt (.ite h.joinFault h)

theorem Canon.fabCause {code : Nat} : Canon a (fabCause code s) := h.setReg

theorem Canon.spreadNotice {p : Payload} {skip : Option Nat} : Canon a (spreadNotice p skip s) :=
  h.forEach (fun _ _ h => h.sendChan)

theorem Canon.flowNoRoute {code src dst : Nat} : Canon a (flowNoRoute code src dst s) :=
  .ite (.haltNoRoute (.spreadNotice (.ite h.beside.bump.fabCause h.beside.bump.fabCause.raiseVec))) <|
  .spreadNotice (.ite h.beside.bump.fabCause h.beside.bump.fabCause.raiseVec)

theorem Canon.nameFlow {code : Nat} {f : Flit} {s₀ : State} : Canon a (nameFlow code f s₀ s) := .ite h h.flowNoRoute

theorem Canon.keepNoRoute {code : Nat} {f : Flit} : Canon a (keepNoRoute code f s) := .ite h.bump.freeSlot h.holdFlit.nameFlow

theorem Canon.turnAndSend {c : Nat} {f : Flit} : Canon a (turnAndSend c f s) := .enqueue (.ite h.bump h)

theorem Canon.fabBad {f : Flit} : Canon a (fabBad f s) := h.bump.freeSlot

theorem Canon.forwardBy {lost : Flit → State → State} {f : Flit} (hlost : ∀ x t, Canon a t → Canon a (lost x t)) :
    Canon a (forwardBy lost f s) :=
  .ite h.fabBad <|
  .ite (.ite h.deliverHere h.fabBad) <|
  .ite (.ite h.deliverHere h.fabBad) <|
  .ite h.deliverHere <|
  .ite h.deliverHere <|
  .ite (hlost _ _ h) (.ite h.holdFlit (.ite h.holdFlit (by split; exacts [h.turnAndSend, (hlost _ _ h)])))

theorem Canon.poolNoRoute {f : Flit} : Canon a (poolNoRoute f s) :=
  .ite h.freeSlot.beside (h.freeSlot.forwardBy (fun _ _ h => h.keepNoRoute))

theorem Canon.holdNoRoute {code : Nat} {f : Flit} : Canon a (holdNoRoute code f s) := .ite h.poolNoRoute.nameFlow h.keepNoRoute

theorem Canon.forward {f : Flit} : Canon a (forward f s) := h.forwardBy (fun _ _ h => h.holdNoRoute)

theorem Canon.sendDev {vl dst : Nat} {p : Payload} : Canon a (sendDev vl dst p s) := h.forward

theorem Canon.releaseHeld : Canon a (releaseHeld s) := h.beside.forEach (fun _ _ h => h.forward)

theorem Canon.settleEvents : Canon a (settleEvents s) := .releaseHeld (h.withChans (mwf_mmap _ _ _))

theorem Canon.beginReroute {c : Nat} {count stalled : Bool} : Canon a (beginReroute c count stalled s) :=
  .settleEvents (.forEach (.bump (.beside (.ite h.setChan.bumpBy h.setChan))) (fun _ _ h => h.forward))

theorem Canon.newTables : Canon a (newTables s) :=
  .releaseHeld (.forEach (.beside (h.withChans (mwf_mmap _ _ _)))
    fun _ _ h => h.forward)

theorem Canon.setRoute {d : Nat} {v : Word} : Canon a (setRoute d v s) := h.setReg.forEach (fun _ _ h => h.setReg)

theorem Canon.installTable {tab : Nat → Word} : Canon a (installTable tab s) := h.forEach (fun _ _ h => h.setRoute)

/-! ### Queues -/



theorem Canon.qEvent {q bits : Nat} : Canon a (qEvent q bits s) := .ite h.orReg h.orReg.raiseVec

theorem Canon.qResult {q code : Nat} : Canon a (qResult q code s) := h.setReg

theorem Canon.qLevel {q : Nat} : Canon a (qLevel q s) := .ite h.setQ.bump.qEvent h.setQ

theorem Canon.qDrop {q code : Nat} : Canon a (qDrop q code s) := h.bump.qEvent.qResult

theorem Canon.bumpMarker {q : Nat} : Canon a (bumpMarker q s) := by
  unfold Machine.bumpMarker
  dsimp only
  split
  · exact .bump (.qEvent (.bump (.setQOk (.ite h.drawFree h) (h.words q).qStore)))
  · exact .ite (.qEvent (.bump (.setQOk (.ite h.drawFree h) (h.words q).qStore)))
      (.setQOk (.ite h.drawFree h) (h.words q).qStore)

theorem Canon.spill {q : Nat} : Canon a (spill q s) :=
  have hx := (h.qDrop.words q).qStore
  .ite h.qDrop.bumpMarker (.bump (h.qDrop.setQOk (.ite hx.beside hx.beside)))

theorem Canon.flushMarker {q : Nat} : Canon a (flushMarker q s) :=
  have hx := (h.words q).qStore
  .ite (h.setQOk hx.beside) (h.setQOk hx.beside).qEvent.qLevel

theorem Canon.discardWord {q : Nat} {last : Bool} : Canon a (discardWord q last s) :=
  have hx := h.words q
  .ite (h.bump.qEvent.qResult.setQOk hx.beside).flushMarker (h.bump.qEvent.qResult.setQOk hx.beside)

theorem Canon.storeWord {q : Nat} {pay : BitVec 64} {last : Bool} : Canon a (storeWord q pay last s) :=
  have hx := (h.words q).qStore
  .qLevel (.qResult (h.setQOk (.ite hx.beside hx.beside)))

theorem Canon.offUnlinked {q : Nat} {last : Bool} : Canon a (offUnlinked q last s) := .qDrop (.ite h.discardWord h)

theorem Canon.pushWord {q : Nat} {pay : BitVec 64} {last : Bool} : Canon a (pushWord q pay last s).2 := by
  unfold Machine.pushWord
  dsimp only
  exact .iteSnd h (.iteSnd h.setQ.offUnlinked (.iteSnd h.setQ.discardWord (.iteSnd h.setQ.storeWord h.setQ.spill)))

theorem Canon.hostPushHold {q : Nat} {pay : BitVec 64} {last : Bool} : Canon a (hostPushHold q pay last s) :=
  .ite h (.ite h.setQ.bump h.setQ)

theorem Canon.hostPushNow {q : Nat} {pay : BitVec 64} {last : Bool} : Canon a (hostPushNow q pay last s) := by
  unfold Machine.hostPushNow
  exact .ite h.pushWord h.hostPushHold

theorem Canon.hostPushArrive {q : Nat} : Canon a (hostPushArrive q s) := by
  unfold Machine.hostPushArrive
  dsimp only
  split
  · exact .ite h.setQ.pushWord h
  · exact h

/-- The queue after a pop is stored. -/
theorem Canon.setPopped {q : Nat} {w : Word} {wp rp pwp rpW pwpR openSpill spillSeen sealReq inItem itemOpen last lastTag flush
    flushing discarding flushN flushTail wr rd hold hostPush staleFired above} :
    Canon a (Machine.qLevel q (Machine.setQ q (sealAsk w ⟨(getQ s q).mem, wp, rp, pwp, rpW, pwpR, openSpill, spillSeen, sealReq,
      inItem, itemOpen, last, lastTag, flush, flushing, discarding, flushN, flushTail, wr, rd, hold, hostPush, staleFired,
      above⟩) s)) :=
  .qLevel (h.setQOk (h.words q).beside.sealAsk)

theorem Canon.popWord {q : Nat} : Canon a (popWord q s).2 := by
  unfold Machine.popWord
  dsimp only
  exact .iteSnd h <|
    .iteSnd h.setQ.bump.qEvent.qResult <|
    .iteSnd h.setQ.bump.qEvent.qResult <| by
      split <;> dsimp only
      · exact .qResult (.setPopped (.ite h.setQ.drawFree h.setQ))
      · exact .qResult (.qEvent (.bump (.setPopped (.ite h.setQ.drawFree h.setQ))))
      · exact .qResult (.qEvent (.bump (.setPopped (.ite h.setQ.drawFree h.setQ))))

theorem Canon.pointerSync {q : Nat} {toRead : Bool} : Canon a (pointerSync q toRead s) :=
  have hx := (h.words q).beside
  have hy := WordsOk.sealAsk (.ite hx.beside hx)
  .ite h (.ite h.setQ (.qLevel (.ite (h.setQOk hy).qEvent (h.setQOk hy))))

theorem Canon.spillSeal {q : Nat} : Canon a (spillSeal q s) := by
  unfold Machine.spillSeal
  dsimp only
  split
  · exact .ite h.setQ h.setQ
  · exact h

theorem Canon.flushAsk {q : Nat} : Canon a (flushAsk q s) := .ite h.qResult (.ite h h.setQ.qResult.qLevel)

theorem Canon.flushAct {q : Nat} : Canon a (flushAct q s) := .ite h (.ite h.setQ.bumpBy.qLevel h.setQ.bumpBy.qLevel.flushMarker)

theorem Canon.xingDiscard {sec kind side idx : Nat} : Canon a (xingDiscard sec kind side idx s) := h.bump.latchFirst

theorem Canon.wrReset {q : Nat} : Canon a (wrReset q s) :=
  .setQOk (.ite h.xingDiscard h) (h.words q).beside.beside.dropFlush.beside

theorem Canon.rdReset {q : Nat} : Canon a (rdReset q s) :=
  .setQOk (.ite h.xingDiscard h) (h.words q).beside.dropFlush.beside

theorem Canon.peerReset {q : Nat} {atRead : Bool} : Canon a (peerReset q atRead s) := by
  unfold Machine.peerReset
  dsimp only
  have hx := h.words q
  exact .ite (.ite h (.qLevel (.qEvent (.bumpBy (.setQOk (.ite h.xingDiscard h) hx.beside))))) <|
    .ite h (.forEach (.qLevel (.qEvent (.bumpBy (.setQOk (.ite h.xingDiscard h) hx.beside)))) (fun _ _ h => h.pushWord))

theorem Canon.qRelease {q : Nat} {rd : Bool} : Canon a (qRelease q rd s) := .ite h (.ite h.setQ h.setQ)

theorem Canon.qMsg {q : Nat} {rd ack : Bool} : Canon a (qMsg q rd ack s) :=
  have hx := WordsOk.ite (h.words q).beside (h.words q).beside
  have hs := h.setQOk (.ite hx.beside hx)
  .ite h (.ite (.bump (.ite hs.bump hs)) (.ite hs.bump hs))

theorem Canon.portAnswer {t : Nat} {v : BitVec 128} : Canon a (portAnswer t v s) := h.setTile

theorem Canon.portStage {t : Nat} {v : BitVec 128} : Canon a (portStage t v s) := .ite h h.setTile.refreshAcks

theorem Canon.pushTick {q t : Nat} : Canon a (pushTick q t s) :=
  .ite h.quietPort (.ite h (.portAnswer (.ite h.setQ (.ite h.setQ.setQ.offUnlinked h.setQ.setQ))))

theorem Canon.queuePush {q : Nat} : Canon a (queuePush q s) := by
  unfold Machine.queuePush
  dsimp only
  exact .ite h (.ite h.pushTick (.ite h (.ite h.portStage (.ite h (.portStage h.setQ.pushWord)))))

theorem Canon.journalStall {sec : Nat} : Canon a (journalStall sec s) := .ite h h.beside.bump

theorem Canon.popTick {q t : Nat} : Canon a (popTick q t s) := by
  unfold Machine.popTick
  dsimp only
  exact .ite h.quietPort <|
    .ite h <| by
      split
      · exact h.setQ.beside.portAnswer
      · exact .ite h.setQ.journalStall (.portAnswer (.beside h.setQ.popWord))

theorem Canon.queuePop {q : Nat} : Canon a (queuePop q s) := by
  unfold Machine.queuePop
  dsimp only
  exact .ite h (.ite h.popTick (.ite h (.ite h.portStage (.ite h (.portStage h.setQ.popWord)))))

theorem Canon.qDiscardFrom {t : Nat} : Canon a (qDiscardFrom t s) :=
  h.withQueues (fun ⟨hq, hm⟩ => ⟨mwf_mmap _ _ _ hq,
    all_mmap (p := fun x : Queue => mwf dWord x.mem) hm fun _ _ hx => hx⟩)

theorem Canon.qReleaseOne {t q : Nat} : Canon a (qReleaseOne t q s) := by
  unfold Machine.qReleaseOne
  dsimp only
  exact .forEach (.ite h h.setQ) (fun _ _ h => h.pushWord)

theorem Canon.qReleaseTick {t : Nat} : Canon a (qReleaseTick t s) := h.forEach (fun _ _ h => h.qReleaseOne)

theorem Canon.qctlWrReset {q : Nat} : Canon a (qctlWrReset q s) := h.wrReset.qResult

theorem Canon.qctlRdReset {q : Nat} : Canon a (qctlRdReset q s) := h.rdReset.qResult

/-! ### Pools -/

theorem Canon.hbmUe {wa src : Nat} : Canon a (hbmUe wa src s) := .raiseVec (.ite h.bump h.bump.beside.setReg)

/-- A corrected word is written back, at once or in an idle cycle. -/
theorem Canon.hbmMended {c : Prop} {inst : Decidable c} {l : List Nat} {wa : Nat} {w : HWord} :
    Canon a (if c then { s with pool := { s.pool with wb := l } } else Machine.setHbm wa w s) := .ite h.beside h.setHbm

theorem Canon.hbmFetch {wa src : Nat} : Canon a (hbmFetch wa src s).2.2 := by
  unfold Machine.hbmFetch
  dsimp only
  split <;> dsimp only
  · exact .ite h.drawFree h
  · exact .hbmMended (.bump (.ite h.drawFree h))
  · exact .hbmUe (.ite h.drawFree h)

theorem Canon.fifoCheck {wa : Nat} {d : BitVec 64} {err : BitVec 72} : Canon a (fifoCheck wa d err s).2.2 := by
  unfold Machine.fifoCheck
  dsimp only
  split <;> dsimp only
  · exact .ite h.drawFree h
  · exact .bump (.ite h.drawFree h)
  · exact .hbmUe (.ite h.drawFree h)

theorem Canon.fifoPass {k wa : Nat} {d : BitVec 64} : Canon a (fifoPass k wa d s).2.2 := by
  unfold Machine.fifoPass
  dsimp only
  exact .iteThird h (h.besideOf (by with_reducible exact rfl)).fifoCheck

theorem Canon.hbmRead {wa : Nat} : Canon a (hbmRead wa s).2.2 := by
  unfold Machine.hbmRead
  dsimp only
  exact .fifoPass h.hbmFetch

theorem Canon.hbmStore {wa : Nat} {be : BitVec 8} {d : BitVec 64} {lost : Bool} : Canon a (hbmStore wa be d lost s) := by
  unfold Machine.hbmStore
  dsimp only
  refine .ite h.beside.setHbm (.ite h ?_)
  generalize hr : Machine.hbmFetch .. = r
  have hf : Canon a r.2.2 := hr ▸ h.hbmFetch
  exact hf.beside.setHbm

theorem Canon.hbmWrite {wa : Nat} {be : BitVec 8} {d : BitVec 64} : Canon a (hbmWrite wa be d s) := by
  unfold Machine.hbmWrite
  dsimp only
  exact .hbmStore h.fifoPass

theorem Canon.hbmWriteBack {wa : Nat} : Canon a (hbmWriteBack wa s) := .ite (.ite h.beside.setHbm h.beside) h

theorem Canon.hbmZero {a' n : Nat} : Canon a (hbmZero a' n s) := (h.withHbm (mwf_filter _ _ _)).beside

theorem Canon.readDesc {n : Nat} : Canon a (readDesc n s).2 := by
  refine .foldlSnd h fun _ _ h => ?_
  dsimp only
  exact h.hbmRead

theorem Canon.setDescs {u : Nat} {l : List (Nat × Desc)} :
    Canon a { s with pool := { s.pool with dcache := mset dDescs s.pool.dcache u l } } := h.withDcache (mwf_mset _ _ _ _)

theorem Canon.cacheDesc {u n : Nat} {d : Desc} : Canon a (cacheDesc u n d s) := h.setDescs

theorem Canon.descTouch {u n : Nat} : Canon a (descTouch u n s) := by
  unfold Machine.descTouch
  dsimp only
  split
  · exact h
  · exact .cacheDesc h.readDesc

theorem Canon.dropDesc {n : Nat} {d : Desc} : Canon a (dropDesc n d s) :=
  h.forEach fun _ _ h => .ite h.setDescs.cacheDesc h.setDescs

theorem Canon.setDesc {n : Nat} {d : Desc} : Canon a (setDesc n d s) := (h.forEach (fun _ _ h => h.hbmWrite)).dropDesc

theorem Canon.useGranules {n : Nat} {d : Desc} {take : Bool} : Canon a (useGranules n d take s) :=
  h.forEach (fun _ _ h => h.beside)

theorem Canon.askModel {who : Asker} {op n : Nat} {d : Desc} {idx : Nat} {be : BitVec 8} {data : BitVec 64}
    {f : BitVec 8 × BitVec 64} {t : Nat × State} (ht : askModel who op n d idx be data s f = some t) : Canon a t.2 := by
  unfold Machine.askModel at ht
  dsimp only at ht
  split at ht
  · cases ht
  · cases ht; exact h.beside.latchIrq

theorem Canon.invalidate {wa : Nat} {own : Option Nat} : Canon a (invalidate wa own s) := h.withPorts (mwf_mmap _ _ _)

theorem Canon.updateLine {p wa : Nat} {be : BitVec 8} {d : BitVec 64} : Canon a (updateLine p wa be d s) := by
  unfold Machine.updateLine
  dsimp only
  split
  · exact h
  · exact .ite h.setPort <|
      .ite h <| by
        split
        · exact .bump (.setPort (.ite h.drawFree h))
        · exact .ite (.bump (.setPort (.ite h.drawFree h))) (.setPort (.ite h.drawFree h))

theorem Canon.poolZero {cache : Bool} {a' n : Nat} : Canon a (poolZero cache a' n s) :=
  .hbmZero (.ite (h.withPorts (mwf_mmap _ _ _)) h)

theorem Canon.fillLine {ln : Nat} : Canon a (fillLine ln s).2 := by
  refine .foldlSnd h fun _ _ h => ?_
  dsimp only
  exact h.hbmRead

theorem Canon.missRead {p wa : Nat} : Canon a (missRead p wa s).2.2 := by
  unfold Machine.missRead
  dsimp only
  exact .setPort h.fillLine

theorem Canon.portMemRead {p : Nat} {d : Desc} {wa : Nat} : Canon a (portMemRead p d wa s).2.2 := by
  unfold Machine.portMemRead
  dsimp only
  exact .iteThird h.hbmRead <| by
      split
      · exact h.bump.missRead
      · split
        · exact .missRead (.bump (.setPort (.ite h.drawFree h)))
        · dsimp only
          exact .bump (.ite (.bump (.setPort (.ite h.drawFree h))) (.setPort (.ite h.drawFree h)))

theorem Canon.cacheUpset {p set way w b : Nat} : Canon a (cacheUpset p set way w b s) := h.setPort

theorem Canon.otherRead {n : Nat} {d : Desc} {idx : Nat} : Canon a (otherRead n d idx s).2.2 := by
  unfold Machine.otherRead
  dsimp only
  refine .iteThird h ?_
  dsimp only
  exact h.hbmRead

theorem Canon.otherWrite {d : Desc} {idx : Nat} {be : BitVec 8} {v : BitVec 64} : Canon a (otherWrite d idx be v s) := by
  unfold Machine.otherWrite
  exact .hbmWrite (.ite h.invalidate h)

theorem Canon.poolDiscardFrom {t : Nat} : Canon a (poolDiscardFrom t s) := h.withPorts (mwf_mmap _ _ _)

theorem Canon.poolNewTick : Canon a (poolNewTick s) := (h.withPorts (mwf_mmap _ _ _)).beside

/-! ### Trace -/

theorem Canon.trcEvent {bits : Nat} : Canon a (trcEvent bits s) := .ite h.orReg h.orReg.raiseVec

theorem Canon.trcResult {code : Nat} : Canon a (trcResult code s) := .ite h.beside.bump h.beside

theorem Canon.enterFifo {ex : Bool} {sec t : Nat} {raw : BitVec 1024} : Canon a (enterFifo ex sec t raw s) :=
  .ite h.setStream h.setStream

theorem Canon.offerSample {toRing toExport : Bool} {sec t : Nat} {raw : BitVec 1024} :
    Canon a (offerSample toRing toExport sec t raw s) :=
  .ite (.trcEvent (.bump (.ite (.enterFifo (.ite h.enterFifo h)) (.ite h.enterFifo h)))) <|
  .ite (.enterFifo (.ite h.enterFifo h)) (.ite h.enterFifo h)

theorem Canon.traceSample : Canon a (traceSample s) :=
  .ite h (h.forEach (fun _ _ h => .ite (.ite h.offerSample h) (.beside (.ite h.offerSample h))))

theorem Canon.traceCommit {t : Nat} : Canon a (traceCommit t s) :=
  .ite h (h.forEach (fun _ _ h => by dsimp only; split; exacts [h, h.beside.offerSample]))

theorem Canon.ringPut {ws : List (BitVec 64)} {t : Nat} {isVoid isGap : Bool} :
    CanonOpt a (ringPut ws t isVoid isGap s) :=
  .ite .none (.ite .none (.some (h.forEach (fun _ _ h => h.otherWrite)).beside))

/-- Each stream of the ring is changed. -/
theorem Canon.mapRing {f : Nat → TrcStream → TrcStream} {held : SMap (List (Nat × BitVec 1024))} :
    Canon a { s with trc := { s.trc with held := held, ring := mmap dStream f s.trc.ring } } :=
  (h.withRing (mwf_mmap _ _ _)).beside

theorem Canon.traceVoid {t : Nat} : Canon a (traceVoid t s) :=
  .ite h <|
  .ite h.beside <|
  .ite
    (by
       split
       · exact ((h.mapRing.ringPut _ ‹_›).forEach fun _ _ h => h.setStream).bump
       · exact h.mapRing.trcEvent)
    h.mapRing

theorem Canon.exportFlits {all : Bool} {n : Nat} : Canon a (exportFlits all n s) := by
  induction n generalizing s with
  | zero => exact h
  | succ n ih => exact .ite h (ih h.beside.sendChan)

theorem Canon.exportPut {ws : List (BitVec 64)} : CanonOpt a (exportPut ws s) := .ite (.some h.beside.exportFlits) .none

theorem Canon.putRecord {ex : Bool} {ws : List (BitVec 64)} {t : Nat} {isGap : Bool} :
    CanonOpt a (putRecord ex ws t isGap s) :=
  .ite h.exportPut h.ringPut

theorem Canon.traceRecord {ex : Bool} {sec : Nat} : Canon a (traceRecord ex sec s) := by
  unfold Machine.traceRecord
  dsimp only
  split
  · exact h
  · split
    · exact (h.putRecord _ ‹_›).setStream.bump
    · exact h
  · exact .ite h.setStream <| by
        split
        · exact .ite (h.putRecord _ ‹_›).setStream (h.putRecord _ ‹_›).setStream.bump
        · exact .ite h.setStream.bump.trcEvent.bump h.setStream.bump.trcEvent

theorem Canon.snapAbort : Canon a (snapAbort s) := .ite h h.beside.trcResult.trcEvent

/-! ### TickOps -/

theorem Canon.journalBack {t : Nat} : Canon a (journalBack t s) := h.beside

theorem Canon.frameLeave {k g n : Nat} {vals : BitVec 896} : Canon a (frameLeave k g n vals s) := by
  unfold Machine.frameLeave
  exact .sendDev h.beside

theorem Canon.keepFrames {k : Nat} : Canon a (keepFrames k s) :=
  h.forEach (fun _ _ h => .beside (.ite h (by split; exacts [h.frameLeave, h])))

theorem Canon.discardFrom {t : Nat} : Canon a (discardFrom t s) := h.beside.journalBack.qDiscardFrom.poolDiscardFrom

theorem Canon.abandonTick : Canon a (abandonTick s) := .ite h.discardFrom.beside.forceSpacer h

theorem Canon.enterFault {code : Nat} {multi : Bool} : Canon a (enterFault code multi s) :=
  .raiseVec (.bump (.setCause (.beside (.abandonTick (.ite h.drawFree h)))))

theorem Canon.tickFaults {codes : List Nat} : Canon a (tickFaults codes s) := by
  unfold Machine.tickFaults
  split
  · exact h
  · dsimp only
    split
    · exact h.joinFault
    · split <;> exact h.beside
    · exact h.enterFault

theorem Canon.tickFault {code : Nat} : Canon a (tickFault code s) := h.tickFaults

theorem Canon.freeKept : Canon a (freeKept s) := (h.withBlocks (mwf_mmap _ _ _)).beside

theorem Canon.advanceL {n : Nat} : Canon a (advanceL n s) := .ite h.beside.freeKept h

/-! ### BlockMem -/

theorem Canon.bmUe {m row src : Nat} : Canon a (bmUe m row src s) := h.bump.latchFirst.raiseVec

theorem Canon.bmCheck {m row src : Nat} {stop : Bool} : Canon a (bmCheck m row src stop s).2.2 := by
  unfold Machine.bmCheck
  dsimp only
  split <;> dsimp only
  · exact .ite h.drawFree h
  · exact .setBlock (.bump (.ite h.drawFree h))
  · exact .ite (.tickFault (.bmUe (.ite h.drawFree h))) (.bmUe (.ite h.drawFree h))

theorem Canon.bmStore {m row e : Nat} {be : BitVec 8} {din : BitVec 72} {src : Nat} :
    Canon a (bmStore m row e be din src s) := by
  unfold Machine.bmStore
  dsimp only
  refine .ite h.setBlock ?_
  generalize hr : Machine.bmCheck .. = r
  have hc : Canon a r.2.2 := hr ▸ h.bmCheck
  exact hc.setBlock

theorem Canon.holdPort {m : Nat} {portB : Bool} : Canon a (holdPort m portB s) := h.setBlock

theorem Canon.syncPort {m : Nat} {portB : Bool} : Canon a (syncPort m portB s) := by
  unfold Machine.syncPort
  dsimp only
  split
  · exact h
  · generalize hr : Machine.bmCheck .. = r
    have hc : Canon a r.2.2 := hr ▸ h.bmCheck
    exact .ite h hc.setBlock

theorem Canon.bmCommit {m k : Nat} {mask : BitVec 64} : Canon a (bmCommit m k mask s) :=
  .ite h <|
  .setBlock <| .ite
    (.bump <| by
       dsimp only
       split
       · exact .ite
             (.bmStore <| by
                split
                · exact .ite h.syncPort.syncPort.bmStore h.syncPort.syncPort
                · exact h.syncPort.syncPort) <| by
             split
             · exact .ite h.syncPort.syncPort.bmStore h.syncPort.syncPort
             · exact h.syncPort.syncPort
       · split
         · exact .ite h.syncPort.syncPort.bmStore h.syncPort.syncPort
         · exact h.syncPort.syncPort) <| by
    dsimp only
    split
    · exact .ite
          (.bmStore (by split; exacts [.ite h.syncPort.syncPort.bmStore h.syncPort.syncPort, h.syncPort.syncPort])) <| by
          split
          · exact .ite h.syncPort.syncPort.bmStore h.syncPort.syncPort
          · exact h.syncPort.syncPort
    · split
      · exact .ite h.syncPort.syncPort.bmStore h.syncPort.syncPort
      · exact h.syncPort.syncPort

theorem Canon.bmAsyncRead {m : Nat} {portB : Bool} : Canon a (bmAsyncRead m portB s) := by
  unfold Machine.bmAsyncRead
  dsimp only
  refine .ite h ?_
  generalize hr : Machine.bmCheck .. = r
  have hc : Canon a r.2.2 := hr ▸ h.bmCheck
  exact .ite hc.setBlock.tickFault hc.setBlock

theorem Canon.bmFrReport {m : Nat} {portB : Bool} : Canon a (bmFrReport m portB s) := by
  unfold Machine.bmFrReport
  dsimp only
  split
  · exact h
  · exact h.setBlock.setFree.bmCheck.setFree

theorem Canon.bmFrAccess {m : Nat} {portB overlap followed : Bool} : Canon a (bmFrAccess m portB overlap followed s) := by
  unfold Machine.bmFrAccess
  refine .ite h ?_
  lift_lets
  intro p last hit othRead s1 b acc
  have hs : Canon a s1 := .ite h.setBlock h.bmFrReport
  clear_value s1
  generalize heldEntry _ p = re
  dsimp -zeta only
  lift_lets
  intro wait src
  have hsrc {n : Nat} : Canon a { src with free := n } := hs.setBlock.beside
  generalize hb : Machine.bmCheck .. = r
  have hr : Canon a r.2.2 := by subst hb; exact hs.bmCheck
  clear hb
  clear_value src
  beta_reduce
  lift_lets
  intro s2
  have h2 : Canon a s2 := by
    refine .ite (.bump ?_) ?_ <;>
      (refine .iteSnd hs <| .iteSnd (.iteSnd ?_ ?_) <| .iteSnd ?_ ?_ <;> dsimp only
       exacts [hs.bmStore, hs.bump, hs.drawFree, .ite hsrc hr])
  clear_value s2
  intros
  exact .refreshAcks (.setTile (.ite h2.setBlock.drawFree h2.setBlock))

theorem Canon.bmWriteBack {m row : Nat} : Canon a (bmWriteBack m row s) := .ite h.setBlock h

theorem Canon.bmPatrolRead {m : Nat} : Canon a (bmPatrolRead m s) := by
  unfold Machine.bmPatrolRead
  dsimp only
  exact .ite (.setBlock h.bmCheck) h

/-! ### Cells -/

theorem Canon.lcEvaluate {t n : Nat} : Canon a (lcEvaluate t n s) := .ite h.lcEval.countRails h.lcEval

theorem Canon.stallBlock {m : Nat} : Canon a (stallBlock m s) := .ite h.setBlock h.setBlock.bump

theorem Canon.reportSettled {t : Nat} {x : Tile} : Canon a (reportSettled t x s) := h.beside.setTile

theorem Canon.tileSettled {t : Nat} : Canon a (tileSettled t s) :=
  .ite h (by split; exacts [.ite h.holdPort.stallBlock h.holdPort.reportSettled, h.quietPort.reportSettled])

theorem Canon.tileSpacerComplete {t : Nat} : Canon a (tileSpacerComplete t s) := .ite h.setTile h

theorem Canon.gioStage {b k t : Nat} : Canon a (gioStage b k t s) :=
  h.foldl fun _ _ h => .ite h h.beside

theorem Canon.frCapture {t c : Nat} : Canon a (frCapture t c s) :=
  .ite h (by split; exacts [.ite h h.setTile.refreshAcks, .ite h.gioStage.setTile.refreshAcks h, h])

theorem Canon.frRelease {t c : Nat} : Canon a (frRelease t c s) :=
  .ite h (.refreshAcks (.endSpoilt (by split; exacts [h.setTile.bmFrReport.setBlock, h.setTile])))

theorem Canon.snapPromote : Canon a (snapPromote s) := by
  unfold Machine.snapPromote
  split
  · exact .ite h.beside h
  · exact h

theorem Canon.freshRun : Canon a (freshRun s) :=
  have hn : (Machine.snapPromote s).net = s.net := snapPromote_parts s .net (by simp)
  (h.snapPromote.withShadow (m := s.net.shadow) fun hs => by rwa [hn] at hs).besideOf (by with_reducible exact rfl)

theorem Canon.gsrPulse {v : Word} : Canon a (gsrPulse v s) :=
  .ite h <|
  .ite h <| by
    split
    · exact h.beside.bump
    · exact .ite h.beside.gsrAssert.freshRun.beside.setCause h.beside.gsrAssert.freshRun

theorem Canon.gsrPulseDone : Canon a (gsrPulseDone s) := .ite h h.beside.gsrRelease

theorem Canon.upsetRail {t n out : Nat} {tRail : Bool} : Canon a (upsetRail t n out tRail s) :=
  .ite h.setTile.countRails h.setTile

theorem Canon.upset {u : Upset} : Canon a (upset u s) := by
  unfold Machine.upset
  split
  · exact h.setTile.refreshAcks
  · exact .ite h h.setTile.refreshAcks
  · exact h.upsetRail.refreshAcks
  · exact h.setBlock
  · exact h.setQOk fun ha => mwf_mset _ _ _ _ (h.words _ ha)
  · exact h.setHbm
  · exact h.cacheUpset
  · exact h.bump
  · dsimp only
    split
    · exact h
    · exact h.setChan
  · exact h.setChan
  · exact h.beside
  · exact h.setPort
  · dsimp only
    split
    · exact h
    · exact h.setPort
  · exact h.setEddyOk ((h.banks _).withSpad (mwf_mset _ _ _ _))
  · exact .ite h h.setScr
  · exact .ite h.setScr.setBlock h.setScr
  · exact h.setScr
  · exact .ite h.setScr.setReg h.setScr
  · exact h.bump

theorem Canon.loseSection {sec : Nat} : Canon a (loseSection sec s) := by
  refine .setScrOk (.beside (.withQueues (.withBlocks (.withTiles h (mwf_msplice _ _ _ _ _)) (mwf_msplice _ _ _ _ _)) ?_))
    (h.scrRewrites sec)
  refine fun ⟨hq, hm⟩ => ⟨mwf_mmap _ _ _ hq,
    all_mmap (p := fun x : Queue => mwf dWord x.mem) hm fun _ _ hx => ?_⟩
  split
  exacts [mwf_mtab, hx]

theorem Canon.vsenseUpdate {sec mv : Nat} : Canon a (vsenseUpdate sec mv s) :=
  .tickFaults <| .ite
    (.loseSection <| .ite (.bump (.ite h.beside.setReg.bump h.beside.setReg)) (.ite h.beside.setReg.bump h.beside.setReg)) <|
  .ite (.bump (.ite h.beside.setReg.bump h.beside.setReg)) (.ite h.beside.setReg.bump h.beside.setReg)

theorem Canon.oneHotConflict {l : LongLine} : Canon a (oneHotConflict l s) :=
  .ite h <|
  .ite
    (.tickFault <| .ite
       (.drawFree <| .beside (.refreshAcks (.ite h.beside.bump.latchFirst.setScr.raiseVec h.beside.bump.latchFirst.setScr)))
       (.refreshAcks (.ite h.beside.bump.latchFirst.setScr.raiseVec h.beside.bump.latchFirst.setScr))) <|
  .ite
    (.drawFree <| .beside (.refreshAcks (.ite h.beside.bump.latchFirst.setScr.raiseVec h.beside.bump.latchFirst.setScr)))
    (.refreshAcks (.ite h.beside.bump.latchFirst.setScr.raiseVec h.beside.bump.latchFirst.setScr))

/-! ### Tick -/

theorem Canon.cmdStat {last result : Nat} : Canon a (cmdStat last result s) := h.setReg

theorem Canon.wrStat {result : Nat} : Canon a (wrStat result s) := h.cmdStat

theorem Canon.tickRange : Canon a (tickRange s) := h.bump.wrStat

theorem Canon.startTicking {st : TState} : Canon a (startTicking st s) := h.beside

theorem Canon.startCmd {cmd : Nat} {go : State → State} (hgo : ∀ t, Canon a t → Canon a (go t)) :
    Canon a (startCmd cmd go s) := by
  unfold Machine.startCmd
  split
  · exact .ite h.beside.enterFault.cmdStat (hgo _ h)
  · exact .ite h.cmdStat (.ite h.enterHalt.cmdStat (hgo _ h))

theorem Canon.holdStart {cmd count : Nat} : Canon a (holdStart cmd count s) := h.beside

theorem Canon.tickRun : Canon a (tickRun s) :=
  .ite h.cmdStat <|
  .ite h.holdStart (.ite (h.startCmd (fun _ h => h.startTicking.cmdStat)) (.ite h.beside.cmdStat h.cmdStat))

theorem Canon.tickPaced : Canon a (tickPaced s) :=
  .ite h.cmdStat <|
  .ite h.holdStart <|
  .ite (h.startCmd (fun _ h => h.startTicking.cmdStat)) (.ite h.beside.cmdStat (.ite h.beside.cmdStat h.cmdStat))

theorem Canon.tickStep {count : Nat} : Canon a (tickStep count s) :=
  .ite h.cmdStat <|
  .ite h.holdStart (.ite (h.startCmd (fun _ h => .ite h.bump.cmdStat h.startTicking.beside.cmdStat)) h.cmdStat)

theorem Canon.pulseDone : Canon a (pulseDone s) :=
  .ite h.gsrPulseDone <| by
    split
    · exact h.gsrPulseDone
    · exact .ite h.gsrPulseDone.beside.tickRun (.ite h.gsrPulseDone.beside.tickPaced h.gsrPulseDone.beside.tickStep)

theorem Canon.tickStop : Canon a (tickStop s) :=
  .ite (.ite h.cmdStat.beside (.ite h.cmdStat.enterHalt.beside h.cmdStat.enterHalt)) h.cmdStat

theorem Canon.tickClear : Canon a (tickClear s) :=
  .ite h.cmdStat (.ite h.cmdStat (by dsimp only; split; exacts [h.beside.cmdStat, h.beside.cmdStat.beside]))

theorem Canon.tickStopHi {v : Word} : Canon a (tickStopHi v s) := h.beside.setReg.wrStat

theorem Canon.tickCfgWrite {v : Word} : Canon a (tickCfgWrite v s) := .ite h.setReg.wrStat h.setReg.wrStat

theorem Canon.tickPeriodWrite {v : Word} : Canon a (tickPeriodWrite v s) := .ite h.tickRange h.setReg.wrStat

theorem Canon.cadLenWrite {v : Word} : Canon a (cadLenWrite v s) := .ite h.wrStat (.ite h.tickRange h.beside.setReg.wrStat)

theorem Canon.cadPosWrite {v : Word} : Canon a (cadPosWrite v s) := .ite h.wrStat (.ite h.tickRange h.beside.wrStat)

theorem Canon.cadMaskWrite {i : Nat} {hi : Bool} {v : Word} : Canon a (cadMaskWrite i hi v s) := .ite h.wrStat h.setReg.wrStat

theorem Canon.paceEvent : Canon a (paceEvent s) := .ite h.bump h.beside

theorem Canon.paceFrom {src : Bool} : Canon a (paceFrom src s) := .ite h.paceEvent h

theorem Canon.putVal {v : BVal} : Canon a (putVal v s) := h.beside

theorem Canon.groupSettled : Canon a (groupSettled s) := h.beside

theorem Canon.driveGroup {mayPredict : Bool} {g : Nat} : Canon a (driveGroup mayPredict g s) := by
  unfold Machine.driveGroup
  dsimp only
  split
  · exact .ite h (.ite h.putVal.groupSettled (.ite h.putVal.groupSettled h))
  · exact .ite h.putVal.groupSettled h

theorem Canon.waitExpire {g : Nat} : Canon a (waitExpire g s) := .ite h.driveGroup h

theorem Canon.recordRollback : Canon a (recordRollback s) := by
  unfold Machine.recordRollback
  split
  · exact h
  · exact h.bump.bumpBy.setReg.setReg.beside

theorem Canon.usePace : Canon a (usePace s) := .ite (.ite h.beside.bump h.beside) h

theorem Canon.captureAll {only : Bool} {k : Nat} {mask : BitVec 64} : Canon a (captureAll only k mask s) :=
  .withBlocks (.ite h (h.mapTiles.forEach (fun _ _ h => h.bmCommit))) (mwf_mmap _ _ _)

theorem Canon.launch {k pos : Nat} {mask : BitVec 64} {gio : BitVec 480} : Canon a (launch k pos mask gio s) :=
  .poolNewTick (h.beside.mapTiles.withBlocks (mwf_mmap _ _ _))

theorem Canon.keepRing {k : Nat} : Canon a (keepRing k s) := h.beside

theorem Canon.issueTick {gio : BitVec 480} : Canon a (issueTick gio s) :=
  .ite h.usePace.launch.captureAll.keepRing.recordRollback <|
  have held := h.usePace.launch.captureAll.keepRing.recordRollback.forEach fun _ _ h => h.quietPort
  (held.forEach fun _ _ h => h.driveGroup).traceSample

theorem Canon.tickIssue {gio : BitVec 480} : Canon a (tickIssue gio s) := .ite h (.ite h.issueTick (.ite h h.beside.bump))

theorem Canon.spacerRelease : Canon a (spacerRelease s) := .ite h h.beside.beside.forceSpacer

theorem Canon.measure {period : Word} {same : BitVec 5} : Canon a (measure period same s) := h.setReg.setReg.setReg.bump.beside

theorem Canon.snapKeep : Canon a (snapKeep s) := by
  unfold Machine.snapKeep
  split
  · exact .ite h.beside h
  · exact h

/-- The measurements, the snapshots and L of a tick that ends. -/
theorem Canon.endedTick {period : Word} {same : BitVec 5} {n : Nat} {x : TickEngine} :
    Canon a (
      let m := Machine.snapKeep (Machine.measure period same (Machine.keepFrames n { s with tick := x }))
      if localL m then Machine.advanceL (unsettled m) m else m) :=
  .ite h.beside.keepFrames.measure.snapKeep.advanceL h.beside.keepFrames.measure.snapKeep

theorem Canon.tickComplete {period : Word} {same : BitVec 5} {fault : Bool} :
    Canon a (tickComplete period same fault s) := by
  refine .ite h (.ite h.groupSettled (.ite ?_ ?_))
  · split
    · exact .ite (.beside (.beside h.endedTick)) (.beside h.endedTick)
    · exact .beside h.endedTick
  · split
    · exact .beside h.endedTick
    · exact .ite (.beside (.beside (.enterHalt (.beside h.endedTick)))) (.beside (.enterHalt (.beside h.endedTick)))

theorem Canon.settleTimeout : Canon a (settleTimeout s) := .ite h h.beside.setReg.setReg.bump.raiseVec.tickFault

theorem Canon.timeoutWrite {v elapsed : Word} : Canon a (timeoutWrite v elapsed s) :=
  .ite h.setReg.wrStat.settleTimeout h.setReg.wrStat

theorem Canon.timeoutLocated : Canon a (timeoutLocated s) := by
  unfold Machine.timeoutLocated
  split
  · exact h
  · exact h.beside.setReg.setReg

theorem Canon.interval1ms : Canon a (interval1ms s) := (h.setReg.drawFree.setReg.forEach (fun _ _ h => .ite h h.setReg)).beside

theorem Canon.avsSend {f : AvsFrame} : Canon a (avsSend f s) := .ite h h.beside

theorem Canon.avsCommand {r : Nat} : Canon a (avsCommand r s) := h.avsSend

theorem Canon.avsReadCurrents : Canon a (avsReadCurrents s) := h.forEach (fun _ _ h => .ite h h.avsSend)

theorem Canon.avsApply {mode : Nat} : Canon a (avsApply mode s) :=
  .ite (h.beside.forEach (fun _ _ h => .ite h h.avsCommand)) (.ite h.beside.avsReadCurrents h.beside)

theorem Canon.avsCfgWrite {v : Word} : Canon a (avsCfgWrite v s) :=
  .ite h.tickRange (.ite h.setReg.wrStat.beside h.setReg.wrStat.avsApply)

theorem Canon.avsTargetWrite {r : Nat} {v : Word} : Canon a (avsTargetWrite r v s) :=
  .ite h.tickRange (.ite h.setReg.wrStat.avsCommand h.setReg.wrStat)

theorem Canon.avsCapWrite {v : Word} : Canon a (avsCapWrite v s) := .ite h.tickRange h.setReg.wrStat

theorem Canon.avsFrameDone {ok : Bool} : Canon a (avsFrameDone ok s) := by
  unfold Machine.avsFrameDone
  dsimp only
  split
  · exact .ite h h.bump
  · exact .ite (by split; exacts [h.beside.avsApply, h.beside]) <|
      .ite h.bump.beside (by split; exacts [h.bump.beside.avsApply, h.bump.beside])

theorem Canon.avsSet {r v : Nat} : Canon a (avsSet r v s) := .ite h h.setReg.avsCommand

theorem Canon.avsCapInterval {cur : BitVec 256} {fail : BitVec 8} : Canon a (avsCapInterval cur fail s) :=
  .ite h <|
  .ite h.beside.andNotReg.avsReadCurrents <|
  .avsReadCurrents <| .ite
    (.raiseVec <| .bump <| .beside <| .ite h.setReg <|
     .ite (h.setReg.forEach (fun _ _ h => h.avsSet)) <|
     .ite (.forEach (by split; exacts [h.setReg.avsSet, h.setReg]) (fun _ _ h => .ite h.avsSet h)) h.setReg) <|
  .beside <| .ite h.setReg <|
  .ite (h.setReg.forEach (fun _ _ h => h.avsSet)) <|
  .ite (.forEach (by split; exacts [h.setReg.avsSet, h.setReg]) (fun _ _ h => .ite h.avsSet h)) h.setReg

theorem Canon.sluiceRelease : Canon a (sluiceRelease s) :=
  .ite (.beside (.ite h.beside.qReleaseTick.traceCommit h)) (.ite h.beside.qReleaseTick.traceCommit h)

/-! ### RunAhead -/

theorem Canon.raRange : Canon a (raRange s) := h.bump.wrStat

theorem Canon.raCfgWrite {v : Word} : Canon a (raCfgWrite v s) := .ite h.beside.setReg (.ite h.beside.raRange h.beside)

theorem Canon.raPredWrite {g : Nat} {v : Word} : Canon a (raPredWrite g v s) := .ite h.raRange h.setReg

theorem Canon.decideRollback {t : Nat} {byRecall : Bool} {chan : Nat} : Canon a (decideRollback t byRecall chan s) := by
  unfold Machine.decideRollback
  dsimp only
  split
  · exact h.beside
  · exact .ite h.beside h

theorem Canon.restoreTo {t : Nat} : Canon a (restoreTo t s) :=
  .beside <| .discardFrom <| by
    split
    exacts [(h.mapTiles.withBlocks (mwf_mmap _ _ _)).withBlocks (mwf_mmap _ _ _), h.withBlocks (mwf_mmap _ _ _)]

theorem Canon.rollbackRestore : Canon a (rollbackRestore s) := by
  unfold Machine.rollbackRestore
  split
  · exact h
  · exact .ite h h.restoreTo.traceVoid

theorem Canon.takeReal {t g : Nat} {v : BitVec 64} {byRecall : Bool} {chan : Nat} :
    Canon a (takeReal t g v byRecall chan s) := by
  unfold Machine.takeReal
  dsimp only
  split
  · exact .putVal (.ite h.groupSettled h)
  · split
    · exact .ite h.putVal (.ite h.putVal.bump h.putVal.bump.decideRollback)
    · exact .putVal (.ite h.groupSettled h)

theorem Canon.badMsg : Canon a (badMsg s) := .ite h.bump h.bump.beside.raiseVec

theorem Canon.frameSend {o : Nat} {vals : BitVec 896} : Canon a (frameSend o vals s) := by
  unfold Machine.frameSend
  split
  · exact h
  · split
    · exact h
    · exact h.frameLeave

theorem Canon.frameRx {chan : Nat} {p : Payload} : Canon a (frameRx chan p s) :=
  .ite h.badMsg.bump (h.forEach (fun _ _ h => .ite h.beside.beside h.beside.takeReal))

theorem Canon.recallSend {g : Nat} {v : BitVec 64} : Canon a (recallSend g v s) := by
  unfold Machine.recallSend
  dsimp only
  split
  · exact h
  · exact .ite h h.beside.bump.sendDev

theorem Canon.recallEntry {t g : Nat} {v : BitVec 64} {chan : Nat} : Canon a (recallEntry t g v chan s) := by
  unfold Machine.recallEntry
  dsimp only
  split
  · exact .ite h.takeReal (.ite h.putVal.bump h.putVal.decideRollback)
  · exact h.putVal.bump

theorem Canon.recallRx {chan : Nat} {p : Payload} : Canon a (recallRx chan p s) :=
  .ite h.bump.badMsg (h.bump.beside.forEach (fun _ _ h => h.recallEntry))

theorem Canon.beginWave {w depth : Nat} : Canon a (beginWave w depth s) :=
  .forEach (.ite h.beside (h.beside.forEach (fun _ _ h => h.sendDev))) (fun _ _ h => h.sendChan)

theorem Canon.waveStartRx {p : Payload} : Canon a (waveStartRx p s) := by
  unfold Machine.waveStartRx
  dsimp only
  split
  · exact h
  · exact h.beginWave
  · exact h.badMsg

theorem Canon.markRx {p : Payload} : Canon a (markRx p s) := by
  unfold Machine.markRx
  dsimp only
  split
  · exact h.beside
  · exact h.beginWave.beside
  · exact h.badMsg

theorem Canon.waveReportRx {chan : Nat} {p : Payload} : Canon a (waveReportRx chan p s) := .ite h.beside h.badMsg

theorem Canon.applyResult {w lP1 : Nat} {ok : Bool} : Canon a (applyResult w lP1 ok s) :=
  .ite h (.ite (.beside (.ite h.bump.advanceL h.bump)) (.ite h.bump.beside.raiseVec h.bump.beside))

theorem Canon.waveResultRx {p : Payload} : Canon a (waveResultRx p s) := by
  unfold Machine.waveResultRx
  dsimp only
  split
  · exact .ite h.badMsg (h.applyResult.forEach (fun _ _ h => h.sendChan))
  · exact .ite h.badMsg (h.applyResult.forEach (fun _ _ h => h.sendChan))
  · exact h.badMsg

theorem Canon.waveReportSend : Canon a (waveReportSend s) :=
  .ite h <|
  .ite (h.beside.applyResult.forEach (fun _ _ h => h.sendChan)) (by split; exacts [h.beside, h.beside.sendChan])

theorem Canon.waveRootStart : Canon a (waveRootStart s) := .ite h h.beginWave

/-! ### Discovery -/

theorem Canon.sendHello {c : Nat} : Canon a (sendHello c s) := h.sendChan

theorem Canon.helloAll : Canon a (helloAll s) := h.forEach (fun _ _ h => h.sendHello)

theorem Canon.electing : Canon a (electing s) := .ite h.beside h

theorem Canon.enumFail {code : Nat} : Canon a (enumFail code s) := h.beside.fabCause.raiseVec

theorem Canon.helloRx {ch : Nat} {p : Payload} : Canon a (helloRx ch p s) :=
  .ite
    (.helloAll <| .ite (.enumFail (.beside (.ite h.setChan.electing.bump h.setChan.electing))) <|
     .beside (.ite h.setChan.electing.bump h.setChan.electing))
    (.ite h.setChan.electing.bump h.setChan.electing)

theorem Canon.setEnum {e : Enum} : Canon a (setEnum e s) := h.beside

theorem Canon.sendCommit {e : Enum} {n : Node} : Canon a (sendCommit e n s) := (h.forEach (fun _ _ h => h.sendChan)).sendChan

theorem Canon.committed {id epoch level up children : Nat} {parent : Option Nat} :
    Canon a (committed id epoch level up children parent s) :=
  h.beside.newTables.bump.fabCause.raiseVec

theorem Canon.applyOwn {e : Enum} : Canon a (applyOwn e s) := .helloAll (.committed (.beside (.ite h h.installTable)))

theorem Canon.nextCommit {e : Enum} {id : Nat} : Canon a (nextCommit e id s) := by
  unfold Machine.nextCommit
  split
  · exact h.setEnum.sendCommit
  · exact h.applyOwn

theorem Canon.scanOn {e : Enum} : Canon a (scanOn e s) := by
  unfold Machine.scanOn
  split
  · exact h.nextCommit
  · exact .ite h.enumFail (.ite h.enumFail h.setEnum.sendChan)

theorem Canon.beginEnum : Canon a (beginEnum s) := h.beside.scanOn

theorem Canon.tryEnum : Canon a (tryEnum s) := .ite h.beginEnum h

theorem Canon.discoverCmd : Canon a (discoverCmd s) := .ite h.fabCause h.beside.tryEnum

theorem Canon.queryTimeout : Canon a (queryTimeout s) := by
  unfold Machine.queryTimeout
  split
  · exact h
  · exact .ite h.enumFail <| by
        dsimp only
        split
        · split
          · exact h.setEnum.sendChan
          · exact h.setEnum
        · split
          · exact h.setEnum.sendCommit
          · exact h.setEnum

theorem Canon.rootReply {p : Payload} : Canon a (rootReply p s) := by
  unfold Machine.rootReply
  split
  · exact h
  · exact .ite h (by split; exacts [.ite h.enumFail (.ite h (.ite h.scanOn h.setEnum)), .ite h.nextCommit h])

theorem Canon.replyRx {p : Payload} : Canon a (replyRx p s) := .ite h.rootReply (by split; exacts [h.sendChan, h.bump])

theorem Canon.dropPend : Canon a (dropPend s) := .ite (h.withShadow (m := []) fun _ => rfl).beside h

theorem Canon.queryEpoch {p : Payload} : Canon a (queryEpoch p s) := by
  unfold Machine.queryEpoch
  split
  · exact .ite h.dropPend h
  · exact h

theorem Canon.stepQuery {ch : Nat} {p : Payload} : Canon a (stepQuery ch p s).2.2 := by
  unfold Machine.stepQuery
  dsimp only
  exact .iteThird h (.iteThird h.beside.sendChan h)

theorem Canon.queryAssignRx {ch : Nat} {p : Payload} : Canon a (queryAssignRx ch p s) := by
  unfold Machine.queryAssignRx
  dsimp only
  exact .ite h.bump <|
    .ite h.queryEpoch.stepQuery <|
    .ite (.bump h.queryEpoch.stepQuery) <|
    .sendChan (.sendChan (.ite (.dropPend h.queryEpoch.stepQuery)
      (h.queryEpoch.stepQuery.withShadow (m := []) fun _ => rfl).beside))

theorem Canon.queryCommitRx {ch : Nat} {p : Payload} : Canon a (queryCommitRx ch p s) := by
  unfold Machine.queryCommitRx
  dsimp only
  exact .ite h.bump <|
    .ite h.queryEpoch.stepQuery <|
    .ite (.bump h.queryEpoch.stepQuery) <| by
      split
      · exact .bump h.queryEpoch.stepQuery
      · exact .ite (.bump h.queryEpoch.stepQuery) <|
          .helloAll (.sendChan (.committed (.ite h.queryEpoch.stepQuery (.installTable h.queryEpoch.stepQuery))))

theorem Canon.routesRx {p : Payload} : Canon a (routesRx p s) :=
  .ite h.bump (.ite h.sendChan (by dsimp only; split; exacts [h.bump, .ite h.bump (.ite h (h.withShadow (mwf_foldl)))]))

theorem Canon.noticeRx {ch : Nat} {p : Payload} : Canon a (noticeRx ch p s) :=
  .ite h.spreadNotice.haltNoRoute (.ite h.spreadNotice.beside h.spreadNotice.beside.raiseVec)

theorem Canon.sendFence {c d cls : Nat} {e : Reroute} : Canon a (sendFence c d cls e s) := by
  unfold Machine.sendFence
  dsimp only
  split
  · exact h.turnAndSend
  · exact h.holdFlit

theorem Canon.fenceSend {c : Nat} : Canon a (fenceSend c s) := by
  unfold Machine.fenceSend
  dsimp only
  split
  · exact h
  · exact .ite h (h.setChan.sendDev.forEach (fun _ _ h => h.sendFence.sendFence)).settleEvents

theorem Canon.linkDownRx {p : Payload} : Canon a (linkDownRx p s) := by
  unfold Machine.linkDownRx
  split
  · exact h.bump
  · dsimp only
    split
    · exact .ite h.setChan h
    · exact .ite (.ite h.setChan h) h.beside.setChan.settleEvents

theorem Canon.fenceRx {p : Payload} : Canon a (fenceRx p s) := .ite h.beside.sendDev (.ite h h.beside)

theorem Canon.fenceDoneRx {p : Payload} : Canon a (fenceDoneRx p s) := by
  unfold Machine.fenceDoneRx
  split
  · exact h.bump
  · dsimp only
    split
    · exact h.setChan
    · exact h.setChan.settleEvents

theorem Canon.fenceTimeout {c : Nat} : Canon a (fenceTimeout c s) := by
  unfold Machine.fenceTimeout
  dsimp only
  split
  · exact h
  · exact .ite h <| .forEach (.ite h.setChan.fabCause.beside h.setChan.fabCause.beside.raiseVec)
      fun _ _ h => .ite h.holdNoRoute h.holdFlit.nameFlow

/-! ### Leases -/

theorem Canon.revoke {r : LeaseRes} : Canon a (revoke r s) := .ite h.beside.bump.setReg h

/-! ### QueueCmds -/

theorem Canon.portRelease {p : Nat} {rd : Bool} : Canon a (portRelease p rd s) := .ite h (.ite h.setPort h.setPort)

theorem Canon.portMsg {p : Nat} {rd ack : Bool} : Canon a (portMsg p rd ack s) :=
  .ite h (.ite (.bump (.ite h.setPort.bump h.setPort)) (.ite h.setPort.bump h.setPort))

theorem Canon.portPeerReset {p : Nat} {atRead : Bool} : Canon a (portPeerReset p atRead s) :=
  .ite (.ite h.setPort h) (.ite h.setPort h)

theorem Canon.setQcfg {q : Nat} {v : Word} : Canon a (setQcfg q v s) :=
  have hs := Canon.ite h.wrReset.rdReset h
  hs.setReg.setQOk (hs.words q).beside

theorem Canon.qcfgWrite {q : Nat} {v : Word} : Canon a (qcfgWrite q v s) :=
  .ite h.revoke.setQcfg.qResult (.ite h.revoke.bump.qResult h.revoke.qResult)

theorem Canon.staleTimeout {q : Nat} : Canon a (staleTimeout q s) := .ite h h.setQ.bump.qEvent

theorem Canon.qtimerWrite {q : Nat} {v : Word} : Canon a (qtimerWrite q v s) := .ite h.bump.qResult h.setReg.qResult.qLevel

theorem Canon.arbiterEntry {sec : Nat} {late : Bool} {ball : Option Nat} {v : Bool} :
    Canon a (arbiterEntry sec late ball v s) := by
  unfold Machine.arbiterEntry
  dsimp only
  split
  · exact .refreshAcks (.beside (.ite h.bump h))
  · exact .ite h.bump h

/-! ### PoolCmds -/

theorem Canon.poolStat {code : Nat} : Canon a (poolStat code s) := h.setRegFld

theorem Canon.descRead : Canon a (descRead s) := by
  unfold Machine.descRead
  dsimp only
  exact .ite h.poolStat (.poolStat (.forEach h.readDesc (fun _ _ h => h.setReg)))

theorem Canon.askInit {n : Nat} {d : Desc} : Canon a (askInit n d s) := by
  unfold Machine.askInit
  dsimp only
  split
  next ht => exact Canon.askModel (s := { s with pool := _ }) h.beside ht
  next => exact h.beside.beside

theorem Canon.retryInit : Canon a (retryInit s) :=
  h.forEach fun _ _ h => by
    dsimp only
    split
    next ht => exact (h.askModel ht).beside
    next => exact h

theorem Canon.placeDesc {n : Nat} {d : Desc} : Canon a (placeDesc n d s) := by
  unfold Machine.placeDesc
  dsimp only
  exact .useGranules (.setDesc (.beside (.useGranules h.readDesc)))

theorem Canon.initPool {n : Nat} : Canon a (initPool n s) := .ite h (.ite h.poolZero (.ite h.askInit h))

theorem Canon.installDesc {n : Nat} {d : Desc} : Canon a (installDesc n d s) := h.placeDesc.initPool

theorem Canon.descWrite : Canon a (descWrite s) :=
  .ite h.poolStat (.ite h.bump.poolStat (.ite h.poolStat h.installDesc.beside.orReg))

theorem Canon.descClear : Canon a (descClear s) := .ite h.poolStat h.installDesc.beside.orReg

theorem Canon.descDone : Canon a (descDone s) := by
  unfold Machine.descDone
  split
  · exact h.beside.andNotReg.poolStat.raiseVec
  · exact h

theorem Canon.putReq {p k : Nat} {r : PReq} : Canon a (putReq p k r s) := h.setPort

theorem Canon.portTickWrite {p k t : Nat} {r : PReq} : Canon a (portTickWrite p k t r s) :=
  .ite (.ite h.setPort.putReq.bump h.setPort.putReq) (.ite h h.setPort.bump)

theorem Canon.portReach {p k : Nat} {d : Desc} {r : PReq} : Canon a (portReach p k d r s) := by
  unfold Machine.portReach
  split
  · exact h.portTickWrite
  · exact .ite h.putReq (.ite (by split; exacts [(h.askModel ‹_›).putReq, h]) h.putReq)

theorem Canon.portAdvance {p k : Nat} : Canon a (portAdvance p k s) := by
  unfold Machine.portAdvance
  dsimp only
  split
  · exact h
  · exact .ite h h.portReach

theorem Canon.portViolates {p v n idx : Nat} : Canon a (portViolates p v n idx s) :=
  .ite (.tickFault (.poolViolation (.ite h.beside h))) (.poolViolation (.ite h.beside h))

theorem Canon.cycleViolates {p k : Nat} : Canon a (cycleViolates p k s) := by
  unfold Machine.cycleViolates
  split
  · exact h
  · exact h.beside.poolViolation

theorem Canon.poolPortRequest {p k : Nat} : Canon a (poolPortRequest p k s) :=
  .ite h <|
  .ite h.quietPort <|
  .ite h.portAdvance <|
  .ite h <|
  .ite h.cycleViolates <|
  .ite h <|
  .ite h.portStage <|
  .ite h <|
  .ite h.setPort.descTouch.putReq.putReq.portViolates <|
  .ite h.setPort.descTouch.putReq.putReq.bump.bump h.setPort.descTouch.putReq.portAdvance

theorem Canon.portDrive {t : Nat} {free : Bool} {data : BitVec 64} {err refused : Bool} :
    Canon a (portDrive t free data err refused s) :=
  .ite h.portStage h.portAnswer

theorem Canon.portReadAnswer {t : Nat} {r : PReq} {data : BitVec 64} {err : Bool} :
    Canon a (portReadAnswer t r data err s) :=
  .ite h.portDrive.tickFault h.portDrive

theorem Canon.portData {p wa : Nat} {d : BitVec 64} {err : BitVec 72} : Canon a (portData p wa d err s).2.2 := by
  unfold Machine.portData
  dsimp only
  exact .fifoPass (.fifoPass h.fifoCheck)

theorem Canon.portStore {p : Nat} {d : Desc} {idx : Nat} {be : BitVec 8} {v : BitVec 64} {err : BitVec 72} :
    Canon a (portStore p d idx be v err s) := by
  unfold Machine.portStore
  dsimp only
  exact .hbmStore (.ite h.portData (.ite (.invalidate h.portData) (.updateLine (.invalidate h.portData))))

theorem Canon.portFetch {p : Nat} {d : Desc} {wa : Nat} : Canon a (portFetch p d wa s).2.2 := by
  unfold Machine.portFetch
  dsimp only
  exact .fifoPass h.portMemRead

theorem Canon.poolPortAnswer {p k : Nat} : Canon a (poolPortAnswer p k s) := by
  unfold Machine.poolPortAnswer
  dsimp only
  split
  · exact h
  · split
    · exact h
    · exact .ite h.setPort h.setPort.portDrive
    · exact h
    · exact .ite (.ite h.setPort h.setPort.portDrive) (.ite h.setPort h.setPort.portReadAnswer)
    · exact .ite h <|
        .ite (.ite (.ite h.setPort.portStore h.setPort) (.portDrive (.ite h.setPort.portStore h.setPort))) <|
        .ite h.setPort (.ite h.setPort.portReadAnswer (.portReadAnswer h.setPort.portFetch))

theorem Canon.endDrain {e p : Nat} : Canon a (endDrain e p s) := h.setEddy

theorem Canon.drainDone {p : Nat} : Canon a (drainDone p s) := by
  unfold Machine.drainDone
  dsimp only
  split
  · exact h
  · exact .ite h.descTouch <|
      .ite
        (.ite h.descTouch.setPort.endDrain <|
         .ite h.descTouch (by split; exacts [(h.descTouch.askModel ‹_›).setPort, h.descTouch]))
        h.descTouch.setPort.portStore.endDrain

theorem Canon.portReset {p : Nat} : Canon a (portReset p s) := .ite h h.setPort

theorem Canon.dropReq {p k : Nat} : Canon a (dropReq p k s) := by
  unfold Machine.dropReq
  dsimp only
  split
  · exact .ite (.ite h.setPort.xingDiscard.portDrive h.setPort.xingDiscard) h
  · exact .ite h.setPort.xingDiscard.portDrive h.setPort.xingDiscard

theorem Canon.portResetDone {p : Nat} : Canon a (portResetDone p s) := .ite h (h.forEach (fun _ _ h => h.dropReq)).setPort

theorem Canon.sendAns {dst tag code : Nat} {data : BitVec 64} : Canon a (sendAns dst tag code data s) := h.sendDev

theorem Canon.remoteServe {we : Bool} {pay : Payload} : Canon a (remoteServe we pay s) := by
  unfold Machine.remoteServe
  refine .ite h.takeMsg.descTouch.poolViolation.sendAns <| .ite h.takeMsg.descTouch.sendAns <|
    .ite h.takeMsg.descTouch.bump.sendAns <| .ite h.descTouch <| .ite ?_ <| .ite h.takeMsg.descTouch.otherWrite.sendAns ?_
  · split
    next ha => exact h.takeMsg.descTouch.askModel ha
    next => exact h.descTouch
  · split
    next hr => exact (h.takeMsg.descTouch.otherRead.third hr).sendAns

theorem Canon.remoteRx {we : Bool} {pay : Payload} : Canon a (remoteRx we pay s) :=
  .ite (.ite h.takeMsg.beside h.takeMsg.sendAns) h.remoteServe

theorem Canon.poolAnsRx {pay : Payload} : Canon a (poolAnsRx pay s) := h.takeMsg.beside

theorem Canon.patrolRead {wa : Nat} : Canon a (patrolRead wa s) := by
  unfold Machine.patrolRead
  exact h.hbmFetch

theorem Canon.ueLocRead {k : Nat} : Canon a (ueLocRead k s) := h.beside.setReg.setReg

/-! ### Eddy -/

theorem Canon.eddyExc {e code pool : Nat} {addr : Option Word} : Canon a (eddyExc e code pool addr s) :=
  h.modEddyOk fun _ hx => hx.eddyRaise

theorem Canon.eddyFrozen {e : Nat} : Canon a (eddyFrozen e s) := (h.modEddyOk fun _ hx => hx.beside).raiseVec

theorem Canon.eddyViolation {e cause a' : Nat} : Canon a (eddyViolation e cause a' s) := h.eddyFrozen.freezeMaster

theorem Canon.eddyPoolViolation {e cause pool idx : Nat} : Canon a (eddyPoolViolation e cause pool idx s) :=
  h.eddyFrozen.poolViolation

theorem Canon.spTouch {e b : Nat} {proc : Bool} : Canon a (spTouch e b proc s) :=
  .ite (.ite h.revoke.bump.bump.bumpBy.drawFree (h.revoke.bump.modEddyOk fun _ hx => hx.beside)) h

theorem Canon.spWord {e i : Nat} {proc : Bool} : Canon a (spWord e i proc s).2.2 := by
  unfold Machine.spWord
  dsimp only
  split <;> dsimp only
  · exact .ite h.spTouch.drawFree h.spTouch
  · exact .bump (.setEddyOk (.ite h.spTouch.drawFree h.spTouch) (h.spTouch.banks e).setSpad)
  · exact .raiseVec (.bump (.ite h.spTouch.drawFree h.spTouch))

theorem Canon.spLoad {e k n : Nat} {proc : Bool} : Canon a (spLoad e k n proc s).2.2 := by
  unfold Machine.spLoad
  dsimp only
  generalize hr : Machine.spWord e (k / 8) proc s = r
  have hw : Canon a r.2.2 := hr ▸ h.spWord
  generalize hq : Machine.spWord e (k / 8 + 1) proc r.2.2 = q
  have hx : Canon a q.2.2 := hq ▸ hw.spWord
  exact .iteThird hw hx.bump

theorem Canon.spPut {e i : Nat} {be : BitVec 8} {v : BitVec 64} {proc : Bool} : Canon a (spPut e i be v proc s) := by
  unfold Machine.spPut
  dsimp only
  refine .ite (h.spTouch.modEddyOk fun _ hx => hx.withSpad (mwf_mset _ _ _ _)) ?_
  generalize hr : Machine.spWord .. = r
  have hw : Canon a r.2.2 := hr ▸ h.spWord
  exact hw.modEddyOk fun _ hx => hx.withSpad (mwf_mset _ _ _ _)

theorem Canon.spStore {e a' n : Nat} {v : BitVec 64} {proc : Bool} : Canon a (spStore e a' n v proc s) :=
  .modEddyOk (.ite h.spPut h.spPut.spPut.bump) fun _ hx => hx.loopHit

theorem Canon.eddyPush {e i : Nat} {v : BitVec 64} {last : Bool} : Canon a (eddyPush e i v last s) := by
  unfold Machine.eddyPush
  dsimp only
  exact h.pushWord.modEddyOk fun _ hx => hx.withQinfo (mwf_mset _ _ _ _)

theorem Canon.eddyPop {e i : Nat} : Canon a (eddyPop e i s).2 := by
  unfold Machine.eddyPop
  dsimp only
  exact h.popWord.modEddyOk fun _ hx => hx.withQinfo (mwf_mset _ _ _ _)

theorem Canon.dmaComplete {e : Nat} {d : EDma} {code pool : Nat} : Canon a (dmaComplete e d code pool s) :=
  have hy : BanksOk a { Machine.getEddy s e with dmaQ := _ } := (h.banks e).beside
  have hz := BanksOk.ite hy hy.startFront
  have hs := Canon.ite (h.setEddyOk hz) (h.setEddyOk hz.beside).latchIrq
  .ite hs.latchIrq hs

theorem Canon.dmaGo {e : Nat} {v : Word} : Canon a (dmaGo e v s) :=
  have hs := Canon.ite h.descTouch.bump h.descTouch
  .ite h.setEddy <| .ite hs.eddyViolation <|
  .ite (hs.setEddyOk (h.banks e).beside) (hs.setEddyOk (h.banks e).beside).eddyPoolViolation

theorem Canon.dmaOut {e : Nat} {d : EDma} {l : List Nat} : Canon a (dmaOut e d l s).2 := by
  induction l generalizing s with
  | nil => exact h
  | cons i l ih =>
    unfold Machine.dmaOut
    dsimp only
    generalize hr : Machine.spWord .. = r
    have hw : Canon a r.2.2 := hr ▸ h.spWord
    exact .iteSnd hw (ih hw.otherWrite)

theorem Canon.dmaIn {e : Nat} {d : EDma} {l : List Nat} {c : Nat} : Canon a (dmaIn e d l c s).2 := by
  induction l generalizing s c with
  | nil => exact h
  | cons i l ih => exact ih h.otherRead.spStore

theorem Canon.dmaModelGo {e : Nat} {d : EDma} : Canon a (dmaModelGo e d s).2 := by
  unfold Machine.dmaModelGo
  split
  next d1 s1 h1 =>
  have hs : Canon a s1 := Canon.snd (by split; exacts [.ite h h.spStore, h]) h1
  refine .iteSnd hs ?_
  split
  next v bad s2 h2 =>
  have ht : Canon a s2 := Canon.third (.iteThird hs.spWord hs) h2
  refine .iteSnd ht (.iteSnd ht ?_)
  split
  next ha => exact ht.askModel ha
  next => exact ht

theorem Canon.setFront {e : Nat} {d : EDma} : Canon a (setFront e d s) := (h.modEddyOk fun _ hx => hx.beside)

theorem Canon.countStarve {e starved n : Nat} : Canon a (countStarve e starved n s) := h.bumpBy

theorem Canon.dmaTransferDone {e starved : Nat} : Canon a (dmaTransferDone e starved s) := by
  unfold Machine.dmaTransferDone
  dsimp only
  split
  · exact h
  · exact .ite h <| by
        split
        · exact h.dmaComplete
        · exact .ite h.descTouch.dmaComplete <|
            .ite
              (.ite (.dmaComplete (.countStarve (.setFront h.descTouch.dmaModelGo))) <|
               .ite (.dmaComplete (.countStarve (.setFront h.descTouch.dmaModelGo))) <|
               .countStarve (.setFront h.descTouch.dmaModelGo)) <|
            .ite h.descTouch <|
            .ite (.dmaComplete (.countStarve h.descTouch.dmaOut)) (.dmaComplete (.countStarve h.descTouch.dmaIn))

theorem Canon.relatch {e : Nat} : Canon a (relatch e s) :=
  .ite (.latchIrq (.ite (.ite h h.latchIrq) (.latchIrq (.ite h h.latchIrq)))) <|
  .ite (.ite h h.latchIrq) (.latchIrq (.ite h h.latchIrq))

theorem Canon.localRead {e o : Nat} : Canon a (localRead e o s).2 := by
  unfold Machine.localRead
  dsimp only
  exact .iteSnd h <|
    .iteSnd h <|
    .iteSnd h <|
    .iteSnd h <|
    .iteSnd h <|
    .iteSnd h <|
    .iteSnd (by split; exacts [by dsimp only; exact h, by dsimp only; exact h.setEddy]) <|
    .iteSnd h (.iteSnd h (.iteSnd h (.iteSnd h (.iteSnd h.setEddy (.iteSnd h (.iteSnd h (.iteSnd h.setEddy h)))))))

theorem Canon.localWrite {e o : Nat} {v : Word} : Canon a (localWrite e o v s) :=
  .ite h.setEddy <|
  .ite h.setEddy <|
  .ite h.setEddy <|
  .ite h.setEddy <|
  .ite h.setEddy <|
  .ite h.dmaGo <|
  .ite (h.setEddyOk ((h.banks e).withPh (mwf_mset _ _ _ _))) (.ite h.setEddy.relatch (.ite h.setEddy (.ite h.setEddy h)))

theorem Canon.fetch {e : Nat} : Canon a (fetch e s).2 := by
  unfold Machine.fetch
  dsimp only
  generalize hr : Machine.spWord .. = r
  have hw : Canon a r.2.2 := hr ▸ h.spWord
  refine .iteSnd h.eddyViolation (.iteSnd h.eddyViolation (.iteSnd h.eddyExc ?_))
  split
  · exact h
  · exact .iteSnd hw.eddyExc hw

theorem Canon.issue {e : Nat} {w mask : Word} {regs : List Nat} {f : Eddy → State → Option State}
    (hf : ∀ x t, Canon a t → CanonOpt a (f x t)) : Canon a (issue e w mask regs f s) := by
  have hv := h.fetch (e := e)
  unfold Machine.issue
  dsimp only
  split
  · exact h
  · split <;> simp only [*] at hv
    · exact hv
    · refine .ite h (.ite h ?_)
      split
      · exact hf _ _ (hv.modEddyOk fun _ hx => hx.loopCapture) _ ‹_›
      · exact h

/-! ### Host -/

theorem Canon.countHost {code : Nat} : Canon a (countHost code s) := by
  unfold Machine.countHost
  split
  · exact h.bump
  · exact h.bump
  · exact h.bump
  · exact h.bump
  · exact h

theorem Canon.hostData {v : BitVec 64} {bad : Bool} : Canon a (hostData v bad s) := .ite h.beside.bump h.beside

theorem Canon.hostAbort : Canon a (hostAbort s) := h.beside

theorem Canon.hostRefuse {read : Bool} {code : Nat} : Canon a (hostRefuse read code s) := .ite h.countHost.hostAbort h.countHost

theorem Canon.askHost {c : Nat} {tag : Option Nat} {a' : HostAcc} : Canon a (askHost c tag a' s) := h.beside

theorem Canon.hostPass {k : Nat} {d : BitVec 64} : Canon a (hostPass k d s).2.2 := by
  unfold Machine.hostPass
  dsimp only
  refine .iteThird h ?_
  dsimp only
  exact .ite h.beside.drawFree h.beside

omit h in
theorem Canon.hostOutWord {r : BitVec 64 × Bool × State} (h : Canon a r.2.2) : Canon a (Machine.hostOutWord r).2.2 := h.hostPass

theorem Canon.hostInWord {wa : Nat} {v : BitVec 64} {store : BitVec 64 → State → State}
    (hstore : ∀ x t, Canon a t → Canon a (store x t)) : Canon a (hostInWord wa v store s) :=
  .ite (hstore _ _ h.hostPass).setHbm (hstore _ _ h.hostPass)

theorem Canon.bar2Serve {c x : Nat} {wr : Option (BitVec 8 × BitVec 64)} : Canon a (Machine.bar2Serve c x wr s) := by
  unfold Machine.bar2Serve
  lift_lets
  intro acc rd wa n d q idx
  refine .ite (.ite h.hostRefuse ?_) ?_
  · split
    · exact .ite h.hostRefuse (h.hostInWord fun _ _ h => h.hbmWrite)
    · split
      next hr => exact (Canon.third h.hbmRead.hostOutWord hr).hostData
  · have hq : Canon a q := h.descTouch
    clear_value q
    refine .ite hq.hostRefuse <| .ite hq.poolViolation.hostRefuse <|
      .ite hq.poolViolation.hostRefuse <| .ite hq <| .ite hq.askHost <| .ite ?_ ?_
    · split
      next ha => exact (hq.askModel ha).askHost
      next => exact hq.askHost
    · split
      · exact hq.hostInWord fun _ _ h => h.otherWrite
      · split
        next hr => exact (Canon.third hq.otherRead.hostOutWord hr).hostData

theorem Canon.ringDoorbell {e lines : Nat} : Canon a (ringDoorbell e lines s) := (h.modEddyOk fun _ hx => hx.beside)

theorem Canon.ctxDoorbell {v : Word} : Canon a (ctxDoorbell v s) := .ite h.bump h.ringDoorbell

theorem Canon.aperture {e : Nat} {we : Bool} {off : Nat} {v : Word} : Canon a (aperture e we off v s) := by
  unfold Machine.aperture
  dsimp only
  generalize hr : Machine.spLoad .. = r
  have hl : Canon a r.2.2 := hr ▸ h.spLoad
  exact .ite (.ite h.bump h.bump.hostData) (.ite h.spStore hl.hostData)

theorem Canon.qhPush {hold : Bool} {q : Nat} {v : Word} : Canon a (qhPush hold q v s) :=
  .ite h.revoke.qResult (.ite h.revoke.hostPushHold h.revoke.hostPushNow)

theorem Canon.qhPop {q : Nat} : Canon a (qhPop q s) := by
  unfold Machine.qhPop
  dsimp only
  exact .ite h.revoke.qResult.hostData (.hostData (.setReg (.setReg h.revoke.popWord)))

theorem Canon.hostPerform {c : Nat} {a' : HostAcc} : Canon a (hostPerform c a' s) := by
  unfold Machine.hostPerform
  split
  · exact .ite h.bar2Serve h.bump.hostRefuse
  · exact .ite h.bar2Serve h.bump
  · exact h.ctxDoorbell
  · exact h.aperture
  · exact h.qhPush
  · exact h.qhPush
  · exact h.qhPop
  · exact h.revoke.setReg
  · exact h.revoke.hostData

theorem Canon.noteShut {code : Nat} {a' : HostAcc} : Canon a (noteShut code a' s) := by
  unfold Machine.noteShut
  split
  · exact .ite (h.modEddyOk fun _ hx => hx.beside) h
  · exact h

theorem Canon.hostServe {c : Nat} {a' : HostAcc} : Canon a (hostServe c a' s) := .ite h.noteShut.hostRefuse h.hostPerform

theorem Canon.hostAccess {c : Nat} {a' : HostAcc} : Canon a (hostAccess c a' s) :=
  .ite (.ite h.beside (.ite h.beside h.bump)) h.hostServe

theorem Canon.releaseHeld' {c : Nat} {l : List (Nat × HostAcc)} : Canon a (releaseHeld' c l s) := by
  induction l generalizing s with
  | nil => exact h
  | cons x l ih => exact .ite (ih h.hostServe) (ih h.beside)

theorem Canon.hostUnfreeze {c : Nat} : Canon a (hostUnfreeze c s) := h.beside.releaseHeld'

theorem Canon.frozenReadTimeout {c : Nat} : Canon a (frozenReadTimeout c s) := by
  unfold Machine.frozenReadTimeout
  split
  · exact h.beside.hostAbort.bump
  · exact h

theorem Canon.ctxCfgWrite {c reg : Nat} {v : Word} : Canon a (ctxCfgWrite c reg v s) :=
  .ite h (.ite h.setReg (.ite h.setReg h.setReg))

theorem Canon.apertureStarved {e : Nat} {we : Bool} : Canon a (apertureStarved e we s) := h.bump.hostRefuse

theorem Canon.dmaRefuse {e code : Nat} : Canon a (dmaRefuse e code s) := .setRegFld (.ite h.bump h)

theorem Canon.dmaTailWrite {e : Nat} {v : Word} : Canon a (dmaTailWrite e v s) := .ite h.dmaRefuse h.setReg

theorem Canon.dmaRingWrite {e reg : Nat} {v : Word} : Canon a (dmaRingWrite e reg v s) :=
  .ite h.dmaRefuse (.ite h.setReg (.ite h.setReg (.ite h.dmaRefuse h.setReg)))

theorem Canon.dmaDescStart {e : Nat} {w : BitVec 256} : Canon a (dmaDescStart e w s) :=
  .ite h <|
  .ite (.beside (.countHost (.ite h h.descTouch))) (.poolViolation (.beside (.countHost (.ite h h.descTouch))))

theorem Canon.hdmaOut {d : HDma} {l : List Nat} {b : Bool} : Canon a (hdmaOut d l b s).2 := by
  induction l generalizing s b with
  | nil => exact h
  | cons i l ih =>
    unfold Machine.hdmaOut
    split
    next ho => exact ih (Canon.third (Canon.iteThird h.hbmRead h.otherRead).hostOutWord ho).beside

theorem Canon.hdmaIn {d : HDma} {data : List (BitVec 64)} {l : List Nat} : Canon a (hdmaIn d data l s) := by
  induction l generalizing s with
  | nil => exact h
  | cons i l ih => exact ih (.ite (h.hostInWord fun _ _ h => h.hbmWrite) (h.hostInWord fun _ _ h => h.otherWrite))

theorem Canon.hdmaModelGo {e : Nat} {d : HDma} {l : List (BitVec 64)} : Canon a (hdmaModelGo e d l s).2 := by
  unfold Machine.hdmaModelGo
  split
  next d1 s1 h1 =>
  have hs : Canon a s1 := Canon.snd (by split; exacts [.ite h.beside h, h]) h1
  refine .iteSnd hs (.iteSnd hs ?_)
  split
  next ha => exact hs.askModel ha
  next => exact hs

theorem Canon.hdmaComplete {e : Nat} {d : HDma} {code pool : Nat} : Canon a (hdmaComplete e d code pool s) :=
  .ite (.raiseVec (.ite h.beside.setReg.bump h.beside.setReg.bump.bump)) <|
  .ite h.beside.setReg.bump h.beside.setReg.bump.bump

theorem Canon.dmaDescDone {e : Nat} {data : List (BitVec 64)} : Canon a (dmaDescDone e data s) := by
  unfold Machine.dmaDescDone
  dsimp only
  split
  · exact h
  · split
    · exact h.hdmaComplete
    · exact .ite (.hdmaComplete (.countHost (.ite h h.descTouch))) <|
        .ite (.hdmaComplete (.ite h h.descTouch)) <|
        .ite
          (.ite (.hdmaComplete (.hdmaModelGo (.ite h h.descTouch))) (.beside (.hdmaModelGo (.ite h h.descTouch)))) <|
        .ite (.ite h h.descTouch) <|
        .ite (.hdmaComplete (.hdmaOut (.ite h h.descTouch))) (.hdmaComplete (.hdmaIn (.ite h h.descTouch)))

theorem Canon.hostPortReset : Canon a (hostPortReset s) := h.beside

theorem Canon.hostLinkUp {rate width flit : Nat} : Canon a (hostLinkUp rate width flit s) := .ite h h.beside.setReg

theorem Canon.bar2Access {c x : Nat} {acc : Nat → HostAcc} : Canon a (bar2Access c x acc s) := .ite h h.hostAccess

/-! ### EddyIsa -/

theorem Canon.aluDone {e rd : Nat} {r : BitVec 64} {fl : Option (BitVec 4)} : Canon a (aluDone e rd r fl s) :=
  h.modEddyOk fun _ hx => by
    cases fl
    exacts [hx.setG.nextPc, hx.setG.nextPc.beside]

theorem Canon.regOp {e func rd ra rb : Nat} {f : Bool} {op : BitVec 64 → BitVec 64 → Bool → BitVec 64 × BitVec 4} :
    Canon a (regOp e func rd ra rb f op s) :=
  h.issue (fun _ _ h => .some h.aluDone)

theorem Canon.immOp {e op rd ra imm : Nat} {f : BitVec 64 → BitVec 64} : Canon a (immOp e op rd ra imm f s) :=
  h.issue (fun _ _ h => .some h.aluDone)

theorem Canon.branch {e : Nat} {taken : Bool} {off : Word} : Canon a (branch e taken off s) :=
  h.modEddyOk fun _ hx => .ite hx.jump hx.nextPc

theorem Canon.excAccess {e : Nat} {a' : Word} : Canon a (excAccess e a' s) := h.eddyExc

theorem Canon.loaded {e rd : Nat} {v : BitVec 64} : Canon a (loaded e rd v s) := h.modEddyOk fun _ hx => hx.setG.nextPc

theorem Canon.doLoad {e rd : Nat} {k : Word} {n : Nat} : Canon a (doLoad e rd k n s) := by
  unfold Machine.doLoad
  generalize regionOf .. = r
  generalize hl : Machine.spLoad .. = l
  have hk : Canon a l.2.2 := hl ▸ h.spLoad
  cases r with
  | spad => exact .ite hk.eddyExc hk.loaded
  | secure => exact h.eddyViolation
  | loc =>
    generalize hv : Machine.localRead .. = v
    obtain ⟨x, t⟩ := v
    exact (h.localRead.snd hv).loaded
  | queue i o =>
    have hp : Canon a (Machine.eddyPop e i s).2 := h.eddyPop
    exact .ite (.ite hp.loaded h.eddyViolation) (.ite (.ite h.loaded h.eddyViolation) h.excAccess)
  | inbox => exact h.loaded
  | access => exact h.excAccess
  | unmapped => exact h.eddyViolation

theorem Canon.goOn {e : Nat} : Canon a (goOn e s) := (h.modEddyOk fun _ hx => hx.beside)

theorem Canon.doStore {e : Nat} {a' : Word} {n : Nat} {v : BitVec 64} : Canon a (doStore e a' n v s) := by
  unfold Machine.doStore
  split
  · exact h.spStore.goOn
  · exact h.eddyViolation
  · exact h.localWrite.goOn
  · exact .ite (.ite h.eddyPush.goOn h.eddyViolation) h.excAccess
  · exact h.excAccess
  · exact h.excAccess
  · exact h.eddyViolation

theorem Canon.loadOp {e op rd ra : Nat} {imm : BitVec 16} {n : Nat} : Canon a (loadOp e op rd ra imm n s) :=
  h.issue (fun _ _ h => .some h.doLoad)

theorem Canon.storeOp {e op rd ra : Nat} {imm : BitVec 16} {n : Nat} : Canon a (storeOp e op rd ra imm n s) :=
  h.issue (fun _ _ h => .some h.doStore)

theorem Canon.runLocal {e op o : Nat} : Canon a (runLocal e op o s) := by
  unfold Machine.runLocal
  split
  · exact .ite h.loadOp h.storeOp
  · exact h

theorem Canon.siteViolation {e i : Nat} : Canon a (siteViolation e i s) := h.eddyViolation

theorem Canon.popped {e rd rs i : Nat} : Canon a (popped e rd rs i s) := by
  unfold Machine.popped
  dsimp only
  exact h.eddyPop.modEddyOk fun _ hx => hx.setG.setG.nextPc

theorem Canon.qFlushOp {e rd i : Nat} : Canon a (qFlushOp e rd i s) := h.flushAsk.loaded

theorem Canon.opAsk {e : Nat} {before : List EOp} {o : EOp} : Canon a (opAsk e before o s).2 := by
  unfold Machine.opAsk
  dsimp only
  exact .iteSnd h <|
    .iteSnd h (.iteSnd h (by split; exacts [by dsimp only; exact h.askModel ‹_›, by dsimp only; exact h]))

theorem Canon.retryOps {e : Nat} : Canon a (retryOps e s) := by
  unfold Machine.retryOps
  refine .modEddyOk (.foldlSnd h fun p o h => ?_) fun _ hx => hx.beside
  split
  · exact h.opAsk
  · exact h

theorem Canon.poolOp {e h' idx : Nat} {rd wr atom : Bool} {o : EOp} : CanonOpt a (poolOp e h' idx rd wr atom o s) := by
  unfold Machine.poolOp
  dsimp only
  split
  · exact .some (.eddyExc (.ite h.descTouch h))
  · exact .some (.eddyExc (.bump (.ite h.descTouch h)))
  · exact .some (.eddyPoolViolation (.ite h.descTouch h))
  · exact .some (.eddyExc (.ite h.descTouch h))
  · exact .some (.eddyExc (.ite h.descTouch h))
  · exact .ite .none (.some (.modEddyOk (.opAsk (.ite h.descTouch h)) fun _ hx => hx.beside))

theorem Canon.atomOp {e afn rd ra rb h' : Nat} : Canon a (atomOp e afn rd ra rb h' s) := h.issue (fun _ _ h => h.poolOp)

theorem Canon.opDone {e i : Nat} {o : EOp} {v : BitVec 64} {bad : Bool} : Canon a (opDone e i o v bad s) :=
  h.modEddyOk fun x hx => by
    have hy : BanksOk a { x with ops := x.ops.eraseIdx i } := hx.beside
    refine .haltNow (.ite hy ?_)
    split
    exacts [.setG hy.beside, hy.beside]

theorem Canon.pldAnswer {e i : Nat} : Canon a (pldAnswer e i s) := by
  unfold Machine.pldAnswer
  dsimp only
  split
  · split
    · exact .ite (by split; exacts [h.descTouch.opDone, h.descTouch.retryOps]) (.opDone h.descTouch.otherRead)
    · exact h
  · exact h

theorem Canon.pstComplete {e i : Nat} : Canon a (pstComplete e i s) := by
  unfold Machine.pstComplete
  split
  · split
    · exact .ite (by split; exacts [h.descTouch.opDone, h.descTouch.retryOps]) h.descTouch.otherWrite.opDone
    · exact h
  · exact h

theorem Canon.patomAnswer {e i : Nat} : Canon a (patomAnswer e i s) := by
  unfold Machine.patomAnswer
  dsimp only
  split
  · split
    · exact .opDone (by split; exacts [.otherWrite h.descTouch.otherRead, h.descTouch.otherRead])
    · exact h
  · exact h

theorem Canon.cmtOp {e rd p : Nat} : CanonOpt a (cmtOp e rd p s) := by
  unfold Machine.cmtOp
  dsimp only
  split
  · exact .some h.loaded
  · refine .ite .none (.some (.modEddyOk (.setPort (.iteSnd ?_ h.descTouch)) fun _ hx => .nextPc (.setG hx.beside)))
    split <;> dsimp only
    exacts [h.descTouch.askModel ‹_›, h.descTouch]

theorem Canon.countModelErr {o : ModelOut} {err : Bool} : Canon a (countModelErr o err s) := .ite h.hbmUe h

theorem Canon.deliverAnswer {o : ModelOut} {err : Bool} {v : BitVec 64} : Canon a (deliverAnswer o err v s) := by
  unfold Machine.deliverAnswer
  split
  · exact h.setPort
  · exact h.setPort
  · exact (h.modEddyOk fun _ hx => hx.beside)
  · exact (h.modEddyOk fun _ hx => hx.beside)
  · exact h.beside
  · exact .ite h.beside.hostData h.beside
  · exact h.sendAns
  · exact h
  · exact h.beside

theorem Canon.retryHost : Canon a (retryHost s) := h.forEach (fun _ _ h => .ite h.beside.hostPerform h)

theorem Canon.modelAnswer {w0 w1 : BitVec 64} : Canon a (modelAnswer w0 w1 s) := by
  unfold Machine.modelAnswer
  dsimp only
  split
  · exact h.bump
  · exact h.beside.countModelErr.deliverAnswer

theorem Canon.takeRecord {e rd : Nat} {r : ModelRec} {rest : List ModelRec} : Canon a (takeRecord e rd r rest s) :=
  .retryHost (.retryInit (h.beside.modEddyOk fun _ hx => .nextPc hx.setG.setG.setG.beside))

theorem Canon.sysOp {e rd ra rb func : Nat} {regs : List Nat} {f : Eddy → State → Option State}
    (hf : ∀ x t, Canon a t → CanonOpt a (f x t)) : Canon a (sysOp e rd ra rb func regs f s) :=
  h.issue hf

theorem Canon.resetSides {e : Nat} : Canon a (resetSides e s) :=
  h.forEach (fun _ _ h => .ite (.wrReset (.ite h.rdReset h)) (.ite h.rdReset h))

theorem Canon.eddyCmd {e : Nat} {ok : Eddy → Bool} {f : Eddy → Eddy} (hf : ∀ x, BanksOk a x → BanksOk a (f x)) :
    Canon a (eddyCmd e ok f s) :=
  .ite h.setEddy (.ite h.setEddy (h.setEddyOk (hf _ (h.banks e).beside)))

theorem Canon.pinVbase {e : Nat} : Canon a (pinVbase e s) := .ite h.revoke.bump h

theorem Canon.eddyReset {e : Nat} : Canon a (eddyReset e s) :=
  have hs := h.eddyCmd fun _ hx => hx.resetEddy
  .ite hs.pinVbase.resetSides.relatch hs

theorem Canon.eddyStart {e : Nat} : Canon a (eddyStart e s) := h.eddyCmd fun _ hx => hx.startEddy

theorem Canon.eddyShut {e : Nat} : Canon a (eddyShut e s) := (h.modEddyOk fun _ hx => hx.beside)

theorem Canon.wipeSecure {e : Nat} : Canon a (wipeSecure e s) := .bump (h.modEddyOk fun _ hx => hx.wiped)

theorem Canon.secureWipeDone {e : Nat} : Canon a (secureWipeDone e s) := .ite h.wipeSecure h

theorem Canon.finishWipes : Canon a (finishWipes s) := by
  unfold Machine.finishWipes
  generalize hr : Machine.forEach (fun e t => if wipeDue s e then Machine.bump (Reg.eddyWipes e) t else t) (upTo 512) s = t
  have ht : Canon a t := hr ▸ h.forEach fun _ _ h => .ite h.bump h
  refine ⟨fun ha => ?_, ht.tables⟩
  obtain ⟨-, -, -, -, -, -, -, hE, hK, -⟩ := h.stores ha
  obtain ⟨hT, hB, hC, hQ, hM, hP, hH, -, -, hS⟩ := ht.stores ha
  refine ⟨hT, hB, hC, hQ, hM, hP, hH, mwf_mmap _ _ _ hE, all_mmap hK fun e x hx => ?_, hS⟩
  exact BanksOk.ite (a := a) (BanksOk.wiped fun _ => hx) (fun _ => hx) ha

theorem Canon.irqEntry {e : Nat} : Canon a (irqEntry e s) := by
  unfold Machine.irqEntry
  dsimp only
  split
  · exact .ite (h.setEddyOk (h.banks e).beside) h
  · exact h

theorem Canon.timerMatch {e : Nat} : Canon a (timerMatch e s) := .ite h h.setEddy.latchIrq

theorem Canon.timerLoRead {e : Nat} {now : BitVec 64} : Canon a (timerLoRead e now s) :=
  .ite (h.modEddyOk fun _ hx => hx.beside).runLocal h

theorem Canon.dmaGoCmd {e : Nat} : Canon a (dmaGoCmd e s) := .ite (h.modEddyOk fun _ hx => hx.beside) h.runLocal

theorem Canon.eddyPinWrite {e : Nat} {hi : Bool} {v : Word} : Canon a (eddyPinWrite e hi v s) :=
  h.setReg.forEach (fun _ _ h => .ite h.revoke.bump h)

/-! ### EddyCmds -/

theorem Canon.eddyCtl {e cmd : Nat} {act : State → State} (hact : ∀ t, Canon a t → Canon a (act t)) :
    Canon a (eddyCtl e cmd act s) :=
  .ite (h.viaPath hact) (h.awake (fun _ h => h.eddyShut))

/-! ### Links -/

theorem Canon.lnkCause {c code : Nat} : Canon a (lnkCause c code s) := h.setReg

theorem Canon.lnkResult {c r : Nat} : Canon a (lnkResult c r s) := h.setChan

theorem Canon.startRetrain {c : Nat} {cause : Option Nat} : Canon a (startRetrain c cause s) :=
  .ite h (by dsimp only; split; exacts [h.setChan.bump.lnkCause, h.setChan.bump])

theorem Canon.enterFailed {c code : Nat} : Canon a (enterFailed c code s) :=
  .raiseVec <| .lnkCause (.bump (.ite (.trcEvent (.setChan (.ite h.beginReroute h))) (.setChan (.ite h.beginReroute h))))

theorem Canon.trainFail {c code : Nat} : Canon a (trainFail c code s) :=
  .ite h (.ite h.setChan.lnkCause.enterFailed h.setChan.lnkCause)

theorem Canon.lnkOwned {c : Nat} : Canon a (lnkOwned c s) := h.lnkResult.lnkCause

theorem Canon.lnkGo {c : Nat} : Canon a (lnkGo c s) := .ite h.lnkOwned (.ite h.lnkResult (.ite h.setChan.lnkCause h.lnkResult))

theorem Canon.lnkEnable {c : Nat} : Canon a (lnkEnable c s) := .ite h.lnkGo h.lnkResult

theorem Canon.handOver {c : Nat} : Canon a (handOver c s) := .ite h.beginReroute h

theorem Canon.stopChan {c : Nat} : Canon a (stopChan c s) := h.setChan

theorem Canon.lnkDisable {c : Nat} : Canon a (lnkDisable c s) := .ite h.lnkOwned h.handOver.stopChan.lnkResult.lnkCause

theorem Canon.lnkReset {c : Nat} : Canon a (lnkReset c s) := .ite h.lnkOwned h.handOver.setChan.lnkCause

theorem Canon.lnkRetrain {c : Nat} : Canon a (lnkRetrain c s) := .ite h.lnkOwned (.ite h.startRetrain.lnkResult h.lnkResult)

theorem Canon.lnkReserved {c : Nat} : Canon a (lnkReserved c s) := .ite h.lnkOwned h.lnkResult

theorem Canon.lnkCfgWrite {c : Nat} {v : Word} : Canon a (lnkCfgWrite c v s) :=
  .ite h.lnkOwned (.ite h.lnkResult (.ite h.bump.lnkResult.lnkCause h.setReg.lnkResult))

theorem Canon.resetDone {c : Nat} : Canon a (resetDone c s) := .ite h.stopChan h

theorem Canon.signalDetect {c : Nat} : Canon a (signalDetect c s) := .ite h.setChan h

theorem Canon.degrade {c : Nat} : Canon a (degrade c s) := h.setChan.bump.lnkCause.raiseVec

theorem Canon.trainRx {c : Nat} {p : Payload} : Canon a (trainRx c p s) :=
  .ite h.startRetrain (.ite h.startRetrain.trainFail (.setChan (.ite h.startRetrain.degrade h.startRetrain)))

theorem Canon.trainingDone {c : Nat} {pol : BitVec 4} {rev : Bool} : Canon a (trainingDone c pol rev s) := by
  unfold Machine.trainingDone
  dsimp only
  split
  · exact h
  · exact .ite h (.sendHello (.electing (.lnkCause (.ite h.setChan h.setChan.bump))))

theorem Canon.flitCheck {c : Nat} {w : WireFlit} {err : BitVec 1088} : Canon a (flitCheck c w err s).2.2 := by
  unfold Machine.flitCheck
  refine .iteThird h ?_
  lift_lets
  intro n v b w' t
  have ht : Canon a t := .ite h.drawFree h
  clear_value v t
  cases v with
  | ok => exact ht
  | ce => exact ht.bump
  | ue => exact ht.bump

theorem Canon.fifoLeave {c : Nat} : Canon a (fifoLeave c s) := by
  unfold Machine.fifoLeave
  dsimp only
  split
  · exact h
  · exact .setChan h.flitCheck

theorem Canon.onWire {c vl dl seq : Nat} {p : Payload} : Canon a (onWire c vl dl seq p s) := h.fifoLeave.setChan

theorem Canon.sendCtl {c : Nat} {p : Payload} : Canon a (sendCtl c p s) := h.onWire

theorem Canon.countSlot {c vl : Nat} {idle : Bool} : Canon a (countSlot c vl idle s) := h.setChan

theorem Canon.sendClass {c k : Nat} : Canon a (sendClass c k s) := by
  unfold Machine.sendClass
  dsimp only
  split
  · exact h
  · exact h.onWire.setChan.bump.freeSlot.countSlot

theorem Canon.sendIdle {c : Nat} : Canon a (sendIdle c s) := h.sendCtl.countSlot

theorem Canon.sendSlot {c : Nat} : Canon a (sendSlot c s) := by
  unfold Machine.sendSlot
  dsimp only
  split
  · exact h.onWire.setChan.countSlot
  · split
    · exact h.setChan.sendCtl.countSlot
    · exact .ite h.setChan.sendCtl.countSlot <|
        .ite h.sendIdle (by split; exacts [h.sendIdle, .ite (.sendIdle (.setChan (.ite h h.bump))) h.sendClass])

theorem Canon.flitTransmit {c : Nat} : Canon a (flitTransmit c s) := .ite h.sendCtl.setChan (.ite h.sendSlot h)

theorem Canon.takeAck {c : Nat} {h' : BitVec 24} : Canon a (takeAck c h' s) := .ite h h.setChan

theorem Canon.startReplay {c q : Nat} : Canon a (startReplay c q s) := by
  unfold Machine.startReplay
  dsimp only
  split
  · exact h
  · exact .ite h (.ite h.startRetrain h.setChan.bump)

theorem Canon.sendNak {c : Nat} {apart : Bool} : Canon a (sendNak c apart s) := .ite h h.setChan.bump

theorem Canon.cutThroughPass {c : Nat} {p : Payload} : Canon a (cutThroughPass c p s) :=
  .ite
    (.ite
       ((h.forEach (fun _ _ h => by dsimp only; split; exacts [h, .ite h.beside h.beside.bump.recallEntry])).groupSettled) <|
     h.forEach (fun _ _ h => by dsimp only; split; exacts [h, .ite h.beside h.beside.bump.recallEntry]))
    h

theorem Canon.acceptFlit {c : Nat} {h' : BitVec 24} {p : Payload} : Canon a (acceptFlit c h' p s) :=
  h.setChan.bump.cutThroughPass.forward

theorem Canon.creditRx {c : Nat} {p : Payload} : Canon a (creditRx c p s) := h.setChan

theorem Canon.ctlRx {c : Nat} {h' : BitVec 24} {p : Payload} : Canon a (ctlRx c h' p s) :=
  .ite (.trainRx (.ite h.takeAck h)) <|
  .ite (.bump (.ite h.takeAck h)) <|
  .ite (.ite h.takeAck h) <|
  .ite (.startReplay (.ite h.takeAck h)) <|
  .ite (.creditRx (.ite h.takeAck h)) (.ite (.startRetrain (.ite h.takeAck h)) (.ite h.takeAck h))

theorem Canon.countCheck {c corr unc : Nat} : Canon a (countCheck c corr unc s) := .ite h.bumpBy.bumpBy h.bumpBy.bumpBy

theorem Canon.flitRx {c : Nat} {head : BitVec 24} {p : Payload} {crc : BitVec 32} {corr unc : Nat} {apart : Bool} :
    Canon a (flitRx c head p crc corr unc apart s) := by
  unfold Machine.flitRx
  dsimp only
  refine .ite h ?_
  generalize hr : Machine.flitCheck .. = r
  have hf : Canon a r.2.2 := hr ▸ h.countCheck.flitCheck
  have hx : Canon a (if (getChan s c).rxErr = 0 then r.2.2 else Machine.setChan c { getChan s c with rxErr := 0 } r.2.2) :=
    .ite hf hf.setChan
  exact .ite (.ite (.ite hx hx.bump) (.sendNak (.ite hx hx.bump))) <| .ite hx.ctlRx <|
    .ite hx.takeAck.acceptFlit <| .ite hx.takeAck hx.takeAck.sendNak

theorem Canon.fordCutThrough {c : Nat} {p : Payload} {i : Nat} : Canon a (fordCutThrough c p i s) := .ite h h.beside.takeReal

theorem Canon.laneLoss {c lane : Nat} : Canon a (laneLoss c lane s) :=
  .ite h (.ite h.setChan.startRetrain.degrade h.setChan.startRetrain)

theorem Canon.stallTimeout {c : Nat} : Canon a (stallTimeout c s) := .ite h.enterFailed h

/-! ### Marks -/

theorem Canon.lossAt {used : Bool} : Canon a (lossAt used s) :=
  .ite (.tickFault (.ite h.devEvent.devGo.devEvent h.devEvent)) (.ite h.devEvent.devGo.devEvent h.devEvent)

theorem Canon.logMark {m : Mark} : Canon a (logMark m s) := h.beside

theorem Canon.fieldMark {m : Mark} : Canon a (fieldMark m s) := .ite h h.beside

theorem Canon.addMark {keep : Bool} {m : Mark} : Canon a (addMark keep m s) :=
  .ite
    (by
       split
       · exact .setEddy (.beside (.logMark (.ite h.fieldMark h)))
       · exact .beside (.logMark (.ite h.fieldMark h))) <|
  .ite (.andNotReg (.beside (.logMark (.ite h.fieldMark h)))) (.beside (.logMark (.ite h.fieldMark h)))

theorem Canon.markAll {keep : Bool} {ms : List Mark} : Canon a (markAll keep ms s) :=
  .ite h (h.forEach (fun _ _ h => h.addMark)).lossAt

theorem Canon.markRun {keep : Bool} {m : Mark} : Canon a (markRun keep m s) := h.markAll

theorem Canon.markTile {t : Nat} : Canon a (markTile t s) := .ite h h.beside.lossAt

/-! ### Image -/

theorem Canon.srcRead {c : Source} : Canon a (srcRead c s) := by
  unfold Machine.srcRead
  dsimp only
  split
  · exact h
  · exact h.forEach (fun _ _ h => h.hbmFetch)

/-! ### Census -/

theorem Canon.census : Canon a (census s).2 :=
  .foldlSnd h fun _ _ h => by
    dsimp only
    split <;> exact h.setReg.setReg.setReg

theorem Canon.bmRefuse {m cause : Nat} : Canon a (bmRefuse m cause s) := h.bump.latchFirst

theorem Canon.bmChecks : Canon a (bmChecks s).2 :=
  .foldlSnd h fun _ _ h => .iteSnd h h.bmRefuse

theorem Canon.queueChecks {fr : SMap (BitVec 4096)} : Canon a (queueChecks fr s).2 :=
  .foldlSnd h fun _ _ h => .iteSnd h h.bump.latchFirst

theorem Canon.takeDescs {l : List (Nat × Desc)} {bad : List Nat} {put : State → Nat × Desc → State}
    (hput : ∀ t x, Canon a t → Canon a (put t x)) : Canon a (takeDescs l bad put s).2 := by
  induction l generalizing s bad with
  | nil => exact h
  | cons x l ih => exact .iteSnd (ih (hput _ _ h)) (ih (.ite h.bump h))

theorem Canon.portChecks {fr : SMap (BitVec 4096)} {bad : List Nat} {t : State} : Canon a (portChecks fr bad t s).2 :=
  .foldlSnd h fun _ _ h => .iteSnd h h.bump.latchFirst

theorem Canon.blockFailures : Canon a (blockFailures s).2 :=
  .foldlSnd h fun _ _ h => .iteSnd h.bmRefuse h

/-! ### Loader -/

theorem Canon.clearRegs {p : Nat → Bool} : Canon a (clearRegs p s) := h.filterRegs

theorem Canon.resetTick : Canon a (resetTick s) := h.freshRun.beside.setCause

theorem Canon.loadQueue {q : Nat} : Canon a (loadQueue q s) :=
  .setQueues (.rdReset (.wrReset (.ite h h.bumpBy.qEvent))) fun _ => rfl

theorem Canon.loadPort {p : Nat} : Canon a (loadPort p s) := (h.forEach (fun _ _ h => h.xingDiscard)).setPort

theorem Canon.loadChans : Canon a (loadChans s) := (h.forEach fun _ _ h => .ite h h.setReg).withChans (mwf_mmap _ _ _)

theorem Canon.answerHeld : Canon a (answerHeld s) := (h.forEach (fun _ _ h => h.sendAns)).beside

theorem Canon.dropAsks : Canon a (dropAsks s) := h.beside.forEach (fun _ _ h => h.hostRefuse)

theorem Canon.loadTrace : Canon a (loadTrace s) :=
  .snapAbort ((h.withRing (m := []) fun _ => rfl).withExp (m := []) fun _ => rfl).beside

theorem Canon.dropPulse : Canon a (dropPulse s) := .ite h.beside h

/-- The tables and the eddies that a load clears. -/
theorem Canon.loadRest {pins : Pins} {frz : Freeze} {rep : Repair} : Canon a { s with
    eddies := mmap dEddy (fun _ x => loadEddy x) s.eddies
    net := { epoch := s.net.epoch, commitEpoch := s.net.commitEpoch }
    pool := { s.pool with inbox := [], outst := [], initWait := [], initAsk := [], remAns := [], dcache := [] }
    pins := pins, frz := frz, bg := {}, claims := [], rep := rep } :=
  have tables := (h.withDcache (m := []) fun _ => rfl).withShadow (m := []) fun _ => rfl
  .beside (tables.withEddies fun ⟨he, hb⟩ => ⟨mwf_mmap _ _ _ he, all_mmap hb fun _ _ _ => rfl⟩)

theorem Canon.loadReset : Canon a (loadReset s) :=
  have queues := h.answerHeld.dropPulse.loadTrace.dropAsks.beside.gsrAssert.resetTick.forEach fun _ _ h => h.loadQueue
  .clearRegs (queues.forEach fun _ _ h => h.loadPort).loadChans.loadRest

theorem Canon.wipeAll : Canon a (wipeAll s) := h.forEach (fun _ _ h => h.bump)

theorem Canon.loadStart {byCmd : Bool} {src off len : Nat} : Canon a (loadStart byCmd src off len s) :=
  (Canon.wipeAll (.ite h.finishWipes.devGo.devEvent.loadReset.clearRegs h.finishWipes)).besideOf (by with_reducible exact rfl)

theorem Canon.setAttempt {phase code : Nat} : Canon a (setAttempt phase code s) := h.setReg

theorem Canon.countLoad {code : Nat} : Canon a (countLoad code s) := .ite h.bump h

theorem Canon.loadTook : Canon a (loadTook s) := h.drawFree.setReg

theorem Canon.attemptFail {code : Nat} {loc : Option Nat} : Canon a (attemptFail code loc s) :=
  have hs := h.bump.countLoad.setAttempt.setReg.loadReset
  .ite (hs.besideOf (by with_reducible exact rfl)).bump <|
  (hs.besideOf (by with_reducible exact rfl)).setReg.loadTook.setReg.devEvent.raiseVec

theorem Canon.mbxDone {result block : Nat} : Canon a (mbxDone result block s) :=
  .raiseVec (.beside (.clearRegs (.ite (.bump (.ite h.setReg h.setReg.bump)) (.ite h.setReg h.setReg.bump))))

theorem Canon.useCounter : Canon a (useCounter s) := .ite h.beside.bump h

theorem Canon.wipeHbm : Canon a (wipeHbm s) := (h.withHbm (mwf_filter _ _ _)).beside

theorem Canon.eraseSlot {n : Nat} : Canon a (eraseSlot n s) := h.setSlot

theorem Canon.eraseSlots {m : Nat} : Canon a (eraseSlots m s) := h.forEach (fun _ _ h => h.eraseSlot)

theorem Canon.wipeKeys {t : LifeCycle} : Canon a (wipeKeys t s) := .ite h.beside h

theorem Canon.wipeStore {t : LifeCycle} : Canon a (wipeStore t s) := .beside (.ite h.wipeHbm.eraseSlots h.wipeHbm)

theorem Canon.loadWipes : Canon a (loadWipes s) := by
  unfold Machine.loadWipes
  dsimp only
  split
  · exact .wipeStore (.wipeKeys (.beside (.ite h.wipeHbm.eraseSlots h)))
  · exact .beside (.ite h.wipeHbm.eraseSlots h)

theorem Canon.zeroised : Canon a (zeroised s) := .ite h.mbxDone h

theorem Canon.progress {n : Nat} : Canon a (progress n s) := h.setReg

theorem Canon.headerRead {storeUe : Bool} : Canon a (headerRead storeUe s) :=
  .ite h <|
  .ite h.loadWipes.zeroised.srcRead.attemptFail <|
  .ite h.loadWipes.zeroised.srcRead.attemptFail <|
  .ite h.loadWipes.zeroised.srcRead.attemptFail <| by
    dsimp only
    split
    · exact h.loadWipes.zeroised.srcRead.attemptFail
    · exact h.loadWipes.zeroised.srcRead.beside.progress

theorem Canon.passAEnd {storeUe : Bool} : Canon a (passAEnd storeUe s) :=
  .ite h <|
  .ite h.srcRead.attemptFail <| by
    split
    · exact .attemptFail (.ite h.srcRead h.srcRead.progress)
    · exact h.srcRead.beside.progress



theorem Canon.idleFillEnd : Canon a (idleFillEnd s) :=
  have hb := (h.withTiles (m := []) fun _ => rfl).withBlocks (m := []) fun _ => rfl
  .ite h (.progress (hb.withScr (mwf_mmap _ _ _) fun hr =>
    rewritesOk_mmap (f := fun _ x => { x with spare := [], bmc := [] }) hr fun _ _ hx => hx).beside)

theorem Canon.writeTiles {m : SMap Frame} : Canon a (writeTiles m s) := h.forEach (fun _ _ h => h.setTile)

theorem Canon.writeIdle {l : List (Nat × Nat)} : Canon a (writeIdle l s) := h.withTiles (mwf_filter _ _ _)

theorem Canon.writeBmFrame {a' : Nat} {f : BitVec 4096} : Canon a (writeBmFrame a' f s) :=
  h.setScr.forEach (fun _ _ h => h.setBlock)

theorem Canon.writeRow {x : Nat} {v : BitVec 72} : Canon a (writeRow x v s) := h.setBlock

theorem Canon.writeSpad {i : Nat} {f : BitVec 4096} : Canon a (writeSpad i f s) :=
  h.modEddyOk fun _ hx => hx.withSpad (mwf_foldl)

theorem Canon.passBWrites {p : Stream} : Canon a (passBWrites p s) :=
  have frames := h.writeIdle.writeTiles.forEach fun _ _ h => .ite h.writeBmFrame (.ite h.writeSpad h)
  ((frames.forEach fun _ _ h => h.writeRow).withScr (mwf_mmap _ _ _)
    fun hr => rewritesOk_mmap hr fun _ _ _ => rfl).besideOf (by with_reducible exact rfl)

theorem Canon.passBEnd {storeUe : Bool} : Canon a (passBEnd storeUe s) := by
  unfold Machine.passBEnd
  dsimp only
  refine .ite h (.ite ?_ ?_)
  · exact (h.srcRead.passBWrites.besideOf (by with_reducible exact rfl)).progress.attemptFail
  · exact (h.srcRead.passBWrites.besideOf (by with_reducible exact rfl)).progress.besideOf (by with_reducible exact rfl)

theorem Canon.runChecks : Canon a (runChecks s).2 := by
  unfold Machine.runChecks
  lift_lets
  intro fr tagRow failed fw
  split
  next hb =>
  split
  next hc =>
  split
  next hm =>
  split
  next hq =>
  split
  lift_lets
  intro t
  split
  next hp =>
  exact ((h.blockFailures.snd hb).census.snd hc |>.bmChecks.snd hm |>.queueChecks.snd hq |>.setReg.portChecks.snd hp).beside

theorem Canon.writeTable {t f : Nat} {d : BitVec 4096} : Canon a (writeTable t f d s) :=
  .ite (h.forEach (fun _ _ h => h.setReg.setReg)) <|
  .ite (h.forEach (fun _ _ h => h.setReg)) <|
  .ite (h.forEach (fun _ _ h => h.setReg)) <|
  .ite (h.forEach (fun _ _ h => h.setReg.setReg)) <|
  .ite (h.forEach (fun _ _ h => (h.forEach (fun _ _ h => h.setReg)).setReg)) (.ite h.beside h)

theorem Canon.writeControl {d : BitVec 4096} : Canon a (writeControl d s) :=
  ((h.setReg.forEach fun _ _ h => h.setReg).forEach fun _ _ h => h.setReg).besideOf (by with_reducible exact rfl)

theorem Canon.placeEddy {fr : SMap (BitVec 4096)} {e : Nat} : Canon a (placeEddy fr e s) :=
  have hs := h.setReg.setReg.setReg.beside
  .ite h (.ite (hs.modEddyOk fun _ hx => hx.firmware (fwSpad_ok _)) (hs.modEddyOk fun _ hx => hx.beside))

theorem Canon.pinBindings : Canon a (pinBindings s) := h.forEach (fun _ _ h => .ite h.descTouch h)

theorem Canon.applyImage : Canon a (applyImage s) := by
  unfold Machine.applyImage
  dsimp only
  refine .besideOf (.setReg (.forEach (.forEach (.forEach (.pinBindings ?_) ?_) ?_) ?_)) (by with_reducible exact rfl)
  · exact (h.writeControl.forEach fun _ _ h => .ite h.writeTable h).takeDescs fun _ _ h => h.placeDesc
  · exact fun _ _ h => h.placeEddy
  · exact fun _ _ h => h.setReg
  · exact fun _ _ h => h.setReg

theorem Canon.checksEnd : Canon a (checksEnd s) := by
  unfold Machine.checksEnd
  dsimp only
  exact .ite h (by split; exacts [.attemptFail h.runChecks, .setReg (.applyImage h.runChecks)])

theorem Canon.enableClocked : Canon a (enableClocked s) :=
  (h.forEach fun _ _ h => h.initPool).forEach fun _ _ h => h.modEddyOk fun _ hx => hx.startEddy

theorem Canon.enableChans : Canon a (enableChans s) := h.forEach (fun _ _ h => h.lnkGo)

theorem Canon.clockedStep {c : Nat} : Canon a (clockedStep c s) := .ite h.enableClocked (.ite h.enableChans h)

theorem Canon.stepClocked {c : Nat} : Canon a (stepClocked c s) := .ite h.clockedStep h.beside

theorem Canon.cfgDone : Canon a (cfgDone s) := h.setAttempt.setReg.loadTook.beside.bump.devGo.devEvent.raiseVec

theorem Canon.stepOver : Canon a (stepOver s) := .ite h.beside.cfgDone h.beside

theorem Canon.lockWaitEnd : Canon a (lockWaitEnd s) :=
  .ite h ((h.forEach (fun _ _ h => .ite h h.orReg)).beside.forEach (fun _ _ h => h.clockedStep)).stepOver

theorem Canon.lockWaitTimeout : Canon a (lockWaitTimeout s) := .ite h.attemptFail h

theorem Canon.setResetDone : Canon a (setResetDone s) := .ite h h.gsrRelease.stepOver

theorem Canon.writeEnableDone : Canon a (writeEnableDone s) := .ite h h.beside.stepClocked.stepOver

theorem Canon.outputReleaseDone : Canon a (outputReleaseDone s) := .ite h h.beside.stepClocked.stepOver

theorem Canon.dtmrWrite {d : Nat} {v : Word} : Canon a (dtmrWrite d v s) := .ite h h.setReg.setReg

theorem Canon.dtmrExpire {d : Nat} : Canon a (dtmrExpire d s) :=
  .ite h <|
  .ite (.latchIrq (.ite h.orReg.bump.setReg.raiseVec h.orReg.bump.setReg)) <|
  .ite h.orReg.bump.setReg.raiseVec h.orReg.bump.setReg

theorem Canon.claimQWrite {v : Word} : Canon a (claimQWrite v s) := .ite h.bump h.setReg

/-! ### Shutdown -/

theorem Canon.writeRec {r : HealthRec} : Canon a (writeRec r s) := h.withNv fun hs => by split <;> exact hs

theorem Canon.abandonLoad : Canon a (abandonLoad s) :=
  .ite h <|
  .ite (.beside (.ite h.mbxDone h)) (.loadTook (.beside (.setReg (.setReg (.setAttempt (.ite h.mbxDone h))))))

theorem Canon.shutTick : Canon a (shutTick s) := h.abandonTick.discardFrom.qDiscardFrom.beside.enterHalt

theorem Canon.abortSlot : Canon a (abortSlot s) := by
  unfold Machine.abortSlot
  split
  · exact h.eraseSlot.mbxDone
  · exact h.eraseSlot.mbxDone
  · exact h

theorem Canon.enterShutdown {cause events : Nat} : Canon a (enterShutdown cause events s) :=
  h.abandonLoad.dropPulse.snapAbort.shutTick.gsrAssert.loadChans.beside.devGo.devEvent.writeRec

theorem Canon.pwrOff : Canon a (pwrOff s) := .ite h (.ite h.beside.abortSlot.devEvent h.beside.abortSlot.enterShutdown)

theorem Canon.destroy {k : Nat} : Canon a (destroy k s) :=
  .ite h.loseSection <|
  .ite (h.withQueues fun ⟨hq, hm⟩ => ⟨mwf_mmap _ _ _ hq,
    all_mmap (p := fun x : Queue => mwf dWord x.mem) hm fun _ _ _ => mwf_mtab⟩).beside <|
  .ite (h.withPorts (mwf_mmap _ _ _)).beside <|
  .ite (h.beside.forEach fun _ _ h => h.modEddyOk fun _ hx => hx.withSpad (fun _ => mwf_mtab)) <|
  .ite h.beside h

theorem Canon.segmentDone {fails : List Mark} : Canon a (segmentDone fails s) := .ite h h.beside.destroy.writeRec

theorem Canon.wipeSecrets : Canon a (wipeSecrets s) := h.forEach (fun _ _ h => h.wipeSecure)

theorem Canon.zeroise {own : Bool} {mask : BitVec 4} : Canon a (zeroise own mask s) :=
  .ite
    (.beside <| .ite h.beside.useCounter.wipeSecrets <| by
       split
       · exact h.beside.useCounter.wipeSecrets.abortSlot
       · exact h.beside.useCounter.wipeSecrets.abortSlot
       · exact h.beside.useCounter.wipeSecrets.mbxDone) <|
  .ite
    (.ite h.beside.useCounter.wipeSecrets <| by
       split
       · exact h.beside.useCounter.wipeSecrets.abortSlot
       · exact h.beside.useCounter.wipeSecrets.abortSlot
       · exact h.beside.useCounter.wipeSecrets.mbxDone) <|
  (Canon.besideOf · (by with_reducible exact rfl)) <| .loadStart <| .beside <| .ite h.beside.useCounter.wipeSecrets <| by
    split
    · exact h.beside.useCounter.wipeSecrets.abortSlot
    · exact h.beside.useCounter.wipeSecrets.abortSlot
    · exact h.beside.useCounter.wipeSecrets.mbxDone

theorem Canon.tamper {src : Nat} : Canon a (tamper src s) := .ite h.beside.bump.zeroise h.beside.bump

theorem Canon.vbatFoundAt : Canon a (vbatFoundAt s) := .ite (.zeroise (.ite h.beside.tamper h)) (.ite h.beside.tamper h)

theorem Canon.shutdownDone : Canon a (shutdownDone s) := .ite h (h.wipeSecrets.writeRec.besideOf (by with_reducible exact rfl))

theorem Canon.deviceReset {inReset high : Bool} {straps : BitVec 4} : Canon a (deviceReset inReset high straps s) :=
  .setReg <| .setReg <| .setReg <| by
    refine ⟨fun _ => ?_, fun ha => ?_⟩
    · exact ⟨rfl, rfl, rfl, rfl, rfl, rfl, rfl, rfl, rfl, rfl⟩
    · exact ⟨(h.tables ha).slots, rfl, rfl, rfl, rfl, rfl⟩

theorem Canon.keepZero : Canon a (keepZero s) := .ite h.beside h

theorem Canon.porstAssert : Canon a (porstAssert s) :=
  .deviceReset <| by
    split
    · exact h.useCounter.keepZero.eraseSlot
    · exact h.useCounter.keepZero.eraseSlot
    · exact h.useCounter.keepZero

theorem Canon.porstRelease {straps : BitVec 4} {rails : Bool} : Canon a (porstRelease straps rails s) := .ite h h.deviceReset

theorem Canon.railsInRange : Canon a (railsInRange s) := .ite h.deviceReset.beside h

theorem Canon.fuseRead : Canon a (fuseRead s) :=
  .ite h (.vbatFoundAt (.beside (by split; exacts [h.beside.wipeKeys.wipeSecrets.wipeStore, h.beside])))

theorem Canon.takeFails {fs : List Mark} : Canon a (takeFails fs s) :=
  .beside (.forEach (.ite h h.setReg) (fun _ _ h => .ite h h.fieldMark.logMark))

theorem Canon.bootLoad : Canon a (bootLoad s) := by
  unfold Machine.bootLoad
  exact .loadStart (.beside (h.forEach fun _ _ h => (h.modEddyOk fun _ hx => hx.beside)))

theorem Canon.abbrevEnd : Canon a (abbrevEnd s) := h.writeRec.takeFails.bootLoad

theorem Canon.abbrevGo {segs : List Nat} : Canon a (abbrevGo segs s) := .ite h.beside.abbrevEnd h.beside

theorem Canon.healthRead : Canon a (healthRead s) :=
  .ite h <| by
    split
    · exact h.beside.abbrevGo
    · exact .ite (.abbrevGo (.setReg (.ite h.beside h.beside.takeFails))) (.bootLoad (.ite h.beside h.beside.takeFails))

theorem Canon.abbrevDone {fails : List Mark} : Canon a (abbrevDone fails s) :=
  .ite h (by split; exacts [.ite h.beside.destroy.abbrevEnd h.beside.destroy, h])

/-! ### Security -/

theorem Canon.vbatLoss : Canon a (vbatLoss s) := .ite h.beside h.beside.tamper

theorem Canon.hubExcursion {low : Bool} : Canon a (hubExcursion low s) :=
  .ite h.tamper (.beside (.porstAssert (.ite h.tamper h)))

theorem Canon.transition {t : LifeCycle} {policy : Word} : Canon a (transition t policy s) :=
  h.beside.wipeKeys.wipeSecrets.loadStart.besideOf (by with_reducible exact rfl)

theorem Canon.secBlock {code : Nat} : Canon a (secBlock code s) := h.mbxDone

theorem Canon.kcLoad : Canon a (kcLoad s) := .ite h.bump.secBlock (.ite h.secBlock h.loadStart.mbxDone)

theorem Canon.kcSlot : Canon a (kcSlot s) :=
  .ite h.mbxDone <|
  .ite h.secBlock <|
  .ite
    (by
       dsimp only
       split
       · exact .secBlock (.countLoad (.ite h.srcRead h))
       · exact .setSlot (.beside (.ite h.srcRead h)))
    (.ite h.beside.setSlot h.beside.mbxDone)

theorem Canon.setBoot {boot : Bool} {n : Nat} : Canon a (setBoot boot n s) := .ite h.beside h

theorem Canon.slotWriteDone : Canon a (slotWriteDone s) := by
  unfold Machine.slotWriteDone
  split
  · exact .mbxDone <| by
        split
        · exact h.srcRead.setSlot.setBoot.beside
        · exact h.srcRead.setSlot.setBoot.beside
        · exact h.srcRead.setSlot.setBoot
  · exact h

theorem Canon.slotEraseDone : Canon a (slotEraseDone s) := by
  unfold Machine.slotEraseDone
  split
  · exact h.eraseSlot.setBoot.mbxDone
  · exact h

theorem Canon.transitionDone : Canon a (transitionDone s) := .ite (.mbxDone (by split; exacts [h.wipeStore, h])) h

theorem Canon.release {c i : Nat} : Canon a (release c i s) :=
  .ite h.setFrozen.hostUnfreeze <|
  .ite (h.setFrozen.modEddyOk fun _ hx => .ite (.startFront hx.beside) hx)
    (.ite (h.setFrozen.beside.forEach (fun _ _ h => h.remoteRx)) h.setFrozen)

theorem Canon.kcUnfreeze : Canon a (kcUnfreeze s) :=
  .ite h.mbxDone (.ite h.mbxDone (h.forEach (fun _ _ h => h.release)).mbxDone)

theorem Canon.roleChanged : Canon a (roleChanged s) := by
  unfold Machine.roleChanged
  split
  · exact h.beside.helloAll
  · exact .ite (.helloAll (.beside (.ite h.bump h))) (.ite h.bump h)

theorem Canon.kcRoot : Canon a (kcRoot s) := .ite h.mbxDone (.mbxDone (.ite h.setRegFld h.setRegFld.roleChanged))

theorem Canon.routeSrc : Canon a (routeSrc s) := h.setRegFld

theorem Canon.kcRoutes : Canon a (kcRoutes s) :=
  .ite h.bump.fabCause.secBlock <| .mbxDone <| .fabCause <| .routeSrc <| h.withShadow (mwf_foldl)

theorem Canon.applyRoutes : Canon a (applyRoutes s) :=
  .mbxDone <| .fabCause <| .newTables <| .routeSrc <| h.installTable.besideOf (by with_reducible exact rfl)

theorem Canon.kcApply : Canon a (kcApply s) := .ite h.beside h.applyRoutes

theorem Canon.applyDrained : Canon a (applyDrained s) := .ite h (.ite h.fabCause.secBlock h.applyRoutes)

theorem Canon.kcKey : Canon a (kcKey s) := .ite h.mbxDone (by split; exacts [h.mbxDone, h.beside])

theorem Canon.keyStored : Canon a (keyStored s) := by
  unfold Machine.keyStored
  split
  · exact .mbxDone (h.withNv fun hs => by split <;> exact hs)
  · exact h

theorem Canon.testResult {code : Nat} : Canon a (testResult code s) := .setReg (.ite h.bump h)

theorem Canon.testShut : Canon a (testShut s) := .ite h.testResult h

theorem Canon.bistDone {code : Nat} : Canon a (bistDone code s) := .ite h.testResult.mbxDone h.testResult.secBlock

theorem Canon.bgOn : Canon a (bgOn s) := .ite h.bistDone (.ite h.bistDone (.ite h.bistDone h.setReg.setReg.beside.bistDone))

theorem Canon.bgOff : Canon a (bgOff s) := .ite h.bistDone h.beside.setReg.setReg.bistDone

theorem Canon.kcBist : Canon a (kcBist s) :=
  .ite (.ite h.bistDone (.ite h.beside.bistDone h.bistDone)) <|
  .ite h.bistDone (.ite h.bistDone (.ite h.bistDone (.ite h.bgOn (.ite h.bgOff h.beside.bistDone))))

theorem Canon.sweepDone : Canon a (sweepDone s) := by
  unfold Machine.sweepDone
  dsimp only
  exact .ite h (h.forEach (fun _ _ h => .hbmWriteBack h.hbmFetch)).beside

theorem Canon.kcZeroise : Canon a (kcZeroise s) := by
  unfold Machine.kcZeroise
  exact .ite h.zeroise.mbxDone (h.zeroise.besideOf (by with_reducible exact rfl))

theorem Canon.shutAgain {pin : Bool} : Canon a (shutAgain pin s) := .ite (.devEvent (.ite h h.devEvent)) (.ite h h.devEvent)

theorem Canon.kcShut {pin : Bool} : Canon a (kcShut pin s) :=
  .mbxDone (.beside (.ite h.shutAgain (.ite h.enterShutdown h.enterShutdown)))

theorem Canon.kcRun {pin : Bool} : Canon a (kcRun pin s) :=
  .ite h.mbxDone <|
  .ite h.testShut.mbxDone <| by
    split
    · exact h.kcLoad
    · exact h.kcSlot
    · split
      · exact h.transition
      · exact h.mbxDone
    · exact h.kcUnfreeze
    · exact h.kcRoot
    · exact .ite h.kcApply h.kcRoutes
    · exact h.kcKey
    · exact h.kcBist
    · exact h.kcZeroise
    · exact h.kcShut

theorem Canon.counterStored {pin : Bool} : Canon a (counterStored pin s) := .ite h h.useCounter.beside.kcRun

theorem Canon.mbxChecks : Canon a (mbxChecks s) :=
  .ite h.mbxDone (.ite h.mbxDone (.ite h.beside.bump.mbxDone (.ite h.beside.mbxDone h.beside.beside)))

theorem Canon.mbxGo : Canon a (mbxGo s) := .ite h (.ite h.orReg.beside.orReg h.orReg.mbxChecks)

theorem Canon.lockoutEnd : Canon a (lockoutEnd s) := .ite h.beside.andNotReg.mbxChecks h

theorem Canon.kcGo {k : KClass} : Canon a (kcGo k s) := .ite h.mbxGo h

theorem Canon.readHalves {hi v : Nat} : Canon a (readHalves hi v s) := h.beside.setReg

theorem Canon.frzPop {v : Word} : Canon a (frzPop v s) := .ite h.beside h

theorem Canon.refclkSysLoss : Canon a (refclkSysLoss s) := .forEach (.ite h.tamper h.beside) (fun _ _ h => h.startRetrain)

/-! ### Scrub -/

theorem Canon.endHolds : Canon a (endHolds s) := h.beside

theorem Canon.changeTile {t : Nat} {m : BitVec 4160} : Canon a (changeTile t m s) :=
  .endHolds (.ite h.setTile.bumpBy h.setTile.bumpBy.beside.refreshAcks)

theorem Canon.rewriteFrame {sec : Nat} {f : FramePos} {m : BitVec 4160} : Canon a (rewriteFrame sec f m s) := by
  unfold Machine.rewriteFrame
  dsimp only
  split
  · exact .ite (h.setScrOk fun ha => mwf_mset _ _ _ _ (h.scrRewrites sec ha)) h.changeTile
  · exact h.setScr
  · exact h.setScr.forEach (fun _ _ h => h.setBlock)

theorem Canon.applyRewrite {t : Nat} : Canon a (applyRewrite t s) :=
  .ite h (.changeTile (h.setScrOk fun ha => mwf_merase (h.scrRewrites (tSec t) ha)))

theorem Canon.countShadow {sec p : Nat} {v : Nat → Ecc} : Canon a (countShadow sec p v s) :=
  h.forEach (fun _ _ h => by split; exacts [h, h.bump, h.hbmUe])

theorem Canon.readShadow {sec p : Nat} : Canon a (readShadow sec p s).2.2 := by
  unfold Machine.readShadow
  dsimp only
  exact .iteThird h (.iteThird h (h.setScr.countShadow.besideOf (by with_reducible exact rfl)))

theorem Canon.restoreFrame {sec : Nat} {f : FramePos} {left : BitVec 4160} : Canon a (restoreFrame sec f left s) :=
  h.rewriteFrame

theorem Canon.scrLoc {sec p : Nat} : Canon a (scrLoc sec p s) := .ite h h.setReg.setReg

theorem Canon.frameLost {sec p : Nat} {f : FramePos} : Canon a (frameLost sec p f s) :=
  .ite h.bump.scrLoc.setScr.markTile h.bump.scrLoc.setScr

theorem Canon.scrubOne {sec p : Nat} : Canon a (scrubOne sec p s) := by
  unfold Machine.scrubOne
  dsimp only
  split
  · exact h
  · exact h.restoreFrame.bump
  · exact .ite (.raiseVec (.scrLoc (.bump (.restoreFrame h.bump.readShadow)))) (.frameLost h.bump.readShadow)

theorem Canon.revokeFrame {sec p : Nat} : Canon a (revokeFrame sec p s) := by
  unfold Machine.revokeFrame
  dsimp only
  split
  · exact .ite (.ite (.restoreFrame h.revoke.readShadow) h.revoke.readShadow) h
  · exact h

theorem Canon.scrubFrame {sec : Nat} : Canon a (scrubFrame sec s) :=
  .ite h (.ite (.ite h.setScr.bump h.setScr) (.scrubOne (.ite h.setScr.bump h.setScr)))

theorem Canon.scrubPriority {sec : Nat} : Canon a (scrubPriority sec s) :=
  .ite h (h.setScr.forEach (fun _ _ h => h.revokeFrame.scrubOne)).endHolds

theorem Canon.scrCfgWrite {sec : Nat} {v : Word} : Canon a (scrCfgWrite sec v s) := .ite h.bump.setReg h.setScr.setReg

theorem Canon.peerCheck {sec : Nat} : Canon a (peerCheck sec s) :=
  .ite h <|
  .ite h.setReg.setScr.bump <|
  .ite h.setReg.setScr <| by
    split
    · exact h.drawFree
    · exact h.setReg.setScr.drawFree
    · exact .drawFree (.ite h.setScr.bump.setReg h.setScr.bump)

theorem Canon.scrubWatchdog {sec recent : Nat} : Canon a (scrubWatchdog sec recent s) :=
  .ite h (.ite h.setScr.bump.markRun.setReg h.setScr.bump)

theorem Canon.leaseStart {sec : Nat} {r : LeaseRes} : Canon a (leaseStart sec r s) := .ite h.beside h

theorem Canon.leaseDone {sec : Nat} {pass : Bool} : Canon a (leaseDone sec pass s) := by
  unfold Machine.leaseDone
  dsimp only
  split
  · exact h
  · exact .ite
        (.setReg <| .beside <| .bump <| by
           split
           · exact .ite (.restoreFrame h.beside.readShadow) h.beside.readShadow
           · exact .ite (.restoreFrame h.beside.readShadow) h.beside.readShadow
           · exact h.beside) <|
      .ite
        (.markRun <| .setReg <| .bump <| .beside <| .bump <| by
           split
           · exact .ite (.restoreFrame h.beside.readShadow) h.beside.readShadow
           · exact .ite (.restoreFrame h.beside.readShadow) h.beside.readShadow
           · exact h.beside) <|
      .beside <| .bump <| by
        split
        · exact .ite (.restoreFrame h.beside.readShadow) h.beside.readShadow
        · exact .ite (.restoreFrame h.beside.readShadow) h.beside.readShadow
        · exact h.beside

theorem Canon.readback {off : Nat} : Canon a (readback off s) :=
  .ite h <|
  .ite h.beside (.ite h.beside.bump (.ite (.ite h.beside.drawFree h.revokeFrame.beside) (.ite h.beside h.beside)))

theorem Canon.xlat {sec : Nat} {v : Word} : Canon a (xlat sec v s) := h.setReg.setReg

theorem Canon.rawApply {seg : Fin 16} : Canon a (rawApply seg s) := .ite h h.setReg.setReg.beside

/-! ### TraceCmds -/

theorem Canon.ringPoolWrite {v : Word} : Canon a (ringPoolWrite v s) :=
  .ite h.descTouch.trcResult (.ite h.descTouch.trcResult h.descTouch.setReg)

theorem Canon.probeWrite {sec k : Nat} {v : Word} : Canon a (probeWrite sec k v s) :=
  .ite h.trcResult (.ite h.trcResult h.setReg)

theorem Canon.traceStart : Canon a (traceStart s) :=
  .ite h.descTouch.trcResult <|
  .ite h.descTouch.trcResult (.trcResult ((h.descTouch.withRing (m := []) fun _ => rfl).withExp (m := []) fun _ => rfl).beside)

theorem Canon.traceStop : Canon a (traceStop s) := .ite h.trcResult h.beside.trcResult

theorem Canon.traceStopDone : Canon a (traceStopDone s) := .ite h.exportFlits.beside h

theorem Canon.resetRing : Canon a (resetRing s) := .ite h.trcResult h.beside.setReg.setReg.trcResult

theorem Canon.traceReserved {cmd : Nat} : Canon a (traceReserved cmd s) := .ite h h.trcResult

theorem Canon.snapNow : Canon a (snapNow s) :=
  .ite h.descTouch.trcResult (.ite h.descTouch.trcResult (.ite h.descTouch.trcResult h.descTouch.beside.trcResult))

theorem Canon.snapArm : Canon a (snapArm s) :=
  .ite h.descTouch.trcResult (.ite h.descTouch.trcResult (.ite h.descTouch.trcResult h.descTouch.beside.trcResult))

/-- The snapshot's words are taken: stated for any state, as the kernel must not run the write of all the words. -/
theorem Canon.snapTaken : Canon a { s with trc := { s.trc with snap := .off, snapVals := none } } := h.beside

theorem Canon.snapDone : Canon a (snapDone s) := by
  unfold Machine.snapDone
  dsimp only
  split
  · exact h
  next t _ =>
    generalize upTo 1179656 = l
    exact .trcEvent (.bump (.trcResult (h.forEach fun _ _ h => h.otherWrite).snapTaken))

theorem Canon.exportOn : Canon a (exportOn s) :=
  .ite h.trcResult (.ite h.trcResult (.trcResult (h.setChan.lnkEnable.setChan.withExp (m := []) fun _ => rfl).beside))

theorem Canon.exportOff : Canon a (exportOff s) :=
  .ite h.trcResult (.trcResult (h.handOver.stopChan.lnkCause.setChan.withExp (m := []) fun _ => rfl).beside)

theorem Canon.recordWrite {sec : Nat} {ex : Bool} : Canon a (recordWrite sec ex s) := .ite h.traceRecord h

/-! ### RegWrite -/

theorem Canon.latchHi {o : Nat} : Canon a (latchHi o s) :=
  .ite h.setReg <|
  .ite h.setReg (.ite h.setReg (.ite h.setReg (.ite h.setReg (.ite h.setReg (.ite h.setReg (.ite h.setReg h))))))

theorem Canon.transactorSets {o : Nat} : Canon a (transactorSets o s) := by
  unfold Machine.transactorSets
  split
  · exact .ite h (.ite h.drawFree.orReg h.drawFree.orReg.raiseVec)
  · exact h

theorem Canon.mgmtRead {o : Nat} : Canon a (mgmtRead o s) := by
  unfold Machine.mgmtRead
  split
  · exact h.ueLocRead
  · exact .ite (.setReg (.latchHi (.beside (.ite h.transactorSets.drawFree h.transactorSets)))) <|
      .latchHi (.beside (.ite h.transactorSets.drawFree h.transactorSets))

theorem Canon.hostRead {o : Nat} : Canon a (hostRead o s) :=
  .ite h (.ite h.readback (by split; exacts [h.hostAccess, .ite h.beside h.mgmtRead]))

theorem Canon.plainWrite {o : Nat} {v : Word} : Canon a (plainWrite o v s) := by
  unfold Machine.plainWrite
  split
  · exact h
  · dsimp only
    split
    · exact h.setReg
    · exact h.andNotReg
    · exact h.orReg
    · exact h
    · exact h
    · exact h
    · exact h

theorem Canon.enableWrite {ev en vec : Nat} {v : Word} : Canon a (enableWrite ev en vec v s) :=
  .ite h.plainWrite h.plainWrite.raiseVec

theorem Canon.msixCtlWrite {n : Nat} {v : Word} : Canon a (msixCtlWrite n v s) := .ite h.plainWrite.beside h.plainWrite

theorem Canon.writeDev {o : Nat} {v : Word} : Canon a (writeDev o v s) := .ite h.enableWrite (.ite h.dtmrWrite h.plainWrite)

theorem Canon.writeMbx {o : Nat} {v : Word} : Canon a (writeMbx o v s) := .ite h (.ite (.ite h.mbxGo h) h.plainWrite)

theorem Canon.writeLc {o : Nat} {v : Word} : Canon a (writeLc o v s) := .ite h.beside h

theorem Canon.tickCtl {v : Word} : Canon a (tickCtl v s) := by
  unfold Machine.tickCtl
  split
  · exact h
  · exact h.tickRun
  · exact h.tickPaced
  · exact h.tickStop
  · exact h.tickStep
  · exact h.tickClear
  · exact h.cmdStat

theorem Canon.writeTick {o : Nat} {v : Word} : Canon a (writeTick o v s) :=
  .ite h.tickCtl <|
  .ite h.setReg.wrStat <|
  .ite h.tickStopHi <|
  .ite h.tickCfgWrite <|
  .ite h.timeoutWrite <|
  .ite h.tickPeriodWrite <|
  .ite (.ite h.plainWrite.wrStat h.plainWrite.wrStat.beside) <|
  .ite h.cadLenWrite <|
  .ite h.cadPosWrite <|
  .ite h.avsCfgWrite <|
  .ite h.avsCapWrite (.ite h.avsTargetWrite (.ite h.cadMaskWrite (.ite h.gsrPulse h.plainWrite)))

theorem Canon.writeRa {o : Nat} {v : Word} : Canon a (writeRa o v s) :=
  .ite h.raCfgWrite (.ite h.raPredWrite (.ite h.raRange h.plainWrite))

theorem Canon.writeLnk {c o : Nat} {v : Word} : Canon a (writeLnk c o v s) :=
  .ite (by split; exacts [h, h.lnkEnable, h.lnkDisable, h.lnkReset, h.lnkRetrain, h.lnkReserved]) <|
  .ite h.lnkCfgWrite h.plainWrite

theorem Canon.writeFab {o : Nat} {v : Word} : Canon a (writeFab o v s) :=
  .ite (by split; exacts [h, h.discoverCmd, h.bump.fabCause]) (.ite h.bump.fabCause h.plainWrite)

theorem Canon.qctl {q : Nat} {v : Word} : Canon a (qctl q v s) :=
  .ite (.qctlRdReset (.ite (.qctlWrReset (.ite h.flushAsk h)) (.ite h.flushAsk h))) <|
  .ite (.qctlWrReset (.ite h.flushAsk h)) (.ite h.flushAsk h)

theorem Canon.writeQ {q r : Nat} {v : Word} : Canon a (writeQ q r v s) :=
  .ite h.qcfgWrite (.ite h.qctl (.ite h.qtimerWrite (.ite h.enableWrite h.plainWrite)))

theorem Canon.writePool {o : Nat} {v : Word} : Canon a (writePool o v s) :=
  .ite (by split; exacts [h, h.descRead, h.descWrite, h.descClear]) (.ite (.ite h.portReset h) h.plainWrite)

theorem Canon.writeTest {o : Nat} {v : Word} : Canon a (writeTest o v s) :=
  .ite (.ite h.scrCfgWrite (.ite h.xlat h)) (.ite h.testResult (.ite (.ite h.rawApply h) (.ite h h.plainWrite)))

theorem Canon.trcCtl {v : Word} : Canon a (trcCtl v s) := by
  unfold Machine.trcCtl
  split
  · exact h.traceStart
  · exact h.traceStop
  · exact h.snapNow
  · exact h.snapArm
  · exact h.exportOn
  · exact h.exportOff
  · exact h.resetRing
  · exact h.traceReserved

theorem Canon.writeTrc {o : Nat} {v : Word} : Canon a (writeTrc o v s) :=
  .ite h.trcCtl (.ite h.trcResult (.ite h.ringPoolWrite (.ite h.enableWrite (.ite h.probeWrite h.plainWrite))))

theorem Canon.writeHost {o : Nat} {v : Word} : Canon a (writeHost o v s) :=
  .ite (.ite h.ctxCfgWrite (.ite h.enableWrite h.plainWrite)) <|
  .ite (.ite h.dmaRingWrite (.ite h.dmaTailWrite h)) (.ite h.msixCtlWrite h.plainWrite)

theorem Canon.writeEddy {e r : Nat} {v : Word} : Canon a (writeEddy e r v s) :=
  .ite (by split; exacts [h.eddyStart, h.eddyCmd fun _ hx => .haltNow hx.beside, h.eddyReset, h.eddyCmd fun _ hx => hx]) <|
  .ite h.eddyPinWrite (.ite h.eddyPinWrite (.ite h.ringDoorbell h.plainWrite))

theorem Canon.writeReg {o : Nat} {v : Word} : Canon a (writeReg o v s) :=
  .ite h.writeDev <|
  .ite h.writeMbx <|
  .ite (.ite h.claimQWrite h) <|
  .ite h.writeLc <|
  .ite (.ite h.frzPop h) <|
  .ite h.writeTick <|
  .ite h.writeRa <|
  .ite h.writeLnk <|
  .ite h <|
  .ite h.writeFab <|
  .ite h.writeQ (.ite h.writePool (.ite h.writeTest (.ite h.writeTrc (.ite h.writeHost (.ite h.writeEddy h)))))

theorem Canon.pathWrite {sec o : Nat} {v : Word} {split : Bool} : Canon a (pathWrite sec o v split s) :=
  h.viaPath (fun _ h => .ite h.setPath h.writeReg)

theorem Canon.shutWrite {o : Nat} {v : Word} : Canon a (shutWrite o v s) := .ite h.gsrPulse (.ite h.eddyShut h)

theorem Canon.hostWrite {o : Nat} {v : Word} {split : Bool} : Canon a (hostWrite o v split s) :=
  .ite h <| by
    split
    · split
      · exact h.hostAccess
      · exact h
    · exact .ite h.shutWrite (by split; exacts [h.pathWrite, h.writeReg])

theorem Canon.reqArrive {x : FlagXing} : Canon a (reqArrive x s) := by
  unfold Machine.reqArrive
  split
  · exact .ite h.setQ h.hostPushArrive
  · exact h.setQ
  · exact .ite h.setPort h
  · dsimp only
    split
    · exact .ite h (h.setPath.mgmt (fun _ h => h.writeReg))
    · exact h

theorem Canon.ackArrive {x : FlagXing} : Canon a (ackArrive x s) := by
  unfold Machine.ackArrive
  split
  · exact h.setQ
  · exact h.setQ
  · exact h.setPort
  · exact .ite h.setPath h

/-! ### Pins -/

theorem Canon.thermalRead {temps : BitVec 72} : Canon a (thermalRead temps s) := (h.forEach (fun _ _ h => h.setReg)).setReg

theorem Canon.hbmSupplyFault : Canon a (hbmSupplyFault s) := h.markAll

theorem Canon.smbSetOffset {v : Word} : Canon a (smbSetOffset v s) := h.beside

theorem Canon.smbBlockRead : Canon a (smbBlockRead s) := .beside (.ite h.drawFree h)

theorem Canon.smbOther : Canon a (smbOther s) := h.beside

theorem Canon.tapScan {i : JtagInst} {lvl load : BitVec 2246} : Canon a (tapScan i lvl load s) := h.beside

theorem Canon.tapSelect {i : JtagInst} : Canon a (tapSelect i s) := h.beside

theorem Canon.tapHold {i : JtagInst} {lvl load : BitVec 2246} : Canon a (tapHold i lvl load s) := .ite h.tapSelect h.tapScan

theorem Canon.tapPrivate {op : BitVec 8} : Canon a (tapPrivate op s) := h.tapSelect

/-! ### Dispatch -/

/-- Every command leads to a next state, which is kept. -/
theorem Canon.exec {i : Instr} : Gives i s (Canon a) := by
  cases i with
  | porstNRelease => exact ⟨_, rfl, h.porstRelease⟩
  | porstNAssert => exact ⟨_, rfl, h.porstAssert⟩
  | pwrOffReqNAssert => exact ⟨_, rfl, h.pwrOff⟩
  | pwrOffReqNRelease => exact ⟨_, rfl, h.beside⟩
  | shutdownSegmentDone => exact ⟨_, rfl, h.segmentDone⟩
  | shutdownTestDone => exact ⟨_, rfl, h.shutdownDone⟩
  | tickIssue => exact ⟨_, rfl, h.tickIssue⟩
  | lcEvaluate => exact ⟨_, rfl, h.lcEvaluate⟩
  | tileSettled => exact ⟨_, rfl, h.tileSettled⟩
  | tileSpacerComplete => exact ⟨_, rfl, h.tileSpacerComplete⟩
  | spacerRelease => exact ⟨_, rfl, h.spacerRelease⟩
  | tickComplete => exact ⟨_, rfl, h.tickComplete⟩
  | frStageCapture => exact ⟨_, rfl, h.frCapture⟩
  | frStageRelease => exact ⟨_, rfl, h.frRelease⟩
  | gsrPulse => exact ⟨_, rfl, h.awake fun _ h => h.gsrPulse⟩
  | gsrPulseDone => exact ⟨_, rfl, h.pulseDone⟩
  | singleEventUpset => exact ⟨_, rfl, h.upset⟩
  | vsenseUpdate => exact ⟨_, rfl, h.vsenseUpdate⟩
  | replicaUpdate => exact ⟨_, rfl, h.setReg⟩
  | oneHotConflict => exact ⟨_, rfl, h.oneHotConflict⟩
  | bmAsyncRead => exact ⟨_, rfl, h.bmAsyncRead⟩
  | bmFrAccess => exact ⟨_, rfl, h.bmFrAccess⟩
  | bmEccWriteback => exact ⟨_, rfl, h.bmWriteBack⟩
  | bmPatrolRead => exact ⟨_, rfl, h.bmPatrolRead⟩
  | tickCmdRun => exact ⟨_, rfl, h.mgmt fun _ h => h.tickRun⟩
  | tickCmdPaced => exact ⟨_, rfl, h.mgmt fun _ h => h.tickPaced⟩
  | tickCmdStop => exact ⟨_, rfl, h.mgmt fun _ h => h.tickStop⟩
  | tickCmdStep => exact ⟨_, rfl, h.mgmt fun _ h => h.tickStep⟩
  | tickCmdClear => exact ⟨_, rfl, h.mgmt fun _ h => h.tickClear⟩
  | tickCmdReserved => exact ⟨_, rfl, h.mgmt fun _ h => h.cmdStat⟩
  | tickStopHiWrite => exact ⟨_, rfl, h.mgmt fun _ h => h.tickStopHi⟩
  | tickNowLoRead => exact ⟨_, rfl, h.mgmtRd fun _ h => h.beside.setReg⟩
  | tickCfgWrite => exact ⟨_, rfl, h.mgmt fun _ h => h.tickCfgWrite⟩
  | tickTimeoutWrite => exact ⟨_, rfl, h.mgmt fun _ h => h.timeoutWrite⟩
  | tickPacePeriodWrite => exact ⟨_, rfl, h.mgmt fun _ h => h.tickPeriodWrite⟩
  | cadLenWrite => exact ⟨_, rfl, h.mgmt fun _ h => h.cadLenWrite⟩
  | cadPosWrite => exact ⟨_, rfl, h.mgmt fun _ h => h.cadPosWrite⟩
  | cadMaskWrite => exact ⟨_, rfl, h.mgmt fun _ h => h.cadMaskWrite⟩
  | paceTimerEvent => exact ⟨_, rfl, h.paceFrom⟩
  | tickInEdge => exact ⟨_, rfl, h.paceFrom⟩
  | settleTimeout => exact ⟨_, rfl, h.settleTimeout⟩
  | timeoutLocated => exact ⟨_, rfl, h.timeoutLocated⟩
  | tickInterval1ms => exact ⟨_, rfl, h.interval1ms⟩
  | avsCapInterval => exact ⟨_, rfl, h.avsCapInterval⟩
  | avsCfgWrite => exact ⟨_, rfl, h.mgmt fun _ h => h.avsCfgWrite⟩
  | avsTargetWrite => exact ⟨_, rfl, h.mgmt fun _ h => h.avsTargetWrite⟩
  | avsCapWrite => exact ⟨_, rfl, h.mgmt fun _ h => h.avsCapWrite⟩
  | avsFrameDone => exact ⟨_, rfl, h.avsFrameDone⟩
  | raCfgWrite => exact ⟨_, rfl, h.mgmt fun _ h => h.raCfgWrite⟩
  | raPredWrite => exact ⟨_, rfl, h.mgmt fun _ h => h.raPredWrite⟩
  | raLwmLoRead => exact ⟨_, rfl, h.mgmtRd fun _ h => h.beside.setReg⟩
  | raULoRead => exact ⟨_, rfl, h.mgmtRd fun _ h => h.beside.setReg⟩
  | predictionWaitExpire => exact ⟨_, rfl, h.waitExpire⟩
  | boundaryFrameRx => exact ⟨_, rfl, h.takeMsg.frameRx⟩
  | rollbackRestore => exact ⟨_, rfl, h.rollbackRestore⟩
  | boundaryFrameSend => exact ⟨_, rfl, h.frameSend⟩
  | recallSend => exact ⟨_, rfl, h.recallSend⟩
  | recallRx => exact ⟨_, rfl, h.takeMsg.recallRx⟩
  | waveRootStart => exact ⟨_, rfl, h.waveRootStart⟩
  | waveStartRx => exact ⟨_, rfl, h.takeMsg.waveStartRx⟩
  | markRx => exact ⟨_, rfl, h.takeMsg.markRx⟩
  | waveReportRx => exact ⟨_, rfl, h.takeMsg.waveReportRx⟩
  | waveReportSend => exact ⟨_, rfl, h.waveReportSend⟩
  | waveResultRx => exact ⟨_, rfl, h.takeMsg.waveResultRx⟩
  | sluiceRelease => exact ⟨_, rfl, h.sluiceRelease⟩
  | lnkCmdEnable => exact ⟨_, rfl, h.mgmt fun _ h => h.lnkEnable⟩
  | lnkCmdDisable => exact ⟨_, rfl, h.mgmt fun _ h => h.lnkDisable⟩
  | lnkCmdReset => exact ⟨_, rfl, h.mgmt fun _ h => h.lnkReset⟩
  | lnkCmdRetrain => exact ⟨_, rfl, h.mgmt fun _ h => h.lnkRetrain⟩
  | lnkCmdReserved => exact ⟨_, rfl, h.mgmt fun _ h => h.lnkReserved⟩
  | lnkCfgWrite => exact ⟨_, rfl, h.mgmt fun _ h => h.lnkCfgWrite⟩
  | linkSignalDetect => exact ⟨_, rfl, h.signalDetect⟩
  | trainRx => exact ⟨_, rfl, h.trainRx⟩
  | trainingDone => exact ⟨_, rfl, h.trainingDone⟩
  | trainingFail => exact ⟨_, rfl, h.trainFail⟩
  | flitRx => exact ⟨_, rfl, h.flitRx⟩
  | flitTransmit => exact ⟨_, rfl, h.flitTransmit⟩
  | nakRx => exact ⟨_, rfl, .ite h.takeAck.startReplay h⟩
  | creditRx => exact ⟨_, rfl, .ite h.takeAck.creditRx h⟩
  | idleRx => exact ⟨_, rfl, .ite h.takeAck h⟩
  | retrainReqRx => exact ⟨_, rfl, .ite h.takeAck.startRetrain h⟩
  | replayTimeout =>
    refine ⟨_, rfl, .ite ?_ h⟩
    split
    exacts [h.startReplay, h]
  | creditReturnTimer => exact ⟨_, rfl, .ite h.setChan h⟩
  | linkStallTimeout => exact ⟨_, rfl, h.stallTimeout⟩
  | fordCutThrough => exact ⟨_, rfl, h.fordCutThrough⟩
  | laneLoss => exact ⟨_, rfl, h.laneLoss⟩
  | strobeLoss => exact ⟨_, rfl, h.startRetrain⟩
  | linkSignalLoss => exact ⟨_, rfl, h.startRetrain⟩
  | refclkSerLoss => exact ⟨_, rfl, h.forEach fun _ _ h => h.startRetrain⟩
  | linkResetDone => exact ⟨_, rfl, h.resetDone⟩
  | helloRx => exact ⟨_, rfl, h.takeMsg.helloRx⟩
  | electionQuietExpire => exact ⟨_, rfl, h.beside.tryEnum⟩
  | fabCmdDiscover => exact ⟨_, rfl, h.mgmt fun _ h => h.discoverCmd⟩
  | fabCmdReserved => exact ⟨_, rfl, h.mgmt fun _ h => h.bump.fabCause⟩
  | queryAssignRx => exact ⟨_, rfl, h.takeMsg.queryAssignRx⟩
  | queryCommitRx => exact ⟨_, rfl, h.takeMsg.queryCommitRx⟩
  | replyRx => exact ⟨_, rfl, h.takeMsg.replyRx⟩
  | routesRx => exact ⟨_, rfl, h.takeMsg.routesRx⟩
  | queryTimeout => exact ⟨_, rfl, h.queryTimeout⟩
  | pendingIdTimeout => exact ⟨_, rfl, h.dropPend⟩
  | noticeRx => exact ⟨_, rfl, h.takeMsg.noticeRx⟩
  | fenceSend => exact ⟨_, rfl, h.fenceSend⟩
  | linkDownRx => exact ⟨_, rfl, h.takeMsg.linkDownRx⟩
  | fenceRx => exact ⟨_, rfl, h.takeMsg.fenceRx⟩
  | fenceDoneRx => exact ⟨_, rfl, h.takeMsg.fenceDoneRx⟩
  | fenceTimeout => exact ⟨_, rfl, h.fenceTimeout⟩
  | queuePush => exact ⟨_, rfl, h.queuePush⟩
  | queuePop => exact ⟨_, rfl, h.queuePop⟩
  | pointerSync => exact ⟨_, rfl, h.pointerSync⟩
  | spillSeal => exact ⟨_, rfl, h.spillSeal⟩
  | qctlFlush => exact ⟨_, rfl, h.mgmt fun _ h => h.viaPath fun _ h => h.flushAsk⟩
  | flushAct => exact ⟨_, rfl, h.flushAct⟩
  | qctlWrReset => exact ⟨_, rfl, h.mgmt fun _ h => h.viaPath fun _ h => h.qctlWrReset⟩
  | qctlRdReset => exact ⟨_, rfl, h.mgmt fun _ h => h.viaPath fun _ h => h.qctlRdReset⟩
  | sideResetRelease x =>
    cases x with
    | queue => exact ⟨_, rfl, h.qRelease⟩
    | port => exact ⟨_, rfl, h.portRelease⟩
  | peerResetSync x =>
    cases x with
    | queue => exact ⟨_, rfl, h.peerReset⟩
    | port => exact ⟨_, rfl, h.portPeerReset⟩
  | epochConnectRx x =>
    cases x with
    | queue => exact ⟨_, rfl, h.qMsg⟩
    | port => exact ⟨_, rfl, h.portMsg⟩
  | epochAckRx x =>
    cases x with
    | queue => exact ⟨_, rfl, h.qMsg⟩
    | port => exact ⟨_, rfl, h.portMsg⟩
  | qhPushWrite => exact ⟨_, rfl, h.hostAccess⟩
  | qhPopRead => exact ⟨_, rfl, h.hostAccess⟩
  | qcfgWrite => exact ⟨_, rfl, h.mgmt fun _ h => h.viaPath fun _ h => h.qcfgWrite⟩
  | staleTimeout => exact ⟨_, rfl, h.staleTimeout⟩
  | xingReqArrive => exact ⟨_, rfl, h.reqArrive⟩
  | xingAckArrive => exact ⟨_, rfl, h.ackArrive⟩
  | arbiterEntry => exact ⟨_, rfl, h.arbiterEntry⟩
  | poolDescRead => exact ⟨_, rfl, h.mgmt fun _ h => h.descRead⟩
  | poolDescWrite => exact ⟨_, rfl, h.mgmt fun _ h => h.descWrite⟩
  | poolDescClear => exact ⟨_, rfl, h.mgmt fun _ h => h.descClear⟩
  | poolDescDone => exact ⟨_, rfl, h.descDone⟩
  | poolPortRequest => exact ⟨_, rfl, h.poolPortRequest⟩
  | poolPortAnswer => exact ⟨_, rfl, h.poolPortAnswer⟩
  | drainDone => exact ⟨_, rfl, h.drainDone⟩
  | hbmEccWriteback => exact ⟨_, rfl, h.hbmWriteBack⟩
  | hbmPatrolRead => exact ⟨_, rfl, h.patrolRead⟩
  | hbmRfm => exact ⟨_, rfl, h.bump⟩
  | hbmUeLocRead => exact ⟨_, rfl, h.mgmtRd fun _ h => h.ueLocRead⟩
  | poolPortReset => exact ⟨_, rfl, h.mgmt fun _ h => h.viaPath fun _ h => h.portReset⟩
  | poolPortResetDone => exact ⟨_, rfl, h.portResetDone⟩
  | poolRdRx => exact ⟨_, rfl, h.remoteRx⟩
  | poolWrRx => exact ⟨_, rfl, h.remoteRx⟩
  | poolAnsRx => exact ⟨_, rfl, h.poolAnsRx⟩
  | eddyCmdStart => exact ⟨_, rfl, h.eddyCtl fun _ h => h.eddyStart⟩
  | eddyCmdHalt => exact ⟨_, rfl, h.eddyCtl fun _ h => h.eddyCmd fun _ hx => .haltNow hx.beside⟩
  | eddyCmdReset => exact ⟨_, rfl, h.eddyCtl fun _ h => h.eddyReset⟩
  | eddyCmdReserved => exact ⟨_, rfl, h.eddyCtl fun _ h => h.eddyCmd fun _ hx => hx⟩
  | eddyDoorbellWrite => exact ⟨_, rfl, h.mgmt fun _ h => h.viaPath fun _ h => h.ringDoorbell⟩
  | eddyPinWrite => exact ⟨_, rfl, h.mgmt fun _ h => h.viaPath fun _ h => h.eddyPinWrite⟩
  | dmaGo => exact ⟨_, rfl, h.dmaGoCmd⟩
  | dmaTransferDone => exact ⟨_, rfl, h.dmaTransferDone⟩
  | dmaDoneRead => exact ⟨_, rfl, h.runLocal⟩
  | irqEntry => exact ⟨_, rfl, h.irqEntry⟩
  | eddyTimerMatch => exact ⟨_, rfl, h.timerMatch⟩
  | eddyTimerLoRead => exact ⟨_, rfl, h.timerLoRead⟩
  | secureWipeDone => exact ⟨_, rfl, h.secureWipeDone⟩
  | leaseStart => exact ⟨_, rfl, h.leaseStart⟩
  | leaseDone => exact ⟨_, rfl, h.leaseDone⟩
  | apertureAccess => exact ⟨_, rfl, h.hostAccess⟩
  | apertureStarved => exact ⟨_, rfl, h.apertureStarved⟩
  | eAdd => exact ⟨_, rfl, h.regOp⟩
  | eSub => exact ⟨_, rfl, h.regOp⟩
  | eAnd => exact ⟨_, rfl, h.regOp⟩
  | eOr => exact ⟨_, rfl, h.regOp⟩
  | eXor => exact ⟨_, rfl, h.regOp⟩
  | eSll => exact ⟨_, rfl, h.regOp⟩
  | eSrl => exact ⟨_, rfl, h.regOp⟩
  | eSra => exact ⟨_, rfl, h.regOp⟩
  | eMul => exact ⟨_, rfl, h.regOp⟩
  | eMulhu => exact ⟨_, rfl, h.regOp⟩
  | eSlt => exact ⟨_, rfl, h.regOp⟩
  | eSltu => exact ⟨_, rfl, h.regOp⟩
  | eAddc => exact ⟨_, rfl, h.regOp⟩
  | eSubb => exact ⟨_, rfl, h.regOp⟩
  | ePopc => exact ⟨_, rfl, h.regOp⟩
  | eClz => exact ⟨_, rfl, h.regOp⟩
  | eAddi => exact ⟨_, rfl, h.immOp⟩
  | eAndi => exact ⟨_, rfl, h.immOp⟩
  | eOri => exact ⟨_, rfl, h.immOp⟩
  | eXori => exact ⟨_, rfl, h.immOp⟩
  | eSlli => exact ⟨_, rfl, h.immOp⟩
  | eSrli => exact ⟨_, rfl, h.immOp⟩
  | eSrai => exact ⟨_, rfl, h.immOp⟩
  | eInsh => exact ⟨_, rfl, h.issue fun _ _ h => .some h.aluDone⟩
  | eSlti => exact ⟨_, rfl, h.immOp⟩
  | eSltiu => exact ⟨_, rfl, h.immOp⟩
  | eCmpi => exact ⟨_, rfl, h.issue fun _ _ h => .some h.aluDone⟩
  | eBc => exact ⟨_, rfl, h.issue fun _ _ h => .some (.ite h.eddyExc h.branch)⟩
  | eBz => exact ⟨_, rfl, h.issue fun _ _ h => .some h.branch⟩
  | eBnz => exact ⟨_, rfl, h.issue fun _ _ h => .some h.branch⟩
  | eCall => exact ⟨_, rfl, h.issue fun _ _ h => .some (h.modEddyOk fun _ hx => hx.setG.jump)⟩
  | eJr => exact ⟨_, rfl, h.issue fun _ _ h => .some (h.modEddyOk fun _ hx => hx.setG.jump)⟩
  | eLdb => exact ⟨_, rfl, h.loadOp⟩
  | eLdh => exact ⟨_, rfl, h.loadOp⟩
  | eLdw => exact ⟨_, rfl, h.loadOp⟩
  | eLdd => exact ⟨_, rfl, h.loadOp⟩
  | eStb => exact ⟨_, rfl, h.storeOp⟩
  | eSth => exact ⟨_, rfl, h.storeOp⟩
  | eStw => exact ⟨_, rfl, h.storeOp⟩
  | eStd => exact ⟨_, rfl, h.storeOp⟩
  | eQpush => exact ⟨_, rfl, h.issue fun _ _ h => .some (.ite h.eddyPush.loaded h.siteViolation)⟩
  | eQpop => exact ⟨_, rfl, h.issue fun _ _ h => .some (.ite h.popped h.siteViolation)⟩
  | eQpopw => exact ⟨_, rfl, h.issue (fun _ _ h => .ite (.some h.siteViolation) (.ite .none (.some h.popped)))⟩
  | eQflush => exact ⟨_, rfl, h.issue fun _ _ h => .some (.ite h.qFlushOp h.siteViolation)⟩
  | eQstat => exact ⟨_, rfl, h.issue fun _ _ h => .some (.ite h.loaded h.siteViolation)⟩
  | ePld => exact ⟨_, rfl, h.issue fun _ _ h => h.poolOp⟩
  | ePldAnswer => exact ⟨_, rfl, h.pldAnswer⟩
  | ePst => exact ⟨_, rfl, h.issue fun _ _ h => h.poolOp⟩
  | ePatomSwap => exact ⟨_, rfl, h.atomOp⟩
  | ePatomAdd => exact ⟨_, rfl, h.atomOp⟩
  | ePatomAnd => exact ⟨_, rfl, h.atomOp⟩
  | ePatomOr => exact ⟨_, rfl, h.atomOp⟩
  | ePatomXor => exact ⟨_, rfl, h.atomOp⟩
  | ePatomCas => exact ⟨_, rfl, h.atomOp⟩
  | ePatomAnswer => exact ⟨_, rfl, h.patomAnswer⟩
  | eCmt => exact ⟨_, rfl, h.issue fun _ _ h => .ite h.cmtOp (.some h.eddyExc)⟩
  | eFence => exact ⟨_, rfl, h.issue fun _ _ h => .ite .none (.some (h.modEddyOk fun _ hx => hx.beside))⟩
  | eMtake =>
    refine ⟨_, rfl, h.issue fun _ _ h => .ite (.some h.eddyExc) ?_⟩
    split
    exacts [.ite .none (.some (h.modEddyOk fun _ hx => hx.beside)), .some h.takeRecord]
  | eMans => exact ⟨_, rfl, h.issue fun _ _ h => .some (h.modelAnswer.modEddyOk fun _ hx => hx.beside)⟩
  | eEret => exact ⟨_, rfl, h.sysOp fun _ _ h => .some (.ite h.eddyExc (h.modEddyOk fun _ hx => hx.beside))⟩
  | eMfc => exact ⟨_, rfl, h.sysOp fun _ _ h => .some h.loaded⟩
  | eMtc => exact ⟨_, rfl, h.sysOp fun _ _ h => .some (.pinVbase (h.modEddyOk fun _ hx => hx.setC.nextPc))⟩
  | eTrap => exact ⟨_, rfl, h.sysOp fun _ _ h => .some (h.modEddyOk fun _ hx => hx.eddyRaise)⟩
  | eBreak => exact ⟨_, rfl, h.sysOp fun _ _ h => .some (h.modEddyOk fun _ hx => hx.stopHere)⟩
  | eWfi => exact ⟨_, rfl, h.sysOp fun _ _ h => .some (h.modEddyOk fun _ hx => .ite hx.nextPc.beside hx.beside)⟩
  | eHalt => exact ⟨_, rfl, h.sysOp fun _ _ h => .some (h.modEddyOk fun _ hx => hx.stopHere)⟩
  | eIllegalInstruction =>
    refine ⟨_, rfl, .ite h ?_⟩
    split
    next hw => exact h.fetch.snd hw
    next hw => exact .ite h (h.fetch.snd hw).eddyExc
  | bar2Read => exact ⟨_, rfl, h.bar2Access⟩
  | bar2Write => exact ⟨_, rfl, h.bar2Access⟩
  | ctxCfgWrite => exact ⟨_, rfl, h.mgmt fun _ h => h.ctxCfgWrite⟩
  | ctxDoorbellWrite => exact ⟨_, rfl, h.hostAccess⟩
  | dmaTailWrite => exact ⟨_, rfl, h.mgmt fun _ h => h.dmaTailWrite⟩
  | dmaRingWrite => exact ⟨_, rfl, h.mgmt fun _ h => h.dmaRingWrite⟩
  | dmaDescriptorStart => exact ⟨_, rfl, h.dmaDescStart⟩
  | dmaDescriptorDone => exact ⟨_, rfl, h.dmaDescDone⟩
  | hostPortReset => exact ⟨_, rfl, h.hostPortReset⟩
  | pciePerstNRelease => exact ⟨_, rfl, h.beside⟩
  | frozenReadTimeout => exact ⟨_, rfl, h.frozenReadTimeout⟩
  | kcLoadImage => exact ⟨_, rfl, h.kcGo⟩
  | fuseReadDone => exact ⟨_, rfl, h.fuseRead⟩
  | healthRecordRead => exact ⟨_, rfl, h.healthRead⟩
  | abbreviatedSegmentDone => exact ⟨_, rfl, h.abbrevDone⟩
  | loadHeaderRead => exact ⟨_, rfl, h.headerRead⟩
  | loadPassAEnd => exact ⟨_, rfl, h.passAEnd⟩
  | loadIdleFillEnd => exact ⟨_, rfl, h.idleFillEnd⟩
  | loadPassBEnd => exact ⟨_, rfl, h.passBEnd⟩
  | loadChecksEnd => exact ⟨_, rfl, h.checksEnd⟩
  | lockWaitEnd => exact ⟨_, rfl, h.lockWaitEnd⟩
  | lockWaitTimeout => exact ⟨_, rfl, h.lockWaitTimeout⟩
  | setResetReleaseDone => exact ⟨_, rfl, h.setResetDone⟩
  | writeEnableDone => exact ⟨_, rfl, h.writeEnableDone⟩
  | outputReleaseDone => exact ⟨_, rfl, h.outputReleaseDone⟩
  | deviceTimerExpire => exact ⟨_, rfl, h.dtmrExpire⟩
  | dtmrCfgWrite => exact ⟨_, rfl, h.awake fun _ h => h.dtmrWrite⟩
  | ldrClaimQWrite => exact ⟨_, rfl, h.mgmt fun _ h => h.claimQWrite⟩
  | kcWriteSlotData => exact ⟨_, rfl, h.kcGo⟩
  | kcWriteSlotErase => exact ⟨_, rfl, h.kcGo⟩
  | kcWriteSlotBoot => exact ⟨_, rfl, h.kcGo⟩
  | slotWriteDone => exact ⟨_, rfl, h.slotWriteDone⟩
  | kcSetLifecycle => exact ⟨_, rfl, h.kcGo⟩
  | lifecycleTransitionDone => exact ⟨_, rfl, h.transitionDone⟩
  | kcUnfreeze => exact ⟨_, rfl, h.kcGo⟩
  | kcSetRoot => exact ⟨_, rfl, h.kcGo⟩
  | kcWriteRoutesEntries => exact ⟨_, rfl, h.kcGo⟩
  | kcWriteRoutesApply => exact ⟨_, rfl, h.kcGo⟩
  | routesApplyDrained => exact ⟨_, rfl, h.applyDrained⟩
  | kcKeyLoad => exact ⟨_, rfl, h.kcGo⟩
  | kcBgTestOn => exact ⟨_, rfl, h.kcGo⟩
  | kcBgTestOff => exact ⟨_, rfl, h.kcGo⟩
  | kcHbmSweep => exact ⟨_, rfl, h.kcGo⟩
  | hbmSweepDone => exact ⟨_, rfl, h.sweepDone⟩
  | kcRawModeEnter => exact ⟨_, rfl, h.kcGo⟩
  | kcZeroise => exact ⟨_, rfl, h.kcGo⟩
  | kcShutdown => exact ⟨_, rfl, h.kcGo⟩
  | kcUnassigned => exact ⟨_, rfl, h.kcGo⟩
  | mbxLockoutEnd => exact ⟨_, rfl, h.lockoutEnd⟩
  | mbxCounterStored => exact ⟨_, rfl, h.counterStored⟩
  | mbxCtrLoRead => exact ⟨_, rfl, .ite h h.readHalves⟩
  | lcFloorLoRead => exact ⟨_, rfl, .ite h (.ite h.readHalves h.readHalves)⟩
  | tamperNAssert => exact ⟨_, rfl, h.tamper⟩
  | vbatLoss => exact ⟨_, rfl, h.vbatLoss⟩
  | tamperTemperature => exact ⟨_, rfl, h.tamper⟩
  | vccHubExcursion => exact ⟨_, rfl, h.hubExcursion⟩
  | refclkSysLoss => exact ⟨_, rfl, h.refclkSysLoss⟩
  | frzPopWrite => exact ⟨_, rfl, h.mgmt fun _ h => h.frzPop⟩
  | scrubFrame => exact ⟨_, rfl, h.scrubFrame⟩
  | scrubPriorityRewrite => exact ⟨_, rfl, h.scrubPriority⟩
  | frameRewriteApply => exact ⟨_, rfl, h.applyRewrite⟩
  | scrCfgPeerCheck => exact ⟨_, rfl, h.peerCheck⟩
  | scrubWatchdog => exact ⟨_, rfl, h.scrubWatchdog⟩
  | scrCfgWrite => exact ⟨_, rfl, h.mgmt fun _ h => h.viaPath fun _ h => h.scrCfgWrite⟩
  | readbackRead => exact ⟨_, rfl, h.readback⟩
  | repXlatQWrite => exact ⟨_, rfl, h.mgmt fun _ h => h.viaPath fun _ h => h.xlat⟩
  | testRawApply => exact ⟨_, rfl, h.mgmt fun _ h => h.rawApply⟩
  | trcCmdStart => exact ⟨_, rfl, h.mgmt fun _ h => h.traceStart⟩
  | trcCmdStop => exact ⟨_, rfl, h.mgmt fun _ h => h.traceStop⟩
  | traceStopDone => exact ⟨_, rfl, h.traceStopDone⟩
  | trcCmdSnapNow => exact ⟨_, rfl, h.mgmt fun _ h => h.snapNow⟩
  | trcCmdSnapArm => exact ⟨_, rfl, h.mgmt fun _ h => h.snapArm⟩
  | snapshotDone => exact ⟨_, rfl, h.snapDone⟩
  | trcCmdExportOn => exact ⟨_, rfl, h.mgmt fun _ h => h.exportOn⟩
  | trcCmdExportOff => exact ⟨_, rfl, h.mgmt fun _ h => h.exportOff⟩
  | trcCmdResetRing => exact ⟨_, rfl, h.mgmt fun _ h => h.resetRing⟩
  | trcCmdReserved => exact ⟨_, rfl, h.mgmt fun _ h => h.traceReserved⟩
  | traceRecordWrite => exact ⟨_, rfl, h.recordWrite⟩
  | trcProbeWrite => exact ⟨_, rfl, h.mgmt fun _ h => h.viaPath fun _ h => h.probeWrite⟩
  | trcRingPoolWrite => exact ⟨_, rfl, h.mgmt fun _ h => h.ringPoolWrite⟩
  | thermalRead => exact ⟨_, rfl, h.awake fun _ h => h.thermalRead⟩
  | hbmSupplyFault => exact ⟨_, rfl, h.awake fun _ h => h.hbmSupplyFault⟩
  | smbSetOffset => exact ⟨_, rfl, h.awake fun _ h => h.smbSetOffset⟩
  | smbBlockRead => exact ⟨_, rfl, h.awake fun _ h => h.smbBlockRead⟩
  | smbOtherCommand => exact ⟨_, rfl, h.awake fun _ h => h.smbOther⟩
  | jtagIdcode => exact ⟨_, rfl, h.tapSelect⟩
  | jtagSamplePreload => exact ⟨_, rfl, h.tapScan⟩
  | jtagExtest => exact ⟨_, rfl, h.tapScan⟩
  | jtagHighz => exact ⟨_, rfl, h.tapHold⟩
  | jtagClamp => exact ⟨_, rfl, h.tapHold⟩
  | jtagExtestPulse => exact ⟨_, rfl, h.tapScan⟩
  | jtagExtestTrain => exact ⟨_, rfl, h.tapScan⟩
  | jtagPrivate => exact ⟨_, rfl, h.tapPrivate⟩
  | jtagBypass => exact ⟨_, rfl, h.tapSelect⟩
  | readClear => exact ⟨_, rfl, h.hostRead⟩
  | registerWrite => exact ⟨_, rfl, h.hostWrite⟩
  | gioHoldExpire => exact ⟨_, rfl, h.beside⟩
  | pstComplete => exact ⟨_, rfl, h.pstComplete⟩
  | slotEraseDone => exact ⟨_, rfl, h.slotEraseDone⟩
  | keyStored => exact ⟨_, rfl, h.keyStored⟩
  | railsInRange => exact ⟨_, rfl, h.railsInRange⟩
  | hostLinkUp => exact ⟨_, rfl, h.hostLinkUp⟩

end


/-! ### Step -/

/-- A step leads to a next state, whose stores and tables keep the canonical form. -/
theorem step_canon (s : State) : ∃ t, step s = .next t ∧ Canon { s with pending := s.pending.tail } t := by
  unfold step
  split
  next => exact ⟨s, rfl, id, id⟩
  next hs =>
    simp only [hs, List.tail_cons]
    exact (Canon.refl _).exec

/-- Settles O6: no command loses the canonical form of the stores or of the tables (`step_canon`). -/
theorem storesInvariant : Obligations.StoresInvariant := by
  unfold Obligations.StoresInvariant
  refine ⟨fun s t hok hst => ?_, fun s t hok hst => ?_⟩
  all_goals
    obtain ⟨u, hu, hk⟩ := step_canon s
    obtain rfl : u = t := Host.Outcome.next.inj (hu.symm.trans hst)
  · exact hk.stores hok
  · exact hk.tables hok

end Sys2Proof.Machine
end

section
/-! SUPPORT. Single bits, tiles and the storage of tiles: what is read back after a write, and what the acknowledges of stages and the
rails of cells keep of every tile (R41, R45). -/

namespace Sys2Proof.Machine

/-! ### Single bits -/

theorem ofNat_two_pow (n i : Nat) : BitVec.ofNat n (2 ^ i) = BitVec.twoPow n i :=
  BitVec.eq_of_toNat_eq (by rw [BitVec.toNat_ofNat, BitVec.toNat_twoPow])

section
variable {n : Nat} (x : BitVec n) (i j : Nat)

/-- A bit that is clear is set by adding it: no carry arises. -/
theorem setBit_true_eq (h : bitAt x i = false) : setBit x i true = x ||| BitVec.twoPow n i := by
  have hx : x &&& BitVec.twoPow n i = 0#n := by
    rw [BitVec.and_twoPow, if_neg (by simpa [bitAt_eq_getLsbD] using h)]
  rw [setBit, h, if_neg (by decide), if_pos rfl, BitVec.ofNat_add, ofNat_two_pow, BitVec.ofNat_toNat, BitVec.setWidth_eq,
    BitVec.add_eq_or_of_and_eq_zero _ _ hx]

/-- A bit that is set is cleared by taking it away: no borrow arises. -/
theorem setBit_false_eq (h : bitAt x i = true) : setBit x i false = x &&& ~~~BitVec.twoPow n i := by
  have hi : i < n := by
    rw [bitAt_eq_getLsbD] at h
    exact BitVec.lt_of_getLsbD h
  have hn : 2 ^ i ≤ x.toNat := by
    rw [bitAt_eq_getLsbD, BitVec.getLsbD] at h
    exact Nat.ge_two_pow_of_testBit h
  have hx : (x &&& ~~~BitVec.twoPow n i) &&& BitVec.twoPow n i = 0#n := by
    ext k hk
    simp
  have hs : (x &&& ~~~BitVec.twoPow n i) ||| BitVec.twoPow n i = x := by
    rw [bitAt_eq_getLsbD] at h
    ext k hk
    by_cases hik : i = k
    · subst hik
      simpa [hi, BitVec.getLsbD_eq_getElem hi] using h
    · simp [Ne.symm hik]
  rw [setBit, h, if_neg (by decide), if_neg (by decide), ← BitVec.ofNat_sub_ofNat_of_le _ _ (lt_of_le_of_lt hn x.isLt) hn,
    BitVec.ofNat_toNat, BitVec.setWidth_eq, ofNat_two_pow, BitVec.sub_eq_iff_eq_add, BitVec.add_eq_or_of_and_eq_zero _ _ hx, hs]

/-- The bits after one is written: no bit beyond the width is. -/
theorem bitAt_setBit (b : Bool) : bitAt (setBit x i b) j = if i = j ∧ j < n then b else bitAt x j := by
  by_cases hb : bitAt x i = b
  · rw [setBit, if_pos hb]
    split
    next hij => exact hij.1 ▸ hb
    next => rfl
  by_cases hj : j < n
  · cases b with
    | true =>
      rw [setBit_true_eq x i (by simpa using hb)]
      rcases eq_or_ne j i with rfl | hij
      · simp [bitAt_eq_getLsbD, hj]
      · simp [bitAt_eq_getLsbD, hij, hij.symm, hj]
    | false =>
      rw [setBit_false_eq x i (by simpa using hb)]
      rcases eq_or_ne j i with rfl | hij
      · simp [bitAt_eq_getLsbD, hj]
      · simp [bitAt_eq_getLsbD, hij, hij.symm, hj]
  · simp [bitAt_eq_getLsbD, BitVec.getLsbD_of_ge _ _ (not_lt.mp hj), hj]

theorem bitAt_setBit_of_lt (hi : i < n) (b : Bool) : bitAt (setBit x i b) i = b := by simp [bitAt_setBit, hi]

theorem bitAt_setBit_ne (h : i ≠ j) (b : Bool) : bitAt (setBit x i b) j = bitAt x j := by simp [bitAt_setBit, h]

end

/-! ### Tiles -/

/-- Every value of a rewritten bank is the rewritten one, where the rule keeps the default. -/
theorem mget_mmap {α : Type} [DecidableEq α] {d : Nat → α} {f : Nat → α → α} {m : SMap α} {k b : Nat} (hm : mrising b m = true)
    (hd : f k (d k) = d k) : mget d (mmap d f m) k = f k (mget d m k) := by
  induction m generalizing b with
  | nil => exact hd.symm
  | cons p m ih =>
    obtain ⟨i, w⟩ := p
    simp only [mrising, Bool.and_eq_true, decide_eq_true_eq] at hm
    unfold mmap
    by_cases hi : i = k
    · subst hi
      by_cases hw : f i w = d i
      · have hl : mget d m i = d i := mget_low d m (i + 1) i hm.2 (by omega)
        simp only [mget, if_pos hw, if_true]
        rw [ih hm.2, hl, hd, hw]
      · simp [mget, hw]
    · have hr := ih hm.2
      by_cases hw : f i w = d i <;> simp [mget, hw, hi, hr]

theorem mwf_rising {α : Type} [DecidableEq α] {d : Nat → α} {m : SMap α} (h : mwf d m = true) : mrising 0 m = true := by
  simp only [mwf, Bool.and_eq_true] at h
  exact h.1

theorem fFree_idleFrame : fFree idleFrame = false := by decide +kernel

theorem initQ_idleFrame : initQ idleFrame = 0#64 := by decide +kernel

section
variable {s t : State} {a u : Nat} {ps : List Part}

theorem StoresOk.tiles (h : StoresOk s) : mwf dTile s.fab.tiles = true := by
  obtain ⟨ht, -⟩ := h
  exact ht

theorem StoresOk.setTile (h : StoresOk s) {x : Tile} : StoresOk (setTile a x s) := (Canon.refl s).setTile.stores h

theorem StoresOk.endSpoilt (h : StoresOk s) : StoresOk (endSpoilt s) := (Canon.refl s).endSpoilt.stores h

theorem getTile_setTile (h : StoresOk s) {x : Tile} : getTile (setTile a x s) u = if a = u then x else getTile s u :=
  mget_mset dTile s.fab.tiles a u x (mwf_rising h.tiles)

theorem getTile_setTile_self (h : StoresOk s) {x : Tile} : getTile (setTile a x s) a = x := by rw [getTile_setTile h, if_pos rfl]

theorem getTile_mapTiles (h : StoresOk s) {f : Nat → Tile → Tile} (hd : f u (dTile u) = dTile u) :
    getTile (mapTiles f s) u = f u (getTile s u) := mget_mmap (mwf_rising h.tiles) hd

@[simp] theorem getTile_endSpoilt : getTile (endSpoilt s) u = getTile s u := rfl

/-- The acknowledge bits of a tile follow their sources; nothing else of a tile changes with them. -/
theorem getTile_refreshAcks (h : StoresOk s) :
    getTile (refreshAcks s) u = { getTile s u with ackC := (getTile (refreshAcks s) u).ackC } := by
  have hr : getTile (refreshAcks s) u = _ := getTile_mapTiles h (if_neg (by simp [dTile, fFree_idleFrame]))
  rw [hr]
  split <;> rfl

theorem OnlyParts.setTile (h : OnlyParts ps s t) {x : Tile} (hp : Part.fab ∈ ps) : OnlyParts ps s (setTile a x t) := h.fab hp

theorem OnlyParts.mapTiles (h : OnlyParts ps s t) {f : Nat → Tile → Tile} (hp : Part.fab ∈ ps) :
    OnlyParts ps s (mapTiles f t) := h.fab hp

theorem OnlyParts.refreshAcks (h : OnlyParts ps s t) (hp : Part.fab ∈ ps) : OnlyParts ps s (refreshAcks t) := h.mapTiles hp

theorem OnlyParts.endSpoilt (h : OnlyParts ps s t) (hp : Part.fab ∈ ps) : OnlyParts ps s (endSpoilt t) := h.fab hp

theorem OnlyParts.latchFirst (h : OnlyParts ps s t) {o : Nat} {v : Word} (hp : Part.regs ∈ ps) :
    OnlyParts ps s (latchFirst o v t) := by
  unfold Machine.latchFirst
  split
  exacts [h, h.setReg hp]

end

/-! ### Rails of cells -/

/-- The rails of a tile's cell outputs. -/
def cellRails (x : Tile) : BitVec 32 × BitVec 32 × BitVec 32 × BitVec 32 × BitVec 32 × BitVec 32 :=
  (x.oaT, x.oaF, x.obT, x.obF, x.coT, x.coF)

theorem lcIllegal_congr {x y : Tile} (h : cellRails x = cellRails y) (n : Nat) : lcIllegal x n = lcIllegal y n := by
  simp only [cellRails, Prod.mk.injEq] at h
  obtain ⟨h1, h2, h3, h4, h5, h6⟩ := h
  simp only [lcIllegal, h1, h2, h3, h4, h5, h6]

/-- Two tiles differ at most in what they hold for the tick's end. -/
def HeldOnly (x y : Tile) : Prop := y = { x with held := y.held, heldEn := y.heldEn }

theorem HeldOnly.refl (x : Tile) : HeldOnly x x := rfl

theorem HeldOnly.trans {x y z : Tile} (h : HeldOnly x y) (h' : HeldOnly y z) : HeldOnly x z := by
  unfold HeldOnly at *
  rw [h', h]

/-- Holding the input of an element changes its held inputs alone. -/
theorem HeldOnly.holdElem {s : State} {a e : Nat} {x y : Tile} (h : HeldOnly x y) : HeldOnly x (holdElem s a e y) := by
  refine h.trans ?_
  have hin : HeldOnly y (if (elemIn s a e).valid then { y with held := setBit y.held e (elemIn s a e).high } else y) := by
    split <;> rfl
  unfold Machine.holdElem
  split
  · rfl
  · refine hin.trans ?_
    dsimp only
    generalize (if (elemIn s a e).valid = true then _ else y : Tile) = z
    cases elemEnLine z.frame e with
    | none => rfl
    | some l =>
      dsimp only
      split <;> rfl

theorem HeldOnly.rails {x y : Tile} (h : HeldOnly x y) : cellRails y = cellRails x := by
  rw [h]
  rfl

/-- From `a` to `s` rails of no cell changed, and no more than the fabric and registers. -/
structure RailsKept (a s : State) : Prop where
  ok : StoresOk s
  rails : ∀ u, cellRails (getTile s u) = cellRails (getTile a u)
  parts : OnlyParts [.fab, .regs] a s

section
variable {a s : State} (h : RailsKept a s)
include h

theorem RailsKept.countRail {t c p : Nat} : RailsKept a (countRail t c p s) := by
  unfold Machine.countRail
  dsimp only
  split
  · exact h
  · refine ⟨((Canon.refl s).setTile.bump.latchFirst).stores h.ok, fun u => ?_,
      ((h.parts.setTile (by simp)).bump (by simp)).latchFirst (by simp)⟩
    rw [getTile, latchFirst_fab, bump_fab]
    change cellRails (getTile (Machine.setTile _ _ s) u) = _
    rw [getTile_setTile h.ok, ← h.rails u]
    split
    next ht => subst ht; rfl
    next => rfl

/-- Counting the illegal codes that clusters monitor leaves what the cells drive. -/
theorem RailsKept.countRails : RailsKept a (countRails s) := by
  refine forEach_keeps (RailsKept a) _ (fun p t ht => ?_) _ _ h
  split
  · exact ht
  · refine forEach_keeps (RailsKept a) _ (fun c t ht => ?_) _ _ ht
    split
    exacts [ht.countRail, ht]

end

end Sys2Proof.Machine
end

section
/-! SETTLED. LC_EVALUATE (R47–R50): what a cell drives for the inputs that it sees. -/

namespace Sys2Proof.Machine

/-! ### A value on an output -/

section
variable {n k : Nat} {t f : BitVec 32} {b : Bool} {v : Option Bool}

/-- An output at spacer goes valid with the value: one rail rises. -/
theorem raise_value (hn : n < 32) (ht : bitAt t n = false) (hf : bitAt f n = false) :
    bitAt (raise (some b) n t f).1 n = b ∧ bitAt (raise (some b) n t f).2 n = !b := by
  cases b with
  | true => exact ⟨bitAt_setBit_of_lt t n hn true, hf⟩
  | false => exact ⟨ht, bitAt_setBit_of_lt f n hn true⟩

/-- An output whose value may be missing: it goes valid with the value, or stays. -/
theorem raise_eq {t' f' : BitVec 32} (h : (t', f') = raise v n t f) (hn : n < 32) :
    (∀ b, v = some b → bitAt t n = false → bitAt f n = false → bitAt t' n = b ∧ bitAt f' n = !b) ∧
    (v = none → t' = t ∧ f' = f) := by
  refine ⟨fun b hb ht hf => ?_, fun hv => ?_⟩
  · subst hb
    have hr := raise_value (b := b) hn ht hf
    rwa [← h] at hr
  · subst hv
    exact Prod.mk.inj h

/-- Two outputs at spacer that take the same value show the same. -/
theorem raise_same {t' f' u u' g g' : BitVec 32} (h : (t', f') = raise v n t f) (h' : (u', g') = raise v n u g) (hn : n < 32)
    (ht : bitAt t n = false) (hf : bitAt f n = false) (hu : bitAt u n = false) (hg : bitAt g n = false) :
    bitAt t' n = bitAt u' n ∧ bitAt f' n = bitAt g' n := by
  cases v with
  | none =>
    obtain ⟨rfl, rfl⟩ := (raise_eq h hn).2 rfl
    obtain ⟨rfl, rfl⟩ := (raise_eq h' hn).2 rfl
    exact ⟨ht.trans hu.symm, hf.trans hg.symm⟩
  | some b =>
    obtain ⟨h1, h2⟩ := (raise_eq h hn).1 b rfl ht hf
    obtain ⟨h3, h4⟩ := (raise_eq h' hn).1 b rfl hu hg
    exact ⟨h1.trans h3.symm, h2.trans h4.symm⟩

/-- No rail falls (R41). -/
theorem raise_keeps : (bitAt t k = true → bitAt (raise v n t f).1 k = true) ∧
    (bitAt f k = true → bitAt (raise v n t f).2 k = true) := by
  have hs (x : BitVec 32) (h : bitAt x k = true) : bitAt (setBit x n true) k = true := by
    rw [bitAt_setBit]
    split
    exacts [rfl, h]
  match v with
  | none => exact ⟨id, id⟩
  | some true => exact ⟨hs t, id⟩
  | some false => exact ⟨id, hs f⟩

end

/-! ### The outputs in each mode (R49) -/

section
variable {f : Frame} {n : Nat} {ins : List Rail} {cin : Rail}

/-- Input `k` of a cell. -/
abbrev inAt (ins : List Rail) (k : Nat) : Rail := ins.getD k .spacer

/-- The inputs named are valid. -/
abbrev insValid (ins : List Rail) (l : List Nat) : Bool := l.all fun k => (inAt ins k).valid

/-- The function FA of a cell: of its inputs I0 to I4 (R48). -/
abbrev faOf (f : Frame) (n : Nat) (ins : List Rail) : Bool :=
  fLut f n (lutIdx [inAt ins 0, inAt ins 1, inAt ins 2, inAt ins 3, inAt ins 4])

/-- The function FB of a cell: of its inputs I0 to I3 and I5 (R48). -/
abbrev fbOf (f : Frame) (n : Nat) (ins : List Rail) : Bool :=
  fLut f n (32 + lutIdx [inAt ins 0, inAt ins 1, inAt ins 2, inAt ins 3, inAt ins 5])

/-- COUT of an ARITH cell whose propagate inputs are valid. -/
def arithCarry (f : Frame) (n : Nat) (ins : List Rail) (cin : Rail) : Option Bool :=
  if faOf f n ins then (if cin.valid then some cin.high else none)
  else if (inAt ins 5).valid then some (fbOf f n ins) else none

theorem lcOut_lut6 (h : fMode f n = 1) : lcOut f n ins cin = (if insValid ins [0, 1, 2, 3, 4, 5] then
    some (fLut f n (lutIdx [inAt ins 0, inAt ins 1, inAt ins 2, inAt ins 3, inAt ins 4, inAt ins 5])) else none, none, none) := by
  dsimp only [lcOut]
  rw [if_pos h]

theorem lcOut_dual5 (h : fMode f n = 2) : lcOut f n ins cin = (if insValid ins [0, 1, 2, 3, 4] then some (faOf f n ins) else none,
    if insValid ins [0, 1, 2, 3, 5] then some (fbOf f n ins) else none, none) := by
  dsimp only [lcOut]
  rw [if_neg (by omega), if_pos h]

theorem lcOut_arith (h : fMode f n = 3) : lcOut f n ins cin =
    (if insValid ins [0, 1, 2, 3, 4] && cin.valid then some (faOf f n ins != cin.high) else none,
     if insValid ins [0, 1, 2, 3, 4] then arithCarry f n ins cin else none,
     if insValid ins [0, 1, 2, 3, 4] then arithCarry f n ins cin else none) := by
  dsimp only [lcOut, arithCarry]
  rw [if_neg (by omega), if_neg (by omega), if_pos h]

/-- Where it is generated the carry is G, without CIN; where it is propagated it is CIN; else it is missing. -/
theorem arithCarry_generate (hp : faOf f n ins = false) (h : (inAt ins 5).valid = true) :
    arithCarry f n ins cin = some (fbOf f n ins) := by simp only [arithCarry, hp, h, Bool.false_eq_true, if_false, if_true]

theorem arithCarry_propagate (hp : faOf f n ins = true) (h : cin.valid = true) : arithCarry f n ins cin = some cin.high := by
  simp only [arithCarry, hp, h, if_true]

theorem arithCarry_missing (h : (if faOf f n ins = true then cin.valid else (inAt ins 5).valid) = false) :
    arithCarry f n ins cin = none := by
  unfold arithCarry
  cases hp : faOf f n ins with
  | true =>
    rw [if_pos hp] at h
    rw [if_pos rfl, if_neg (ne_true_of_eq_false h)]
  | false =>
    rw [if_neg (ne_true_of_eq_false hp)] at h
    rw [if_neg (by decide), if_neg (ne_true_of_eq_false h)]

end

/-! ### The tile after the evaluation -/

section
variable {s : State} {a n : Nat}

/-- A tick-bound tile in which cell `n` has taken what its inputs make of it. -/
def evalTile (s : State) (a n : Nat) : Tile :=
  let x := getTile s a
  let o := lcOut x.frame n (lcIns s a n) (cinRail s a n)
  { x with oaT := (raise o.1 n x.oaT x.oaF).1, oaF := (raise o.1 n x.oaT x.oaF).2
           obT := (raise o.2.1 n x.obT x.obF).1, obF := (raise o.2.1 n x.obT x.obF).2
           coT := (raise o.2.2 n x.coT x.coF).1, coF := (raise o.2.2 n x.coT x.coF).2 }

theorem lcBack_tickBound (hf : fFree (frameOf s a) = false) (out : Nat) : lcBack s a n out = false := by simp [lcBack, hf]

/-- The tile of a cell that is evaluated: in a data wave it also holds the inputs of the cell's two elements (R54). -/
def evalHeld (s : State) (a n : Nat) : State :=
  let w := setTile a (evalTile s a n) s
  if waveOn w then setTile a (holdElem w a (2 * n + 1) (holdElem w a (2 * n) (getTile w a))) w else w

/-- In a tick-bound cell tile outside GSR no output returns to spacer. -/
theorem lcEval_tickBound (hg : gsrOn s (tSec a) = false) (hh : hostOf s a = .none) (hf : fFree (frameOf s a) = false) :
    lcEval a n s = refreshAcks (endSpoilt (evalHeld s a n)) := by
  simp only [lcEval, hg, hh, lcBack_tickBound hf, Bool.false_eq_true, if_false, bne_self_eq_false]
  rfl

theorem evalHeld_spec (hs : StoresOk s) :
    StoresOk (evalHeld s a n) ∧ HeldOnly (evalTile s a n) (getTile (evalHeld s a n) a) ∧
    (∀ u, u ≠ a → getTile (evalHeld s a n) u = getTile s u) ∧ OnlyParts [.fab] s (evalHeld s a n) := by
  have hw : StoresOk (setTile a (evalTile s a n) s) := hs.setTile
  have hp : OnlyParts [.fab] s (setTile a (evalTile s a n) s) := OnlyParts.refl.setTile (by simp)
  have ho (u : Nat) (hu : u ≠ a) := getTile_setTile_ne s a u (evalTile s a n) hu.symm
  have ha : getTile (setTile a (evalTile s a n) s) a = evalTile s a n := getTile_setTile_self hs
  unfold evalHeld
  dsimp only
  split
  · refine ⟨hw.setTile, ?_, fun u hu => (getTile_setTile_ne _ a u _ hu.symm).trans (ho u hu), hp.setTile (by simp)⟩
    rw [getTile_setTile_self hw, ha]
    exact (HeldOnly.refl _).holdElem.holdElem
  · exact ⟨hw, by rw [ha]; exact .refl _, ho, hp⟩

/-- Of the cell's own tile only outputs, held inputs and acknowledges change; of every other tile only acknowledges. -/
theorem lcEval_spec (hs : StoresOk s) (hg : gsrOn s (tSec a) = false) (hh : hostOf s a = .none)
    (hf : fFree (frameOf s a) = false) :
    StoresOk (lcEval a n s) ∧ cellRails (getTile (lcEval a n s) a) = cellRails (evalTile s a n) ∧
    (∀ u, u ≠ a → getTile (lcEval a n s) u = { getTile s u with ackC := (getTile (lcEval a n s) u).ackC }) ∧
    OnlyParts [.fab] s (lcEval a n s) := by
  obtain ⟨hv, hx, ho, hp⟩ := evalHeld_spec (a := a) (n := n) hs
  have hr (u : Nat) := getTile_refreshAcks (u := u) hv.endSpoilt
  rw [lcEval_tickBound hg hh hf]
  refine ⟨(Canon.refl _).refreshAcks.stores hv.endSpoilt, ?_, fun u hu => ?_, (hp.endSpoilt (by simp)).refreshAcks (by simp)⟩
  · rw [hr, ← hx.rails]
    rfl
  · rw [hr, getTile_endSpoilt, ho u hu]

/-- What LC_EVALUATE leaves: the rails of `evalTile`, and, unless an output is illegal, no more than `lcEval_spec` says. -/
theorem lcEvaluate_spec (hs : StoresOk s) (hg : gsrOn s (tSec a) = false) (hh : hostOf s a = .none)
    (hf : fFree (frameOf s a) = false) :
    cellRails (getTile (lcEvaluate a n s) a) = cellRails (evalTile s a n) ∧
    (lcIllegal (getTile (lcEvaluate a n s) a) n = false →
      (∀ u, u ≠ a → getTile (lcEvaluate a n s) u = { getTile s u with ackC := (getTile (lcEvaluate a n s) u).ackC }) ∧
      OnlyParts [.fab] s (lcEvaluate a n s)) ∧
    OnlyParts [.fab, .regs] s (lcEvaluate a n s) := by
  obtain ⟨hok, hx, ho, hp⟩ := lcEval_spec (n := n) hs hg hh hf
  have hk : RailsKept (lcEval a n s) (countRails (lcEval a n s)) := RailsKept.countRails ⟨hok, fun _ => rfl, .refl⟩
  unfold lcEvaluate
  dsimp only
  split
  next hi =>
    refine ⟨(hk.rails a).trans hx, fun hn => ?_, (hp.mono (by simp)).trans hk.parts⟩
    rw [lcIllegal_congr (hk.rails a), hi] at hn
    cases hn
  next => exact ⟨hx, fun _ => ⟨ho, hp⟩, hp.mono (by simp)⟩

/-- The rails of a cell after the evaluation, output by output. -/
theorem lcEvaluate_rails (hs : StoresOk s) (hg : gsrOn s (tSec a) = false) (hh : hostOf s a = .none)
    (hf : fFree (frameOf s a) = false) {oa ob co : Option Bool}
    (ho : lcOut (frameOf s a) n (lcIns s a n) (cinRail s a n) = (oa, ob, co)) :
    ((getTile (lcEvaluate a n s) a).oaT, (getTile (lcEvaluate a n s) a).oaF) = raise oa n (getTile s a).oaT (getTile s a).oaF ∧
    ((getTile (lcEvaluate a n s) a).obT, (getTile (lcEvaluate a n s) a).obF) = raise ob n (getTile s a).obT (getTile s a).obF ∧
    ((getTile (lcEvaluate a n s) a).coT, (getTile (lcEvaluate a n s) a).coF) = raise co n (getTile s a).coT (getTile s a).coF := by
  obtain ⟨hr, -⟩ := lcEvaluate_spec (n := n) hs hg hh hf
  change lcOut (getTile s a).frame n _ _ = _ at ho
  simp only [cellRails, evalTile, ho, Prod.mk.injEq] at hr
  obtain ⟨h1, h2, h3, h4, h5, h6⟩ := hr
  exact ⟨Prod.ext h1 h2, Prod.ext h3 h4, Prod.ext h5 h6⟩

/-- The six inputs of a cell, one by one. -/
theorem lcIns_eq (s : State) (a n : Nat) : lcIns s a n = [inAt (lcIns s a n) 0, inAt (lcIns s a n) 1, inAt (lcIns s a n) 2,
    inAt (lcIns s a n) 3, inAt (lcIns s a n) 4, inAt (lcIns s a n) 5] := rfl

theorem lcIns_valid (s : State) (a n : Nat) : (lcIns s a n).all Rail.valid = insValid (lcIns s a n) [0, 1, 2, 3, 4, 5] := rfl

/-- COUT of an ARITH cell shows the value on its two rails. -/
theorem coutRail_arith {j : Nat} (h : fMode (frameOf s a) j = 3) :
    (coutRail s a j = .v1 ↔ bitAt (getTile s a).coT j = true ∧ bitAt (getTile s a).coF j = false) ∧
    (coutRail s a j = .v0 ↔ bitAt (getTile s a).coT j = false ∧ bitAt (getTile s a).coF j = true) := by
  have hc : coutRail s a j = railOfTF (bitAt (getTile s a).coT j) (bitAt (getTile s a).coF j) := if_pos h
  rw [hc]
  cases bitAt (getTile s a).coT j <;> cases bitAt (getTile s a).coF j <;> decide

end

/-- Settles O13: `lcEvaluate_rails` says which rails rise, `lcOut` in each mode with which value, and `lcEvaluate_spec` what else
changes. -/
theorem logicCell : Obligations.LogicCell := by
  unfold Obligations.LogicCell
  intro s tile n hs hh hg hf
  refine gives_of_exec rfl ?_
  change (fun t => _) (lcEvaluate tile.toNat n s)
  have hn : n.val < 32 := n.isLt
  obtain ⟨-, hi, hp⟩ := lcEvaluate_spec (n := n) hs hg hh hf
  have hr {oa ob co : Option Bool} := lcEvaluate_rails (n := n) (oa := oa) (ob := ob) (co := co) hs hg hh hf
  generalize lcEvaluate tile.toNat n s = t at *
  dsimp only
  refine ⟨fun hm hv ht hF => ?_, fun hm hv => ?_, ⟨fun hm => ?_, fun hm => ?_, fun hj hm => ?_⟩, fun k hk => ?_,
    fun k hk => ?_, hi, hp⟩
  · obtain ⟨ha, -⟩ := hr (lcOut_lut6 hm)
    rw [lcIns_valid] at hv
    exact (raise_eq ha hn).1 _ (if_pos hv) ht hF
  · obtain ⟨ha, -⟩ := hr (lcOut_lut6 hm)
    rw [lcIns_valid] at hv
    exact (raise_eq ha hn).2 (if_neg (ne_true_of_eq_false hv))
  · obtain ⟨ha, hb, -⟩ := hr (lcOut_dual5 hm)
    refine ⟨fun hv => (raise_eq ha hn).1 _ (if_pos hv), fun hv => (raise_eq hb hn).1 _ (if_pos hv), fun hv => ?_, fun hv => ?_⟩
    · exact ((raise_eq ha hn).2 (if_neg (ne_true_of_eq_false hv))).1
    · exact ((raise_eq hb hn).2 (if_neg (ne_true_of_eq_false hv))).1
  · obtain ⟨ha, hb, hc⟩ := hr (lcOut_arith hm)
    refine ⟨fun hv hC => (raise_eq ha hn).1 _ (if_pos (Bool.and_eq_true_iff.mpr ⟨hv, hC⟩)), fun hv hT hF => ?_, fun hv => ?_⟩
    · rw [if_pos hv] at hb hc
      have hco := raise_eq hc hn
      refine ⟨fun hP h5 => hco.1 _ (arithCarry_generate hP h5) hT hF, fun hP hC => hco.1 _ (arithCarry_propagate hP hC) hT hF,
        fun hC => ?_, fun hoT hoF => ?_⟩
      · obtain ⟨h1, h2⟩ := hco.2 (arithCarry_missing hC)
        exact ⟨h1 ▸ hT, h2 ▸ hF⟩
      · exact raise_same hb hc hn hoT hoF hT hF
    · have hv' := ne_true_of_eq_false hv
      rw [if_neg hv'] at hb hc
      exact ⟨((raise_eq ha hn).2 (if_neg fun h => hv' (Bool.and_eq_true_iff.mp h).1)).1, ((raise_eq hc hn).2 rfl).1,
        ((raise_eq hb hn).2 rfl).1⟩
  · have hc : cinRail s tile.toNat n = coutRail s tile.toNat (n.val - 1) := if_pos hj
    rw [hc]
    exact coutRail_arith hm
  · obtain ⟨ha, -⟩ := hr rfl
    exact (Prod.mk.inj ha).1 ▸ raise_keeps.1 hk
  · obtain ⟨ha, -⟩ := hr rfl
    exact (Prod.mk.inj ha).2 ▸ raise_keeps.2 hk

end Sys2Proof.Machine
end

section
/-! SETTLED. Tiles' reports (R54, R57, R63, R64, R73, R133), and free-running stages (R43, R44, R57). -/

namespace Sys2Proof.Machine

/-! ### Reports -/

section
variable {s : State} {a : Nat}

/-- A tile that differs from the default reads back whatever the form of the store. -/
theorem getTile_setTile_listed {x : Tile} (h : x ≠ dTile a) : getTile (setTile a x s) a = x :=
  mget_mset_listed dTile s.fab.tiles a x h

theorem HeldOnly.foldl {x : Tile} {f : Tile → Nat → Tile} {l : List Nat} (hf : ∀ y e, HeldOnly x y → HeldOnly x (f y e)) :
    HeldOnly x (l.foldl f x) := by
  have h (y : Tile) (hy : HeldOnly x y) : HeldOnly x (l.foldl f y) := by
    induction l generalizing y with
    | nil => exact hy
    | cons e l ih => exact ih _ (hf _ _ hy)
  exact h x (.refl x)

/-- A cell tile has no port to quiet. -/
theorem quietPort_cell (hh : hostOf s a = .none) : quietPort a s = s := by
  have hq : portQuiet s a = false := by simp [portQuiet, hh, requestLine]
  simp [quietPort, hq]

/-- A cell tile whose clusters are data-complete reports settled, with its last inputs held. -/
theorem tileSettled_cell (hw : waveOn s = true) (hf : fFree (frameOf s a) = false) (hh : hostOf s a = .none)
    (hd : (upTo 4).all (dataComplete s a) = true) (hg : gsrOn s (tSec a) = false) (hu : bitAt s.fab.uv (tSec a) = false) :
    tileSettled a s = if (getTile s a).settled = true then s else
      reportSettled a ((upTo 64).foldl (fun x e => holdElem s a e x) (getTile s a)) s := by
  have hf' : fFree (getTile s a).frame = false := hf
  cases hs : (getTile s a).settled <;> simp [tileSettled, hw, hf', hs, hg, hu, hd, hh, quietPort_cell hh]

theorem reportSettled_spec {x : Tile} : getTile (reportSettled a x s) a = { x with settled := true } ∧
    (∀ u, u ≠ a → getTile (reportSettled a x s) u = getTile s u) ∧ (reportSettled a x s).tick.lastSec = tSec a ∧
    (reportSettled a x s).tick = { s.tick with lastCls := (reportSettled a x s).tick.lastCls
                                               lastSec := (reportSettled a x s).tick.lastSec } ∧
    OnlyParts [.fab, .tick] s (reportSettled a x s) :=
  ⟨getTile_setTile_listed fun h => by simpa [dTile] using congrArg Tile.settled h,
    fun u hu => getTile_setTile_ne _ a u _ hu.symm, rfl, rfl, (OnlyParts.refl.tick (by simp)).setTile (by simp)⟩

/-- Under GSR or undervoltage nothing is reported. -/
theorem tileSettled_withheld (h : gsrOn s (tSec a) = true ∨ bitAt s.fab.uv (tSec a) = true) : tileSettled a s = s := by
  rcases h with h | h <;> simp [tileSettled, h]

theorem tileSpacerComplete_withheld (h : gsrOn s (tSec a) = true ∨ bitAt s.fab.uv (tSec a) = true) :
    tileSpacerComplete a s = s := by
  rcases h with h | h <;> simp [tileSpacerComplete, h]

theorem tileSpacerComplete_run (ht : s.tick.inTick = true) (hs : s.tick.spacer = true) (hf : fFree (frameOf s a) = false)
    (hg : gsrOn s (tSec a) = false) (hu : bitAt s.fab.uv (tSec a) = false)
    (hp : ∀ c < 4, ∀ r ∈ clusterPoints s a c, r = .spacer) :
    tileSpacerComplete a s = setTile a { getTile s a with spacerDone := true } s := by
  have hf' : fFree (getTile s a).frame = false := hf
  have hc : (upTo 4).all (fun c => (clusterPoints s a c).all (fun r => r == .spacer)) = true :=
    List.all_eq_true.mpr fun c hc => List.all_eq_true.mpr fun r hr => beq_iff_eq.mpr (hp c (List.mem_range.mp hc) r hr)
  simp only [tileSpacerComplete, ht, hs, hf', hg, hu, hc, Bool.not_false, Bool.and_self, if_true]

end

/-- Settles O14: the report by `reportSettled_spec`, or the one made before; no report under GSR or undervoltage. -/
theorem tileReports : Obligations.TileReports := by
  unfold Obligations.TileReports
  refine ⟨fun s tile hw hf hh hd hg hu => gives_of_exec rfl ?_, fun s tile h => ⟨gives_of_exec rfl (tileSettled_withheld h),
    gives_of_exec rfl (tileSpacerComplete_withheld h)⟩, fun s tile ht hs hf hg hu hp => gives_of_exec rfl ?_⟩
  · rw [tileSettled_cell hw hf hh hd hg hu]
    split
    next hs => exact ⟨hs, rfl, fun h => absurd (hs.symm.trans h) (by decide), rfl, fun _ _ => rfl, .refl⟩
    next =>
      have hx : HeldOnly (getTile s tile.toNat) ((upTo 64).foldl (fun x e => holdElem s tile.toNat e x) (getTile s tile.toNat)) :=
        .foldl fun y e hy => hy.holdElem
      obtain ⟨ha, ho, hl, ht, hp⟩ := reportSettled_spec (s := s) (a := tile.toNat)
        (x := (upTo 64).foldl (fun x e => holdElem s tile.toNat e x) (getTile s tile.toNat))
      refine ⟨by rw [ha], ?_, fun _ => hl, ht, ho, hp⟩
      rw [ha, hx]
  · rw [tileSpacerComplete_run ht hs hf hg hu hp]
    have ha : getTile (setTile tile.toNat { getTile s tile.toNat with spacerDone := true } s) tile.toNat = _ :=
      getTile_setTile_listed fun h => by simpa [dTile] using congrArg Tile.spacerDone h
    exact ⟨by rw [ha], by rw [ha], fun u hu => getTile_setTile_ne _ _ u _ hu.symm, OnlyParts.refl.setTile (by simp)⟩

/-! ### Free-running stages -/

section
variable {s : State} {a c : Nat}

/-- The elements of a stage with their inputs. -/
def stageQ (s : State) (a : Nat) (es : List Nat) (q : BitVec 64) : BitVec 64 :=
  es.foldl (fun q e => setBit q e (elemIn s a e).high) q

theorem bitAt_stageQ {es : List Nat} {q : BitVec 64} {e : Nat} (he : e < 64) :
    bitAt (stageQ s a es q) e = if e ∈ es then (elemIn s a e).high else bitAt q e := by
  induction es generalizing q with
  | nil => rfl
  | cons d es ih =>
    rw [stageQ, List.foldl_cons, ← stageQ, ih, bitAt_setBit]
    rcases eq_or_ne d e with rfl | hd
    · by_cases hm : d ∈ es <;> simp [hm, he]
    · by_cases hm : e ∈ es <;> simp [hd, hd.symm, hm]

theorem stageElems_lt {f : Frame} {e : Nat} (hc : c < 4) (he : e ∈ stageElems f c) : e < 64 := by
  simp only [stageElems, List.mem_filter, List.mem_map, upTo, List.mem_range] at he
  omega

/-- An empty stage of a cell tile whose inputs are all valid takes them (steps 2 and 3 of R44). -/
theorem frCapture_cell (hf : fFree (frameOf s a) = true) (hh : hostOf s a = .none) (hg : gsrOn s (tSec a) = false)
    (hb : bitAt (getTile s a).frFull c = false) (hk : ackIn s a c = false) (he : stageElems (frameOf s a) c ≠ [])
    (hv : ∀ e ∈ stageElems (frameOf s a) c, (elemIn s a e).valid = true) :
    frCapture a c s = refreshAcks (setTile a { getTile s a with
      q := stageQ s a (stageElems (frameOf s a) c) (getTile s a).q, frFull := setBit (getTile s a).frFull c true } s) := by
  have hf' : fFree (getTile s a).frame = true := hf
  have hi : (stageElems (getTile s a).frame c).isEmpty = false := List.isEmpty_eq_false_iff.mpr he
  have hl : (stageElems (getTile s a).frame c).all (fun e => (elemIn s a e).valid) = true := List.all_eq_true.mpr hv
  simp only [frCapture, hf', hg, hb, hk, hh, hi, hl, Bool.not_true, Bool.or_self, Bool.false_eq_true, if_false]
  rfl

/-- Under GSR no stage captures (R57). -/
theorem frCapture_gsr (hg : gsrOn s (tSec a) = true) : frCapture a c s = s := by simp [frCapture, hg]

theorem stageDrained_cell (hh : hostOf s a = .none) (hd : ∀ e ∈ stageElems (frameOf s a) c, elemIn s a e = .spacer) :
    stageDrained s a c = true := by
  simp only [stageDrained, hh]
  exact List.all_eq_true.mpr fun e he => by simp [hd e he]

/-- A full stage of a cell tile whose inputs are back at spacer empties (steps 4 and 5 of R44). -/
theorem frRelease_cell (hf : fFree (frameOf s a) = true) (hh : hostOf s a = .none) (hb : bitAt (getTile s a).frFull c = true)
    (hk : ackIn s a c = true) (hd : ∀ e ∈ stageElems (frameOf s a) c, elemIn s a e = .spacer) :
    frRelease a c s = refreshAcks (endSpoilt (setTile a { getTile s a with
      frFull := setBit (getTile s a).frFull c false, portOut := if c = 0 then none else (getTile s a).portOut } s)) := by
  have hf' : fFree (getTile s a).frame = true := hf
  have hh' (x : Tile) : hostOf (setTile a x s) a = .none := hh
  simp only [frRelease, hf', hb, hk, stageDrained_cell hh hd, hh', Bool.not_true, Bool.or_self, Bool.false_eq_true, if_false]

end

/-- Settles O15: what a stage takes by `frCapture_cell`, what it gives up by `frRelease_cell`; the acknowledges that follow change
nothing else of a tile. -/
theorem freeRunningStage : Obligations.FreeRunningStage := by
  unfold Obligations.FreeRunningStage
  refine ⟨fun s tile c hs hf hh hg hb hk he hv => gives_of_exec rfl ?_, fun s tile c hg => gives_of_exec rfl (frCapture_gsr hg),
    fun s tile c hs hf hh hb hk hd => gives_of_exec rfl ?_⟩
  · rw [frCapture_cell hf hh hg hb hk he hv, getTile_refreshAcks hs.setTile, getTile_setTile_self hs]
    refine ⟨bitAt_setBit_of_lt _ _ c.isLt true, fun e hm => ?_, (OnlyParts.refl.setTile (by simp)).refreshAcks (by simp)⟩
    exact (bitAt_stageQ (stageElems_lt c.isLt hm)).trans (if_pos hm)
  · rw [frRelease_cell hf hh hb hk hd, getTile_refreshAcks hs.setTile.endSpoilt, getTile_endSpoilt, getTile_setTile_self hs]
    exact ⟨bitAt_setBit_of_lt _ _ c.isLt false, rfl,
      ((OnlyParts.refl.setTile (by simp)).endSpoilt (by simp)).refreshAcks (by simp)⟩

end Sys2Proof.Machine
end

section
/-! SETTLED. The set-reset pulse (R57, R58, R61, R62, R129, R130, R156). -/

namespace Sys2Proof.Machine

/-! ### Tiles under GSR -/

section
variable {s : State} {u : Nat}

/-- A tile as GSR holds it, or as its release leaves it. -/
theorem getTile_initTiles (hs : StoresOk s) (tokens : Bool) :
    (getTile (initTiles tokens s) u).q = initQ (frameOf s u) ∧ frameOf (initTiles tokens s) u = frameOf s u ∧
    (tokens = false → (getTile (initTiles tokens s) u).frFull = 0#4) := by
  have ht : getTile (initTiles tokens s) u = _ := getTile_mapTiles hs (by simp [dTile, initQ_idleFrame, fFree_idleFrame])
  have hf : (getTile (initTiles tokens s) u).frame = (getTile s u).frame := by rw [ht]
  exact ⟨congrArg Tile.q ht, hf, fun h => (congrArg Tile.frFull ht).trans (by simp [h])⟩

theorem gsrAssert_tiles (hs : StoresOk s) : (getTile (gsrAssert s) u).q = initQ (frameOf s u) ∧
    (getTile (gsrAssert s) u).frFull = 0#4 ∧ frameOf (gsrAssert s) u = frameOf s u := by
  have hp : StoresOk { s with pool := { s.pool with ports := mmap (fun _ => {}) (dropStage s) s.pool.ports }
                              fab := { s.fab with gsr := 0xFF, spoilt := [] } } :=
    ((Canon.refl s).withPorts (mwf_mmap _ _ _)).beside.stores hs
  obtain ⟨hq, hf, hr⟩ := getTile_initTiles (u := u) hp false
  exact ⟨hq, hr rfl, hf⟩

theorem gsrRelease_tiles (hs : StoresOk s) : (getTile (gsrRelease s) u).q = initQ (frameOf s u) ∧
    frameOf (gsrRelease s) u = frameOf s u := by
  have hi : StoresOk (initTiles true s) := (Canon.refl s).initTiles.stores hs
  obtain ⟨hq, hf, -⟩ := getTile_initTiles (u := u) hs true
  unfold gsrRelease
  dsimp only
  generalize hw : ({ initTiles true s with fab := _, bm := _ } : State) = w
  have hwo : StoresOk w := hw ▸ ((Canon.refl _).withBlocks (mwf_mmap _ _ _)).beside.stores hi
  have ht : getTile w u = getTile (initTiles true s) u := by rw [← hw]; rfl
  have hr := getTile_refreshAcks (u := u) hwo
  rw [ht] at hr
  have hf' : (getTile (refreshAcks w) u).frame = (getTile (initTiles true s) u).frame := by rw [hr]
  exact ⟨(congrArg Tile.q hr).trans hq, hf'.trans hf⟩

end

/-! ### A pulse asked for -/

section
variable {s : State} {v : Word}

/-- The reasons of R62 in their order. -/
theorem gsrRefusal_eq {r : Nat} (h : gsrRefusal s = some r) : r = if deviceUp s = false then 4
    else if s.tick.st = .run ∨ s.tick.st = .paced then 2 else if s.tick.st = .fault then 5 else 3 := by
  unfold gsrRefusal at h
  split_ifs at h ⊢ <;> simp_all

theorem gsrPulse_refused {r : Nat} (hv : bitAt v 0 = true) (hb : s.fab.gsrBusy = false) (h : gsrRefusal s = some r) :
    gsrPulse v s = bump Reg.gsrRefused { s with fab := { s.fab with gsrResult := r } } := by
  simp [gsrPulse, hv, hb, h]

/-- The state of an accepted pulse, before an engine in HALTED goes to IDLE. -/
def pulsed (s : State) : State := freshRun (gsrAssert { s with fab := { s.fab with gsrBusy := true } })

theorem gsrPulse_accepted (hv : bitAt v 0 = true) (hb : s.fab.gsrBusy = false) (h : gsrRefusal s = none) :
    gsrPulse v s = if (pulsed s).tick.st == .halted then
      setCause 0 false { pulsed s with tick := { (pulsed s).tick with st := .idle } } else pulsed s := by
  simp [gsrPulse, hv, hb, h, pulsed]

theorem freshRun_fab (s : State) : (freshRun s).fab = s.fab := freshRun_parts s .fab (by simp)

theorem freshRun_st (s : State) : (freshRun s).tick.st = s.tick.st := rfl

/-- GSR holds every tile, and the run starts afresh (R57, R130). -/
theorem pulsed_spec (hs : StoresOk s) :
    (pulsed s).fab.gsrBusy = true ∧ (pulsed s).fab.gsr = 0xFF#8 ∧ (pulsed s).fab.gsrResult = s.fab.gsrResult ∧
    (pulsed s).tick.nowP1 = 0 ∧ (pulsed s).ra.com = 0 ∧
    (∀ u, (getTile (pulsed s) u).q = initQ (frameOf s u) ∧ (getTile (pulsed s) u).frFull = 0#4 ∧
      frameOf (pulsed s) u = frameOf s u) ∧
    (pulsed s).tick.st = s.tick.st ∧ (pulsed s).pool = { s.pool with ports := (pulsed s).pool.ports } ∧
    OnlyParts [.fab, .tick, .ra, .regs, .pool, .net, .trc] s (pulsed s) := by
  have hb : StoresOk { s with fab := { s.fab with gsrBusy := true } } := hs
  have hp : OnlyParts [.fab, .tick, .ra, .regs, .pool, .net, .trc] s
      (gsrAssert { s with fab := { s.fab with gsrBusy := true } }) :=
    (OnlyParts.refl.fab (by simp)).trans ((gsrAssert_parts _).mono (by simp))
  have ha (u : Nat) := gsrAssert_tiles (u := u) hb
  unfold pulsed
  generalize hw : gsrAssert { s with fab := { s.fab with gsrBusy := true } } = w at hp ha
  have hf := freshRun_fab w
  have hpool : (freshRun w).pool = w.pool := freshRun_parts w .pool (by simp)
  have ht (u : Nat) : getTile (freshRun w) u = getTile w u := by rw [getTile, hf, getTile]
  refine ⟨by rw [hf, ← hw]; rfl, by rw [hf, ← hw]; rfl, by rw [hf, ← hw]; rfl, rfl, rfl, fun u => ?_, ?_, ?_,
    hp.trans ((freshRun_parts w).mono (by simp))⟩
  · obtain ⟨hq, hr, hfr⟩ := ha u
    rw [← ht] at hq hr
    have hf' : (getTile (freshRun w) u).frame = (getTile w u).frame := by rw [ht]
    exact ⟨hq, hr, hf'.trans hfr⟩
  · rw [freshRun_st, ← hw]
    rfl
  · rw [hpool, ← hw]
    rfl

end

/-! ### The end of a pulse -/

section
variable {s : State}

theorem gsrRelease_parts (s : State) : OnlyParts [.fab, .bm] s (gsrRelease s) := fun p hp => by
  cases p <;> simp_all [samePart, gsrRelease, initTiles, refreshAcks, mapTiles]

/-- The end of a pulse that is under way. -/
theorem gsrPulseDone_run (hb : s.fab.gsrBusy = true) :
    gsrPulseDone s = gsrRelease { s with fab := { s.fab with gsrBusy := false, gsrResult := 1 } } := by simp [gsrPulseDone, hb]

theorem gsrPulseDone_parts (s : State) : OnlyParts [.fab, .bm] s (gsrPulseDone s) := by
  unfold gsrPulseDone
  split
  · exact .refl
  · exact (OnlyParts.refl.fab (by simp)).trans (gsrRelease_parts _)

theorem gsrPulseDone_fab (hb : s.fab.gsrBusy = true) : (gsrPulseDone s).fab.gsrBusy = false ∧ (gsrPulseDone s).fab.gsr = 0#8 ∧
    (gsrPulseDone s).fab.gsrResult = 1 := by
  rw [gsrPulseDone_run hb]
  exact ⟨rfl, rfl, rfl⟩

theorem pulseDone_none (hh : s.tick.heldStart = none) : pulseDone s = gsrPulseDone s := by
  simp [pulseDone, hh]

/-- The RUN that the pulse held (R62). -/
theorem pulseDone_run (hb : s.fab.gsrBusy = true) (hh : s.tick.heldStart = some (1, 0)) :
    pulseDone s = tickRun { gsrPulseDone s with tick := { (gsrPulseDone s).tick with heldStart := none } } := by
  obtain ⟨hd, -⟩ := gsrPulseDone_fab hb
  simp [pulseDone, hh, hd]

end

/-- Whether a device of the boundary maps has no route is read off registers. -/
theorem bndUnreachable_congr {s t : State} (h : t.regs = s.regs) : bndUnreachable t = bndUnreachable s := by
  have hi : groupSrc t = groupSrc s := funext fun g => by simp only [groupSrc, getReg, h]
  have ho : groupDst t = groupDst s := funext fun g => by simp only [groupDst, getReg, h]
  simp only [bndUnreachable, bndSources, bndDests, inGroups, outGroups, validWords, getReg, h, hi, ho]

/-- Settles O16: `gsrRefusal_eq` for the reason of a refusal, `pulsed_spec` for an accepted pulse, `gsrRelease_tiles` for its end, and
the start that it held by `tickRun_starts`. -/
theorem setResetPulse : Obligations.SetResetPulse := by
  unfold Obligations.SetResetPulse
  refine ⟨fun s v hr hok hs hv hb => gives_of_exec rfl ?_, fun s v hr h => gives_of_exec rfl ?_,
    fun s hs hb hh => gives_of_exec rfl ?_, fun s hok hb hh hu he hp hn hbn => gives_of_exec rfl ?_⟩
  · rw [awake_run _ _ hr]
    cases h : gsrRefusal s with
    | none =>
      rw [if_pos rfl, gsrPulse_accepted hv hb h]
      obtain ⟨h1, h2, h3, h4, h5, h6, h7, h8, h9⟩ := pulsed_spec hs
      split
      next hst =>
        have hst' : s.tick.st = .halted := by rw [← h7]; exact beq_iff_eq.mp hst
        rw [if_pos hst']
        exact ⟨h1, h2, h3, h4, h5, h6, rfl, h8, (h9.tick (by simp)).setReg (by simp)⟩
      next hst =>
        have hst' : ¬ s.tick.st = .halted := fun e => hst (by rw [h7, e]; rfl)
        rw [if_neg hst']
        exact ⟨h1, h2, h3, h4, h5, h6, h7, h8, h9⟩
    | some r =>
      rw [if_neg (by simp), gsrPulse_refused hv hb h]
      have hf : RegsOk { s with fab := { s.fab with gsrResult := r } } := hok
      exact ⟨gsrRefusal_eq h, getReg_setReg_self hf, rfl, (OnlyParts.refl.fab (by simp)).bump (by simp)⟩
  · rw [awake_run _ _ hr]
    rcases h with h | ⟨h, hu⟩
    · simp [gsrPulse, h]
    · simp [gsrPulse, h, hu]
  · rw [pulseDone_none hh]
    obtain ⟨h1, h2, h3⟩ := gsrPulseDone_fab hb
    refine ⟨h1, h2, h3, fun u => ?_, gsrPulseDone_parts s⟩
    rw [gsrPulseDone_run hb]
    exact gsrRelease_tiles (s := { s with fab := { s.fab with gsrBusy := false, gsrResult := 1 } }) hs
  · rw [pulseDone_run hb hh]
    obtain ⟨h1, h2, -⟩ := gsrPulseDone_fab hb
    have hk := gsrPulseDone_parts s
    have hreg : (gsrPulseDone s).regs = s.regs := hk .regs (by simp)
    have htick : (gsrPulseDone s).tick = s.tick := hk .tick (by simp)
    have hdev : (gsrPulseDone s).dev = s.dev := hk .dev (by simp)
    generalize gsrPulseDone s = w at *
    have hu' : deviceUp { w with tick := { w.tick with heldStart := none } } = true := by
      rw [← hu]
      simp only [deviceUp, hdev]
    have hh' : startHeld { w with tick := { w.tick with heldStart := none } } = false := by simp [startHeld, h1]
    have he' : engineStill { w with tick := { w.tick with heldStart := none } } = true := by
      rw [← he]
      simp only [engineStill, htick]
    have hb' : bndUnreachable { w with tick := { w.tick with heldStart := none } } = false := by
      rw [← hbn]
      exact bndUnreachable_congr hreg
    rw [tickRun_starts hu' hh' he' (by rw [← hp, ← htick]) (by rw [← hn, ← htick]) hb']
    have hok' : RegsOk (startTicking .run { w with tick := { w.tick with heldStart := none } }) := by
      change mwf resetOf w.regs = true
      rwa [hreg]
    exact ⟨h1, h2, rfl, rfl, getReg_cmdStat hok' 1 1, (OnlyRegs.of_regs_eq hreg).setReg (by simp)⟩

end Sys2Proof.Machine
end

section
/-! SETTLED. Upsets and sensors (R57, R73): the statement on sensors asks no canonical form of the stores, and fails without it. -/

namespace Sys2Proof.Machine

/-- A tick in progress in a state whose store lists tile 0 twice: first with the idle frame and a rail of cell 0 high, then with
another frame. -/
def sTwice : State :=
  { State.reset with
    fab := { State.reset.fab with tiles := [(0, { oaT := 1 }), (0, { frame := 0 })] }
    tick := { State.reset.tick with st := .run, inTick := true } }

/-- At 470 mV the section has undervoltage: the tick is abandoned, every rail returns to spacer, and the first entry, now the default, is
dropped. The second entry of the tile comes to light, with its own frame. -/
theorem frameOf_vsenseUpdate_sTwice : frameOf (vsenseUpdate 0 470 sTwice) 0 ≠ frameOf sTwice 0 := by decide +kernel

/-- Refutes O17: VSENSE_UPDATE at 470 mV changes the frame of tile 0 in `sTwice`, whose register file is in its canonical form. The
clause on sensors assumes no more than that of its state; the other clauses that speak of tiles assume `StoresOk`. -/
theorem not_upsetsAndSensors : ¬ Obligations.UpsetsAndSensors := by
  unfold Obligations.UpsetsAndSensors
  rintro ⟨-, -, -, hv, -⟩
  obtain ⟨t, he, -, -, -, -, hf, -⟩ := hv sTwice 0 470#10 rfl
  obtain rfl : vsenseUpdate 0 470 sTwice = t := Host.Outcome.next.inj he
  exact frameOf_vsenseUpdate_sTwice (hf (by decide) 0)

end Sys2Proof.Machine
end

section
/-! SUPPORT. Queues, pool ports and register paths: what is read back after a write of one, and what the events of a queue leave
(R245, R273, R274, R279, R304). -/

namespace Sys2Proof.Machine

section
variable {a s t : State} {ps : List Part} {rs : Nat → Prop} {p q : Nat}

/-! ### Stores -/

theorem StoresOk.queues (h : StoresOk s) : mwf dQueue s.queues = true := by
  obtain ⟨-, -, -, hq, -⟩ := h
  exact hq

theorem StoresOk.ports (h : StoresOk s) : mwf dPort s.pool.ports = true := by
  obtain ⟨-, -, -, -, -, hp, -⟩ := h
  exact hp

theorem setQ_queues (q : Nat) (x : Queue) (s : State) : (setQ q x s).queues = mset dQueue s.queues q x := by
  unfold setQ
  dsimp only
  split <;> rfl

theorem getQ_setQ_self (h : mwf dQueue s.queues = true) {x : Queue} : getQ (setQ q x s) q = x := by
  rw [getQ, setQ_queues, mget_mset _ _ _ _ _ (mwf_rising h), if_pos rfl]

theorem getQ_setQ_ne (h : q ≠ p) {x : Queue} : getQ (setQ q x s) p = getQ s p := by
  rw [getQ, setQ_queues, mget_mset_ne _ _ _ _ _ h, getQ]

theorem getPort_setPort_self (h : StoresOk s) {x : Port} : getPort (setPort p x s) p = x :=
  (mget_mset dPort s.pool.ports p p x (mwf_rising h.ports)).trans (if_pos rfl)

theorem getPort_setPort_ne (h : q ≠ p) {x : Port} : getPort (setPort q x s) p = getPort s p :=
  mget_mset_ne dPort s.pool.ports q p x h

theorem getQ_congr (h : t.queues = s.queues) : getQ t q = getQ s q := by rw [getQ, h, getQ]

theorem getPort_congr (h : t.pool = s.pool) : getPort t p = getPort s p := by rw [getPort, h, getPort]

/-- A path that holds a write is listed. -/
theorem getPath_setPath {x : RegPath} (h : x.data.isSome = true) : getPath (setPath p x s) p = x :=
  mget_mset_listed dPath s.paths p x fun e => by simp [e, dPath] at h

theorem OnlyParts.setQ (h : OnlyParts ps a s) {x : Queue} (hq : Part.queues ∈ ps) (he : Part.eddies ∈ ps) :
    OnlyParts ps a (setQ q x s) := by
  unfold Machine.setQ
  dsimp only
  split
  exacts [(h.queues hq).setEddy he, h.queues hq]

theorem OnlyParts.pins (h : OnlyParts ps a s) {x : Pins} (hp : Part.pins ∈ ps) : OnlyParts ps a { s with pins := x } :=
  h.trans <| .of_single hp fun q hq => by cases q <;> simp_all [samePart]

theorem OnlyParts.setPort (h : OnlyParts ps a s) {x : Port} (hp : Part.pool ∈ ps) : OnlyParts ps a (setPort p x s) := h.pool hp

/-! ### Events and counters of a queue -/

theorem getReg_bump_self (hs : RegsOk s) {o : Nat} : getReg (bump o s) o = satInc (getReg s o) := getReg_setReg_self hs

theorem getReg_bump_ne {o r : Nat} (h : o ≠ r) : getReg (bump o s) r = getReg s r := getReg_setReg_ne s o r _ h

theorem getReg_latchFirst_ne {o r : Nat} {v : Word} (h : o ≠ r) : getReg (latchFirst o v s) r = getReg s r := by
  unfold latchFirst
  split
  exacts [rfl, getReg_setReg_ne s o r v h]

theorem satAdd_zero (w : Word) : satAdd w 0 = w := by
  have hw := w.isLt
  rw [satAdd, w32, Nat.add_zero, Nat.min_eq_right (by omega), BitVec.ofNat_toNat, BitVec.setWidth_eq]

theorem getReg_bumpBy_self (hs : RegsOk s) {o n : Nat} : getReg (bumpBy o n s) o = satAdd (getReg s o) n := by
  unfold bumpBy
  split
  next h => rw [h, satAdd_zero]
  next => exact getReg_setReg_self hs

theorem bumpBy_touches (o n : Nat) (s : State) : Touches [.regs] (fun r => r = o) s (bumpBy o n s) :=
  Touches.refl.bumpBy (by simp) rfl

theorem qEvent_touches (q bits : Nat) (s : State) : Touches [.regs, .msix] (fun o => o = Reg.qevent q) s (qEvent q bits s) :=
  have ho : Touches [.regs, .msix] (fun o => o = Reg.qevent q) s (orReg (Reg.qevent q) (w32 bits) s) :=
    Touches.refl.setReg (by simp) rfl
  .ite ho (ho.raiseVec (by simp))

@[simp] theorem qEvent_queues (q bits : Nat) (s : State) : (qEvent q bits s).queues = s.queues :=
  (qEvent_touches q bits s).parts .queues (by simp)

theorem getReg_qEvent_self (hs : RegsOk s) (q bits : Nat) :
    getReg (qEvent q bits s) (Reg.qevent q) = getReg s (Reg.qevent q) ||| w32 bits := by
  unfold qEvent
  dsimp only
  split
  · exact getReg_setReg_self hs
  · rw [getReg_raiseVec]
    exact getReg_setReg_self hs

/-- An event bit stays set whatever other events set. -/
theorem bitAt_qEvent (hs : RegsOk s) (bits : Nat) {i : Nat} (h : bitAt (getReg s (Reg.qevent q)) i = true) :
    bitAt (getReg (qEvent q bits s) (Reg.qevent q)) i = true := by
  rw [getReg_qEvent_self hs]
  simp only [bitAt_eq_getLsbD] at h ⊢
  simp [h]

/-- The bit of an event is set by it. -/
theorem bitAt_qEvent_self (hs : RegsOk s) {bits i : Nat} (h : bitAt (w32 bits) i = true) :
    bitAt (getReg (qEvent q bits s) (Reg.qevent q)) i = true := by
  rw [getReg_qEvent_self hs]
  simp only [bitAt_eq_getLsbD] at h ⊢
  simp [h]

/-! ### The level comparison (R268) -/

theorem qLevel_touches (q : Nat) (s : State) : Touches [.queues, .eddies, .regs, .msix]
    (fun o => o = Reg.qevent q ∨ o = Reg.qLevel q) s (qLevel q s) := by
  have hs {x : Queue} : Touches [.queues, .eddies, .regs, .msix] (fun o => o = Reg.qevent q ∨ o = Reg.qLevel q) s (setQ q x s) :=
    Touches.refl.setQ (by simp) (by simp)
  exact .ite ((hs.bump (by simp) (.inr rfl)).andThen (qEvent_touches _ _ _) (by simp) fun _ h => .inl h) hs

/-- The level comparison changes the view of the level only. -/
theorem getQ_qLevel (h : mwf dQueue s.queues = true) :
    getQ (qLevel q s) q = { getQ s q with above := (getQ (qLevel q s) q).above } := by
  have hq {x : Queue} {u : State} (hu : u.queues = (setQ q x s).queues) : getQ u q = x :=
    (getQ_congr hu).trans (getQ_setQ_self h)
  unfold qLevel
  dsimp only
  split
  · rw [hq (u := qEvent q 0x40 (bump (Reg.qLevel q) (setQ q _ s))) (qEvent_queues _ _ _)]
  · rw [hq rfl]

theorem bitAt_qLevel (hs : RegsOk s) {i : Nat} (h : bitAt (getReg s (Reg.qevent q)) i = true) :
    bitAt (getReg (qLevel q s) (Reg.qevent q)) i = true := by
  unfold qLevel
  dsimp only
  generalize hx : ({ getQ s q with above := _ } : Queue) = x
  have hq : RegsOk (setQ q x s) := (Keeps.refl s).setQ.regs hs
  have hb : bitAt (getReg (setQ q x s) (Reg.qevent q)) i = true := by rwa [getReg_setQ]
  split
  · refine bitAt_qEvent hq.setReg _ ?_
    rwa [getReg_setReg_ne _ (Reg.qLevel q) (Reg.qevent q) _ (by unfold Reg.qLevel Reg.qevent; omega)]
  · exact hb

end

end Sys2Proof.Machine
end

section
/-! SETTLED. Crossings: side resets, the epoch exchange, the register path, hold-and-flag registers and arbiters
(R45, R263, R264, R273, R278, R279, R284–R288, R322). -/

namespace Sys2Proof.Machine

/-! ### Discarded transfers and side resets of a queue (R263, R286) -/

section
variable {s : State} {q : Nat}

/-- What a discarded transfer counts: one of its section where there is one. -/
def discarding (sec kind side idx : Nat) (req : Bool) (s : State) : State := if req then xingDiscard sec kind side idx s else s

/-- The registers that a discarded transfer of a section writes. -/
def DiscardReg (sec o : Nat) : Prop := o = Reg.xingDiscard sec ∨ o = Reg.xingLoc sec

theorem xingDiscard_touches (sec kind side idx : Nat) (s : State) :
    Touches [.regs] (DiscardReg sec) s (xingDiscard sec kind side idx s) := by
  have hb : Touches [.regs] (DiscardReg sec) s (bump (Reg.xingDiscard sec) s) := Touches.refl.bump (by simp) (.inl rfl)
  have hl (v : Word) : Touches [.regs] (DiscardReg sec) s (latchFirst (Reg.xingLoc sec) v (bump (Reg.xingDiscard sec) s)) :=
    hb.latchFirst (by simp) (.inr rfl)
  unfold xingDiscard
  exact hl _

theorem discarding_touches (sec kind side idx : Nat) (req : Bool) (s : State) :
    Touches [.regs] (DiscardReg sec) s (discarding sec kind side idx req s) := by
  unfold discarding
  split
  exacts [xingDiscard_touches sec kind side idx s, .refl]

theorem getReg_xingDiscard (hs : RegsOk s) (sec kind side idx : Nat) :
    getReg (xingDiscard sec kind side idx s) (Reg.xingDiscard sec) = satInc (getReg s (Reg.xingDiscard sec)) := by
  unfold xingDiscard
  rw [getReg_latchFirst_ne (by unfold Reg.xingLoc Reg.xingDiscard; omega), getReg_bump_self hs]

theorem getReg_discarding (hs : RegsOk s) (sec kind side idx : Nat) (req : Bool) :
    getReg (discarding sec kind side idx req s) (Reg.xingDiscard sec) =
      if req then satInc (getReg s (Reg.xingDiscard sec)) else getReg s (Reg.xingDiscard sec) := by
  unfold discarding
  split
  exacts [getReg_xingDiscard hs sec kind side idx, rfl]

theorem RegsOk.discarding (hs : RegsOk s) {sec kind side idx : Nat} {req : Bool} : RegsOk (discarding sec kind side idx req s) :=
  (Keeps.ite (Keeps.refl s).xingDiscard (Keeps.refl s)).regs hs

theorem StoresOk.discarding (hs : StoresOk s) {sec kind side idx : Nat} {req : Bool} :
    StoresOk (discarding sec kind side idx req s) :=
  (Canon.ite (Canon.refl s).xingDiscard (Canon.refl s)).stores hs

theorem dropFlush_eq (x : Queue) : dropFlush x = { x with flush := (dropFlush x).flush, flushing := (dropFlush x).flushing } := by
  unfold dropFlush
  split <;> rfl

/-- A queue whose write side is reset, whatever it says of FLUSHING. -/
def wrGone (w : Word) (x : Queue) (flushing : Bool) : Queue :=
  { x with wp := if x.openSpill then ptrAdd w x.wp (2 * qN w - 1) else x.wp, hold := [], openSpill := false, sealReq := none
           inItem := false, discarding := false, wr := x.wr.reset, rd := { x.rd with peerRst := true, msgs := [] }, hostPush := []
           flush := .none, flushing := flushing }

theorem wrReset_run (q : Nat) (s : State) : ∃ fl, wrReset q s =
    setQ q (wrGone (qCfg s q) (getQ s q) fl) (discarding (q / 256) 0 0 (q % 256) (getQ s q).wr.req s) := by
  unfold wrReset
  dsimp only
  rw [dropFlush_eq]
  exact ⟨_, rfl⟩

/-- A queue whose read side is reset, whatever it says of its flush. -/
def rdGone (x : Queue) (flushing : Bool) : Queue :=
  { x with last := 0, lastTag := 0, itemOpen := false, spillSeen := false, sealReq := none, rd := x.rd.reset
           wr := { x.wr with peerRst := true, msgs := [] }, flush := .none, flushing := flushing }

theorem rdReset_run (q : Nat) (s : State) : ∃ fl, rdReset q s =
    setQ q (rdGone (getQ s q) fl) (discarding (q / 256) 1 1 (q % 256) (getQ s q).rd.req s) := by
  unfold rdReset
  dsimp only
  rw [dropFlush_eq]
  exact ⟨_, rfl⟩

/-- What a reset of one side leaves of the queues, the other registers and the rest. -/
theorem sideGone_frame (x : Queue) (sec kind side idx : Nat) (req : Bool) (s : State) (q code : Nat) :
    (∀ p, p ≠ q → getQ (qResult q code (setQ q x (discarding sec kind side idx req s))) p = getQ s p) ∧
    OnlyParts [.queues, .eddies, .regs] s (qResult q code (setQ q x (discarding sec kind side idx req s))) := by
  have hd := (discarding_touches sec kind side idx req s).parts
  refine ⟨fun p hp => ?_, ((hd.mono (by simp)).setQ (by simp) (by simp)).setReg (by simp)⟩
  have hq : (discarding sec kind side idx req s).queues = s.queues := hd .queues (by simp)
  exact (getQ_setQ_ne (Ne.symm hp)).trans (getQ_congr hq)

theorem viaPath_free {sec o : Nat} {v : Word} {act : State → State} (h : (getPath s sec).data = none) :
    viaPath sec o v act s = act s := by
  simp [viaPath, h]

theorem viaPath_busy {sec o : Nat} {v : Word} {act : State → State} (h : (getPath s sec).data.isSome = true) :
    viaPath sec o v act s =
      bump (Reg.xingBusyCount sec) (setPath sec { getPath s sec with kept := (getPath s sec).kept ++ [(o, v)] } s) := by
  simp [viaPath, h]

end

/-! ### The epoch exchange (R287) -/

section
variable {s : State} {ack rd : Bool} {e n : BitVec 8} {l : List EpochMsg} {me ot : Side}

/-- The two sides after the oldest message to one of them was taken. -/
structure Met (ack : Bool) (e n : BitVec 8) (l : List EpochMsg) (me ot me' ot' : Side) : Prop where
  peer : me'.peer = some e
  msgs : me'.msgs = l
  acked : me'.acked = some e
  own : me'.ownAcked = (me.ownAcked || (ack && n = me.epoch))
  st : me'.st = if me.st = .connecting ∧ me'.ownAcked = true then .connected else me.st
  answer : ot'.msgs = if me.acked = some e then ot.msgs else ot.msgs ++ [.ack me.epoch e]

/-- A side that knows its peer's epoch answers, and connects where both conditions hold. -/
def settled (me ot : Side) : Side × Side :=
  let r := sideAnswer me ot
  (if sideConnects r.1 then { r.1 with st := .connected } else r.1, r.2)

theorem settled_met : Met ack e n l me ot
    (settled { me with msgs := l, peer := some e, ownAcked := me.ownAcked || (ack && n = me.epoch) } ot).1
    (settled { me with msgs := l, peer := some e, ownAcked := me.ownAcked || (ack && n = me.epoch) } ot).2 := by
  generalize hw : (me.ownAcked || (ack && n = me.epoch)) = own
  by_cases ha : me.acked = some e
  · by_cases hc : me.st = .connecting ∧ own = true
    · constructor <;> simp [settled, sideAnswer, sideConnects, ha, hc, hw]
    · constructor <;> simp [settled, sideAnswer, sideConnects, ha, hc, hw]
  · by_cases hc : me.st = .connecting ∧ own = true
    · constructor <;> simp [settled, sideAnswer, sideConnects, ha, hc, hw]
    · constructor <;> simp [settled, sideAnswer, sideConnects, ha, hc, hw]

/-- A side out of reset takes its oldest message. -/
theorem sideTake_met (hr : me.inReset = false) (hm : me.msgs = (if ack then .ack e n else .connect e) :: l) :
    ∃ r : Side × Side, sideTake ack me ot = (true, ack && n != me.epoch, r.1, r.2) ∧ Met ack e n l me ot r.1 r.2 := by
  refine ⟨_, ?_, settled_met⟩
  cases ack <;> simp [sideTake, hm, hr, settled]

end

/-! ### The exchange of a queue and of a pool port (R287, R322) -/

section
variable {s : State}

/-- The counters of a section after a message: a stale one, and a side that it connects. -/
def exchanged (sec : Nat) (stale joins : Bool) (s : State) : State :=
  let s := if stale then bump (Reg.xingStale sec) s else s
  if joins then bump (Reg.xingReconnect sec) s else s

theorem exchanged_parts (sec : Nat) (stale joins : Bool) (s : State) : OnlyParts [.regs] s (exchanged sec stale joins s) := by
  have hs : OnlyParts [.regs] s (if stale then bump (Reg.xingStale sec) s else s) := by
    split
    exacts [OnlyParts.refl.bump (by simp), .refl]
  unfold exchanged
  dsimp only
  split
  exacts [hs.bump (by simp), hs]

theorem getReg_exchanged (hs : RegsOk s) (sec : Nat) (stale joins : Bool) :
    getReg (exchanged sec stale joins s) (Reg.xingStale sec) =
      if stale then satInc (getReg s (Reg.xingStale sec)) else getReg s (Reg.xingStale sec) := by
  have hb : getReg (if stale then bump (Reg.xingStale sec) s else s) (Reg.xingStale sec) =
      if stale then satInc (getReg s (Reg.xingStale sec)) else getReg s (Reg.xingStale sec) := by
    split
    exacts [getReg_bump_self hs, rfl]
  unfold exchanged
  dsimp only
  split
  · rw [getReg_bump_ne (by unfold Reg.xingReconnect Reg.xingStale; omega), hb]
  · exact hb

/-- A queue whose two sides met. -/
def metQ (rd : Bool) (me ot : Side) (x : Queue) : Queue :=
  let x := if rd then { x with rd := me, wr := ot } else { x with wr := me, rd := ot }
  if qLinked x && x.flush == .none then { x with flushing := false } else x

theorem metQ_sides (rd : Bool) (me ot : Side) (x : Queue) :
    (if rd then (metQ rd me ot x).rd else (metQ rd me ot x).wr) = me ∧
    (if rd then (metQ rd me ot x).wr else (metQ rd me ot x).rd) = ot := by
  cases rd <;> simp [metQ, apply_ite Queue.rd, apply_ite Queue.wr]

theorem qMsg_run {q : Nat} {rd ack stale : Bool} {me ot : Side}
    (h : sideTake ack (if rd then (getQ s q).rd else (getQ s q).wr) (if rd then (getQ s q).wr else (getQ s q).rd) =
      (true, stale, me, ot)) : ∃ joins, qMsg q rd ack s = exchanged (q / 256) stale joins (setQ q (metQ rd me ot (getQ s q)) s) := by
  unfold qMsg
  cases rd <;> simp only [if_true, Bool.false_eq_true, if_false] at h ⊢ <;> rw [h] <;> exact ⟨_, rfl⟩

/-- A pool port whose two sides met. -/
def metPort (rd : Bool) (me ot : Side) (x : Port) : Port :=
  let x := if rd then { x with rd := me, wr := ot } else { x with wr := me, rd := ot }
  if portLinked x && !x.resetAsked then { x with resetting := false } else x

theorem metPort_sides (rd : Bool) (me ot : Side) (x : Port) :
    (if rd then (metPort rd me ot x).rd else (metPort rd me ot x).wr) = me ∧
    (if rd then (metPort rd me ot x).wr else (metPort rd me ot x).rd) = ot := by
  cases rd <;> simp [metPort, apply_ite Port.rd, apply_ite Port.wr]

/-- RESETTING ends at CONNECTED (R322). -/
theorem metPort_resetting (rd : Bool) (me ot : Side) (x : Port) : (metPort rd me ot x).resetting =
    (x.resetting && !(portLinked (metPort rd me ot x) && !x.resetAsked)) := by
  unfold metPort
  generalize hy : (if rd then { x with rd := me, wr := ot } else { x with wr := me, rd := ot } : Port) = y
  have hr : y.resetting = x.resetting ∧ y.resetAsked = x.resetAsked := by rw [← hy]; cases rd <;> exact ⟨rfl, rfl⟩
  dsimp only
  rw [← hr.1, ← hr.2]
  split
  next h =>
    have h' : portLinked { y with resetting := false } = portLinked y := rfl
    rw [h', h]
    simp
  next h => simp [h]

theorem portMsg_run {p : Nat} {rd ack stale : Bool} {me ot : Side}
    (h : sideTake ack (if rd then (getPort s p).rd else (getPort s p).wr) (if rd then (getPort s p).wr else (getPort s p).rd) =
      (true, stale, me, ot)) :
    ∃ joins, portMsg p rd ack s = exchanged (p / 32) stale joins (setPort p (metPort rd me ot (getPort s p)) s) := by
  unfold portMsg
  cases rd <;> simp only [if_true, Bool.false_eq_true, if_false] at h ⊢ <;> rw [h] <;> exact ⟨_, rfl⟩

end

/-! ### A peer's reset (R263, R286) -/

section
variable {s : State} {q : Nat}

/-- A queue whose words a peer's reset discarded: stored, the words counted at `o` and the event raised. -/
def peerCleared (q o bits n : Nat) (x : Queue) (s : State) : State := qLevel q (qEvent q bits (bumpBy o n (setQ q x s)))

theorem peerCleared_spec {o bits n i : Nat} {x : Queue} (hs : StoresOk s) (hr : RegsOk s) (he : o ≠ Reg.qevent q)
    (hl : o ≠ Reg.qLevel q) (hi : bitAt (w32 bits) i = true) :
    (∃ b, getQ (peerCleared q o bits n x s) q = { x with above := b }) ∧
    getReg (peerCleared q o bits n x s) o = satAdd (getReg s o) n ∧
    bitAt (getReg (peerCleared q o bits n x s) (Reg.qevent q)) i = true := by
  have hbr : RegsOk (bumpBy o n (setQ q x s)) := (Keeps.refl s).setQ.bumpBy.regs hr
  have hqs : (qEvent q bits (bumpBy o n (setQ q x s))).queues = (setQ q x s).queues := by simp
  have hw : mwf dQueue (setQ q x s).queues = true := by
    rw [setQ_queues]
    exact mwf_mset _ _ _ _ hs.queues
  refine ⟨⟨(getQ (peerCleared q o bits n x s) q).above, (getQ_qLevel (by rwa [hqs])).trans ?_⟩, ?_,
    bitAt_qLevel ((Keeps.refl _).qEvent.regs hbr) (bitAt_qEvent_self hbr hi)⟩
  · rw [getQ_congr hqs, getQ_setQ_self hs.queues]
    rfl
  · unfold peerCleared
    rw [(qLevel_touches q _).regs o (by simp [he, hl]), (qEvent_touches q bits _).regs o he,
      getReg_bumpBy_self ((Keeps.refl s).setQ.regs hr), getReg_setQ]

/-- The registers that a peer's reset of a queue counts in and records lie apart. -/
theorem discardReg_apart (_hq : q < 2048) {o : Nat} (h : o = Reg.qPeerDiscard q ∨ o = Reg.qDropped q) :
    o ≠ Reg.qevent q ∧ o ≠ Reg.qLevel q ∧ ¬ DiscardReg (q / 256) o := by
  unfold DiscardReg Reg.xingDiscard Reg.xingLoc Reg.qevent Reg.qLevel
  unfold Reg.qPeerDiscard Reg.qDropped at h
  omega

theorem peerReset_read (h : (getQ s q).rd.peerRst = true) : peerReset q true s =
    peerCleared q (Reg.qPeerDiscard q) 8 (ptrSub (qCfg s q) (getQ s q).pwp (getQ s q).rp)
      { getQ s q with rp := (getQ s q).pwp, rpW := (getQ s q).pwp, pwpR := (getQ s q).pwp, spillSeen := false
                      rd := (getQ s q).rd.peerSeen }
      (discarding (q / 256) 1 0 (q % 256) (getQ s q).rd.req s) := by
  simp only [peerReset, h, Bool.not_true, Bool.false_eq_true, if_false, if_true]
  rfl

theorem peerReset_write (h : (getQ s q).wr.peerRst = true) (hp : (getQ s q).hostPush = []) : peerReset q false s =
    peerCleared q (if (getQ s q).wr.inReset then Reg.qPeerDiscard q else Reg.qDropped q) 16 (qDepth (qCfg s q) (getQ s q))
      { getQ s q with rp := (getQ s q).wp, rpW := (getQ s q).wp, pwp := (getQ s q).wp, pwpR := (getQ s q).wp, openSpill := false
                      sealReq := none, hostPush := [], discarding := (getQ s q).discarding || (getQ s q).inItem
                      wr := (getQ s q).wr.peerSeen }
      (discarding (q / 256) 0 1 (q % 256) (getQ s q).wr.req s) := by
  simp only [peerReset, h, hp, Bool.not_true, Bool.false_eq_true, if_false, List.drop_nil, ite_self]
  rfl

end

/-! ### A push leaves its crossing (R278) -/

/-- The write side of a queue and the host pushes that wait for it, where the queues are in canonical form. -/
structure Waits (q : Nat) (w : Side) (l : List (BitVec 64 × Bool)) (s : State) : Prop where
  queues : mwf dQueue s.queues = true
  wr : (getQ s q).wr = w
  hostPush : (getQ s q).hostPush = l

section
variable {s t : State} {q : Nat} {w : Side} {l : List (BitVec 64 × Bool)}

theorem Waits.of_setQ (hm : mwf dQueue s.queues = true) (x : Queue) : Waits q x.wr x.hostPush (setQ q x s) := by
  have hx : getQ (setQ q x s) q = x := getQ_setQ_self hm
  refine ⟨?_, by rw [hx], by rw [hx]⟩
  rw [setQ_queues]
  exact mwf_mset _ _ _ _ hm

theorem Waits.ite {c : Prop} {inst : Decidable c} (hs : Waits q w l s) (ht : Waits q w l t) : Waits q w l (if c then s else t) := by
  split <;> assumption

theorem Waits.iteSnd {α : Type} {c : Prop} {inst : Decidable c} {x y : α × State} (hx : Waits q w l x.2) (hy : Waits q w l y.2) :
    Waits q w l (if c then x else y).2 := by
  split <;> assumption

variable (h : Waits q w l s)
include h

theorem Waits.congr (hq : t.queues = s.queues) : Waits q w l t := by
  obtain ⟨hm, hw, hl⟩ := h
  rw [← getQ_congr hq] at hw hl
  exact ⟨hq ▸ hm, hw, hl⟩

theorem Waits.setQ {x : Queue} (hw : x.wr = w) (hl : x.hostPush = l) : Waits q w l (Machine.setQ q x s) :=
  hw ▸ hl ▸ .of_setQ h.queues x

theorem Waits.setReg {o : Nat} {v : Word} : Waits q w l (setReg o v s) := h.congr rfl

theorem Waits.bump {o : Nat} : Waits q w l (bump o s) := h.congr rfl

/-- A queue is stored, its write side and its host pushes as they are to be. -/
theorem Waits.setQFields {mem wp rp pwp rpW pwpR openSpill spillSeen sealReq inItem itemOpen last lastTag flush flushing discarding
    flushN flushTail wr rd hold hostPush staleFired above} (hw : wr = w) (hl : hostPush = l) :
    Waits q w l (Machine.setQ q ⟨mem, wp, rp, pwp, rpW, pwpR, openSpill, spillSeen, sealReq, inItem, itemOpen, last, lastTag, flush,
      flushing, discarding, flushN, flushTail, wr, rd, hold, hostPush, staleFired, above⟩ s) := h.setQ hw hl

theorem Waits.qEvent {bits : Nat} : Waits q w l (qEvent q bits s) := h.congr (qEvent_queues q bits s)

theorem Waits.qResult {code : Nat} : Waits q w l (qResult q code s) := h.setReg

theorem Waits.qDrop {code : Nat} : Waits q w l (qDrop q code s) := h.bump.qEvent.qResult

theorem Waits.qLevel : Waits q w l (qLevel q s) := by
  unfold Machine.qLevel
  dsimp only
  split
  · exact .qEvent (.bump (h.setQFields h.wr h.hostPush))
  · exact h.setQFields h.wr h.hostPush

theorem Waits.drawFree : Waits q w l (drawFree s) := h.congr rfl

theorem Waits.qStoreWr {c : Word} {p : Nat} {v : QWord} : (qStore c p v (getQ s q)).wr = w := h.wr

theorem Waits.qStoreHostPush {c : Word} {p : Nat} {v : QWord} : (qStore c p v (getQ s q)).hostPush = l := h.hostPush

theorem Waits.bumpMarker : Waits q w l (bumpMarker q s) := by
  have hd {c : Prop} [Decidable c] : Waits q w l (if c then Machine.drawFree s else s) := .ite h.drawFree h
  unfold Machine.bumpMarker
  dsimp only
  split
  · exact .bump (.qEvent (.bump (hd.setQ h.qStoreWr h.qStoreHostPush)))
  · split
    · exact .qEvent (.bump (hd.setQ h.qStoreWr h.qStoreHostPush))
    · exact hd.setQ h.qStoreWr h.qStoreHostPush

theorem Waits.spill : Waits q w l (spill q s) := by
  have hd : Waits q w l (Machine.qDrop q 1 s) := h.qDrop
  unfold Machine.spill
  dsimp only
  generalize Machine.qDrop q 1 s = u at *
  refine .ite hd.bumpMarker (.bump ?_)
  split
  · exact hd.setQFields hd.qStoreWr hd.qStoreHostPush
  · exact hd.setQFields hd.qStoreWr hd.qStoreHostPush

theorem Waits.flushMarker : Waits q w l (flushMarker q s) := by
  unfold Machine.flushMarker
  dsimp only
  split
  · exact h.setQFields h.qStoreWr h.qStoreHostPush
  · exact .qLevel (.qEvent (h.setQFields h.qStoreWr h.qStoreHostPush))

theorem Waits.discardWord {last : Bool} : Waits q w l (discardWord q last s) := by
  have hd : Waits q w l (Machine.qResult q 1 (Machine.qEvent q 2 (Machine.bump (Reg.flushDiscard q) s))) := h.bump.qEvent.qResult
  unfold Machine.discardWord
  dsimp only
  split
  · exact .flushMarker (hd.setQFields h.wr h.hostPush)
  · exact hd.setQFields h.wr h.hostPush

theorem Waits.storeWord {pay : BitVec 64} {last : Bool} : Waits q w l (storeWord q pay last s) := by
  unfold Machine.storeWord
  dsimp only
  split
  · exact .qLevel (.qResult (h.setQFields h.qStoreWr h.qStoreHostPush))
  · exact .qLevel (.qResult (h.setQFields h.qStoreWr h.qStoreHostPush))

theorem Waits.offUnlinked {last : Bool} : Waits q w l (offUnlinked q last s) := .qDrop (.ite h.discardWord h)

theorem Waits.pushWord {pay : BitVec 64} {last : Bool} : Waits q w l (pushWord q pay last s).2 := by
  have hs : Waits q w l (Machine.setQ q { getQ s q with inItem := !last } s) := h.setQFields h.wr h.hostPush
  exact .iteSnd h (.iteSnd hs.offUnlinked (.iteSnd hs.discardWord (.iteSnd hs.storeWord hs.spill)))

end

/-! ### A request and an acknowledge (R278) -/

theorem Side.request_req (b : Bool) (x : Side) : (Side.request b x).req = (x.req || (b && !x.inReset && !x.ack)) := by
  unfold Side.request
  split
  next h =>
    simp only [Bool.and_eq_true] at h
    simp [h]
  next h => cases hr : x.req <;> simp_all

theorem hostPushArrive_run {s : State} {q : Nat} {w : BitVec 64 × Bool} {l : List (BitVec 64 × Bool)}
    (hp : (getQ s q).hostPush = w :: l) (hr : (getQ s q).wr.req = true) : hostPushArrive q s =
      (pushWord q w.1 w.2 (setQ q { getQ s q with hostPush := l, wr := { (getQ s q).wr with req := false, ack := true } } s)).2 := by
  simp [hostPushArrive, hp, hr]

/-- What an arbiter's entry counts. -/
def entered (sec : Nat) (late : Bool) (s : State) : State := if late then bump (Reg.xingLate sec) s else s

/-- A ball's value handed to the free-running readers. -/
def balled (g : Nat) (v : Bool) (s : State) : State :=
  { s with pins := { s.pins with gioFree := setBit s.pins.gioFree g v } }

theorem entered_spec {s : State} (hr : RegsOk s) (sec : Nat) (late : Bool) :
    getReg (entered sec late s) (Reg.xingLate sec) =
      (if late then satInc (getReg s (Reg.xingLate sec)) else getReg s (Reg.xingLate sec)) ∧
    OnlyRegs [Reg.xingLate sec] s (entered sec late s) ∧ OnlyParts [.regs] s (entered sec late s) := by
  cases late
  · exact ⟨rfl, .refl, .refl⟩
  · exact ⟨getReg_bump_self hr, OnlyRegs.refl.bump (by simp), OnlyParts.refl.bump (by simp)⟩

/-! ### A side leaves reset (R287) -/

section
variable {s : State} {rd : Bool}

/-- A queue whose write or read side leaves reset. -/
def releasedQ (rd : Bool) (x : Queue) : Queue :=
  if rd then { x with rd := (sideRelease x.rd x.wr).1, wr := (sideRelease x.rd x.wr).2 }
  else { x with wr := (sideRelease x.wr x.rd).1, rd := (sideRelease x.wr x.rd).2 }

theorem qRelease_run (q : Nat) (rd : Bool) (s : State) : qRelease q rd s =
    if (if rd then (getQ s q).rd else (getQ s q).wr).inReset = true ∧ qEn (qCfg s q) = true ∧ clockedUp s = true ∧
      siteFailed s q = false then setQ q (releasedQ rd (getQ s q)) s else s := by
  unfold qRelease releasedQ
  dsimp only
  split_ifs <;> simp_all

/-- A pool port whose fabric side or port side leaves reset. -/
def releasedPort (rd : Bool) (x : Port) : Port :=
  if rd then { x with rd := (sideRelease x.rd x.wr).1, wr := (sideRelease x.rd x.wr).2 }
  else { x with wr := (sideRelease x.wr x.rd).1, rd := (sideRelease x.wr x.rd).2 }

theorem portRelease_run (p : Nat) (rd : Bool) (s : State) : portRelease p rd s =
    if (if rd then (getPort s p).rd else (getPort s p).wr).inReset = true ∧ bitAt (getReg s (Reg.ppCfg p)) 0 = true ∧
      clockedUp s = true ∧ (rd && (getPort s p).resetAsked) = false ∧ portFailed s p = false
    then setPort p (releasedPort rd (getPort s p)) s else s := by
  unfold portRelease releasedPort
  dsimp only
  split_ifs <;> simp_all

end

/-- Settles O36: the resets by `wrReset_run` and `rdReset_run`, a message by `sideTake_met`, a peer's reset by `peerCleared_spec`, a held
push by `Waits.pushWord`; requests, acknowledges and balls by what their registers read back. -/
theorem crossings : Obligations.Crossings := by
  unfold Obligations.Crossings
  refine ⟨?wrReset, ?busy, ?rdReset, ?qRelease, ?portRelease, ?portMsg, ?qMsg, ?peerRead, ?peerWrite, ?portRead, ?portWrite, ?reqRead,
    ?hostPush, ?reqPort, ?reqWrite, ?pathFree, ?pathTaken, ?pathAck, ?pathIdle, ?ackRead, ?ackPort, ?ackWrite, ?arbiter⟩
  case wrReset =>
    intro s q ho hp hs hr
    refine gives_mgmt rfl ho ?_
    rw [viaPath_free hp]
    obtain ⟨fl, e⟩ := wrReset_run q s
    unfold qctlWrReset
    rw [e]
    obtain ⟨hf, hparts⟩ := sideGone_frame (wrGone (qCfg s q) (getQ s q) fl) (q / 256) 0 0 (q % 256) (getQ s q).wr.req s q 0
    have hx : getQ (qResult q 0 (setQ q (wrGone (qCfg s q) (getQ s q) fl)
        (discarding (q / 256) 0 0 (q % 256) (getQ s q).wr.req s))) q = wrGone (qCfg s q) (getQ s q) fl :=
      getQ_setQ_self hs.discarding.queues
    rw [hx]
    refine ⟨rfl, rfl, rfl, rfl, rfl, rfl, rfl, getReg_setReg_self ((Keeps.refl _).setQ.regs hr.discarding), ?_, rfl, rfl, rfl,
      hf, hparts⟩
    unfold qResult
    rw [getReg_setReg_ne _ _ _ _ (by unfold Reg.qresult Reg.xingDiscard; omega), getReg_setQ, getReg_discarding hr]
  case busy =>
    intro s q hb ho hr
    refine gives_mgmt rfl ho ?_
    rw [viaPath_busy hb]
    generalize hx : ({ getPath s (q / 256) with kept := (getPath s (q / 256)).kept ++ [(Reg.qctl q, 2#32)] } : RegPath) = x
    have hp : getPath (bump (Reg.xingBusyCount (q / 256)) (setPath (q / 256) x s)) (q / 256) = x := getPath_setPath (hx ▸ hb)
    rw [hp, ← hx]
    exact ⟨getReg_bump_self (s := setPath _ _ s) hr, rfl, rfl, (OnlyParts.refl.setPath (by simp)).bump (by simp)⟩
  case rdReset =>
    intro s q ho hp hs hr
    refine gives_mgmt rfl ho ?_
    rw [viaPath_free hp]
    obtain ⟨fl, e⟩ := rdReset_run q s
    unfold qctlRdReset
    rw [e]
    obtain ⟨hf, hparts⟩ := sideGone_frame (rdGone (getQ s q) fl) (q / 256) 1 1 (q % 256) (getQ s q).rd.req s q 0
    have hx : getQ (qResult q 0 (setQ q (rdGone (getQ s q) fl)
        (discarding (q / 256) 1 1 (q % 256) (getQ s q).rd.req s))) q = rdGone (getQ s q) fl :=
      getQ_setQ_self hs.discarding.queues
    rw [hx]
    exact ⟨getReg_setReg_self ((Keeps.refl _).setQ.regs hr.discarding), rfl, rfl, rfl, rfl, rfl, rfl, rfl, rfl, hf, hparts⟩
  case qRelease =>
    intro s q rd hs
    refine gives_of_exec (t := qRelease q rd s) rfl ?_
    intro me ot
    split
    next h =>
      rw [(qRelease_run q rd s).trans (if_pos h), getQ_setQ_self hs.queues]
      cases rd <;> exact ⟨rfl, rfl, rfl, rfl, OnlyParts.refl.setQ (by simp) (by simp)⟩
    next h => exact (qRelease_run q rd s).trans (if_neg h)
  case portRelease =>
    intro s p rd hs
    refine gives_of_exec (t := portRelease p rd s) rfl ?_
    intro me ot
    split
    next h =>
      rw [(portRelease_run p rd s).trans (if_pos h), getPort_setPort_self hs]
      cases rd <;> exact ⟨rfl, rfl, rfl, rfl, OnlyParts.refl.setPort (by simp)⟩
    next h => exact (portRelease_run p rd s).trans (if_neg h)
  case portMsg =>
    intro s p rd ack e n l hs hr me ot hi hm
    refine gives_of_exec (t := portMsg p rd ack s) (by cases ack <;> rfl) ?_
    obtain ⟨r, htake, h1, h2, h3, h4, h5, h6⟩ := sideTake_met (ot := ot (getPort s p)) hi hm
    obtain ⟨j, e1⟩ := portMsg_run htake
    obtain ⟨hme, hot⟩ := metPort_sides rd r.1 r.2 (getPort s p)
    have hx := exchanged_parts (p / 32) (ack && n != (me (getPort s p)).epoch) j (setPort p (metPort rd r.1 r.2 (getPort s p)) s)
    have hg := getReg_exchanged (s := setPort p (metPort rd r.1 r.2 (getPort s p)) s) hr (p / 32)
      (ack && n != (me (getPort s p)).epoch) j
    have hp : getPort (portMsg p rd ack s) p = metPort rd r.1 r.2 (getPort s p) := by
      rw [e1]
      exact (getPort_congr (hx .pool (by simp))).trans (getPort_setPort_self hs)
    have hreg : getReg (portMsg p rd ack s) (Reg.xingStale (p / 32)) = _ := (congrArg (getReg · _) e1).trans hg
    have hparts : OnlyParts [.pool, .regs] s (portMsg p rd ack s) := by
      rw [e1]
      exact (OnlyParts.refl.setPort (by simp)).trans (hx.mono (by simp))
    have hme' : me (getPort (portMsg p rd ack s) p) = r.1 := (congrArg me hp).trans hme
    have hot' : ot (getPort (portMsg p rd ack s) p) = r.2 := (congrArg ot hp).trans hot
    rw [hme', hot', hp]
    refine ⟨h1, h2, h3, h4, h5, h6, metPort_resetting rd r.1 r.2 _, hreg.trans ?_, hparts⟩
    cases ack <;> simp
  case qMsg =>
    intro s q rd ack e n l hs hr me ot hi hm
    refine gives_of_exec (t := qMsg q rd ack s) (by cases ack <;> rfl) ?_
    obtain ⟨r, htake, h1, h2, h3, h4, h5, h6⟩ := sideTake_met (ot := ot (getQ s q)) hi hm
    obtain ⟨j, e1⟩ := qMsg_run htake
    obtain ⟨hme, hot⟩ := metQ_sides rd r.1 r.2 (getQ s q)
    have hx := exchanged_parts (q / 256) (ack && n != (me (getQ s q)).epoch) j (setQ q (metQ rd r.1 r.2 (getQ s q)) s)
    have hg := getReg_exchanged (s := setQ q (metQ rd r.1 r.2 (getQ s q)) s) ((Keeps.refl s).setQ.regs hr) (q / 256)
      (ack && n != (me (getQ s q)).epoch) j
    have hq : getQ (qMsg q rd ack s) q = metQ rd r.1 r.2 (getQ s q) := by
      rw [e1]
      exact (getQ_congr (hx .queues (by simp))).trans (getQ_setQ_self hs.queues)
    have hreg : getReg (qMsg q rd ack s) (Reg.xingStale (q / 256)) = _ := (congrArg (getReg · _) e1).trans hg
    have hparts : OnlyParts [.queues, .eddies, .regs] s (qMsg q rd ack s) := by
      rw [e1]
      exact (OnlyParts.refl.setQ (by simp) (by simp)).trans (hx.mono (by simp))
    have hme' : me (getQ (qMsg q rd ack s) q) = r.1 := (congrArg me hq).trans hme
    have hot' : ot (getQ (qMsg q rd ack s) q) = r.2 := (congrArg ot hq).trans hot
    rw [hme', hot']
    refine ⟨h1, h2, h3, h4, h5, h6, hreg.trans ?_, hparts⟩
    rw [getReg_setQ]
    cases ack <;> simp
  case peerRead =>
    intro s q hs hr
    refine gives_of_exec (t := peerReset q true s) rfl ?_
    split
    next h =>
      obtain ⟨he, hl, hd⟩ := discardReg_apart q.isLt (.inl rfl)
      have hk := discarding_touches (q / 256) 1 0 (q % 256) (getQ s q).rd.req s
      rw [peerReset_read h]
      obtain ⟨⟨b, hq⟩, hreg, hbit⟩ := peerCleared_spec (n := ptrSub (qCfg s q) (getQ s q).pwp (getQ s q).rp)
        (x := { getQ s q with rp := (getQ s q).pwp, rpW := (getQ s q).pwp, pwpR := (getQ s q).pwp, spillSeen := false
                              rd := (getQ s q).rd.peerSeen })
        hs.discarding hr.discarding he hl (by decide : bitAt (w32 8) 3 = true)
      rw [hk.regs _ hd] at hreg
      rw [hq]
      exact ⟨rfl, rfl, rfl, rfl, hreg, hbit⟩
    next h => simp [peerReset, h]
  case peerWrite =>
    intro s q hs hr hp
    refine gives_of_exec (t := peerReset q false s) rfl ?_
    split
    next h =>
      obtain ⟨he, hl, hd⟩ := discardReg_apart (o := if (getQ s q).wr.inReset then Reg.qPeerDiscard q else Reg.qDropped q) q.isLt
        (by split <;> simp)
      have hk := discarding_touches (q / 256) 0 1 (q % 256) (getQ s q).wr.req s
      rw [peerReset_write h hp]
      obtain ⟨⟨b, hq⟩, hreg, hbit⟩ := peerCleared_spec (n := qDepth (qCfg s q) (getQ s q))
        (x := { getQ s q with rp := (getQ s q).wp, rpW := (getQ s q).wp, pwp := (getQ s q).wp, pwpR := (getQ s q).wp
                              openSpill := false, sealReq := none, hostPush := [], discarding := (getQ s q).discarding || (getQ s q).inItem
                              wr := (getQ s q).wr.peerSeen })
        hs.discarding hr.discarding he hl (by decide : bitAt (w32 16) 4 = true)
      rw [hk.regs _ hd] at hreg
      rw [hq]
      exact ⟨rfl, rfl, rfl, rfl, rfl, hreg, hbit⟩
    next h => simp [peerReset, h]
  case portRead =>
    intro s p hs
    refine gives_of_exec (t := portPeerReset p true s) rfl ?_
    split
    next h =>
      have e : portPeerReset p true s = setPort p { getPort s p with rd := (getPort s p).rd.peerSeen, peerRd := true } s := by
        simp [portPeerReset, h]
      rw [e, getPort_setPort_self hs]
      exact ⟨rfl, rfl, rfl, OnlyParts.refl.setPort (by simp)⟩
    next h => simp [portPeerReset, h]
  case portWrite =>
    intro s p hs
    refine gives_of_exec (t := portPeerReset p false s) rfl ?_
    split
    next h =>
      have e : portPeerReset p false s = setPort p { getPort s p with wr := (getPort s p).wr.peerSeen, peerWr := true } s := by
        simp [portPeerReset, h]
      rw [e, getPort_setPort_self hs]
      exact ⟨rfl, rfl, rfl, OnlyParts.refl.setPort (by simp)⟩
    next h => simp [portPeerReset, h]
  case reqRead =>
    intro s q hs
    refine gives_of_exec (t := setQ q { getQ s q with rd := _ } s) rfl ?_
    rw [getQ_setQ_self hs.queues]
    exact ⟨Side.request_req _ _, rfl, rfl, OnlyParts.refl.setQ (by simp) (by simp)⟩
  case hostPush =>
    intro s q w l hs hp hr
    have e : reqArrive (.qWrite q) s = hostPushArrive q s := by simp [reqArrive, hp]
    refine gives_of_exec (t := reqArrive (.qWrite q) s) rfl ?_
    rw [e, hostPushArrive_run hp hr]
    have hw := (Waits.of_setQ (q := q) hs.queues
      { getQ s q with hostPush := l, wr := { (getQ s q).wr with req := false, ack := true } }).pushWord (pay := w.1) (last := w.2)
    exact ⟨hw.hostPush, hw.wr⟩
  case reqPort =>
    intro s p k hs
    refine gives_of_exec (t := reqArrive (.poolPort p k) s) rfl ?_
    simp only [reqArrive]
    split
    next h =>
      rw [getPort_setPort_self hs]
      simp only [Bool.and_eq_true, Bool.not_eq_true'] at h
      obtain ⟨⟨⟨⟨⟨hh, ho⟩, hl⟩, -⟩, ha⟩, hq⟩ := h
      refine ⟨?_, rfl, OnlyParts.refl.setPort (by simp)⟩
      rw [bitAt_setBit_of_lt _ _ k.isLt]
      simp [hh, ho, hl, ha, hq]
    next h =>
      refine ⟨?_, rfl, .refl⟩
      simp only [Bool.and_eq_true, Bool.not_eq_true'] at h
      cases hb : bitAt (getPort s p).req k <;> simp_all
  case reqWrite =>
    intro s q hs hp
    have e : reqArrive (.qWrite q) s =
        setQ q { getQ s q with wr := (getQ s q).wr.request (hostOf s (qWrTile q) == .qWr q && offers s (qWrTile q) 15) } s := by
      simp [reqArrive, hp]
    refine gives_of_exec (t := reqArrive (.qWrite q) s) rfl ?_
    rw [e, getQ_setQ_self hs.queues]
    exact ⟨Side.request_req _ _, rfl, OnlyParts.refl.setQ (by simp) (by simp)⟩
  case pathFree =>
    intro s sec h
    exact gives_of_exec (t := reqArrive (.regPath sec) s) rfl (by simp [reqArrive, h])
  case pathTaken =>
    intro s sec o v h ht
    exact gives_of_exec (t := reqArrive (.regPath sec) s) rfl (by simp [reqArrive, h, ht])
  case pathAck =>
    intro s sec w l ht hk
    have e : ackArrive (.regPath sec) s = setPath sec { data := some w, taken := false, kept := l } s := by
      simp [ackArrive, ht, hk]
    refine gives_of_exec (t := ackArrive (.regPath sec) s) rfl ?_
    rw [e]
    exact ⟨getPath_setPath rfl, OnlyParts.refl.setPath (by simp)⟩
  case pathIdle =>
    intro s sec h
    exact gives_of_exec (t := ackArrive (.regPath sec) s) rfl (by simp [ackArrive, h])
  case ackRead =>
    intro s q hs
    refine gives_of_exec (t := setQ q { getQ s q with rd := _ } s) rfl ?_
    rw [getQ_setQ_self hs.queues]
    exact ⟨rfl, rfl, OnlyParts.refl.setQ (by simp) (by simp)⟩
  case ackPort =>
    intro s p k hs
    refine gives_of_exec (t := setPort p { getPort s p with ack := _ } s) rfl ?_
    rw [getPort_setPort_self hs]
    exact ⟨bitAt_setBit_of_lt _ _ k.isLt false, rfl, OnlyParts.refl.setPort (by simp)⟩
  case ackWrite =>
    intro s q hs
    refine gives_of_exec (t := setQ q { getQ s q with wr := _ } s) rfl ?_
    rw [getQ_setQ_self hs.queues]
    exact ⟨rfl, rfl, OnlyParts.refl.setQ (by simp) (by simp)⟩
  case arbiter =>
    intro s sec late ball v hr
    obtain ⟨hreg, honly, hparts⟩ := entered_spec hr sec late
    have hfab : (entered sec late s).fab = s.fab := hparts .fab (by simp)
    have hpins : (entered sec late s).pins = s.pins := hparts .pins (by simp)
    cases ball with
    | none =>
      refine gives_of_exec (t := entered sec late s) rfl
        ⟨hreg, nofun, fun _ => hpins, fun _ u => ?_, fun _ => hfab, honly, hparts.mono (by simp)⟩
      rw [getTile, hfab, getTile]
    | some g =>
      have hs' (hs : StoresOk s) : StoresOk (balled g v (entered sec late s)) :=
        (Canon.ite (Canon.refl s).bump (Canon.refl s)).stores hs
      refine gives_of_exec (t := refreshAcks (balled g v (entered sec late s))) rfl
        ⟨hreg, fun _ h => ?_, nofun, fun hs u => ?_, nofun, honly, .refreshAcks (.pins (hparts.mono (by simp)) (by simp)) (by simp)⟩
      · cases h
        exact bitAt_setBit_of_lt _ _ g.isLt v
      · rw [getTile_refreshAcks (hs' hs)]
        simp only [balled, getTile, hfab]

end Sys2Proof.Machine
end

section
/-! SUPPORT. Words and descriptors without errors: what a read, a write and a lookup give, and what they leave (R283, R294, R304, R323). -/

namespace Sys2Proof.Machine

/-! ### Bytes laid over a word -/

/-- Bytes below the enabled ones are those of the new word. -/
theorem setFld_byte {a new : BitVec 64} {i : Nat} (hi : i < 8) (h : a.toNat % 2 ^ (8 * i) = new.toNat % 2 ^ (8 * i)) :
    (setFld a (8 * i) 8 (fld new (8 * i) 8)).toNat % 2 ^ (8 * (i + 1)) = new.toNat % 2 ^ (8 * (i + 1)) := by
  have ha := a.isLt
  have hn := new.isLt
  simp only [setFld, fld, Nat.shiftRight_eq_div_pow, BitVec.toNat_ofNat] at *
  interval_cases i <;> norm_num at h ⊢ <;> omega

theorem mergeBytes_all (old new : BitVec 64) : mergeBytes 0xFF#8 old new = new := by
  have hb (i : Nat) (hi : i < 8) : bitAt 0xFF#8 i = true := by interval_cases i <;> decide
  have h (n : Nat) (hn : n ≤ 8) : ((upTo n).foldl (fun a i => if bitAt 0xFF#8 i then setFld a (8 * i) 8 (fld new (8 * i) 8) else a)
      old).toNat % 2 ^ (8 * n) = new.toNat % 2 ^ (8 * n) := by
    induction n with
    | zero => simp [Nat.mod_one]
    | succ n ih =>
      simp only [upTo, List.range_succ, List.foldl_append, List.foldl_cons, List.foldl_nil, hb n hn, if_true]
      exact setFld_byte hn (ih (by omega))
  have h8 := h 8 le_rfl
  rw [Nat.mod_eq_of_lt (BitVec.isLt _), Nat.mod_eq_of_lt new.isLt] at h8
  exact BitVec.eq_of_toNat_eq h8

theorem mergeBytes_none (old new : BitVec 64) : mergeBytes 0#8 old new = old := by
  have hb (i : Nat) : bitAt 0#8 i = false := by simp [bitAt]
  simp [mergeBytes, hb]

section
variable {s t : State} {u n wa : Nat}

/-! ### Checks that find nothing (R532) -/

theorem popc_zero (n : Nat) : popc n 0 = 0 := by
  induction n with
  | zero => rfl
  | succ n ih => rw [popc, Nat.zero_mod, Nat.zero_div, ih]

theorem eccVerdict_zero (f : Nat) : eccVerdict 0 f = .ok := by simp [eccVerdict]

theorem eccData_zero {w : Nat} (f : Nat) (d e : BitVec w) : eccData 0 f d e = d := by simp [eccData]

theorem hbmFetch_clean (h : (hbmAt s wa).err = 0) (src : Nat) : hbmFetch wa src s = ((hbmAt s wa).data, false, s) := by
  have hp : popc 72 (hbmAt s wa).err.toNat = 0 := by
    rw [h]
    exact popc_zero 72
  unfold hbmFetch
  simp only [hp, eccVerdict_zero, eccData_zero, Nat.not_lt_zero, if_false]

theorem fifoCheck_clean (d : BitVec 64) : fifoCheck wa d 0#72 s = (d, false, s) := by
  have hp : popc 72 (0#72).toNat = 0 := popc_zero 72
  unfold fifoCheck
  simp only [hp, eccVerdict_zero, eccData_zero, Nat.not_lt_zero, if_false, BitVec.setWidth_zero, BitVec.xor_zero]

theorem fifoPass_clean (h : s.pool.fifo = []) (k : Nat) (d : BitVec 64) : fifoPass k wa d s = (d, false, s) := by
  simp [fifoPass, h, dFifo]

theorem hbmRead_clean (hf : s.pool.fifo = []) (h : (hbmAt s wa).err = 0) : hbmRead wa s = ((hbmAt s wa).data, false, s) := by
  simp [hbmRead, hbmFetch_clean h, fifoPass_clean hf]

/-! ### Writes (R323) -/

theorem StoresOk.hbm (h : StoresOk s) : mwf dHbm s.pool.hbm = true := by
  obtain ⟨-, -, -, -, -, -, hh, -⟩ := h
  exact hh

/-- A write to a word without error stores its enabled bytes, and changes no other word. -/
theorem hbmStore_clean (hs : StoresOk s) (h : (hbmAt s wa).err = 0) (be : BitVec 8) (d : BitVec 64) :
    ∃ m w, hbmStore wa be d false s = { s with pool := { s.pool with hbm := m, wb := w } } ∧
      mget dHbm m wa = { data := mergeBytes be (hbmAt s wa).data d } ∧ ∀ a, a ≠ wa → mget dHbm m a = hbmAt s a := by
  have hset (v : HWord) : mget dHbm (mset dHbm s.pool.hbm wa v) wa = v ∧
      ∀ a, a ≠ wa → mget dHbm (mset dHbm s.pool.hbm wa v) a = hbmAt s a :=
    ⟨(mget_mset _ _ _ _ _ (mwf_rising hs.hbm)).trans (if_pos rfl), fun a ha => mget_mset_ne _ _ _ _ _ (Ne.symm ha)⟩
  unfold hbmStore
  by_cases hall : be = 0xFF#8
  · subst hall
    exact ⟨_, _, rfl, by rw [mergeBytes_all]; exact (hset _).1, (hset _).2⟩
  by_cases hnone : be = 0#8
  · subst hnone
    refine ⟨s.pool.hbm, s.pool.wb, rfl, ?_, fun _ _ => rfl⟩
    rw [mergeBytes_none, ← h]
    rfl
  · rw [hbmFetch_clean h]
    simp only [hall, hnone, if_false]
    exact ⟨_, _, rfl, (hset _).1, (hset _).2⟩

/-! ### Descriptors (R298, R304) -/

/-- The words of descriptor `n`, as the table holds them. -/
def tableWords (n : Nat) (m : SMap HWord) : Desc :=
  (upTo 4).flatMap fun i =>
    [(mget dHbm m (4 * n + i)).data.setWidth 32, w32 ((mget dHbm m (4 * n + i)).data.toNat / 2 ^ 32)]

theorem readDesc_clean (hf : s.pool.fifo = []) (h : ∀ i < 4, (hbmAt s (4 * n + i)).err = 0) :
    readDesc n s = (tableWords n s.pool.hbm, s) := by
  have hl (l : List Nat) (hl : ∀ i ∈ l, i < 4) (d : Desc) : l.foldl (fun (a : Desc × State) i =>
      let r := hbmRead (4 * n + i) a.2
      (a.1 ++ [r.1.setWidth 32, w32 (r.1.toNat / 2 ^ 32)], r.2.2)) (d, s) =
      (d ++ l.flatMap fun i => [(hbmAt s (4 * n + i)).data.setWidth 32, w32 ((hbmAt s (4 * n + i)).data.toNat / 2 ^ 32)], s) := by
    induction l generalizing d with
    | nil => simp
    | cons i l ih =>
      rw [List.foldl_cons, hbmRead_clean hf (h i (hl i (by simp))), ih (fun j hj => hl j (by simp [hj]))]
      simp
  exact hl (upTo 4) (fun i hi => by simpa [upTo] using hi) []

/-- A cache that holds only `d` for descriptor `n` gives it, or nothing. -/
theorem find?_key {l : List (Nat × Desc)} {d : Desc} (h : ∀ e ∈ l, e.1 = n → e = (n, d)) :
    l.find? (fun e => e.1 = n) = some (n, d) ∨ l.find? (fun e => e.1 = n) = none := by
  cases hf : l.find? (fun e => e.1 = n) with
  | none => exact .inr rfl
  | some e => exact .inl (congrArg some (h e (List.mem_of_find?_eq_some hf) (by simpa using List.find?_some hf)))

/-- Of more descriptors than a cache holds, one leaves. -/
def trimmed (s : State) (u : Nat) (l : List (Nat × Desc)) : List (Nat × Desc) :=
  if l.length ≤ 4096 then l
  else match l.reverse.find? (fun e => !pinned s u e.1) with | some e => l.filter (fun q => q.1 != e.1) | none => l.take 4096

theorem mem_of_mem_trimmed {l : List (Nat × Desc)} {e : Nat × Desc} (h : e ∈ trimmed s u l) : e ∈ l := by
  unfold trimmed at h
  split at h
  · exact h
  · split at h
    · exact List.mem_of_mem_filter h
    · exact List.mem_of_mem_take h

/-- One descriptor's leaving does not empty a cache. -/
theorem trimmed_ne_nil {d : Desc} {l : List (Nat × Desc)} (hl : ∀ e ∈ l, e.1 ≠ n) : trimmed s u ((n, d) :: l) ≠ [] := by
  unfold trimmed
  split
  · simp
  · next hlong =>
    split
    · next e _ =>
      by_cases he : n = e.1
      · obtain ⟨q, hq⟩ : ∃ q, q ∈ l := List.exists_mem_of_ne_nil l (by rintro rfl; simp at hlong)
        exact List.ne_nil_of_mem (a := q) (by simp [hq, ← he, hl q hq])
      · simp [he]
    · simp

/-- Entering a descriptor in a cache leaves no other of its number there. -/
theorem cacheDesc_spec (u n : Nat) (d : Desc) (s : State) : ∃ m, cacheDesc u n d s = { s with pool := { s.pool with dcache := m } } ∧
    ((mget dDescs m u).find? (fun e => e.1 = n) = some (n, d) ∨ (mget dDescs m u).find? (fun e => e.1 = n) = none) := by
  have hne : ∀ e ∈ (mget dDescs s.pool.dcache u).filter (fun e => e.1 != n), e.1 ≠ n := by simp
  refine ⟨mset dDescs s.pool.dcache u (trimmed s u ((n, d) :: (mget dDescs s.pool.dcache u).filter (fun e => e.1 != n))), rfl, ?_⟩
  generalize (mget dDescs s.pool.dcache u).filter (fun e => e.1 != n) = l at hne
  rw [mget_mset_listed _ _ _ _ (trimmed_ne_nil hne)]
  refine find?_key fun e he hn => ?_
  rcases List.mem_cons.mp (mem_of_mem_trimmed he) with he | he
  · exact he
  · exact absurd hn (hne e he)

/-- A lookup that meets no error changes the descriptor caches alone, and the descriptor stays what it was. -/
theorem descTouch_clean (h : DescClean s u n) : ∃ m, descTouch u n s = { s with pool := { s.pool with dcache := m } } ∧
    descOf (descTouch u n s) u n = descOf s u n ∧ DescClean (descTouch u n s) u n := by
  unfold descTouch
  cases hc : cachedDesc s u n with
  | some d => exact ⟨s.pool.dcache, rfl, rfl, h⟩
  | none =>
    obtain hd | ⟨hf, hw⟩ := h
    · simp [hc] at hd
    · rw [readDesc_clean hf hw]
      obtain ⟨m, hm, hfound⟩ := cacheDesc_spec u n (tableWords n s.pool.hbm) s
      have ht : descOf s u n = tableWords n s.pool.hbm := by rw [descOf, hc, Option.getD_none, tableDesc, readDesc_clean hf hw]
      have ht' : tableDesc { s with pool := { s.pool with dcache := m } } n = tableWords n s.pool.hbm := by
        rw [tableDesc, readDesc_clean (s := { s with pool := { s.pool with dcache := m } }) hf hw]
      refine ⟨m, hm, ?_, ?_⟩ <;> dsimp only
      · rw [hm, ht, descOf, ht', cachedDesc]
        dsimp only
        rcases hfound with e | e <;> rw [e] <;> rfl
      · rw [hm]
        exact .inr ⟨hf, hw⟩

/-- A descriptor is read off its cache, the table and the FIFOs that bring its words. -/
theorem descOf_congr (h : DescClean s u n) (hd : t.pool.dcache = s.pool.dcache) (hh : t.pool.hbm = s.pool.hbm)
    (hf : t.pool.fifo = s.pool.fifo) : descOf t u n = descOf s u n := by
  have hc : cachedDesc t u n = cachedDesc s u n := by rw [cachedDesc, hd, cachedDesc]
  rw [descOf, hc, descOf]
  obtain hs | ⟨hf', hw⟩ := h
  · obtain ⟨d, e⟩ := Option.isSome_iff_exists.mp hs
    rw [e, Option.getD_some, Option.getD_some]
  · have ha (i : Nat) : hbmAt t i = hbmAt s i := by rw [hbmAt, hh, hbmAt]
    rw [tableDesc, tableDesc, readDesc_clean hf' hw, readDesc_clean (hf.trans hf') fun i hi => by rw [ha]; exact hw i hi, hh]

end

end Sys2Proof.Machine
end

section
/-! SETTLED. Pool ports: requests, violations, answers, drains and the port's reset (R57, R182, R304–R322). -/

namespace Sys2Proof.Machine

/-! ### Answers (R306, R309, R313) -/

section
variable {s : State} {p k : Nat} {d : Desc}

theorem portStore_clean (hf : s.pool.fifo = []) (hc : dCache d = false) {err : BitVec 72} (he : err = 0) (idx : Nat) (be : BitVec 8)
    (v : BitVec 64) : portStore p d idx be v err s = hbmStore (poolAddr d idx) be v false s := by
  subst he
  simp [portStore, portData, fifoCheck_clean, fifoPass_clean hf, hc]

theorem portFetch_clean {wa : Nat} (hf : s.pool.fifo = []) (hc : dCache d = false) (h : (hbmAt s wa).err = 0) :
    portFetch p d wa s = ((hbmAt s wa).data, false, s) := by
  simp [portFetch, portMemRead, hc, hbmRead_clean hf h, fifoPass_clean hf]

/-- An answer without error or refusal, which is driven where its stage still waits. -/
def replied (gone free : Bool) (t : Nat) (data : BitVec 64) (s : State) : State :=
  if gone then s else portDrive t free data false false s

theorem portDrive_parts (t : Nat) (free : Bool) (data : BitVec 64) (err refused : Bool) (s : State) :
    OnlyParts [.fab] s (portDrive t free data err refused s) := by
  unfold portDrive
  dsimp only
  split
  · unfold portStage
    dsimp only
    split
    · exact .refl
    · exact .refreshAcks (.setTile .refl (by simp)) (by simp)
  · exact OnlyParts.refl.setTile (by simp)

theorem replied_parts (gone free : Bool) (t : Nat) (data : BitVec 64) (s : State) : OnlyParts [.fab] s
    (replied gone free t data s) := by
  unfold replied
  split
  exacts [.refl, portDrive_parts _ _ _ _ _ _]

/-- A stage that is gone or under GSR gets no answer (R57). -/
theorem replied_none {gone : Bool} {t : Nat} (h : gone = true ∨ gsrOn s (tSec t) = true) (data : BitVec 64) :
    (replied gone true t data s).fab = s.fab := by
  unfold replied
  split
  · rfl
  · next hg =>
    obtain h | h := h
    · exact absurd h hg
    · simp [portDrive, portStage, h]

theorem replied_portOut (hs : StoresOk s) {gone free : Bool} {t : Nat} (hg : gone = false) (h : free = true → gsrOn s (tSec t) = false)
    (data : BitVec 64) : (getTile (replied gone free t data s) t).portOut = some (BitVec.ofNat 128 data.toNat) := by
  unfold replied portDrive
  rw [hg]
  cases free with
  | false => simp [portAnswer, getTile_setTile_self hs, b2n]
  | true =>
    simp only [Bool.false_eq_true, if_false, if_true, portStage, h rfl]
    rw [getTile_refreshAcks hs.setTile, getTile_setTile_self hs]
    simp [b2n]

/-- The port once the one request that it holds has left. -/
def emptied (p : Nat) (s : State) : State := setPort p { getPort s p with reqs := [] } s

theorem poolPortAnswer_write {r : PReq} (hq : (getPort s p).reqs = [(k, r)]) (ht : r.st = .taken) (hw : r.we = true) :
    poolPortAnswer p k s = replied r.gone r.tick.isNone (poolTile p k) 0
      (if r.tick.isNone then portStore p (descOf s (p / 32) r.pool) r.idx r.be r.din r.err (emptied p s) else emptied p s) := by
  simp [poolPortAnswer, hq, ht, hw, merase, replied, emptied]

theorem poolPortAnswer_read {r : PReq} (hq : (getPort s p).reqs = [(k, r)]) (ht : r.st = .taken) (hw : r.we = false)
    (hf : s.pool.fifo = []) (hd : descOf s (p / 32) r.pool = d) (hc : dCache d = false) (he : (hbmAt s (poolAddr d r.idx)).err = 0) :
    poolPortAnswer p k s = replied r.gone r.tick.isNone (poolTile p k)
      (mergeBytes (portForward (emptied p s) p d r.pool r.idx r.tick).1 (hbmAt s (poolAddr d r.idx)).data
        (portForward (emptied p s) p d r.pool r.idx r.tick).2) (emptied p s) := by
  have hfetch : portFetch p d (poolAddr d r.idx) (emptied p s) = ((hbmAt s (poolAddr d r.idx)).data, false, emptied p s) :=
    portFetch_clean hf hc he
  have hread (data : BitVec 64) : portReadAnswer (poolTile p k) r data false (emptied p s) =
      portDrive (poolTile p k) r.tick.isNone data false false (emptied p s) := by simp [portReadAnswer]
  have hfind : (getPort s p).reqs.find? (fun r => r.1 = k) = some (k, r) := by simp [hq]
  have hany : (r.tick.isNone && (getPort s p).reqs.any fun q =>
      q.2.tick.isNone && q.2.st == .taken && decide (q.2.no < r.no)) = false := by
    simp [hq]
  have hleft : setPort p { getPort s p with reqs := merase (getPort s p).reqs k } s = emptied p s := by
    simp [hq, merase, emptied]
  unfold poolPortAnswer
  dsimp only
  rw [hfind]
  dsimp only
  rw [ht]
  dsimp only
  rw [hany, hw, hleft, hd, hfetch]
  simp only [Bool.false_eq_true, if_false]
  unfold replied
  split
  · rfl
  · split
    · next hall => rw [hall, mergeBytes_all, hread]
    · exact hread _

theorem getPort_emptied (hs : StoresOk s) : getPort (emptied p s) p = { getPort s p with reqs := [] } := getPort_setPort_self hs

theorem StoresOk.emptied (hs : StoresOk s) : StoresOk (emptied p s) := (Canon.refl s).setPort.stores hs

theorem emptied_parts (p : Nat) (s : State) : OnlyParts [.pool] s (emptied p s) := OnlyParts.refl.setPort (by simp)

theorem replied_hbm {gone free : Bool} {t : Nat} {data : BitVec 64} :
    (replied gone free t data (emptied p s)).pool.hbm = s.pool.hbm := by
  have hp : (replied gone free t data (emptied p s)).pool = (emptied p s).pool :=
    replied_parts gone free t data (emptied p s) .pool (by simp)
  rw [hp]
  rfl

/-- No entry of a write buffer lies over a word of a pool that is not VERSIONED (R315). -/
theorem mergeBytes_plain {n idx : Nat} (h : dVersioned d = false) (w : BitVec 64) :
    mergeBytes (portForward s p d n idx none).1 w (portForward s p d n idx none).2 = w := by
  have hf : portForward s p d n idx none = (0, 0) := by simp [portForward, forwardOther, h]
  rw [hf]
  exact mergeBytes_none w 0

/-- A tick-bound read sees its own port's entries (R182). -/
theorem portForward_tick {n idx t : Nat} (hs : StoresOk s) (h : dVersioned d = true) (ho : dOwner d = p) :
    portForward (emptied p s) p d n idx (some t) = forwarded (getPort s p) n idx t := by
  simp only [portForward, h, ownerPort, ho, decide_true, Bool.and_self, if_true, getPort_emptied hs]
  rfl

/-- A free-running read is answered with the word. -/
theorem answer_read (hs : StoresOk s) {gone : Bool} {data : BitVec 64} :
    (getPort (replied gone true (poolTile p k) data (emptied p s)) p).reqs = [] ∧
    (∀ q, q ≠ p → getPort (replied gone true (poolTile p k) data (emptied p s)) q = getPort s q) ∧
    (gone = true ∨ gsrOn s (tSec (poolTile p k)) = true → (replied gone true (poolTile p k) data (emptied p s)).fab = s.fab) ∧
    ((gone = false → gsrOn s (tSec (poolTile p k)) = false →
      (getTile (replied gone true (poolTile p k) data (emptied p s)) (poolTile p k)).portOut = some (BitVec.ofNat 128 data.toNat)) ∧
      (replied gone true (poolTile p k) data (emptied p s)).pool.hbm = s.pool.hbm) ∧
    OnlyParts [.fab, .pool] s (replied gone true (poolTile p k) data (emptied p s)) := by
  have hp := replied_parts gone true (poolTile p k) data (emptied p s)
  have hpool := hp .pool (by simp)
  refine ⟨?_, fun q hq => ?_, fun h => replied_none (s := emptied p s) h data,
    ⟨fun hg hn => replied_portOut hs.emptied hg (fun _ => hn) data,
    replied_hbm⟩, ((emptied_parts p s).mono (by simp)).trans (hp.mono (by simp))⟩
  · rw [getPort_congr hpool, getPort_emptied hs]
  · rw [getPort_congr hpool]
    exact getPort_setPort_ne hq.symm

/-- A free-running write stores its enabled bytes and is answered. -/
theorem answer_write (hs : StoresOk s) {gone : Bool} {idx : Nat} {be : BitVec 8} {din : BitVec 64} {err : BitVec 72} {t : State}
    (hf : s.pool.fifo = []) (hc : dCache d = false) (hw : (hbmAt s (poolAddr d idx)).err = 0) (he : err = 0)
    (ht : t = replied gone true (poolTile p k) 0 (portStore p d idx be din err (emptied p s))) :
    (getPort t p).reqs = [] ∧ (∀ q, q ≠ p → getPort t q = getPort s q) ∧
    (gone = true ∨ gsrOn s (tSec (poolTile p k)) = true → t.fab = s.fab) ∧
    ((gone = false → gsrOn s (tSec (poolTile p k)) = false → (getTile t (poolTile p k)).portOut = some 0) ∧
      hbmAt t (poolAddr d idx) = { data := mergeBytes be (hbmAt s (poolAddr d idx)).data din } ∧
      ∀ a, a ≠ poolAddr d idx → hbmAt t a = hbmAt s a) ∧ OnlyParts [.fab, .pool] s t := by
  have hstores : StoresOk (hbmStore (poolAddr d idx) be din false (emptied p s)) := (Canon.refl _).hbmStore.stores hs.emptied
  obtain ⟨m, w, e, hat, hne⟩ := hbmStore_clean hs.emptied (wa := poolAddr d idx) hw be din
  rw [portStore_clean (s := emptied p s) hf hc he, e] at ht
  rw [e] at hstores
  subst ht
  generalize hu : ({ emptied p s with pool := { (emptied p s).pool with hbm := m, wb := w } } : State) = u at *
  have hparts : OnlyParts [.pool] s u := by
    rw [← hu]
    exact (emptied_parts p s).pool (by simp)
  have hport (q : Nat) : getPort u q = getPort (emptied p s) q := by rw [← hu]; rfl
  have hfab : u.fab = s.fab := hparts .fab (by simp)
  have hgsr : gsrOn u (tSec (poolTile p k)) = gsrOn s (tSec (poolTile p k)) := by rw [gsrOn, hfab, gsrOn]
  have hhbm : u.pool.hbm = m := by rw [← hu]
  have hp := replied_parts gone true (poolTile p k) 0 u
  have hpool := hp .pool (by simp)
  have hword (a : Nat) : hbmAt (replied gone true (poolTile p k) 0 u) a = mget dHbm m a := by rw [hbmAt, hpool, hhbm]
  refine ⟨?_, fun q hq => ?_, fun h => (replied_none (by rwa [hgsr]) 0).trans hfab,
    ⟨fun hg hn => replied_portOut hstores hg (fun _ => hgsr.trans hn) 0, (hword _).trans hat, fun a ha => (hword a).trans (hne a ha)⟩,
    (hparts.mono (by simp)).trans (hp.mono (by simp))⟩
  · rw [getPort_congr hpool, hport, getPort_emptied hs]
  · rw [getPort_congr hpool, hport]
    exact getPort_setPort_ne hq.symm

end

/-! ### The port's reset (R322) -/

/-- What discarding a port's requests keeps. -/
structure Dropping (p : Nat) (s t : State) : Prop where
  stores : StoresOk t
  port : ∃ m b, getPort t p = { getPort s p with reqs := m, req := b }
  parts : OnlyParts [.pool, .regs, .fab] s t
  hbm : t.pool.hbm = s.pool.hbm

section
variable {s t : State} {p : Nat} (h : Dropping p s t)
include h

/-- A change beside the pools. -/
theorem Dropping.beside {u : State} (hs : StoresOk u) (hu : OnlyParts [.regs, .fab] t u) : Dropping p s u := by
  have hp : u.pool = t.pool := hu .pool (by simp)
  refine ⟨hs, ?_, h.parts.trans (hu.mono (by simp)), (congrArg Pools.hbm hp).trans h.hbm⟩
  rw [getPort_congr hp]
  exact h.port

theorem Dropping.setPort {m : SMap PReq} {b : BitVec 4} : Dropping p s (setPort p { getPort t p with reqs := m, req := b } t) := by
  obtain ⟨m', b', hp⟩ := h.port
  refine ⟨(Canon.refl t).setPort.stores h.stores, ⟨m, b, ?_⟩, h.parts.setPort (by simp), h.hbm⟩
  rw [getPort_setPort_self h.stores, hp]

theorem Dropping.xingDiscard {sec kind side idx : Nat} : Dropping p s (xingDiscard sec kind side idx t) :=
  h.beside ((Canon.refl t).xingDiscard.stores h.stores) ((xingDiscard_touches sec kind side idx t).parts.mono (by simp))

theorem Dropping.portDrive {x : Nat} {free : Bool} {data : BitVec 64} {err refused : Bool} :
    Dropping p s (portDrive x free data err refused t) :=
  h.beside ((Canon.refl t).portDrive.stores h.stores) ((portDrive_parts x free data err refused t).mono (by simp))

theorem Dropping.ite {c : Prop} [Decidable c] {u : State} (hu : Dropping p s u) : Dropping p s (if c then t else u) := by
  split <;> assumption

theorem Dropping.dropReq {k : Nat} : Dropping p s (dropReq p k t) := by
  unfold Machine.dropReq
  dsimp only
  split
  · refine .ite (.ite ?_ ?_) h
    · exact .portDrive (.xingDiscard h.setPort)
    · exact .xingDiscard h.setPort
  · refine .ite ?_ ?_
    · exact .portDrive (.xingDiscard h.setPort)
    · exact .xingDiscard h.setPort

end

theorem portResetDone_run {s : State} {p : Nat} (hs : StoresOk s) (ha : (getPort s p).resetAsked = true)
    (hw : (getPort s p).wb.any (fun e => e.tick < s.ra.com) = false) : ∃ t, Dropping p s t ∧
      portResetDone p s = setPort p { getPort t p with
        cache := [], resetAsked := false, req := 0, ack := 0, rd := (sideRelease (getPort t p).rd (getPort t p).wr).1
        wr := (sideRelease (getPort t p).rd (getPort t p).wr).2 } t := by
  refine ⟨forEach (dropReq p) (upTo 4) s,
    forEach_keeps (Dropping p s) _ (fun _ _ h => h.dropReq) _ _ ⟨hs, ⟨_, _, rfl⟩, .refl, rfl⟩, ?_⟩
  simp [portResetDone, ha, hw]

/-! ### Violations (R320, R321, R451) -/

section
variable {s : State} {p k : Nat} {req : PReq}

/-- A freeze record enters the queue where there is room, and marks no master. -/
theorem freezeRecord_spec (hr : RegsOk s) (cls i v code n idx : Nat) :
    (freezeRecord cls i v code n idx s).frz.port = s.frz.port ∧
    getReg (freezeRecord cls i v code n idx s) Reg.poolViolations = getReg s Reg.poolViolations ∧
    (s.frz.recs.length < 64 →
      ∃ r ∈ (freezeRecord cls i v code n idx s).frz.recs, r.cls = cls ∧ r.idx = i ∧ r.cause = v ∧ r.addr = idx) ∧
    OnlyParts [.frz, .regs, .msix] s (freezeRecord cls i v code n idx s) ∧ RegsOk (freezeRecord cls i v code n idx s) := by
  have hd : Reg.frzDropped ≠ Reg.poolViolations := by decide
  have ht : Reg.frzTotal ≠ Reg.poolViolations := by decide
  have hparts : OnlyParts [.frz, .regs, .msix] s (bump Reg.frzTotal { s with frz := { s.frz with seq := (s.frz.seq + 1) % 65536 } }) :=
    (OnlyParts.refl.frz (by simp)).bump (by simp)
  have hreg : getReg (bump Reg.frzTotal { s with frz := { s.frz with seq := (s.frz.seq + 1) % 65536 } }) Reg.poolViolations =
      getReg s Reg.poolViolations := getReg_bump_ne ht
  refine ⟨?_, ?_, fun h => ?_, ?_, (Keeps.refl s).freezeRecord.regs hr⟩ <;> unfold freezeRecord <;> dsimp only
  · split <;> simp
  · split
    · rw [getReg_raiseVec]
      exact hreg
    · exact (getReg_bump_ne hd).trans hreg
  · rw [if_pos h]
    simp
  · split
    · exact (hparts.frz (by simp)).trans
        ((Touches.refl (ps := [.frz, .regs, .msix]) (rs := fun _ => False)).raiseVec (by simp)).parts
    · exact hparts.bump (by simp)

/-- A violation in the pool block freezes its port and writes a record. -/
theorem poolViolation_spec (hr : RegsOk s) (hp : p < 256) (v n idx : Nat) :
    isFrozen (poolViolation 3 p v n idx s) 3 p = true ∧
    getReg (poolViolation 3 p v n idx s) Reg.poolViolations = satInc (getReg s Reg.poolViolations) ∧
    (s.frz.recs.length < 64 → ∃ r ∈ (poolViolation 3 p v n idx s).frz.recs, r.cls = 3 ∧ r.idx = p ∧ r.cause = v ∧ r.addr = idx) ∧
    OnlyParts [.frz, .regs, .msix] s (poolViolation 3 p v n idx s) := by
  have hport : bitAt (setBit s.frz.port p true) p = true := bitAt_setBit_of_lt _ _ hp _
  obtain ⟨hp', hregs, hrec, hparts, hok⟩ := freezeRecord_spec (s := setFrozen 3 p true s) hr 3 p v
    (if v = 4 && 3 != 4 then 1 else 2) n idx
  unfold poolViolation freezeMaster
  generalize freezeRecord 3 p v _ n idx (setFrozen 3 p true s) = w at *
  refine ⟨?_, ?_, fun h => by simpa using hrec h, ?_⟩
  · simp only [isFrozen, raiseVec_frz, bump_frz, hp']
    exact hport
  · rw [getReg_raiseVec, getReg_bump_self hok, hregs]
    rfl
  · have hv := Touches.raiseVec (v := 9) (rs := fun _ => False)
      (Touches.refl (ps := [.msix]) (s := bump Reg.poolViolations w)) (by simp)
    exact ((((OnlyParts.refl.frz (by simp)).trans (hparts.mono (by simp))).bump (by simp))).trans (hv.parts.mono (by simp))

/-- What discarding the versions of tick `t` and later leaves of a port (R163). -/
def portDiscard (t : Nat) (x : Port) : Port :=
  { x with wb := x.wb.filter (fun e => e.tick < t)
           reqs := x.reqs.filter (fun r => match r.2.tick with | some k => k < t | none => true) }

theorem find?_filter_of_find? {α : Type} {l : List α} {f g : α → Bool} {a : α} (h : l.find? g = some a) (ha : f a = true) :
    (l.filter f).find? g = some a := by
  induction l with
  | nil => simp at h
  | cons b l ih =>
    by_cases hb : g b = true
    · obtain rfl : b = a := by simpa [List.find?_cons, hb] using h
      simp [ha, hb]
    · have hl : l.find? g = some a := by simpa [List.find?_cons, hb] using h
      by_cases hf : f b = true <;> simp [hf, hb, ih hl]

/-- A free-running request outlives what is discarded. -/
theorem find?_portDiscard {x : Port} {t : Nat} (h : x.reqs.find? (fun r => r.1 = k) = some (k, req)) (ht : req.tick = none) :
    (portDiscard t x).reqs.find? (fun r => r.1 = k) = some (k, req) :=
  find?_filter_of_find? h (by simp [ht])

theorem abandonTick_ports (s : State) : (abandonTick s).pool.ports = s.pool.ports ∨
    ∃ t, (abandonTick s).pool.ports = mmap dPort (fun _ => portDiscard t) s.pool.ports := by
  unfold abandonTick
  split
  · exact .inr ⟨s.tick.nowP1 - 1, rfl⟩
  · exact .inl rfl

theorem enterFault_ports (code : Nat) (multi : Bool) (s : State) : (enterFault code multi s).pool.ports = s.pool.ports ∨
    ∃ t, (enterFault code multi s).pool.ports = mmap dPort (fun _ => portDiscard t) s.pool.ports := by
  have h (c : Bool) : (if c then drawFree s else s).pool = s.pool := by cases c <;> rfl
  have ha := abandonTick_ports (if s.tick.st == .halted && !s.tick.inTick && s.tick.cycle then drawFree s else s)
  rw [h] at ha
  unfold enterFault
  simpa using ha

theorem tickFault_ports (code : Nat) (s : State) : (tickFault code s).pool.ports = s.pool.ports ∨
    ∃ t, (tickFault code s).pool.ports = mmap dPort (fun _ => portDiscard t) s.pool.ports := by
  have hj : (joinFault code s).pool = s.pool :=
    (Touches.refl.joinFault (ps := [.tick, .free, .regs]) (rs := fun _ => True) (by simp) (by simp) (by simp)
      trivial).parts .pool (by simp)
  unfold tickFault tickFaults
  dsimp only
  split
  · exact .inl (congrArg Pools.ports hj)
  · split <;> exact .inl rfl
  · exact enterFault_ports _ _ s

/-- A fault cause writes TICK_CAUSE and TICK_FAULTS, and freezes no master. -/
theorem tickFault_touches (code : Nat) (s : State) : Touches [.regs, .fab, .bm, .tick, .ra, .pool, .queues, .free, .msix]
    (fun o => o = Reg.tickCause ∨ o = Reg.tickFaults) s (tickFault code s) := by
  unfold tickFault tickFaults
  dsimp only
  split
  · exact Touches.refl.joinFault (by simp) (by simp) (by simp) (.inl rfl)
  · split
    · exact Touches.refl.tick (by simp)
    · exact Touches.refl.tick (by simp)
  · have hd : Touches [.regs, .fab, .bm, .tick, .ra, .pool, .queues, .free, .msix] (fun o => o = Reg.tickCause ∨ o = Reg.tickFaults) s
        (if s.tick.st == .halted && !s.tick.inTick && s.tick.cycle then drawFree s else s) :=
      .ite (Touches.refl.drawFree (by simp)) .refl
    exact ((((hd.andThen (abandonTick_touches _) (by simp) (by simp)).tickRa (by simp) (by simp)).setReg (by simp) (.inl rfl)).bump
      (by simp) (.inr rfl)).raiseVec (by simp)

theorem find?_tickFault (hs : StoresOk s) (code : Nat) (h : (getPort s p).reqs.find? (fun r => r.1 = k) = some (k, req))
    (ht : req.tick = none) : (getPort (tickFault code s) p).reqs.find? (fun r => r.1 = k) = some (k, req) := by
  rcases tickFault_ports code s with e | ⟨t, e⟩
  · rwa [getPort, e]
  · rw [getPort, e, mget_mmap (mwf_rising hs.ports) rfl]
    exact find?_portDiscard h ht

/-- A port's violation, whether or not the engine goes to FAULT for it: a free-running request is still there. -/
theorem portViolates_spec (hs : StoresOk s) (hr : RegsOk s) (hp : p < 256) (v n idx : Nat)
    (hq : (getPort s p).reqs.find? (fun r => r.1 = k) = some (k, req)) (ht : req.tick = none) :
    (getPort (portViolates p v n idx s) p).reqs.find? (fun r => r.1 = k) = some (k, req) ∧
    isFrozen (portViolates p v n idx s) 3 p = true ∧
    getReg (portViolates p v n idx s) Reg.poolViolations = satInc (getReg s Reg.poolViolations) ∧
    (s.frz.recs.length < 64 → ∃ r ∈ (portViolates p v n idx s).frz.recs, r.cls = 3 ∧ r.idx = p ∧ r.cause = v ∧ r.addr = idx) := by
  unfold portViolates
  dsimp only
  generalize cycleViolations s p = cyc
  generalize hw : (if waveOn s && portTickBound s p then { s with pool := { s.pool with cyc := cyc } } else s) = w
  have hws : StoresOk w ∧ RegsOk w ∧ w.frz = s.frz ∧ w.regs = s.regs ∧ getPort w p = getPort s p := by
    rw [← hw]
    split <;> exact ⟨hs, hr, rfl, rfl, rfl⟩
  obtain ⟨hso, hro, hfrz, hregs, hport⟩ := hws
  obtain ⟨hfr, hviol, hrec, hparts⟩ := poolViolation_spec hro hp v n idx
  have hq' : (getPort (poolViolation 3 p v n idx w) p).reqs.find? (fun r => r.1 = k) = some (k, req) := by
    rw [getPort_congr (hparts .pool (by simp)), hport]
    exact hq
  have hso' : StoresOk (poolViolation 3 p v n idx w) := (Canon.refl w).poolViolation.stores hso
  rw [show getReg w Reg.poolViolations = getReg s Reg.poolViolations by rw [getReg, hregs, getReg]] at hviol
  rw [hfrz] at hrec
  split
  · have ht' := tickFault_touches 0x17 (poolViolation 3 p v n idx w)
    have hf' : (tickFault 0x17 (poolViolation 3 p v n idx w)).frz = (poolViolation 3 p v n idx w).frz := ht'.parts .frz (by simp)
    refine ⟨find?_tickFault hso' 0x17 hq' ht, ?_, ?_, ?_⟩
    · rw [isFrozen, hf']
      exact hfr
    · rw [ht'.regs Reg.poolViolations (by decide)]
      exact hviol
    · rw [hf']
      exact hrec
  · exact ⟨hq', hfr, hviol, hrec⟩

end

/-! ### Requests (R305, R307–R309) -/

theorem mem_mput {α : Type} {m : SMap α} {k : Nat} {v : α} {q : Nat × α} (h : q ∈ mput m k v) : q = (k, v) ∨ q ∈ m := by
  induction m with
  | nil => simpa [mput] using h
  | cons b m ih =>
    obtain ⟨j, w⟩ := b
    unfold mput at h
    split_ifs at h
    · simpa using h
    · rcases List.mem_cons.mp h with h | h
      · exact .inl h
      · exact .inr (by simp [h])
    · rcases List.mem_cons.mp h with h | h
      · exact .inr (by simp [h])
      · rcases ih h with h | h
        · exact .inl h
        · exact .inr (by simp [h])

theorem find?_mput {α : Type} (m : SMap α) (k : Nat) (v : α) : (mput m k v).find? (fun r => r.1 = k) = some (k, v) := by
  induction m with
  | nil => simp [mput]
  | cons b m ih =>
    obtain ⟨j, w⟩ := b
    unfold mput
    split_ifs with h1 h2
    · simp
    · simp
    · simpa [Ne.symm h2] using ih

section
variable {s : State} {p k : Nat}

/-- A port that takes a request of channel `k`: the register that held it is free. -/
def taking (k : Nat) (x : Port) : Port := { x with ack := x.ack ||| (x.req &&& (1#4 <<< k)), req := setBit x.req k false }

/-- The request that stands at channel `k` entered in its port, its descriptor looked up. -/
def asked (p k : Nat) (s : State) : State :=
  putReq p k (portAsks s p k).1 (descTouch (p / 32) (portAsks s p k).1.pool (setPort p (taking k (getPort s p)) s))

/-- What becomes of a request that its port has taken (R309, R320). -/
def judged (p k : Nat) (s t : State) : State :=
  let (r, d, v) := portAsks s p k
  if v != 0 then portViolates p v r.pool r.idx (putReq p k { r with st := .refused } t)
  else if dDepth d ≤ r.idx then bump Reg.poolRangeCount (bump (Reg.ppRange p) (putReq p k { r with st := .refused } t))
  else portAdvance p k t

theorem getPort_putReq (hs : StoresOk s) (r : PReq) :
    getPort (putReq p k r s) p = { getPort s p with reqs := mput (getPort s p).reqs k r } :=
  getPort_setPort_self hs

theorem StoresOk.putReq (hs : StoresOk s) {r : PReq} : StoresOk (putReq p k r s) := (Canon.refl s).putReq.stores hs

/-- A request entered in its port without an error in the lookup of its descriptor. -/
theorem entered_request (hs : StoresOk s) {r : PReq} {u : Nat} (x : Port) (hc : DescClean s u r.pool) :
    ∃ m dc, putReq p k r (descTouch u r.pool (setPort p x s)) = { s with pool := { s.pool with ports := m, dcache := dc } } ∧
      mget dPort m p = { x with reqs := mput x.reqs k r } := by
  have hs1 : StoresOk (setPort p x s) := (Canon.refl s).setPort.stores hs
  have hs2 : StoresOk (descTouch u r.pool (setPort p x s)) := (Canon.refl _).descTouch.stores hs1
  have hg := getPort_putReq (k := k) (p := p) hs2 r
  obtain ⟨m, hm, -⟩ := descTouch_clean (s := setPort p x s) (u := u) (n := r.pool) hc
  have hx : getPort (descTouch u r.pool (setPort p x s)) p = x := by
    rw [hm]
    exact getPort_setPort_self hs
  rw [hx] at hg
  refine ⟨(putReq p k r (descTouch u r.pool (setPort p x s))).pool.ports, m, ?_, hg⟩
  rw [hm]
  rfl

/-- The descriptor of the request stays what it was. -/
theorem descOf_asked (hc : DescClean s (p / 32) (portAsks s p k).1.pool) :
    descOf (asked p k s) (p / 32) (portAsks s p k).1.pool = descOf s (p / 32) (portAsks s p k).1.pool := by
  unfold asked
  generalize portAsks s p k = a at *
  generalize taking k (getPort s p) = x
  obtain ⟨-, -, hd, hc2⟩ := descTouch_clean (s := setPort p x s) (u := p / 32) (n := a.1.pool) hc
  have hs : descOf (setPort p x s) (p / 32) a.1.pool = descOf s (p / 32) a.1.pool := descOf_congr hc rfl rfl rfl
  generalize descTouch (p / 32) a.1.pool (setPort p x s) = w at hd hc2 ⊢
  have hw : descOf (putReq p k a.1 w) (p / 32) a.1.pool = descOf w (p / 32) a.1.pool := descOf_congr hc2 rfl rfl rfl
  rw [hw, hd, hs]

theorem asked_stores (hs : StoresOk s) : StoresOk (asked p k s) := (Canon.refl s).setPort.descTouch.putReq.stores hs

theorem poolPortRequest_free (hh : hostOf s (poolTile p k) = .pool p k) (hf : fFree (frameOf s (poolTile p k)) = true)
    (ht : portTakes s (poolTile p k) = true) (hl : lineRail s (poolTile p k) 0 = .v1)
    (hq : (getPort s p).reqs.any (fun r => r.1 = k) = false) (hz : isFrozen s 3 p = false) (hr : (getPort s p).resetting = false)
    (hp : portLinked (getPort s p) = true) (ha : bitAt (getPort s p).ack k = false) :
    poolPortRequest p k s = judged p k s (asked p k s) := by
  simp [poolPortRequest, judged, asked, taking, hh, hf, ht, hl, hq, hz, hr, hp, ha]

theorem poolPortRequest_tick (hh : hostOf s (poolTile p k) = .pool p k) (hf : fFree (frameOf s (poolTile p k)) = false)
    (hn : portQuiet s (poolTile p k) = false) (hw : waveOn s = true) (ho : (getTile s (poolTile p k)).portOut = none)
    (hv : linesValid s (poolTile p k) (hostLines s (poolTile p k)) = true)
    (hq : (getPort s p).reqs.any (fun r => r.1 = k) = false) (hz : isFrozen s 3 p = false) (hr : (getPort s p).resetting = false)
    (hp : portLinked (getPort s p) = true) (ha : bitAt (getPort s p).ack k = false) :
    poolPortRequest p k s = judged p k s (asked p k s) := by
  simp [poolPortRequest, judged, asked, taking, hh, hf, hn, hw, ho, hv, hq, hz, hr, hp, ha]

/-- The arrival number of the next request of a port (R309). -/
def arrival (x : Port) : Nat := x.reqs.foldl (fun a r => max a (r.2.no + 1)) 0

theorem portAsks_free (hf : fFree (frameOf s (poolTile p k)) = true) : portAsks s p k =
    ({ tick := none, we := (lineRail s (poolTile p k) 1).high, pool := fld (ppBinding s p (linesVal s (poolTile p k) 2 2)) 0 20
       idx := linesVal s (poolTile p k) 12 35, be := BitVec.ofNat 8 (linesVal s (poolTile p k) 4 8)
       din := BitVec.ofNat 64 (linesVal s (poolTile p k) 64 64), no := arrival (getPort s p), st := .waiting },
      descOf s (p / 32) (fld (ppBinding s p (linesVal s (poolTile p k) 2 2)) 0 20),
      portViolation p (ppBinding s p (linesVal s (poolTile p k) 2 2))
        (descOf s (p / 32) (fld (ppBinding s p (linesVal s (poolTile p k) 2 2)) 0 20)) false (lineRail s (poolTile p k) 1).high) := by
  simp only [portAsks, hf, if_true, Bool.not_true, arrival]

theorem portAsks_tick (hf : fFree (frameOf s (poolTile p k)) = false) : portAsks s p k =
    ({ tick := some (s.tick.nowP1 - 1), we := (lineRail s (poolTile p k) 1).high
       pool := fld (ppBinding s p (linesVal s (poolTile p k) 2 2)) 0 20
       idx := linesVal s (poolTile p k) 12 35, be := BitVec.ofNat 8 (linesVal s (poolTile p k) 4 8)
       din := BitVec.ofNat 64 (linesVal s (poolTile p k) 64 64), no := arrival (getPort s p), st := .waiting },
      descOf s (p / 32) (fld (ppBinding s p (linesVal s (poolTile p k) 2 2)) 0 20),
      portViolation p (ppBinding s p (linesVal s (poolTile p k) 2 2))
        (descOf s (p / 32) (fld (ppBinding s p (linesVal s (poolTile p k) 2 2)) 0 20)) true (lineRail s (poolTile p k) 1).high) := by
  simp only [portAsks, hf, Bool.false_eq_true, if_false, Bool.not_false, arrival]

/-- The violations of a free-running request, in the order of R320. -/
theorem portViolation_free (b : Word) (d : Desc) (we : Bool) : portViolation p b d false we =
    if bitAt b 31 = false then 6 else if dKind d = 0 then 4 else if dRight d (if we then 1 else 0) = false then 5
    else if we = true ∧ bitAt b 30 = false then 7 else if we = true ∧ dVersioned d = true then 9 else 0 := by
  simp [portViolation]

/-! ### A request that goes on (R300, R309) -/

section
variable {r : PReq} {d : Desc} {v : Nat}

theorem find?_putReq (hs : StoresOk s) : (getPort (putReq p k r s) p).reqs.find? (fun r => r.1 = k) = some (k, r) := by
  rw [getPort_putReq hs]
  exact find?_mput _ k r

/-- A request that reaches memory or a model stays with its channel. -/
theorem find?_portReach (hs : StoresOk s) {r' : PReq} (ht : r.tick = none)
    (hq : (getPort s p).reqs.find? (fun r => r.1 = k) = some (k, r')) :
    ∃ req, (getPort (portReach p k d r s) p).reqs.find? (fun r => r.1 = k) = some (k, req) := by
  unfold portReach
  rw [ht]
  dsimp only
  split
  · exact ⟨_, find?_putReq hs⟩
  · split
    · split
      next h => exact ⟨_, find?_putReq ((Canon.askModel (Canon.refl s) h).stores hs)⟩
      next => exact ⟨_, hq⟩
    · exact ⟨_, find?_putReq hs⟩

/-- A free-running request of a pool without a model waits for memory. -/
theorem portReach_plain (ht : r.tick = none) (hm : dModel d = false) {x : PReqState} :
    portReach p k d { r with st := x } s = putReq p k { r with st := x } s := by
  simp [portReach, ht, hm]

theorem portAdvance_waits (hq : (getPort s p).reqs.find? (fun r => r.1 = k) = some (k, r))
    (hw : s.pool.initWait.contains r.pool = true) :
    portAdvance p k s = s := by
  unfold portAdvance
  dsimp only
  rw [hq]
  dsimp only
  rw [hw]
  simp

theorem portAdvance_goes (hq : (getPort s p).reqs.find? (fun r => r.1 = k) = some (k, r)) (hst : r.st = .waiting)
    (hw : s.pool.initWait.contains r.pool = false)
    (ho : (r.tick.isNone && (getPort s p).reqs.any fun q => q.2.tick.isNone && q.2.st == .waiting && decide (q.2.no < r.no)) = false) :
    portAdvance p k s = portReach p k (descOf s (p / 32) r.pool) { r with st := .taken } s := by
  unfold portAdvance
  dsimp only
  rw [hq]
  dsimp only
  rw [hw, ho, hst, if_neg (by decide)]

theorem find?_portAdvance (hs : StoresOk s) (hq : (getPort s p).reqs.find? (fun r => r.1 = k) = some (k, r)) (ht : r.tick = none) :
    ∃ req, (getPort (portAdvance p k s) p).reqs.find? (fun r => r.1 = k) = some (k, req) := by
  unfold portAdvance
  dsimp only
  rw [hq]
  dsimp only
  split
  · exact ⟨_, hq⟩
  · exact find?_portReach (r := { r with st := .taken }) hs ht hq

/-- A free-running request with its reason for a refusal, or on its way. -/
theorem judged_free (hs : StoresOk s) (hr : RegsOk s) (hp : p < 256) (hask : portAsks s p k = (r, d, v)) (ht : r.tick = none)
    (hst : r.st = .waiting) (hd : d = descOf s (p / 32) r.pool) (hc : DescClean s (p / 32) r.pool) :
    ∃ req, (getPort (judged p k s (asked p k s)) p).reqs.find? (fun r => r.1 = k) = some (k, req) ∧
      (v ≠ 0 → req.st = .refused ∧ isFrozen (judged p k s (asked p k s)) 3 p = true ∧
        getReg (judged p k s (asked p k s)) Reg.poolViolations = satInc (getReg s Reg.poolViolations) ∧
        (s.frz.recs.length < 64 → ∃ x ∈ (judged p k s (asked p k s)).frz.recs, x.cls = 3 ∧ x.idx = p ∧ x.cause = v ∧ x.addr = r.idx)) ∧
      (v = 0 → dDepth d ≤ r.idx → req.st = .refused ∧
        getReg (judged p k s (asked p k s)) (Reg.ppRange p) = satInc (getReg s (Reg.ppRange p)) ∧
        getReg (judged p k s (asked p k s)) Reg.poolRangeCount = satInc (getReg s Reg.poolRangeCount)) ∧
      (v = 0 → r.idx < dDepth d → s.pool.initWait.contains r.pool = true →
        req = r ∧ (judged p k s (asked p k s)).pool.hbm = s.pool.hbm) ∧
      (v = 0 → r.idx < dDepth d → s.pool.initWait.contains r.pool = false → dModel d = false →
        (getPort s p).reqs.any (fun q => q.2.tick.isNone && q.2.st == .waiting) = false →
        req = { r with st := .taken } ∧ (judged p k s (asked p k s)).pool.hbm = s.pool.hbm) := by
  have hstores : StoresOk (asked p k s) := asked_stores hs
  have hdesc := descOf_asked (s := s) (p := p) (k := k) (by rwa [hask])
  have hent : ∃ m dc, asked p k s = { s with pool := { s.pool with ports := m, dcache := dc } } ∧
      mget dPort m p = { taking k (getPort s p) with reqs := mput (getPort s p).reqs k r } := by
    unfold asked
    rw [hask]
    exact entered_request hs (taking k (getPort s p)) hc
  rw [hask] at hdesc
  obtain ⟨m, dc, ha, hport⟩ := hent
  unfold judged
  rw [hask]
  dsimp only at hdesc ⊢
  rw [← hd] at hdesc
  generalize asked p k s = a at *
  have hreqs : (getPort a p).reqs = mput (getPort s p).reqs k r := by
    rw [ha]
    exact congrArg Port.reqs hport
  have hfind : (getPort a p).reqs.find? (fun r => r.1 = k) = some (k, r) := by
    rw [hreqs]
    exact find?_mput _ k r
  have hregs : a.regs = s.regs := by rw [ha]
  have hra : RegsOk a := by
    unfold RegsOk
    rwa [hregs]
  have hget (o : Nat) : getReg a o = getReg s o := by rw [getReg, hregs, getReg]
  have hfrz : a.frz = s.frz := by rw [ha]
  have hhbm : a.pool.hbm = s.pool.hbm := by rw [ha]
  have hwait : a.pool.initWait = s.pool.initWait := by rw [ha]
  have hrefused := find?_putReq (k := k) (p := p) (r := { r with st := .refused }) hstores
  by_cases hv : v = 0
  · subst hv
    simp only [ne_eq, not_true_eq_false, bne_self_eq_false, Bool.false_eq_true, if_false, false_implies, true_implies, true_and]
    by_cases hdep : dDepth d ≤ r.idx
    · rw [if_pos hdep]
      have hne : Reg.poolRangeCount ≠ Reg.ppRange p := by
        unfold Reg.poolRangeCount Reg.ppRange
        omega
      have hrr : RegsOk (putReq p k { r with st := .refused } a) := hra
      have hg (o : Nat) : getReg (putReq p k { r with st := .refused } a) o = getReg s o := hget o
      generalize putReq p k { r with st := .refused } a = w at hrefused hrr hg ⊢
      have hrb : RegsOk (bump (Reg.ppRange p) w) := hrr.setReg
      have hport' : getPort (bump Reg.poolRangeCount (bump (Reg.ppRange p) w)) p = getPort w p := getPort_congr rfl
      refine ⟨{ r with st := .refused }, by rw [hport', hrefused], fun _ => ⟨rfl, ?_, ?_⟩, fun h => absurd h (by omega),
        fun h => absurd h (by omega)⟩
      · rw [getReg_bump_ne hne, getReg_bump_self hrr, hg]
      · rw [getReg_bump_self hrb, getReg_bump_ne (Ne.symm hne), hg]
    · rw [if_neg hdep]
      by_cases hw : s.pool.initWait.contains r.pool = true
      · rw [portAdvance_waits hfind (by rwa [hwait])]
        exact ⟨r, hfind, fun h => absurd h hdep, fun _ _ => ⟨rfl, hhbm⟩, fun _ h => absurd hw (by rw [h]; decide)⟩
      by_cases hgo : dModel d = false ∧ (getPort s p).reqs.any (fun q => q.2.tick.isNone && q.2.st == .waiting) = false
      · have hothers : (r.tick.isNone && (getPort a p).reqs.any fun q =>
            q.2.tick.isNone && q.2.st == .waiting && decide (q.2.no < r.no)) =
            false := by
          rw [hreqs, ht, Option.isNone_none, Bool.true_and, List.any_eq_false]
          intro q hq
          rcases mem_mput hq with rfl | hq
          · simp
          · have hn := List.any_eq_false.mp hgo.2 q hq
            rw [Bool.not_eq_true] at hn
            rw [hn]
            simp
        rw [portAdvance_goes hfind hst (by rw [hwait]; simpa using hw) hothers, hdesc, portReach_plain ht hgo.1]
        exact ⟨{ r with st := .taken }, find?_putReq hstores, fun h => absurd h hdep, fun _ h => absurd h hw,
          fun _ _ _ _ => ⟨rfl, hhbm⟩⟩
      · obtain ⟨req, hreq⟩ := find?_portAdvance hstores hfind ht
        exact ⟨req, hreq, fun h => absurd h hdep, fun _ h => absurd h hw, fun _ _ h1 h2 => absurd ⟨h1, h2⟩ hgo⟩
  · rw [if_pos (by simpa using hv)]
    obtain ⟨hf, hz, hviol, hrec⟩ := portViolates_spec (s := putReq p k { r with st := .refused } a)
      hstores.putReq hra hp v r.pool r.idx
      hrefused ht
    refine ⟨{ r with st := .refused }, hf, fun _ => ⟨rfl, hz, hviol.trans (by rw [← hget]; rfl), ?_⟩,
      fun h => absurd h hv, fun h => absurd h hv,
      fun h => absurd h hv⟩
    intro hl
    exact hrec (by rw [← hfrz] at hl; exact hl)

end

end

/-! ### A tick-bound write (R312) -/

section
variable {s : State} {p k : Nat}

theorem takeEntry_new {t k pool idx : Nat} {be : BitVec 8} {din : BitVec 64} {l : List WbEntry}
    (h : ∀ e ∈ l, ¬ (e.tick = t ∧ e.pool = pool ∧ e.idx = idx)) :
    takeEntry t k pool idx be din l = (false, l ++ [newEntry t k pool idx be din]) := by
  induction l with
  | nil => rfl
  | cons e l ih =>
    have he : (decide (e.tick = t) && decide (e.pool = pool) && decide (e.idx = idx)) = false := by
      simpa [and_assoc] using h e (by simp)
    rw [takeEntry, he, if_neg (by simp), ih fun e' h' => h e' (by simp [h'])]
    rfl

/-- A write of a word that no entry of its tick holds, where there is room. -/
theorem portTickWrite_new {t : Nat} {r : PReq} (hl : (getPort s p).wb.length < 4096)
    (h : ∀ e ∈ (getPort s p).wb, ¬ (e.tick = t ∧ e.pool = r.pool ∧ e.idx = r.idx)) : portTickWrite p k t r s =
      putReq p k r (setPort p { getPort s p with wb := (getPort s p).wb ++ [newEntry t k r.pool r.idx r.be r.din] } s) := by
  have hlen : ((getPort s p).wb ++ [newEntry t k r.pool r.idx r.be r.din]).length ≤ 4096 := by
    rw [List.length_append, List.length_singleton]
    omega
  unfold portTickWrite
  dsimp only
  rw [takeEntry_new h]
  dsimp only
  rw [if_pos hlen, if_neg (by simp)]

/-- A tick-bound write that nothing refuses takes an entry of its tick. -/
theorem judged_write {r : PReq} {d : Desc} {t : Nat} (hs : StoresOk s) (hask : portAsks s p k = (r, d, 0)) (ht : r.tick = some t)
    (hwe : r.we = true) (hst : r.st = .waiting) (hc : DescClean s (p / 32) r.pool) (hd : r.idx < dDepth d)
    (hw : s.pool.initWait.contains r.pool = false) (hl : (getPort s p).wb.length < 4096)
    (hn : ∀ e ∈ (getPort s p).wb, ¬ (e.tick = t ∧ e.pool = r.pool ∧ e.idx = r.idx)) :
    (getPort (judged p k s (asked p k s)) p).wb = (getPort s p).wb ++ [newEntry t k r.pool r.idx r.be r.din] ∧
    (getPort (judged p k s (asked p k s)) p).reqs.find? (fun r => r.1 = k) = some (k, { r with st := .taken }) ∧
    (judged p k s (asked p k s)).pool.hbm = s.pool.hbm ∧ OnlyParts [.pool] s (judged p k s (asked p k s)) := by
  have hstores : StoresOk (asked p k s) := asked_stores hs
  have hent : ∃ m dc, asked p k s = { s with pool := { s.pool with ports := m, dcache := dc } } ∧
      mget dPort m p = { taking k (getPort s p) with reqs := mput (getPort s p).reqs k r } := by
    unfold asked
    rw [hask]
    exact entered_request hs (taking k (getPort s p)) hc
  obtain ⟨m, dc, ha, hport⟩ := hent
  unfold judged
  rw [hask]
  dsimp only
  generalize asked p k s = a at *
  have hpa : getPort a p = { taking k (getPort s p) with reqs := mput (getPort s p).reqs k r } := by
    rw [ha]
    exact hport
  have hwb : (getPort a p).wb = (getPort s p).wb := by rw [hpa, taking]
  have hfind : (getPort a p).reqs.find? (fun r => r.1 = k) = some (k, r) := by
    rw [hpa]
    exact find?_mput _ k r
  rw [if_neg (by simp), if_neg (by omega), portAdvance_goes hfind hst (by rw [ha]; exact hw) (by simp [ht])]
  have hreach (d : Desc) : portReach p k d { r with st := .taken } a = portTickWrite p k t { r with st := .taken } a := by
    simp [portReach, ht, hwe]
  rw [hreach, portTickWrite_new (by rwa [hwb]) (by rwa [hwb])]
  have hsa : StoresOk (setPort p { getPort a p with wb := (getPort a p).wb ++ [newEntry t k r.pool r.idx r.be r.din] } a) :=
    (Canon.refl a).setPort.stores hstores
  refine ⟨?_, find?_putReq hsa, ?_, ?_⟩
  · rw [getPort_putReq hsa, getPort_setPort_self hstores, hwb]
  · rw [ha]
    rfl
  · rw [ha]
    exact ((OnlyParts.refl.pool (by simp)).setPort (by simp)).setPort (by simp)

end

/-! ### A drain (R313) -/

section
variable {s : State} {p : Nat} {w : WbEntry}

theorem drainDone_runs (hw : oldestEntry (fun e => e.draining.isSome) (getPort s p).wb = some w)
    (hb : drainBehind s (w.draining.getD 0) p w = false) (hm : dModel (descOf s (p / 32) w.pool) = false) :
    drainDone p s = endDrain (w.draining.getD 0) p (portStore p (descOf s (p / 32) w.pool) w.idx w.be w.data w.err
      (setPort p { getPort s p with wb := (getPort s p).wb.erase w } (descTouch (p / 32) w.pool s))) := by
  unfold drainDone
  dsimp only
  rw [hw]
  dsimp only
  rw [hb, if_neg (by simp), if_neg (by simp [hm])]

theorem drainDone_behind (hw : oldestEntry (fun e => e.draining.isSome) (getPort s p).wb = some w)
    (hb : drainBehind s (w.draining.getD 0) p w = true) : drainDone p s = descTouch (p / 32) w.pool s := by
  unfold drainDone
  dsimp only
  rw [hw]
  dsimp only
  rw [hb, if_pos rfl]

end

/-- Settles O39: a request by `judged_free` and `judged_write`, an answer by `answer_read`, `answer_write` and `replied_portOut`, a drain
by `hbmStore_clean`, and the end of a reset by `portResetDone_run`. -/
theorem poolPorts : Obligations.PoolPorts := by
  unfold Obligations.PoolPorts
  refine ⟨?request, ?idle, ?answer, ?tickWrite, ?tickWriteAnswer, ?tickRead, ?drain, ?behind, ?noDrain, ?reset, ?resetDone⟩
  case request =>
    intro s p k hs hr hh hf ht hl hq hz hrs hp ha
    refine gives_of_exec (t := poolPortRequest p k s) rfl ?_
    rw [poolPortRequest_free hh hf ht hl hq hz hrs hp ha]
    intro b d we idx v hc
    obtain ⟨req, hreq, h1, h2, h3, h4⟩ := judged_free hs hr p.isLt (portAsks_free hf) rfl rfl rfl hc
    have hv : portViolation p b d false we = v := portViolation_free b d we
    rw [hv] at h1 h2 h3 h4
    refine ⟨req, hreq, h1, h2, fun e hi hw => ?_, fun e hi hw hm ho => ?_⟩
    · obtain ⟨rfl, hh⟩ := h3 e hi hw
      exact ⟨rfl, rfl, rfl, rfl, hh⟩
    · obtain ⟨rfl, hh⟩ := h4 e hi hw hm ho
      exact ⟨rfl, rfl, rfl, rfl, rfl, rfl, rfl, hh⟩
  case idle =>
    intro s p k h
    exact gives_of_exec (t := poolPortAnswer p k s) rfl (by simp [poolPortAnswer, h])
  case answer =>
    intro s p k r hs hq ht hst he hf hc hv hw
    refine gives_of_exec (t := poolPortAnswer p k s) rfl ?_
    cases hwe : r.we with
    | true =>
      rw [poolPortAnswer_write hq hst hwe, ht]
      simp only [Option.isNone_none, if_true]
      exact answer_write hs hf hc hw he rfl
    | false =>
      rw [poolPortAnswer_read hq hst hwe hf rfl hc hw, ht, mergeBytes_plain hv]
      simp only [Option.isNone_none, Bool.false_eq_true, if_false]
      exact answer_read hs
  case tickWrite =>
    intro s p k hs hh hf hn hw ho hv hq hz hrs hp ha hwe
    refine gives_of_exec (t := poolPortRequest p k s) rfl ?_
    rw [poolPortRequest_tick hh hf hn hw ho hv hq hz hrs hp ha]
    intro b d idx hc hb hbw hk hd hver hown hdep hwait hlen hnew
    have hask := portAsks_tick hf
    have h0 : portViolation p b d true true = 0 := by simp [portViolation, hb, hbw, hk, hd, hver, hown]
    rw [hwe, h0] at hask
    obtain ⟨h1, h2, h3, h4⟩ := judged_write hs hask rfl rfl rfl hc hdep hwait hlen hnew
    exact ⟨h1, by rw [h2]; rfl, h3, h4⟩
  case tickWriteAnswer =>
    intro s p k r tk hs hq ht hst hg hw
    refine gives_of_exec (t := poolPortAnswer p k s) rfl ?_
    rw [poolPortAnswer_write hq hst hw, ht]
    simp only [Option.isNone_some, Bool.false_eq_true, if_false]
    have hp := replied_parts r.gone false (poolTile p k) 0 (emptied p s)
    have hport := (getPort_congr (p := p) (hp .pool (by simp))).trans (getPort_emptied hs)
    exact ⟨by rw [hport], by rw [hport], replied_portOut hs.emptied hg (by simp) 0, replied_hbm,
      (OnlyParts.refl.setPort (by simp)).trans (hp.mono (by simp))⟩
  case tickRead =>
    intro s p k r tk hs hq ht hst hg hw hf hc hv ho he
    refine gives_of_exec (t := poolPortAnswer p k s) rfl ?_
    rw [poolPortAnswer_read hq hst hw hf rfl hc he, ht, portForward_tick hs hv ho]
    have hp := replied_parts r.gone false (poolTile p k) (mergeBytes (forwarded (getPort s p) r.pool r.idx tk).1
      (hbmAt s (poolAddr (descOf s (p / 32) r.pool) r.idx)).data (forwarded (getPort s p) r.pool r.idx tk).2) (emptied p s)
    exact ⟨replied_portOut hs.emptied hg (by simp) _, replied_hbm,
      (OnlyParts.refl.setPort (by simp)).trans (hp.mono (by simp))⟩
  case drain =>
    intro s p w hs hw he hf hb hd hm hc hh
    refine gives_of_exec (t := drainDone p s) rfl ?_
    rw [drainDone_runs hw hb hm]
    obtain ⟨m, ht, -⟩ := descTouch_clean hd
    have hst : StoresOk (setPort p { getPort s p with wb := (getPort s p).wb.erase w } (descTouch (p / 32) w.pool s)) :=
      (Canon.refl s).descTouch.setPort.stores hs
    have hport : getPort (setPort p { getPort s p with wb := (getPort s p).wb.erase w } (descTouch (p / 32) w.pool s)) p =
        { getPort s p with wb := (getPort s p).wb.erase w } := getPort_setPort_self ((Canon.refl s).descTouch.stores hs)
    have hparts : OnlyParts [.pool, .eddies] s
        (setPort p { getPort s p with wb := (getPort s p).wb.erase w } (descTouch (p / 32) w.pool s)) := by
      rw [ht]
      exact (OnlyParts.refl.pool (by simp)).setPort (by simp)
    have hsame : (∀ a,
        hbmAt (setPort p { getPort s p with wb := (getPort s p).wb.erase w } (descTouch (p / 32) w.pool s)) a = hbmAt s a) ∧
        (setPort p { getPort s p with wb := (getPort s p).wb.erase w } (descTouch (p / 32) w.pool s)).pool.fifo = s.pool.fifo := by
      rw [ht]
      exact ⟨fun _ => rfl, rfl⟩
    generalize setPort p { getPort s p with wb := (getPort s p).wb.erase w } (descTouch (p / 32) w.pool s) = u at *
    obtain ⟨hsame, hfifo⟩ := hsame
    rw [portStore_clean (hfifo.trans hf) hc he]
    obtain ⟨m', w', e, hat, hne⟩ := hbmStore_clean hst (wa := poolAddr (descOf s (p / 32) w.pool) w.idx)
      (by rw [hsame]; exact hh) w.be w.data
    rw [e]
    rw [hsame] at hat
    exact ⟨congrArg Port.wb hport, hat, fun a ha => (hne a ha).trans (hsame a), (hparts.pool (by simp)).setEddy (by simp)⟩
  case behind =>
    intro s p w hw hd hb
    refine gives_of_exec (t := drainDone p s) rfl ?_
    rw [drainDone_behind hw hb]
    obtain ⟨m, hm, -⟩ := descTouch_clean hd
    rw [hm]
    exact ⟨rfl, rfl, OnlyParts.refl.pool (by simp)⟩
  case noDrain =>
    intro s p h
    exact gives_of_exec (t := drainDone p s) rfl (by simp [drainDone, h])
  case reset =>
    intro s p ho hp hs
    refine gives_mgmt rfl ho ?_
    rw [viaPath_free hp]
    split
    next h => simp [portReset, h.1, h.2]
    next h =>
      have e : portReset p s = setPort p { getPort s p with
          resetAsked := true, resetting := true, rd := (getPort s p).rd.reset
          wr := { (getPort s p).wr with peerRst := true, msgs := [] } } s := by
        unfold portReset
        rw [if_neg (by simpa using h)]
      rw [e]
      exact ⟨getPort_setPort_self hs, OnlyParts.refl.setPort (by simp)⟩
  case resetDone =>
    intro s p hs
    refine gives_of_exec (t := portResetDone p s) rfl ?_
    split
    next h =>
      unfold portResetDone
      dsimp only
      rw [if_pos (by simpa using h)]
    next h =>
      rw [not_or, Bool.not_eq_false, Bool.not_eq_true] at h
      obtain ⟨t, ⟨hst, ⟨m, b, hp⟩, hparts, hhbm⟩, e⟩ := portResetDone_run hs h.1 h.2
      rw [e, getPort_setPort_self hst, hp]
      exact ⟨rfl, rfl, rfl, rfl, rfl, rfl, rfl, hhbm, hparts.setPort (by simp)⟩

end Sys2Proof.Machine
end
